-- ==== Sys2Proof/Word.lean ====
section
/-! DEFINITION. Words, bytes and sparse tables.

The plain data every other file is written over: the bit vectors the spec names and
the one shape in which sparse state is held (a list of key and value pairs with
strictly rising keys). Operations over these shapes are in `Sys2Proof.Machine.Bits`. -/
namespace Sys2Proof

/-- A byte (R5: multi-byte data is little-endian). -/
abbrev Byte := BitVec 8

/-- A 32-bit register word (R444). -/
abbrev Word := BitVec 32

/-- One 64-byte line, byte 0 in the low bits (R201, R216). -/
abbrev Line := BitVec 512

/-- One vector register: 256 lanes of 32 bits, lane 0 in the low bits (R114, R148). -/
abbrev VecReg := BitVec 8192

/-- A sparse table: key and value pairs, keys strictly rising, no entry equal to the
table's default. -/
abbrev Tab (α : Type) := List (Nat × α)

end Sys2Proof
end

