-- ==== Sys2Proof/Syntax.lean ====
section
/-! DEFINITION. The commands of the Z20: one constructor of `Instr` per row of the
table of operations and events, with the operands the chapter that owns the row gives
it. Field encodings keep the widths of the spec's bit tables (R143 to R153, R292,
R311, R314), reserved bits included, so that a nonzero reserved field can be met. -/
namespace Sys2Proof

/-- Where and when a bundle slot issues: the package cluster (R13) and the issue
position in the frame (R123, R139). -/
structure Issue where
  cl  : Fin 1024
  pos : Nat
deriving DecidableEq, Repr

/-- The two vector units (R110). -/
inductive VUnit where | v0 | v1
deriving DecidableEq, Repr

/-- The seven bundle slots, in the order of R22, and bundle bits [255:252]. -/
inductive SlotId where | m | v0 | v1 | l | s | f | c | top
deriving DecidableEq, Repr

/-- MMA fields (R143). -/
structure MmaOp where
  xg   : BitVec 4
  pred : BitVec 4
  gdim : BitVec 1
  tile : BitVec 2
  fold : BitVec 2
  fmt  : BitVec 4
  sa   : BitVec 5
  step : BitVec 9
deriving DecidableEq, Repr

/-- MZERO, MDRAIN and MFILL fields; `rsv` is [13:9] and `rsvHi` [35:26] (R143). -/
structure TileOp where
  xg     : BitVec 4
  rsv    : BitVec 5
  tile   : BitVec 2
  rowgrp : BitVec 4
  vreg   : BitVec 6
  rsvHi  : BitVec 10
deriving DecidableEq, Repr

/-- V slot fields (R147). -/
structure VOp where
  xg   : BitVec 4
  pred : BitVec 4
  vd   : BitVec 6
  va   : BitVec 6
  vb   : BitVec 6
  vc   : BitVec 6
  fmt  : BitVec 3
  rm   : BitVec 2
deriving DecidableEq, Repr

/-- L slot fields (R149). -/
structure LOp where
  xg    : BitVec 4
  bank  : BitVec 5
  col   : BitVec 4
  ap    : BitVec 1
  aen   : BitVec 1
  abank : BitVec 5
  ars   : BitVec 5
  sr    : BitVec 5
  imm   : BitVec 5
deriving DecidableEq, Repr

/-- S slot fields (R151). -/
structure SOp where
  xg  : BitVec 4
  reg : BitVec 6
  sa  : BitVec 5
  imm : BitVec 12
deriving DecidableEq, Repr

/-- F slot fields (R152). -/
structure FOp where
  xg   : BitVec 4
  port : BitVec 5
  lane : BitVec 3
  sel  : BitVec 5
  sa   : BitVec 5
  off  : BitVec 5
deriving DecidableEq, Repr

/-- Width of a window access (R444). -/
inductive AccSize where | b4 | b8 | b64
deriving DecidableEq, Repr

/-- Who makes a host request (R213, R223, R382, R428). -/
inductive Requester where
  | core | dma | openPort | loose | loader | importEngine | sec
deriving DecidableEq, Repr

/-- A host access to DRAM (R203, R213, R214): up to 64 bytes of one line. -/
structure HostReq where
  who    : Requester
  addr   : BitVec 48
  write  : Bool
  len    : BitVec 7
  data   : BitVec 512
  poison : Bool
  tag    : Nat
deriving DecidableEq, Repr

/-- State of a received frame's FCS (R294). -/
inductive Fcs where | good | bad | stomp
deriving DecidableEq, Repr

/-- What a port receives up to the end of one frame: the bytes since the frame before, fill included, through the FCS
(R290, R291); the tick-clock period after the latest tick in which the frame's first bit arrives; the codewords that
the FEC corrected, and could not correct, of those that it touches; and the uncorrectable marker codewords since the
frame before (R289). -/
structure RxFrame where
  bytes   : List Byte
  start   : Nat
  corr    : Nat
  uncorr  : Nat
  markers : Nat
deriving DecidableEq, Repr

/-- A command frame: its 22-byte header (R314) and its body. -/
structure CmdFrame where
  hdr  : BitVec 176
  body : BitVec 512
deriving DecidableEq, Repr

/-- A loose request or completion: its 22-byte header (R311) and its payload. -/
structure LooseReq where
  hdr     : BitVec 176
  payload : BitVec 512
deriving DecidableEq, Repr

/-- A unit of a port's frame: a data slot, a loose slot or the retry allowance (R258, R259). -/
inductive PortUnit where
  | data (k : BitVec 11)
  | loose (j : BitVec 8)
  | allowance
deriving DecidableEq, Repr

/-- A unit of a port, about to carry a frame (R316). -/
structure UnitStart where
  port : Fin 48
  unit : PortUnit
deriving DecidableEq, Repr

/-- A HELLO: the port address that it comes from, and its body (R291, R296). -/
structure HelloFrame where
  src  : BitVec 48
  body : BitVec 112
deriving DecidableEq, Repr

/-- What is measured of an ECHO: its round trip in ps, and whether the partner's measurements agree (R297). -/
structure EchoSeen where
  tripPs : Nat
  agree  : Bool
deriving DecidableEq, Repr

/-- A port that loses its lock, and the uncorrectable marker codewords that showed it (R289, R295). -/
structure LockLoss where
  port    : Fin 48
  markers : Nat
deriving DecidableEq, Repr

/-- The messages of a key update that come in on a port: codes 4 and 5 (R377). -/
structure KeyUpdateMsgs where
  port   : Fin 48
  secret : List (BitVec 8)
  finish : List (BitVec 8)
deriving DecidableEq, Repr

/-- Causes of a port going down (R303). -/
inductive DownCause where
  | timeout | phyLock | partner | version | tooLong | auth | protocol | trainTimeout | forced
deriving DecidableEq, Repr

/-- An open interface: interface i of a port, or the management interface (R329, R337). -/
inductive OpenIf where
  | port (p : Fin 48) (i : Fin 4)
  | mgt
deriving DecidableEq, Repr

/-- A block of receive and transmit queues: OPN instance 16 of an edge die, or MGT (R460). -/
inductive OpenBlk where
  | edge (e : Fin 3)
  | mgt
deriving DecidableEq, Repr

/-- A page with an IF_CFG register (R341). -/
inductive OpenPort where
  | port (p : Fin 48)
  | mgt
deriving DecidableEq, Repr

/-- An Ethernet frame at an open interface, from its destination address on and without its FCS, which was good;
`tp` is the instant of the timestamp point in tick-clock periods after the latest tick. -/
structure EthFrame where
  bytes : List Byte
  tp    : Nat
deriving DecidableEq, Repr

/-- A management command datagram (R388); `tagOk` is the GMAC check. -/
structure MgmtDatagram where
  port    : BitVec 16
  secs    : BitVec 64
  counter : BitVec 64
  cmd     : CmdFrame
  tag     : BitVec 128
deriving DecidableEq, Repr

/-- A sealed host-session message (R371): its counter, its plaintext after opening and
its GCM tag. -/
structure SealedMsg where
  counter : BitVec 64
  body    : List Byte
  tag     : BitVec 128
deriving DecidableEq, Repr

/-- An owner command request (R385). -/
structure OwnerReq where
  rsv       : BitVec 32
  nonce     : BitVec 256
  arg       : List Byte
  device    : BitVec 512
  modulus   : List Byte
  signature : List Byte
deriving DecidableEq, Repr

/-- A register page, named as PAGE_ID names it (R442, R443). -/
structure PageId where
  die  : Fin 20
  type : BitVec 16
  inst : BitVec 8
deriving DecidableEq, Repr

/-- A count of events of one block in one tick period (R392, R393): the block's page, the partition the events are
attributed to (none: base), the class and the count. -/
structure EnergyEvents where
  page  : PageId
  part  : Option (Fin 16)
  cls   : BitVec 6
  count : Nat
deriving DecidableEq, Repr

/-- The energy that the monitors of one rail group measured over a window, in fJ (R394). -/
structure GroupMeas where
  group    : Fin 39
  measured : Nat
deriving DecidableEq, Repr

/-- A block with power states (R403). -/
inductive PowerBlk where
  | unitM (c : Fin 1024) | unitV0 (c : Fin 1024) | unitV1 (c : Fin 1024)
  | planer (c : Fin 1024) | cluster (c : Fin 1024) | region (r : Fin 64) | die (d : Fin 16)
deriving DecidableEq, Repr

/-- The compare registers of a core's timer (R414). -/
inductive TimerCmp where | mtimecmp | stimecmp | vstimecmp
deriving DecidableEq, Repr

/-- A compare register, and what the core writes to it, if it writes (R414). -/
structure TimerWrite where
  cmp   : TimerCmp
  value : Option (BitVec 64)
deriving DecidableEq, Repr

/-- The end of a context's bundle stream: its yield section (R373). -/
structure ImportTail where
  ctx   : Fin 256
  yield : List (BitVec 8)
deriving DecidableEq, Repr

/-- A stretched domain, and the tick-clock period after the tick in which an echo reaches it (R98). -/
structure EchoAt where
  dom : Fin 67
  tp  : Nat
deriving DecidableEq, Repr

/-- One XCAL outcome of a calibration (R103, R104): the record, the measured arrival
and whether the stored seed was accepted. -/
structure XcalResult where
  die     : Fin 20
  rcd     : Fin 16
  arrival : BitVec 6
  seeded  : Bool
deriving DecidableEq, Repr

/-- What the hardware finds while booting (R419): which C-dies pass their self-test,
the crossings' calibration, and the calibrated body biases. -/
structure BootOutcome where
  selftest : BitVec 16
  xcal     : List XcalResult
deriving DecidableEq, Repr

/-- A regulator's answer to STATUS_WORD; none: not acknowledged (R487). -/
structure VrReply where
  dev    : Fin 16
  status : Option (BitVec 16)
deriving DecidableEq, Repr

/-- One die's temperatures, in 0.125 °C units (R450). -/
structure TempReading where
  die   : Fin 20
  junc  : BitVec 12
  stack : BitVec 12
deriving DecidableEq, Repr


/-- The commands, in the table's order (RESERVED_OPCODE beside the slots' operations). Each docstring names the mnemonic and the rule
that governs the step. -/
inductive Instr where
  /-- FRAME_TICK (R69). -/
  | frameTick
  /-- DECISION_POINT (R72). -/
  | decisionPoint
  /-- STALL (R78). -/
  | stall (p : Fin 16)
  /-- FRAME_CFG_WRITE (R66). -/
  | frameCfgWrite (v : BitVec 32)
  /-- WALL_CMD_LOAD (R82). -/
  | wallCmdLoad (v : BitVec 32)
  /-- DISC_CTRL_STEP (R85). -/
  | discCtrlStep (v : BitVec 32)
  /-- START_CTRL_ARM (R86). -/
  | startCtrlArm (v : BitVec 32)
  /-- TIME_CAPTURE (R87). -/
  | timeCapture (capt : Bool) (pps : Bool) (tp : Nat)
  /-- CAPT_POP (R88). -/
  | captPop (v : BitVec 32)
  /-- PPS_OUT_PULSE (R480). -/
  | ppsOutPulse (tp : Nat)
  /-- REF_INPUT_INVALID (R92). -/
  | refInputInvalid (b : Bool)
  /-- REF_INPUT_VALID (R92). -/
  | refInputValid (b : Bool)
  /-- REF_REVERT (R93). -/
  | refRevert
  /-- HOLDOVER_EXPIRED (R94). -/
  | holdoverExpired
  /-- REF_SEL_WRITE (R96). -/
  | refSelWrite (v : BitVec 32)
  /-- PLL_START (R95). -/
  | pllStart
  /-- DROOP_STRETCH (R97). -/
  | droopStretch (dom : Fin 67) (mv : Nat) (periods : Nat) (second : Bool) (tp : Nat)
  /-- STRETCH_ECHO (R98). -/
  | stretchEcho (x : EchoAt)
  /-- BENT_END (R124). -/
  | bentEnd (i : Issue)
  /-- ROTATION_ENTRY_END (R453). -/
  | rotationEntryEnd (p : Fin 16)
  /-- MNOP (R154). -/
  | mnop (i : Issue)
  /-- MMA (R146). -/
  | mma (i : Issue) (o : MmaOp)
  /-- MZERO (R146). -/
  | mzero (i : Issue) (o : TileOp)
  /-- MDRAIN (R136). -/
  | mdrain (i : Issue) (o : TileOp)
  /-- MFILL (R136). -/
  | mfill (i : Issue) (o : TileOp)
  /-- VNOP (R154). -/
  | vnop (i : Issue) (u : VUnit)
  /-- VADD (R174). -/
  | vadd (i : Issue) (u : VUnit) (o : VOp)
  /-- VSUB (R174). -/
  | vsub (i : Issue) (u : VUnit) (o : VOp)
  /-- VMUL (R174). -/
  | vmul (i : Issue) (u : VUnit) (o : VOp)
  /-- VFMA (R174). -/
  | vfma (i : Issue) (u : VUnit) (o : VOp)
  /-- VFMS (R174). -/
  | vfms (i : Issue) (u : VUnit) (o : VOp)
  /-- VMAX (R178). -/
  | vmax (i : Issue) (u : VUnit) (o : VOp)
  /-- VMIN (R178). -/
  | vmin (i : Issue) (u : VUnit) (o : VOp)
  /-- VABS (R177). -/
  | vabs (i : Issue) (u : VUnit) (o : VOp)
  /-- VNEG (R177). -/
  | vneg (i : Issue) (u : VUnit) (o : VOp)
  /-- VCMPEQ (R179). -/
  | vcmpeq (i : Issue) (u : VUnit) (o : VOp)
  /-- VCMPLT (R179). -/
  | vcmplt (i : Issue) (u : VUnit) (o : VOp)
  /-- VCMPLE (R179). -/
  | vcmple (i : Issue) (u : VUnit) (o : VOp)
  /-- VCLASS (R179). -/
  | vclass (i : Issue) (u : VUnit) (o : VOp)
  /-- VSEL (R493). -/
  | vsel (i : Issue) (u : VUnit) (o : VOp)
  /-- VAND (R154). -/
  | vand (i : Issue) (u : VUnit) (o : VOp)
  /-- VOR (R154). -/
  | vor (i : Issue) (u : VUnit) (o : VOp)
  /-- VXOR (R154). -/
  | vxor (i : Issue) (u : VUnit) (o : VOp)
  /-- VSHL (R180). -/
  | vshl (i : Issue) (u : VUnit) (o : VOp)
  /-- VSHR (R180). -/
  | vshr (i : Issue) (u : VUnit) (o : VOp)
  /-- VSRA (R180). -/
  | vsra (i : Issue) (u : VUnit) (o : VOp)
  /-- VCVT (R182). -/
  | vcvt (i : Issue) (u : VUnit) (o : VOp)
  /-- VPACK (R184). -/
  | vpack (i : Issue) (u : VUnit) (o : VOp)
  /-- VUNPK (R185). -/
  | vunpk (i : Issue) (u : VUnit) (o : VOp)
  /-- VRCP (R195). -/
  | vrcp (i : Issue) (u : VUnit) (o : VOp)
  /-- VRSQ (R195). -/
  | vrsq (i : Issue) (u : VUnit) (o : VOp)
  /-- VSQRT (R195). -/
  | vsqrt (i : Issue) (u : VUnit) (o : VOp)
  /-- VDIV (R195). -/
  | vdiv (i : Issue) (u : VUnit) (o : VOp)
  /-- VEXP (R195). -/
  | vexp (i : Issue) (u : VUnit) (o : VOp)
  /-- VLOG (R195). -/
  | vlog (i : Issue) (u : VUnit) (o : VOp)
  /-- VSIN (R195). -/
  | vsin (i : Issue) (u : VUnit) (o : VOp)
  /-- VCOS (R195). -/
  | vcos (i : Issue) (u : VUnit) (o : VOp)
  /-- VTANH (R195). -/
  | vtanh (i : Issue) (u : VUnit) (o : VOp)
  /-- VERF (R195). -/
  | verf (i : Issue) (u : VUnit) (o : VOp)
  /-- VRSUM (R191). -/
  | vrsum (i : Issue) (u : VUnit) (o : VOp)
  /-- VRMAX (R191). -/
  | vrmax (i : Issue) (u : VUnit) (o : VOp)
  /-- VRMIN (R191). -/
  | vrmin (i : Issue) (u : VUnit) (o : VOp)
  /-- VARGMX (R192). -/
  | vargmx (i : Issue) (u : VUnit) (o : VOp)
  /-- VSCAN (R193). -/
  | vscan (i : Issue) (u : VUnit) (o : VOp)
  /-- VPERM (R493). -/
  | vperm (i : Issue) (u : VUnit) (o : VOp)
  /-- VROT (R493). -/
  | vrot (i : Issue) (u : VUnit) (o : VOp)
  /-- VBCAST (R181). -/
  | vbcast (i : Issue) (u : VUnit) (o : VOp)
  /-- VIOTA (R493). -/
  | viota (i : Issue) (u : VUnit) (o : VOp)
  /-- VMOV (R154). -/
  | vmov (i : Issue) (u : VUnit) (o : VOp)
  /-- VEXT (R154). -/
  | vext (i : Issue) (u : VUnit) (o : VOp)
  /-- VINS (R154). -/
  | vins (i : Issue) (u : VUnit) (o : VOp)
  /-- VRNG (R253). -/
  | vrng (i : Issue) (u : VUnit) (o : VOp)
  /-- SCALAR_VADD (R154). -/
  | scalarVadd (i : Issue) (u : VUnit) (o : VOp)
  /-- SCALAR_VSUB (R154). -/
  | scalarVsub (i : Issue) (u : VUnit) (o : VOp)
  /-- SCALAR_VMUL (R154). -/
  | scalarVmul (i : Issue) (u : VUnit) (o : VOp)
  /-- SCALAR_VFMA (R154). -/
  | scalarVfma (i : Issue) (u : VUnit) (o : VOp)
  /-- SCALAR_VFMS (R154). -/
  | scalarVfms (i : Issue) (u : VUnit) (o : VOp)
  /-- SCALAR_VMAX (R154). -/
  | scalarVmax (i : Issue) (u : VUnit) (o : VOp)
  /-- SCALAR_VMIN (R154). -/
  | scalarVmin (i : Issue) (u : VUnit) (o : VOp)
  /-- LNOP (R154). -/
  | lnop (i : Issue)
  /-- VACT (R150). -/
  | vact (i : Issue) (o : LOp)
  /-- VRD (R210). -/
  | vrd (i : Issue) (o : LOp)
  /-- VWR (R210). -/
  | vwr (i : Issue) (o : LOp)
  /-- VRDP (R224). -/
  | vrdp (i : Issue) (o : LOp)
  /-- BENTLD (R121). -/
  | bentld (i : Issue) (o : LOp)
  /-- VPRE (R150). -/
  | vpre (i : Issue) (o : LOp)
  /-- SNOP (R154). -/
  | snop (i : Issue)
  /-- SMOVL (R151). -/
  | smovl (i : Issue) (o : SOp)
  /-- SMOVS (R151). -/
  | smovs (i : Issue) (o : SOp)
  /-- SWB (R151). -/
  | swb (i : Issue) (o : SOp)
  /-- SLD (R151). -/
  | sld (i : Issue) (o : SOp)
  /-- SST (R151). -/
  | sst (i : Issue) (o : SOp)
  /-- XLD (R127). -/
  | xld (i : Issue) (o : SOp)
  /-- FNOP (R154). -/
  | fnop (i : Issue)
  /-- FSEND (R155). -/
  | fsend (i : Issue) (o : FOp)
  /-- FRECV (R155). -/
  | frecv (i : Issue) (o : FOp)
  /-- FFWD (R155). -/
  | ffwd (i : Issue) (o : FOp)
  /-- CNOP (R154). -/
  | cnop (i : Issue)
  /-- SLI (R154). -/
  | sli (i : Issue) (sd : BitVec 5) (imm : BitVec 13)
  /-- SLIS (R154). -/
  | slis (i : Issue) (sd : BitVec 5) (imm : BitVec 13)
  /-- SADDI (R154). -/
  | saddi (i : Issue) (sd : BitVec 5) (imm : BitVec 13)
  /-- SADD (R154). -/
  | sadd (i : Issue) (sd : BitVec 5) (sa : BitVec 5) (sb : BitVec 5)
  /-- SSUB (R154). -/
  | ssub (i : Issue) (sd : BitVec 5) (sa : BitVec 5) (sb : BitVec 5)
  /-- SAND (R154). -/
  | sand (i : Issue) (sd : BitVec 5) (sa : BitVec 5) (sb : BitVec 5)
  /-- SOR (R154). -/
  | sor (i : Issue) (sd : BitVec 5) (sa : BitVec 5) (sb : BitVec 5)
  /-- SXOR (R154). -/
  | sxor (i : Issue) (sd : BitVec 5) (sa : BitVec 5) (sb : BitVec 5)
  /-- SSHL (R154). -/
  | sshl (i : Issue) (sd : BitVec 5) (sa : BitVec 5) (sb : BitVec 5)
  /-- SSHR (R154). -/
  | sshr (i : Issue) (sd : BitVec 5) (sa : BitVec 5) (sb : BitVec 5)
  /-- SSRA (R154). -/
  | ssra (i : Issue) (sd : BitVec 5) (sa : BitVec 5) (sb : BitVec 5)
  /-- SMUL (R154). -/
  | smul (i : Issue) (sd : BitVec 5) (sa : BitVec 5) (sb : BitVec 5)
  /-- LSET (R123). -/
  | lset (i : Issue) (lc : BitVec 1) (imm : BitVec 16)
  /-- LOOPB (R123). -/
  | loopb (i : Issue) (lc : BitVec 1) (target : BitVec 13)
  /-- BSEAL (R121). -/
  | bseal (i : Issue) (sa : BitVec 5)
  /-- BNEXT (R122). -/
  | bnext (i : Issue) (sa : BitVec 5)
  /-- XSET (R127). -/
  | xset (i : Issue) (x : BitVec 3) (shift : BitVec 4) (xpos : BitVec 11)
  /-- XADV (R127). -/
  | xadv (i : Issue) (x : BitVec 3) (imm : BitVec 16)
  /-- XMOV (R127). -/
  | xmov (i : Issue) (x : BitVec 3) (sa : BitVec 5)
  /-- GADD (R131). -/
  | gadd (i : Issue) (g : BitVec 4) (imm : BitVec 16)
  /-- GSUB (R131). -/
  | gsub (i : Issue) (g : BitVec 4)
  /-- GRD (R131). -/
  | grd (i : Issue) (g : BitVec 4) (sd : BitVec 5)
  /-- GCMPS (R133). -/
  | gcmps (i : Issue) (g : BitVec 4) (sa : BitVec 5)
  /-- GCMP (R133). -/
  | gcmp (i : Issue) (g : BitVec 4) (imm : BitVec 16)
  /-- GTEST (R133). -/
  | gtest (i : Issue) (g : BitVec 4) (pd : BitVec 4)
  /-- TMARK (R474). -/
  | tmark (i : Issue) (imm : BitVec 18)
  /-- RESERVED_OPCODE (R142). -/
  | reservedOpcode (i : Issue) (slot : SlotId) (w : BitVec 44)
  /-- TRACE_RECORD (R474). -/
  | traceRecord
  /-- REFRESH (R209). -/
  | refresh (v : Fin 1024)
  /-- SCRUB (R220). -/
  | scrub (v : Fin 1024)
  /-- HOST_ACCESS (R213). -/
  | hostAccess (r : HostReq)
  /-- HOST_ENGINE_GUARD (R213). -/
  | hostEngineGuard (v : Fin 1024) (periods : Nat) (hostOpen : Bool)
  /-- CTX_ROWS_WRITE (R206). -/
  | ctxRowsWrite (v : Fin 1024) (c : Fin 256) (w : BitVec 32)
  /-- CARVE_WRITE (R206). -/
  | carveWrite (v : Fin 1024) (w : BitVec 32)
  /-- IMAP_WRITE (R206). -/
  | imapWrite (d : Fin 16) (w : BitVec 32)
  /-- RETIRE (R221). -/
  | retire (v : Fin 1024) (w : BitVec 32)
  /-- INIT_CTRL_START (R218). -/
  | initCtrlStart (v : Fin 1024) (w : BitVec 32)
  /-- INIT_COMPLETE (R218). -/
  | initComplete (v : Fin 1024)
  /-- ERR_LOG_READ (R223). -/
  | errLogRead (v : Fin 1024)
  /-- CE_LAST_READ (R223). -/
  | ceLastRead (v : Fin 1024)
  /-- VCOLL_LAST_READ (R223). -/
  | vcollLastRead (v : Fin 1024)
  /-- DERR_LAST_READ (R235). -/
  | derrLastRead (c : Fin 1024)
  /-- COLL_LAST_READ (R138). -/
  | collLastRead (c : Fin 1024)
  /-- BIND (R245). -/
  | bind (d : Fin 16) (w : BitVec 32)
  /-- UPDATE (R245). -/
  | update (d : Fin 16) (w : BitVec 32)
  /-- RELEASE (R245). -/
  | release (d : Fin 16) (w : BitVec 32)
  /-- BUCKET_COMMIT (R252). -/
  | bucketCommit (d : Fin 16) (w : BitVec 32)
  /-- COMMIT_COMPLETE (R247). -/
  | commitComplete (v : Fin 1024)
  /-- ENTRY_WINDOW_WRITE (R237). -/
  | entryWindowWrite (d : Fin 16) (off : BitVec 22) (size : AccSize) (data : BitVec 512)
  /-- LEASHED_SEND (R271). -/
  | leashedSend (p : Fin 48) (short : Bool) (slot : BitVec 11)
  /-- DEFERRED_SEND (R271). -/
  | deferredSend (p : Fin 48)
  /-- LATE_PACKET_SEND (R261). -/
  | latePacketSend (u : UnitStart)
  /-- LANE_TAKE (R268). -/
  | laneTake (e : Fin 3) (pos : BitVec 14) (ent : BitVec 64)
  /-- LANE_DRIVE (R268). -/
  | laneDrive (e : Fin 3) (pos : BitVec 14) (ent : BitVec 64)
  /-- SEQ_FRAME_RX (R298). -/
  | seqFrameRx (p : Fin 48) (f : RxFrame)
  /-- COMBINE_STEP (R276). -/
  | combineStep (e : Fin 3) (c : Fin 256) (g : BitVec 11) (due : BitVec 32)
  /-- SET_CHECK (R263). -/
  | setCheck (e : Fin 3) (k : Fin 4)
  /-- SET_RELEASE (R285). -/
  | setRelease (e : Fin 3) (k : Fin 4)
  /-- SET_CFG_WRITE (R285). -/
  | setCfgWrite (e : Fin 3) (k : Fin 4) (w : BitVec 32)
  /-- RING_CFG_WRITE (R286). -/
  | ringCfgWrite (e : Fin 3) (w : BitVec 32)
  /-- STAGE_CFG_WRITE (R286). -/
  | stageCfgWrite (e : Fin 3) (w : BitVec 32)
  /-- SCOLL_LAST_READ (R285). -/
  | scollLastRead (e : Fin 3)
  /-- OVW_LAST_READ (R286). -/
  | ovwLastRead (e : Fin 3)
  /-- LINK_DOWN (R304). -/
  | linkDown (p : Fin 48) (cause : DownCause)
  /-- BRACE (R282). -/
  | brace (f : CmdFrame)
  /-- PORT_ENABLE (R295). -/
  | portEnable (p : Fin 48) (w : BitVec 32)
  /-- PORT_DISABLE (R295). -/
  | portDisable (p : Fin 48) (w : BitVec 32)
  /-- FORCE_DOWN (R295). -/
  | forceDown (p : Fin 48) (w : BitVec 32)
  /-- KIND_WRITE (R287). -/
  | kindWrite (p : Fin 48) (w : BitVec 32)
  /-- PHY_ALIGNED (R295). -/
  | phyAligned (p : Fin 48)
  /-- HELLO_SEND (R295). -/
  | helloSend (p : Fin 48)
  /-- HELLO (R296). -/
  | hello (p : Fin 48) (f : HelloFrame)
  /-- PROBE (R295). -/
  | probe (p : Fin 48) (b : BitVec 112) (hold : BitVec 32)
  /-- ECHO (R297). -/
  | echo (p : Fin 48) (b : BitVec 112) (m : EchoSeen)
  /-- READY_SEND (R295). -/
  | readySend (p : Fin 48)
  /-- READY (R295). -/
  | ready (p : Fin 48)
  /-- DOWN (R303). -/
  | down (p : Fin 48) (b : BitVec 112)
  /-- TRAIN_TIMEOUT (R295). -/
  | trainTimeout (p : Fin 48)
  /-- PHY_LOCK_LOSS (R295). -/
  | phyLockLoss (x : LockLoss)
  /-- RETRAIN (R295). -/
  | retrain (p : Fin 48)
  /-- NAK_RX (R301). -/
  | nakRx (p : Fin 48) (ack : BitVec 16)
  /-- REPLAY (R301). -/
  | replay (p : Fin 48)
  /-- REPLAY_TIMEOUT (R301). -/
  | replayTimeout (p : Fin 48)
  /-- ACK_TIMER (R299). -/
  | ackTimer (p : Fin 48)
  /-- ACK_RX (R300). -/
  | ackRx (p : Fin 48) (ack : BitVec 16)
  /-- CREDIT_RX (R302). -/
  | creditRx (p : Fin 48) (vc : BitVec 2) (count : BitVec 5)
  /-- LINK_REKEY (R377). -/
  | linkRekey (p : Fin 48)
  /-- KEY_UPDATE (R308). -/
  | keyUpdate (m : KeyUpdateMsgs)
  /-- KEY_CERTS (R376). -/
  | keyCerts (p : Fin 48) (m : List (BitVec 8))
  /-- KEY_SECRET (R376). -/
  | keySecret (p : Fin 48) (m : List (BitVec 8))
  /-- KEY_FINISH (R378). -/
  | keyFinish (p : Fin 48) (m : List (BitVec 8))
  /-- KEY_RESEND (R376). -/
  | keyResend (p : Fin 48)
  /-- AUTH_HOLDOFF_END (R378). -/
  | authHoldoffEnd (p : Fin 48)
  /-- LOOSE_FORWARD (R318). -/
  | looseForward (e : Fin 3) (units : List UnitStart)
  /-- LOOSE_ORIGINATE (R323). -/
  | looseOriginate (q : Fin 16)
  /-- MSG (R312). -/
  | msg (r : LooseReq)
  /-- RD (R312). -/
  | rd (r : LooseReq)
  /-- WR (R312). -/
  | wr (r : LooseReq)
  /-- CPL (R325). -/
  | cpl (r : LooseReq)
  /-- CLOSE (R324). -/
  | close (r : LooseReq)
  /-- REORDER_TIMEOUT (R323). -/
  | reorderTimeout (src : BitVec 16) (stream : BitVec 4)
  /-- REQ_TIMEOUT (R325). -/
  | reqTimeout (tag : BitVec 16)
  /-- SEND_CONTEXT_IDLE (R324). -/
  | sendContextIdle (dst : BitVec 16) (stream : BitVec 4)
  /-- SEND_CONTEXT_FREE (R324). -/
  | sendContextFree (dst : BitVec 16) (stream : BitVec 4)
  /-- CLOSED_CONTEXT_FREE (R324). -/
  | closedContextFree (src : BitVec 16) (stream : BitVec 4)
  /-- RX_IDLE (R324). -/
  | rxIdle (src : BitVec 16) (stream : BitVec 4)
  /-- COMMAND_RX (R315). -/
  | commandRx (p : Option (Fin 48)) (f : CmdFrame)
  /-- CMD_RETRY (R315). -/
  | cmdRetry (seq : BitVec 32)
  /-- CACK (R315). -/
  | cack (f : CmdFrame)
  /-- ROUTE_HI_WRITE (R322). -/
  | routeHiWrite (e : Fin 3) (w : BitVec 32)
  /-- PORT_DIM_WRITE (R322). -/
  | portDimWrite (e : Fin 3) (k : Fin 16) (w : BitVec 32)
  /-- DEFLECT_MASK_WRITE (R322). -/
  | deflectMaskWrite (e : Fin 3) (hi : Bool) (w : BitVec 32)
  /-- PAUSE (R322). -/
  | pause (e : Fin 3) (w : BitVec 32)
  /-- DRAINED (R322). -/
  | drained (e : Fin 3)
  /-- OPEN_FRAME_RX (R333). -/
  | openFrameRx (i : OpenIf) (f : EthFrame)
  /-- OPEN_RX_DELIVER (R334). -/
  | openRxDeliver (b : OpenBlk) (q : BitVec 6)
  /-- OPEN_TX (R335). -/
  | openTx (b : OpenBlk) (q : BitVec 6) (tp : Nat)
  /-- IF_CFG_WRITE (R341). -/
  | ifCfgWrite (b : OpenPort) (w : BitVec 32)
  /-- STEER_HI_WRITE (R461). -/
  | steerHiWrite (b : OpenBlk) (w : BitVec 32)
  /-- OPEN_IF_DOWN (R329). -/
  | openIfDown (i : OpenIf)
  /-- MGMT_COMMAND (R338). -/
  | mgmtCommand (d : MgmtDatagram)
  /-- RCMD_ARM (R346). -/
  | rcmdArm (c : Fin 256) (raiseId : BitVec 16)
  /-- ARM_REPLAY (R361). -/
  | armReplay (c : Fin 256) (raiseId : BitVec 16)
  /-- RCMD_START (R346). -/
  | rcmdStart (c : Fin 256)
  /-- RCMD_PREPARE (R349). -/
  | rcmdPrepare (c : Fin 256)
  /-- RCMD_RE_RAISE (R355). -/
  | rcmdReRaise (c : Fin 256)
  /-- RCMD_STOP (R353). -/
  | rcmdStop (c : Fin 256)
  /-- RCMD_HOLD (R353). -/
  | rcmdHold (c : Fin 256)
  /-- RCMD_RESUME (R353). -/
  | rcmdResume (c : Fin 256)
  /-- RCMD_DISCARD (R346). -/
  | rcmdDiscard (c : Fin 256)
  /-- PREPARE (R349). -/
  | prepare (f : CmdFrame)
  /-- RE_RAISE (R355). -/
  | reRaise (f : CmdFrame)
  /-- PREPARE_ACK (R349). -/
  | prepareAck (f : CmdFrame)
  /-- PREP_TIMEOUT (R349). -/
  | prepTimeout (c : Fin 256)
  /-- COMMIT (R350). -/
  | commit (f : CmdFrame)
  /-- ABORT (R349). -/
  | abort (f : CmdFrame)
  /-- NO_COMMIT (R350). -/
  | noCommit (c : Fin 256)
  /-- RAISING_START (R351). -/
  | raisingStart (c : Fin 256)
  /-- STOP (R353). -/
  | stop (f : CmdFrame)
  /-- HOLD (R353). -/
  | hold (f : CmdFrame)
  /-- RESUME (R353). -/
  | resume (f : CmdFrame)
  /-- STOP_EFFECT (R353). -/
  | stopEffect (c : Fin 256)
  /-- HOLD_EFFECT (R353). -/
  | holdEffect (c : Fin 256)
  /-- RESUME_TICK (R353). -/
  | resumeTick (c : Fin 256)
  /-- PREDECESSOR_STOP (R355). -/
  | predecessorStop (c : Fin 256)
  /-- FAULT_REPORT (R348). -/
  | faultReport (f : CmdFrame)
  /-- NODE_ID_WRITE (R342). -/
  | nodeIdWrite (w : BitVec 32)
  /-- TRL_CFG_WRITE (R363). -/
  | trlCfgWrite (w : BitVec 32)
  /-- CERT_CHAIN (R368). -/
  | certChain
  /-- CTX_CREATE (R379). -/
  | ctxCreate (c : Fin 256) (part : BitVec 4) (conf : Bool)
  /-- CTX_DESTROY (R379). -/
  | ctxDestroy (c : Fin 256)
  /-- CTX_CERT (R368). -/
  | ctxCert (c : Fin 256) (nonce : BitVec 256)
  /-- SESSION_OPEN (R371). -/
  | sessionOpen (c : Fin 256) (nt : BitVec 256) (modulus : List (BitVec 8))
  /-- SESSION_FINISH (R371). -/
  | sessionFinish (c : Fin 256) (m : List (BitVec 8))
  /-- IO_KEYS (R372). -/
  | ioKeys (c : Fin 256) (m : SealedMsg)
  /-- ACCESS (R382). -/
  | access (c : Fin 256) (m : SealedMsg)
  /-- HOST_SESSION_CLOSE (R372). -/
  | hostSessionClose (c : Fin 256) (m : SealedMsg)
  /-- IMPORT_BEGIN (R374). -/
  | importBegin (c : Fin 256) (hdr : List (BitVec 8)) (set : List (BitVec 8))
  /-- IMPORT_CHUNKS (R374). -/
  | importChunks (c : Fin 256) (addr : BitVec 48) (count : Nat)
  /-- IMPORT_END (R374). -/
  | importEnd (x : ImportTail)
  /-- OWNER_ENROL (R386). -/
  | ownerEnrol (r : OwnerReq)
  /-- OWNER_TRANSFER (R386). -/
  | ownerTransfer (r : OwnerReq)
  /-- ROLLBACK (R386). -/
  | rollback (r : OwnerReq)
  /-- IDENTITY_DESTROY (R386). -/
  | identityDestroy (r : OwnerReq)
  /-- SEAL_ARM (R386). -/
  | sealArm (r : OwnerReq)
  /-- SEAL_DISARM (R386). -/
  | sealDisarm (r : OwnerReq)
  /-- SEAL_CLEAR (R386). -/
  | sealClear (r : OwnerReq)
  /-- MGMT_KEY (R386). -/
  | mgmtKey (r : OwnerReq)
  /-- FABRIC_ANCHOR (R386). -/
  | fabricAnchor (r : OwnerReq)
  /-- NONCE_RENEWAL (R385). -/
  | nonceRenewal
  /-- SEAL_BREAK (R387). -/
  | sealBreak (ns : Nat)
  /-- PRESENCE_ASSERTED (R386). -/
  | presenceAsserted (ms : Nat)
  /-- PRESENCE_ABORT (R386). -/
  | presenceAbort
  /-- ALIAS_REISSUE (R390). -/
  | aliasReissue
  /-- DEBUG_ATTACH (R384). -/
  | debugAttach
  /-- LEDGER_UPDATE (R392), with the counts that no block of the model keeps (log 66). -/
  | ledgerUpdate (events : List EnergyEvents)
  /-- CORRECTION_UPDATE (R394). -/
  | correctionUpdate (meas : List GroupMeas)
  /-- THIN_STUCK (R400). -/
  | thinStuck (p : Fin 16)
  /-- PSTATE_WRITE (R407). -/
  | pstateWrite (pg : PageId) (w : BitVec 32)
  /-- POWER_ENTRY_DONE (R403). -/
  | powerEntryDone (pg : PowerBlk)
  /-- POWER_EXIT_DONE (R403). -/
  | powerExitDone (pg : PowerBlk)
  /-- HOST_PENDING (R407). -/
  | hostPending (d : Fin 16)
  /-- UNIT_STATE_WRITE (R410). -/
  | unitStateWrite (c : Fin 1024) (w : BitVec 32)
  /-- ISO_RELEASE (R404). -/
  | isoRelease (d : Fin 16) (w : BitVec 32)
  /-- PACKAGE_RESET (R415). -/
  | packageReset (ns : Nat)
  /-- RESET_PACKAGE (R415). -/
  | resetPackage (w : BitVec 32)
  /-- RESET_SHEPHERD (R418). -/
  | resetShepherd (w : BitVec 32)
  /-- WATCHDOG_EXPIRY (R436). -/
  | watchdogExpiry
  /-- WDT_KICK (R436). -/
  | wdtKick (w : BitVec 32)
  /-- SHEPHERD_TIMER_COMPARE (R414). -/
  | shepherdTimerCompare (core : Fin 32) (w : TimerWrite)
  /-- BOOT (R419). -/
  | boot (o : BootOutcome)
  /-- RECOVERY_IMAGE (R425). -/
  | recoveryImage (kind : BitVec 2) (img : List (BitVec 8))
  /-- PRESET_ENTER (R416). -/
  | presetEnter (w : BitVec 32)
  /-- PARTIAL_RESET_ENTRY (R416). -/
  | partialResetEntry (d : Fin 16)
  /-- PRESET_RELEASE (R416). -/
  | presetRelease (w : BitVec 32)
  /-- PARTIAL_RESET_RETURN (R416). -/
  | partialResetReturn (d : Fin 16) (xcal : List XcalResult)
  /-- PST_WRITE (R427). -/
  | pstWrite (who : Requester) (k : Fin 1024) (w : BitVec 32)
  /-- PST_WRITE_DONE (R427). -/
  | pstWriteDone (inst : Fin 4)
  /-- FLASH_ERASE (R438). -/
  | flashErase (w : BitVec 32)
  /-- FLASH_PROGRAM (R438). -/
  | flashProgram (w : BitVec 32)
  /-- FLASH_DONE (R438). -/
  | flashDone (ok : Bool)
  /-- VR_POLL (R487). -/
  | vrPoll (rs : List VrReply)
  /-- VR_ALERT (R487). -/
  | vrAlert (rs : List VrReply)
  /-- TEMP_UPDATE (R489). -/
  | tempUpdate (ts : List TempReading)
  /-- THERMAL_TRIP (R489). -/
  | thermalTrip
  /-- REGISTER_WRITE (R7). -/
  | registerWrite (a : BitVec 48) (w : BitVec 32)
  /-- LATCHED_PAIR_READ (R444). -/
  | latchedPairRead (a : BitVec 48)
  /-- ERR_CAPT0_READ (R448). -/
  | errCapt0Read (pg : PageId)
  /-- CNT_CLEAR (R446). -/
  | cntClear (pg : PageId)
  /-- CNT_FREEZE (R446). -/
  | cntFreeze (pg : PageId) (on : Bool)
  /-- IRQ_FORCE (R447). -/
  | irqForce (pg : PageId) (w : BitVec 32)
  /-- XCOLL_LAST_READ (R455). -/
  | xcollLastRead (r : Fin 64)
  /-- APPLY (R452). -/
  | apply (w : BitVec 32)
  /-- APPLY_AT_RERAISE (R452). -/
  | applyAtReraise (w : BitVec 32)
  /-- PARTITION_MAP_APPLY (R452). -/
  | partitionMapApply
  /-- ROTATION_WRITE (R453). -/
  | rotationWrite (p : Fin 16) (j : Option (Fin 16)) (w : BitVec 32)
  /-- SLOT_TABLE_WINDOW_WRITE (R458). -/
  | slotTableWindowWrite (e : Fin 3) (off : BitVec 23) (size : AccSize) (data : BitVec 512)
  /-- LOAD (R463). -/
  | load (slot : BitVec 6)
  /-- LOAD_COMPLETE (R463). -/
  | loadComplete
  /-- UNLOAD (R463). -/
  | unload (slot : BitVec 6)
  /-- FPOLICY_WRITE (R465). -/
  | fpolicyWrite (c : Fin 256) (w : BitVec 32)
  /-- AUDIT_CTRL_WRITE (R469). -/
  | auditCtrlWrite (d : Fin 16) (w : BitVec 32)
  /-- AUDIT_LAST_READ (R476). -/
  | auditLastRead (d : Fin 16)
  /-- HALT (R472). -/
  | halt (d : Fin 16)
  /-- HALT_EFFECT (R472). -/
  | haltEffect (d : Fin 16)
  /-- HALT_RELEASE (R472). -/
  | haltRelease (d : Fin 16)
  /-- ABORT_SESSION_COMMIT (R471). -/
  | abortSessionCommit (d : Fin 16) (target : BitVec 12)
  /-- ABORT_BUCKET_COMMIT (R471). -/
  | abortBucketCommit (d : Fin 16) (target : BitVec 12)
  /-- ABORT_INIT_CTRL (R471). -/
  | abortInitCtrl (d : Fin 16) (target : BitVec 12)
  /-- RAISING_PREPARATION (R125). -/
  | raisingPreparation (c : Fin 256)
  /-- OPEN_IF_UP (R329). -/
  | openIfUp (i : OpenIf)
  /-- POWER_LOSS (R486). -/
  | powerLoss (keepNew : Bool) (aon : Bool)
deriving DecidableEq, Repr

end Sys2Proof
end

