-- ==== Sys2Proof/Decode.lean ====
section
/-! DEFINITION. Commands spelled by bits: the slots of a bundle (R110, R142 to R154), and the words of the
table. The table of this hardware is a list of operations and events, and none of its rows gives bits. -/
namespace Sys2Proof

/-- The command that an `nbits`-bit word spells: none, because no row of the table has
fields. The words of the bundle slots are read by `decodeSlot`. -/
def decodeTableWord (_nbits _w : Nat) : Option Instr := none

/-! ## Fields -/

/-- Bits [lo + n − 1 : lo] of a word. -/
def fieldAt (w lo n : Nat) : BitVec n := BitVec.ofNat n (w >>> lo)

/-- The MMA layout of the M slot (R143). -/
def mmaFields (w : Nat) : MmaOp :=
  { xg := fieldAt w 5 4, pred := fieldAt w 9 4, gdim := fieldAt w 13 1, tile := fieldAt w 14 2,
    fold := fieldAt w 16 2, fmt := fieldAt w 18 4, sa := fieldAt w 22 5, step := fieldAt w 27 9 }

/-- The layout of MZERO, MDRAIN and MFILL (R143). -/
def tileFields (w : Nat) : TileOp :=
  { xg := fieldAt w 5 4, rsv := fieldAt w 9 5, tile := fieldAt w 14 2, rowgrp := fieldAt w 16 4,
    vreg := fieldAt w 20 6, rsvHi := fieldAt w 26 10 }

/-- The V slot layout (R147). -/
def vFields (w : Nat) : VOp :=
  { xg := fieldAt w 7 4, pred := fieldAt w 11 4, vd := fieldAt w 15 6, va := fieldAt w 21 6,
    vb := fieldAt w 27 6, vc := fieldAt w 33 6, fmt := fieldAt w 39 3, rm := fieldAt w 42 2 }

/-- The L slot layout (R149). -/
def lFields (w : Nat) : LOp :=
  { xg := fieldAt w 5 4, bank := fieldAt w 9 5, col := fieldAt w 14 4, ap := fieldAt w 18 1,
    aen := fieldAt w 19 1, abank := fieldAt w 20 5, ars := fieldAt w 25 5, sr := fieldAt w 30 5,
    imm := fieldAt w 35 5 }

/-- The S slot layout (R151). -/
def sFields (w : Nat) : SOp :=
  { xg := fieldAt w 5 4, reg := fieldAt w 9 6, sa := fieldAt w 15 5, imm := fieldAt w 20 12 }

/-- The F slot layout (R152). -/
def fFields (w : Nat) : FOp :=
  { xg := fieldAt w 5 4, port := fieldAt w 9 5, lane := fieldAt w 14 3, sel := fieldAt w 17 5,
    sa := fieldAt w 22 5, off := fieldAt w 27 5 }

/-! ## Slots -/

/-- The M slot (R143, R154). -/
def decodeM (i : Issue) (w : Nat) : Option Instr :=
  match w % 32 with
  | 0x00 => if w = 0 then some (.mnop i) else none
  | 0x01 => some (.mma i (mmaFields w))
  | 0x02 => some (.mzero i (tileFields w))
  | 0x03 => some (.mdrain i (tileFields w))
  | 0x04 => some (.mfill i (tileFields w))
  | _ => none

/-- A V slot, on the unit whose slot holds the word (R110, R147, R154). -/
def decodeV (i : Issue) (u : VUnit) (w : Nat) : Option Instr :=
  let o := vFields w
  match w % 128 with
  | 0x00 => if w = 0 then some (.vnop i u) else none
  | 0x01 => some (.vadd i u o)
  | 0x02 => some (.vsub i u o)
  | 0x03 => some (.vmul i u o)
  | 0x04 => some (.vfma i u o)
  | 0x05 => some (.vfms i u o)
  | 0x06 => some (.vmax i u o)
  | 0x07 => some (.vmin i u o)
  | 0x08 => some (.vabs i u o)
  | 0x09 => some (.vneg i u o)
  | 0x0A => some (.vcmpeq i u o)
  | 0x0B => some (.vcmplt i u o)
  | 0x0C => some (.vcmple i u o)
  | 0x0D => some (.vclass i u o)
  | 0x0E => some (.vsel i u o)
  | 0x10 => some (.vand i u o)
  | 0x11 => some (.vor i u o)
  | 0x12 => some (.vxor i u o)
  | 0x13 => some (.vshl i u o)
  | 0x14 => some (.vshr i u o)
  | 0x15 => some (.vsra i u o)
  | 0x18 => some (.vcvt i u o)
  | 0x19 => some (.vpack i u o)
  | 0x1A => some (.vunpk i u o)
  | 0x20 => some (.vrcp i u o)
  | 0x21 => some (.vrsq i u o)
  | 0x22 => some (.vsqrt i u o)
  | 0x23 => some (.vdiv i u o)
  | 0x24 => some (.vexp i u o)
  | 0x25 => some (.vlog i u o)
  | 0x26 => some (.vsin i u o)
  | 0x27 => some (.vcos i u o)
  | 0x28 => some (.vtanh i u o)
  | 0x29 => some (.verf i u o)
  | 0x30 => some (.vrsum i u o)
  | 0x31 => some (.vrmax i u o)
  | 0x32 => some (.vrmin i u o)
  | 0x33 => some (.vargmx i u o)
  | 0x34 => some (.vscan i u o)
  | 0x38 => some (.vperm i u o)
  | 0x39 => some (.vrot i u o)
  | 0x3A => some (.vbcast i u o)
  | 0x3B => some (.viota i u o)
  | 0x3C => some (.vmov i u o)
  | 0x3D => some (.vext i u o)
  | 0x3E => some (.vins i u o)
  | 0x40 => some (.vrng i u o)
  | 0x61 => some (.scalarVadd i u o)
  | 0x62 => some (.scalarVsub i u o)
  | 0x63 => some (.scalarVmul i u o)
  | 0x64 => some (.scalarVfma i u o)
  | 0x65 => some (.scalarVfms i u o)
  | 0x66 => some (.scalarVmax i u o)
  | 0x67 => some (.scalarVmin i u o)
  | _ => none

/-- The L slot (R149, R154). -/
def decodeL (i : Issue) (w : Nat) : Option Instr :=
  let o := lFields w
  match w % 32 with
  | 0x00 => if w = 0 then some (.lnop i) else none
  | 0x01 => some (.vact i o)
  | 0x02 => some (.vrd i o)
  | 0x03 => some (.vwr i o)
  | 0x04 => some (.vrdp i o)
  | 0x05 => some (.bentld i o)
  | 0x06 => some (.vpre i o)
  | _ => none

/-- The S slot (R151, R154). -/
def decodeS (i : Issue) (w : Nat) : Option Instr :=
  let o := sFields w
  match w % 32 with
  | 0x00 => if w = 0 then some (.snop i) else none
  | 0x01 => some (.smovl i o)
  | 0x02 => some (.smovs i o)
  | 0x03 => some (.swb i o)
  | 0x04 => some (.sld i o)
  | 0x05 => some (.sst i o)
  | 0x06 => some (.xld i o)
  | _ => none

/-- The F slot (R152, R154). -/
def decodeF (i : Issue) (w : Nat) : Option Instr :=
  let o := fFields w
  match w % 32 with
  | 0x00 => if w = 0 then some (.fnop i) else none
  | 0x01 => some (.fsend i o)
  | 0x02 => some (.frecv i o)
  | 0x03 => some (.ffwd i o)
  | _ => none

/-- The C slot's forms (R153, R154): where the table lists an opcode range, the low opcode bits carry the top
bits of the immediate; a nonzero reserved bit spells no operation (R112). -/
def decodeC (i : Issue) (w : Nat) : Option Instr :=
  let sd : BitVec 5 := fieldAt w 6 5
  let sa : BitVec 5 := fieldAt w 11 5
  let sb : BitVec 5 := fieldAt w 16 5
  let imm13 : BitVec 13 := fieldAt w 11 13
  let x : BitVec 3 := fieldAt w 6 3
  let g : BitVec 4 := fieldAt w 6 4
  let imm16 : BitVec 16 := BitVec.ofNat 16 (w % 4 * 2 ^ 14 + w / 2 ^ 10 % 2 ^ 14)
  let zero (lo : Nat) (c : Instr) : Option Instr := if w >>> lo = 0 then some c else none
  match w % 64 with
  | 0x00 => if w = 0 then some (.cnop i) else none
  | 0x01 => some (.sli i sd imm13)
  | 0x02 => some (.slis i sd imm13)
  | 0x03 => some (.saddi i sd imm13)
  | 0x04 => zero 21 (.sadd i sd sa sb)
  | 0x05 => zero 21 (.ssub i sd sa sb)
  | 0x06 => zero 21 (.sand i sd sa sb)
  | 0x07 => zero 21 (.sor i sd sa sb)
  | 0x08 => zero 21 (.sxor i sd sa sb)
  | 0x09 => zero 21 (.sshl i sd sa sb)
  | 0x0A => zero 21 (.sshr i sd sa sb)
  | 0x0B => zero 21 (.ssra i sd sa sb)
  | 0x0C => zero 21 (.smul i sd sa sb)
  | 0x10 => zero 23 (.lset i (fieldAt w 6 1) (fieldAt w 7 16))
  | 0x11 => zero 20 (.loopb i (fieldAt w 6 1) (fieldAt w 7 13))
  | 0x12 => zero 11 (.bseal i sd)
  | 0x13 => zero 11 (.bnext i sd)
  | 0x14 => some (.xset i x (fieldAt w 9 4) (fieldAt w 13 11))
  | 0x16 | 0x17 => some (.xadv i x (BitVec.ofNat 16 (w % 2 * 2 ^ 15 + w / 2 ^ 9 % 2 ^ 15)))
  | 0x18 => zero 14 (.xmov i x (fieldAt w 9 5))
  | 0x20 | 0x21 | 0x22 | 0x23 => some (.gadd i g imm16)
  | 0x24 => zero 10 (.gsub i g)
  | 0x25 => zero 15 (.grd i g (fieldAt w 10 5))
  | 0x26 => zero 15 (.gcmps i g (fieldAt w 10 5))
  | 0x28 | 0x29 | 0x2A | 0x2B => some (.gcmp i g imm16)
  | 0x2C => zero 14 (.gtest i g (fieldAt w 10 4))
  | 0x30 => some (.tmark i (fieldAt w 6 18))
  | _ => none

/-- The operation that the bits of a slot spell; none where R112 and R142 list none. Bundle bits [255:252]
spell none. -/
def decodeSlot (i : Issue) (k : SlotId) (w : Nat) : Option Instr :=
  match k with
  | .m => decodeM i w
  | .v0 => decodeV i .v0 w
  | .v1 => decodeV i .v1 w
  | .l => decodeL i w
  | .s => decodeS i w
  | .f => decodeF i w
  | .c => decodeC i w
  | .top => none

/-- First bit and width of a slot in a bundle (R110). -/
def slotPlace : SlotId → Nat × Nat
  | .m => (0, 36)
  | .v0 => (36, 44)
  | .v1 => (80, 44)
  | .l => (124, 40)
  | .s => (164, 32)
  | .f => (196, 32)
  | .c => (228, 24)
  | .top => (252, 4)

/-- The bits of a slot of a bundle. -/
def slotBits (b : BitVec 256) (k : SlotId) : Nat := (b.toNat >>> (slotPlace k).1) % 2 ^ (slotPlace k).2

/-- The command of a slot of a bundle: its operation, or a reserved word (R112). -/
def slotCommand (i : Issue) (b : BitVec 256) (k : SlotId) : Instr :=
  (decodeSlot i k (slotBits b k)).getD (.reservedOpcode i k (BitVec.ofNat 44 (slotBits b k)))

/-- The commands that a bundle issues, in slot order (R22, R110); nonzero bits [255:252] add a reserved
word. -/
def decodeBundle (i : Issue) (b : BitVec 256) : List Instr :=
  [SlotId.m, .v0, .v1, .l, .s, .f, .c].map (slotCommand i b) ++
    (if slotBits b .top = 0 then [] else [slotCommand i b .top])

end Sys2Proof
end

