-- ==== Sys2Proof/Config.lean ====
section
/-! DEFINITION. What the spec leaves open: constants without a body, so that nothing can be
proved about their values and a statement holds whatever they are. -/
namespace Sys2Proof

/-- The n-th value of a width that the spec calls undefined: data of collisions (R26, R119,
R135), of refused reads (R212), of slips (R106), keys, nonces and random numbers. -/
opaque Config.freeValue : Nat → (w : Nat) → BitVec w

/-- The bits of an approximated function (R197): the function, and the FP32 operand. They count only where
they keep the bound of R195. -/
opaque Config.approx : (op : Nat) → BitVec 32 → BitVec 32

/-- BASE_FRAME in µJ (R396) for the 64 coefficients of NRG.COEF and the present states of the blocks: which classes hold
the static coefficients stands in the part's calibration record, which the spec does not give (R393). `states`
names LOG2, the states of every C-die, region, cluster with its planer, and unit, and for every port whether it
is not DISABLED. -/
opaque Config.baseFrame : (coefs states : List Nat) → Nat

/-- The static energy of a block over some tick-clock periods, in fJ before its correction (R392, R393), from the 64
coefficients, the block's type code, what its page says of its power state, and its die's temperatures. -/
opaque Config.staticEnergy : (coefs : List Nat) → (type state temp periods : Nat) → Nat

/-- The RSA-4096 key of a seed: its modulus and its private exponent. The spec does not give the generation
(R365). -/
opaque Config.rsaKey : (seed : List Byte) → BitVec 4096 × BitVec 4096

/-- The unique device secret of the package's first power-up (R365). -/
opaque Config.firstUds : BitVec 256

/-- Where the flash keeps the identity certificate, offset and length (R368, whose place the spec does not give), and
the device CA certificate that issued it. -/
opaque Config.identityAt : Nat × Nat
opaque Config.deviceCa : List Byte

/-- The modulus of the Atuibin root key (R368). -/
opaque Config.rootKey : BitVec 4096

/-- What the name of a certificate's subject holds beside the device serial number (R368, which gives no more): the DER of
its other relative names. `k` is 0 for the identity certificate, 1 for the alias certificate, 2 for a context
certificate. -/
opaque Config.certNameParts : (k : Nat) → List Byte

/-- Whether a second of TAI, counted from 1970-01-01, is an inserted leap second (R368). -/
opaque Config.leapSecond : (tai : Nat) → Bool

/-- The attributes of a request for an identity certificate (R386) that carry the value of ATB-IDENT; the spec does not
give their form. -/
opaque Config.requestAttrs : (ident : List Byte) → List Byte

/-- The standard extensions that the device knows, by their OIDs; the spec does not list them (R370). -/
opaque Config.extKnown : List Byte → Bool

/-- The fixed transmit and receive paths of a link's two ends, in ps (R297). -/
opaque Config.fixedPaths : Nat

/-- The keys of a key set by its generation, drawn at random when the SEC creates it: the AES-256-XTS pair and the
integrity key (R215, R216, R365). -/
opaque Config.lineKeys : (gen : Nat) → BitVec 512 × BitVec 256

/-- What R216 leaves open of a line's integrity tag, an AES-256-GMAC over four parts: the nonce, as a function of the
parts; the order in which they are taken, by ascending rank; and which 56 of the 128 bits are kept. -/
opaque Config.macNonce : (parts : List (List Byte)) → BitVec 96
opaque Config.macRank : (part : Nat) → Nat
opaque Config.macBits : BitVec 128 → BitVec 56

/-- What R216 leaves open of the Reed–Solomon code over GF(2⁸): the field's polynomial without its x⁸, and the four
roots of the generator polynomial. -/
opaque Config.rsField : Byte
opaque Config.rsRoot : (i : Nat) → Byte

/-- The SHA-512 of the modulus of the Atuibin firmware key, which the boot ROM holds (R367, R420). -/
opaque Config.firmwareKey : BitVec 512

/-- What a calibration record carries (R426), whose layout the spec does not give: the DIK hash, the ledger
coefficients, COEF_ID, the first MAC address, the body bias of each region in mV and the device serial number. -/
opaque Config.calDik : List Byte → BitVec 512
opaque Config.calCoef : List Byte → (cls : Nat) → BitVec 24
opaque Config.calCoefId : List Byte → BitVec 32
opaque Config.calMac : List Byte → BitVec 48
opaque Config.calBias : List Byte → (region : Nat) → BitVec 16
opaque Config.calSerial : List Byte → List Byte

/-- The COEF that holds the `i`-th coefficient of an event class that has several (R393, whose table numbers the class
alone). -/
opaque Config.eventCoef : (cls i : Nat) → BitVec 6

/-- Bytes that the flash device has beyond 512 MiB (R420). -/
opaque Config.flashMore : Nat

/-- The contents of the shepherd's boot ROM (R412). -/
opaque Config.bootRom : (offset : Nat) → Byte

end Sys2Proof
end

