-- ==== Sys2Proof/Machine/State.lean ====
section
/-! DEFINITION. The whole state of one Z20 package, as plain data.

Every architectural register lives in `State.regs` under its address in the register
regions (R440, R442), banked registers under address + 2^32 × bank; what the spec gives
the machine besides registers lives in the groups below. `State.reset` is the package
right after the package reset that PKG_RST_N starts (R8, R415). -/
namespace Sys2Proof.Machine
open Sys2Proof

/-! ## The cluster pipeline -/

/-- The cluster's register files, as destinations and sources (R114, R469). -/
inductive Dest where
  | vreg (r : BitVec 6) | sreg (r : BitVec 5) | preg (r : BitVec 4) | xreg (r : BitVec 3)
  | tile (t : BitVec 2) | lc (k : BitVec 1) | peg (g : BitVec 4) | pegCmp (g : BitVec 4)
deriving DecidableEq, Repr

/-- One MMA's share of an open run (R146, R186): its format, fold, active terms, columns
and rows, and the operand and scale bytes it reads (filled in its read stages). -/
structure Contrib where
  seq    : Nat
  fmt    : BitVec 4
  fold   : BitVec 2
  terms  : BitVec 16
  cols   : BitVec 64
  rows   : BitVec 64
  act    : BitVec 8192
  wgt    : BitVec 16384
  ascale : BitVec 512
  wscale : BitVec 512
deriving DecidableEq, Repr

/-- A tile's open run and run count (R146). -/
structure Run where
  count : Nat
  parts : List Contrib
deriving DecidableEq, Repr

/-- Where the data of a vault column read goes (R149, R154). -/
inductive ColDest where
  | store (addr : BitVec 22)
  | planer (off : BitVec 15)
  | bent (addr : BitVec 13)
deriving DecidableEq, Repr

/-- The events of classes 0 to 10 of R393, one for each coefficient that its table gives, and the refreshed rows and the
loose packets that a router holds, which are of its other classes. -/
inductive EventKind where
  | mac8 | mac4 | mac6 | mac16 | mac32 | lane | lane64 | laneTrans | laneInt | bank | column | activation | decoded
  | path | link | line | refresh | loose
deriving DecidableEq, Repr

/-- How often an event has happened on a block, named by its page, for a partition (none: base) (R392, R395). -/
structure EventCount where
  page  : Nat
  part  : Option Nat
  kind  : EventKind
  count : Nat
deriving DecidableEq, Repr

/-- A power state that a block, named by its page, has left in the tick period that runs, and up to which tick-clock period
after the tick it held it (R392, R408). -/
structure StatePart where
  page  : Nat
  state : Nat
  till  : Nat
deriving DecidableEq, Repr

/-- What an operation does in one of its stages, or at its latency (R139, R154). Masks
of lines, lanes and columns are the active elements (R128, R130). -/
inductive Act where
  | vregWrite (r : BitVec 6) (lanes : BitVec 256) (v : VecReg)
  | vregElem (r : BitVec 6) (w i : Nat) (v : Nat)
  | sregWrite (r : BitVec 5) (v : BitVec 64)
  | sregKeep (r : BitVec 5)
  | pregWrite (r : BitVec 4) (mask v : BitVec 256)
  | xLimit (r : BitVec 3) (v : BitVec 32)
  | xPos (r : BitVec 3) (v : BitVec 24)
  | xShift (r : BitVec 3) (v : BitVec 4)
  | lcWrite (k : BitVec 1) (v : BitVec 16)
  | jump (addr : BitVec 13)
  | busyTo (slot : Nat) (free : Nat)
  | fault (code : BitVec 16) (page : Nat) (arg : BitVec 32)
  | audit (kind : Nat) (slot : Nat)
  | count (kind : EventKind) (n : Nat)
  | mark (imm : BitVec 18)
  | pegAdd (g : BitVec 4) (d : Int)
  | pegCmpWrite (g : BitVec 4) (v : BitVec 32)
  | sealHalf (index : BitVec 16) (length : BitVec 14)
  | nextBent (index : BitVec 16)
  | runSet (t : BitVec 2) (r : Run)
  | mmaWgt (seq : Nat) (part parts : Nat) (off : BitVec 15) (bytes : Nat) (wsc asc : Option (BitVec 15))
  | mmaAct (seq : Nat) (part parts : Nat) (addr : BitVec 22) (bytes : Nat) (on : Bool)
  | tileClose (t : BitVec 2) (v : BitVec 131072) (parts : List Contrib)
  | tileFill (t : BitVec 2) (grp : BitVec 4) (cols : BitVec 64) (v : VecReg)
  | tileZero (t : BitVec 2) (cols : BitVec 64)
  | loadV (r : BitVec 6) (lines : BitVec 16) (addr : BitVec 22)
  | storeV (addr : BitVec 22) (lines : BitVec 16) (v : VecReg)
  | swbRead (addr : BitVec 22) (off : BitVec 15) (lines : BitVec 8)
  | wbufWrite (off : BitVec 15) (lines : BitVec 8) (v : BitVec 4096)
  | loadS (r : BitVec 5) (on : Bool) (addr : BitVec 22)
  | storeS (addr : BitVec 22) (on : Bool) (v : BitVec 64)
  | loadX (r : BitVec 3) (on : Bool) (addr : BitVec 22)
  | vaultAct (bank : BitVec 5) (row : Nat)
  | vaultPre (bank : BitVec 5) (auto : Bool)
  | vaultRd (bank : BitVec 5) (col : BitVec 4) (ap : Bool) (lines : BitVec 2) (dst : ColDest)
  | vwrRead (addr : BitVec 22) (bank : BitVec 5) (col : BitVec 4) (ap : Bool) (lines : BitVec 2)
  | vaultWr (bank : BitVec 5) (col : BitVec 4) (ap : Bool) (lines : BitVec 2) (v : BitVec 1024)
  | colCheck (u : Nat) (lines : BitVec 2) (k0 k1 : Nat × Bool) (dst : ColDest) (v : BitVec 1024)
  | planeIn (off : BitVec 15) (lines : BitVec 2) (v : BitVec 1024)
  | storeCol (addr : BitVec 22) (lines : BitVec 2) (v : BitVec 1024)
  | wbufBytes (off : BitVec 15) (v : List Byte)
  | bentCol (addr : BitVec 13) (lines : BitVec 2) (v : BitVec 1024)
  | sendRead (addr : BitVec 22) (port : BitVec 5) (lane : BitVec 3) (on : Bool)
  | laneOut (port : BitVec 5) (lane : BitVec 3) (v : Line)
  | recvTake (port : BitVec 5) (lane : BitVec 3) (on : Bool) (addr : BitVec 22) (peg : Option (BitVec 4))
  | recvWrite (addr : BitVec 22) (v : Option Line)
  | fwdTake (sel : BitVec 5) (port : BitVec 5) (lane : BitVec 3)
  | edgeTake (link : BitVec 3) (lane : BitVec 5) (area : Nat) (line : Nat)
  | edgeWrite (part : Option Nat) (area : Nat) (line : Nat) (v : Line)
  | edgeRead (link : BitVec 3) (lane : BitVec 5) (area : Nat) (line : Nat)
  | edgeOut (link : BitVec 3) (lane : BitVec 5) (v : Line)
deriving DecidableEq, Repr

/-- A pending stage or result: the unit (package cluster 0 to 1,023, or 1,024 + e for
edge die e), the slot that issued it (R22), its issue position and its stage cycle. -/
structure Ev where
  unit  : Nat
  slot  : Nat
  issue : Nat
  stage : Nat
  act   : Act
deriving DecidableEq, Repr

/-- A transfer on an output lane (R155): the receiving region or edge die, the input
port and lane by which that end names it, and the receiver position at which it is
present. `dst` is a package region, 64 + e for edge die e, or 128 + c for an input port
of package cluster c; `src` names the output (region or 64 + e) × 64 + port. `v = none`:
two transfers met on the lane (R26). -/
structure LaneXfer where
  dst  : Nat
  port : Nat
  lane : Nat
  pos  : Nat
  src  : Nat
  v    : Option Line
deriving DecidableEq, Repr

/-- Tag of a bent-store half (R120). `sealed`: no BENTLD has come since the seal (R121). -/
structure BentTag where
  valid  : Bool
  index  : BitVec 16
  length : BitVec 14
  sealed : Bool
deriving DecidableEq, Repr

/-- The sequencer (R122 to R125, R138). The bundle address at position p is
`addr0 + (p − pos0)`. -/
structure Seq where
  runHalf   : BitVec 1
  nullFrame : Bool
  ended     : Bool
  nextBent  : BitVec 16
  pos0      : Nat
  addr0     : Nat
  nullPos   : Option Nat
  ready     : Bool
  descErr   : Bool
  lineErr   : Bool
deriving DecidableEq, Repr

/-- One slot of the planer's table store (R227): its 128 bytes, and whether the load
marked it invalid. -/
structure PlanTable where
  bytes   : BitVec 1024
  invalid : Bool
deriving DecidableEq, Repr

/-- Every cluster's state (R114 to R136), sparse, keyed by package cluster number and
index. `cyc` counts arithmetic cycles; every stretched domain shares it (R98 makes their
counts agree at every tick), and the issue position of a partition is `cyc` less the
partition's `origin`. -/
structure Clusters where
  cyc     : Nat
  tickCyc : Nat
  pipe    : List Ev
  lanes   : List LaneXfer
  vreg    : Tab VecReg
  sreg    : Tab (BitVec 64)
  preg    : Tab (BitVec 256)
  xreg    : Tab (BitVec 64)
  tile    : Tab (BitVec 131072)
  run     : Tab Run
  lc      : Tab (BitVec 16)
  peg     : Tab (BitVec 32)
  pegCmp  : Tab (BitVec 32)
  store   : List Host.Cell
  wbuf    : List Host.Cell
  bent    : Tab (BitVec 256)
  tag     : Tab BentTag
  seq     : Tab Seq
  busy    : Tab Nat
  tables  : Tab PlanTable
deriving DecidableEq, Repr

/-! ## Stacked memory -/

/-- Kinds of vault command (R210). -/
inductive VCmdKind where | act | rd | wr | pre
deriving DecidableEq, Repr

/-- A command sent to the stack in this frame (R211): its kind, bank and stage. -/
structure VCmd where
  kind  : VCmdKind
  bank  : BitVec 5
  stage : Nat
deriving DecidableEq, Repr

/-- The side-band of a stored line (R216, R217), kept as what the checks find: the
domain and key generation it was written under, its POISON bit and its bad symbols. -/
structure Side where
  dom    : Nat
  keyGen : Nat
  poison : Bool
  bad    : Nat
deriving DecidableEq, Repr

/-- Kinds of session commit (R245). -/
inductive CommitKind where | bind | update | release
deriving DecidableEq, Repr

/-- One job of a vault's host engine (R213, R246): a host access, a commit's columns,
a bucket commit or a window initialisation. -/
inductive HostJob where
  | access (r : HostReq) (u : Nat)
  | commit (die : Nat) (entry : Nat) (kind : CommitKind) (reason : BitVec 8) (col : Nat) (done : Bool)
  | bucket (die : Nat) (ctx : Nat) (bucket : BitVec 4) (done : Bool)
  | replay (ctx : Nat) (rcd : BitVec 8192) (col : Nat) (step : Nat) (done : Bool)
deriving DecidableEq, Repr

/-- A queued host job: whether an ABORT stopped it, and whether it was accepted after the host
engine began this frame's guard, so that it waits for the next service (R246, R248). -/
structure HostQ where
  job     : HostJob
  aborted : Bool
  late    : Bool
deriving DecidableEq, Repr

/-- A running window initialisation (R218): its domain, first row and rows, and the next of its columns
(512 to a row) to zero. -/
structure InitRun where
  dom     : Nat
  next    : Nat
  rows    : Nat
  first   : Nat
  aborted : Bool
deriving DecidableEq, Repr

/-- Every vault (R201 to R223), keyed by package vault. `mem` holds the plaintext bytes
at key vault × 0x6000_0000 + u; `open_` holds the open row of a bank plus 1, 0 for a
closed bank, at key 32 × vault + bank; `scrubHalf` and `revHalf` tell that the first half of the patrol's
bank-row, or of the first to be revisited, is read (at the shortest frame); `scrubRow` holds the bank-row that the
scrubber has opened for the coming window plus 1, 0 for none; `patrolAt` the instant from which the patrol's next
segment is due, in 1/1,572,864 of a tick-clock period since package reset. -/
structure Vaults where
  mem     : List Host.Cell
  side    : Tab Side
  open_   : Tab Nat
  cmds    : Tab (List VCmd)
  hostq   : Tab (List HostQ)
  init    : Tab InitRun
  refPtr  : Tab Nat
  scrubHalf : Tab Bool
  revHalf : Tab Bool
  revisit : Tab (List (BitVec 20))
  scrubRow : Tab Nat
  patrolAt : Tab Nat
  fixup   : Tab (List Nat)
deriving DecidableEq, Repr

/-! ## Leashed traffic -/

/-- A slot entry (R267); `rsv` holds its reserved bits, from the lowest on. -/
structure SlotEntry where
  slot   : BitVec 11
  dueOfs : BitVec 2
  mhop   : Bool
  short  : Bool
  route  : BitVec 16
  dst    : BitVec 24
  stage  : BitVec 19
  rsv    : BitVec 64
deriving DecidableEq, Repr

/-- A port bent (R266): its slot, lane and gate entries, and the reserved bits of its header. -/
structure PortBent where
  slots : List SlotEntry
  lanes : List (BitVec 64)
  gates : List (BitVec 64)
  rsv   : BitVec 91
deriving DecidableEq, Repr

/-- A combine group (R276), with its reserved bits. -/
structure Group where
  target  : BitVec 19
  steps   : BitVec 8
  fmt     : BitVec 2
  seed    : Bool
  seedPos : BitVec 14
  counter : BitVec 4
  short   : Bool
  pegEn   : Bool
  peg     : BitVec 14
  rsv     : BitVec 64
deriving DecidableEq, Repr

/-- A brace record with its maps (R281), and the reserved bits of all of it. -/
structure BraceRec where
  id     : BitVec 16
  down   : List (BitVec 32)
  map    : List (BitVec 8 × BitVec 16 × BitVec 16)
  divert : List (BitVec 8 × BitVec 16 × BitVec 8 × BitVec 16)
  fwd    : List (BitVec 8 × BitVec 16 × BitVec 128)
  rsv    : Nat
deriving DecidableEq, Repr

/-- The contents of a table set (R262 to R265): per port the bents and forward table,
the combine groups, the brace records, and per bucket STEP_FRAMES and the bent index of
each port in each frame. -/
structure TableSet where
  bents      : List (BitVec 6 × BitVec 16 × PortBent)
  fwd        : List (BitVec 6 × BitVec 16 × BitVec 128)
  groups     : List Group
  braces     : List BraceRec
  frames     : List (List (List (BitVec 6 × BitVec 16)))
  bucketLine : BitVec 19
  ports      : BitVec 48
deriving DecidableEq, Repr, Inhabited

/-- State of a table set (R263). -/
inductive SetState where | empty | loaded | running | cached
deriving DecidableEq, Repr

/-- A table set of an edge die and the context that runs from it. -/
structure SetSt where
  state  : SetState
  tables : TableSet
  ctx    : Option Nat
deriving DecidableEq, Repr

/-- A leashed packet in the device: its leashed header (R257, 20 bytes) and payload of
64 or 1,024 bytes. -/
structure Leashed where
  hdr     : BitVec 160
  payload : BitVec 8192
deriving DecidableEq, Repr

/-- A send that is deferred until its buffer is complete (R271): the lines (byte addresses of landing
SRAM) that TAKEs of its frame still have to write. -/
structure Deferred where
  ctx  : Nat
  ent  : SlotEntry
  frame : BitVec 64
  lines : List Nat
deriving DecidableEq, Repr

/-- The combine steps of one group and due frame (R276): steps landed but not applied
and steps applied. -/
structure CombSt where
  waiting : List (Nat × Nat)
  ended   : Nat
deriving DecidableEq, Repr

/-- A peg increment that waits for the tick that begins frame DUE (R275). -/
structure PegWait where
  ctx : Nat
  due : BitVec 32
  peg : BitVec 14
deriving DecidableEq, Repr

/-- How each edge die places its raising within a step (R264): the frame of the step by its own count, the bucket that it
read for the step, and whether that bucket does not exist. -/
structure PortSeq where
  pos    : Nat
  bucket : Nat
  nulled : Bool
deriving DecidableEq, Repr

/-- Brace state of an edge die for a context (R282, R285): the brace that runs, and the one that awaits its switch
frame. -/
structure BraceSt where
  active  : Option (BitVec 16)
  pending : Option (BitVec 16 × BitVec 64)
deriving DecidableEq, Repr

/-- The edge dies' leashed state (R262 to R286). `landing` and `slotMem` are keyed by
edge die × size + byte address. `sent` lists the units whose own packet has been handled in this tick period, `used`
the link bytes that each unit has carried in it, and `fwdHeld` the units that a forward holds (port; slot, plus 2,048
for a loose slot); `lost` the ports that a raising lost, by port × 256 + context, until a re-raising (R304); `staged` the lines
that TAKEs wrote in this frame, with their cycles; `partner` the last reported frame of the partner,
keyed by port × 256 + context. -/
structure Edge where
  landing  : List Host.Cell
  slotMem  : List Host.Cell
  sets     : Tab SetSt
  gc       : Tab (BitVec 16)
  landed   : Tab Bool
  staged   : List (Nat × Nat)
  sent     : List (Nat × Bool × Nat)
  used     : List ((Nat × PortUnit) × Nat)
  late     : Tab (List Leashed)
  deferred : Tab (List Deferred)
  comb     : Tab CombSt
  pegWait  : List PegWait
  portSeq  : Tab PortSeq
  brace    : Tab (Option BraceSt)
  dupWin   : Tab Bool
  fwdHeld  : List (Nat × Nat)
  lost     : Tab Bool
  partner  : Tab (BitVec 64)
deriving DecidableEq, Repr

/-! ## The link layer -/

/-- States of a Chroip port (R295), in the codes of LSTAT.STATE. -/
inductive LinkState where
  | disabled | phy | hello | key | delay | ready | up | down
deriving DecidableEq, Repr

/-- A replay-buffer entry (R300): its SEQ, what it carries and its lines. -/
structure ReplayEnt where
  seq   : BitVec 16
  kind  : BitVec 4
  ext   : BitVec 176
  body  : List Byte
  lines : Nat
  vc    : BitVec 2
deriving DecidableEq, Repr

/-- A key exchange of a port (R376, R377): the own CERTS as sent, the partner's CERTS and SECRET, the own secret and the
SECRET message that carries it, and the own FINISH; `update` tells that new keys are made for a link that runs. -/
structure KeyEx where
  sent   : List Byte
  certs  : Option (List Byte)
  secret : Option (List Byte)
  own    : Option (List Byte × List Byte)
  finish : Option (List Byte)
  update : Bool
deriving DecidableEq, Repr

/-- One Chroip port (R295 to R309). `mac` holds what MAC said at the latest entry to PHY (R310),
`peer` the partner's address and `hello` the body of its HELLO; `keys` the key (256 bits) and salt of a phase and
direction, at 2 × phase for sending and 2 × phase + 1 for receiving; `nakUntil` the period since package reset until
which no NAK follows the latest; `echoes` the PROBEs that were answered, a bit each, `delayMax` twice the largest delay
in ps, `agree` whether no ECHO exchange has disagreed; `holdoff` the seconds of a holdoff that runs, `holdLen` the
length of the latest and `authAt` the period of the latest AUTH down (R378). -/
structure Link where
  state     : LinkState
  cause     : BitVec 4
  pcoal     : Bool
  replaying : Bool
  replayPos : Nat
  keyPhase  : BitVec 2
  keys      : Tab (Option (BitVec 288))
  expect    : BitVec 16
  ackSent   : BitVec 16
  nakSet    : Bool
  nakUntil  : Nat
  nextSeq   : BitVec 16
  ackRx     : BitVec 16
  rbuf      : List ReplayEnt
  timeouts  : Nat
  credits   : List Nat
  owed      : List Nat
  txc       : BitVec 64
  tagFails  : List Nat
  echoes    : Nat
  delayMax  : Nat
  agree     : Bool
  mac       : BitVec 48
  peer      : Option (BitVec 48)
  hello     : BitVec 112
  ownHello  : BitVec 112
  kx        : KeyEx
  holdoff   : Nat
  holdLen   : Nat
  authAt    : Option Nat
  lanesUp   : Bool
deriving DecidableEq, Repr

/-! ## Loose traffic -/

/-- A loose packet held by a router (R318 to R320): where it arrived, on which VC, the period since package reset in
which its first bit arrived, whether it claims its escape port, and whether it was counted as held for want of
credit (R310). -/
structure Staged where
  die     : Nat
  inPort  : Option Nat
  inVc    : BitVec 2
  arrived : Nat
  escape  : Bool
  waited  : Bool
  pkt     : LooseReq
deriving DecidableEq, Repr

/-- A send context (R324). -/
structure SendCtx where
  dst    : BitVec 16
  stream : BitVec 4
  ord    : BitVec 16
  out    : Nat
  closing : Bool
  closed : Option Bool
  noCtx  : Bool
deriving DecidableEq, Repr

/-- A receive context (R323, R324): the expected ORD and the window's early arrivals. -/
structure RecvCtx where
  src    : BitVec 16
  stream : BitVec 4
  exp    : BitVec 16
  window : List LooseReq
  closed : Bool
deriving DecidableEq, Repr

/-- An outstanding request (R325). -/
structure OutReq where
  tag : BitVec 16
  req : LooseReq
deriving DecidableEq, Repr

/-- A directed command whose CACK has not come (R315). -/
structure CmdWait where
  cmd     : CmdFrame
  resends : Nat
deriving DecidableEq, Repr

/-- The loose routers and the endpoint (R311 to R328). A queued command carries the copies it still
has to be sent in; a seen pair the tick-clock period in which it came. -/
structure Loose where
  staged  : List Staged
  cmdq    : Tab (List (CmdFrame × Nat))
  seen    : List (BitVec 24 × BitVec 32 × Nat)
  waits   : List CmdWait
  cmdSeq  : BitVec 32
  route   : Tab (BitVec 64)
  sendCtx : List SendCtx
  recvCtx : List RecvCtx
  outReq  : List OutReq
  tagGen  : Tab (BitVec 4)
deriving DecidableEq, Repr

/-! ## Open ports -/

/-- A frame waiting in an open-port buffer for its receive queue (R333, R334). -/
structure RxHeld where
  blk   : Nat
  queue : Nat
  rcd   : List Byte
  len   : Nat
  page  : Nat
deriving DecidableEq, Repr

/-- The open-port engines and the management port (R329 to R341). -/
structure Open where
  held   : List RxHeld
  steer  : Tab (BitVec 64)
  xoff   : Tab Bool
  mgmtCt : Option (BitVec 64)
  turn   : Tab Nat
  paused : Tab Nat
deriving DecidableEq, Repr

/-! ## Time -/

/-- A stretched domain (R89, R97, R98): the stretches it owes, in order of arrival, each with its origin and
the period after the latest tick in which the origin's period begins; the stretched periods taken since the
latest tick; and the first period after the latest tick in which it can begin another stretched one. -/
structure Domain where
  owed   : List (Nat × Int)
  taken  : Nat
  next   : Int
deriving DecidableEq, Repr

/-- The time base (R66 to R101). `wall` counts 2⁻⁵⁶ ns and `periods` tick-clock periods since package
reset, both as they were at the latest tick; `wallFrom` and `holdFrom` are the periods since package reset
from which the present wall time and the present holdover run. `starts` holds the stretches that no tick
period has counted yet, by the period after the latest tick in which their origin's period begins
(R100). -/
structure Time where
  frameLog2 : Nat
  pendLog2  : Option Nat
  stepPend  : Bool
  periods   : Nat
  tick      : BitVec 64
  wall      : Int
  wallFrom  : Nat
  holdFrom  : Nat
  captPin   : Bool
  ppsPin    : Bool
  prevLevel : Bool
  capts     : List (BitVec 128 × BitVec 64)
  starts    : List Int
  pllOn     : Bool
  domains   : Tab Domain
deriving DecidableEq, Repr

/-! ## Partitions, contexts and raisings -/

/-- What a partition does in the present tick period (R53, R54, R71 to R77). -/
inductive PeriodKind where
  | none | contents | held | finish | switch_ | idle | stopped
deriving DecidableEq, Repr

/-- A partition (R33, R53, R72, R78, R453). `run` is the context whose state the clusters hold; `began`
tells that a rotation entry is active: `entry` is then its number, else the first number to try. -/
structure PartSt where
  kind      : PeriodKind
  origin    : Nat
  run       : Option Nat
  inbound   : Bool
  lead      : Bool
  thin      : Bool
  holds     : Nat
  thinRun   : Nat
  entry     : Nat
  entryRun  : Nat
  entryCtx  : Nat
  done      : Nat
  began     : Bool
  idleEnt   : Bool
  lastKind  : PeriodKind
  switchTo  : Option Nat
  halted    : Bool
  haltPend  : Option Bool
  lastEnergy : Nat
  account   : Int
deriving DecidableEq, Repr

/-- Raising states (R346), in the codes of RSTAT.STATE. -/
inductive RaiseState where
  | none | loaded | prepared | committed | running | held | stopped | faulted
deriving DecidableEq, Repr

/-- One answer of phase one (R349). -/
structure ChildAck where
  member : Nat
  status : BitVec 8
  count  : Nat
deriving DecidableEq, Repr

/-- A raising of a context, or its loaded successor (R346 to R361). -/
structure Raising where
  state     : RaiseState
  plan      : Nat
  raiseId   : BitVec 16
  digest    : BitVec 256
  replay    : Bool
  startTick : BitVec 64
  armedTrig : Bool
  began     : Bool
  frame     : BitVec 64
  step      : BitVec 64
  stepFrame : Nat
  bucket    : Nat
  stopAt    : Option (BitVec 64)
  holdAt    : Option (BitVec 64)
  resumeAt  : Option (BitVec 64)
  rotDigest : BitVec 64
  acks      : List ChildAck
  answered  : Bool
  oldRaise  : BitVec 16
  stopFrame : BitVec 64
  brace     : Option (BitVec 16 × BitVec 64)
deriving DecidableEq, Repr

/-- State of a context at the SEC (R369, R391). -/
inductive CtxState where | free | keyed | running | faulted
deriving DecidableEq, Repr

/-- A bundle import in progress (R373, R374): K_w, the next chunk of the bundle and its number of
chunks, and the bytes of the stream that have passed. -/
structure Import where
  key    : BitVec 256
  next   : Nat
  chunks : Nat
  stream : List Byte
deriving DecidableEq, Repr

/-- A host session between its message 2 and its FINISH (R371): the two random numbers, the SEC's secret, the messages
so far and the SHA-512 of the tenant's modulus. -/
structure SessOpen where
  nt     : List Byte
  nd     : List Byte
  sd     : List Byte
  trans  : List Byte
  tenant : BitVec 512
deriving DecidableEq, Repr

/-- A context (R52, R365, R372, R379, R382): its attributes, what the SEC holds for it (`ck` the random number of which
its context key is made, `sessIn` and `sessOut` the next message counters of the two directions), its raising and its
loaded successor. -/
structure Ctx where
  state     : CtxState
  conf      : Bool
  access    : BitVec 3
  part      : Nat
  tenant    : Option (BitVec 512)
  bundle    : Option (BitVec 512)
  ck        : Option (BitVec 256)
  ioKeys    : Option (BitVec 1024)
  session   : Option (BitVec 512)
  sessIn    : Option (BitVec 64)
  sessOut   : Option (BitVec 64)
  sessOpen  : Option SessOpen
  planDigests : List (BitVec 512)
  importing : Option Import
  lastStatus : BitVec 4
  faultCause : BitVec 4
  raising   : Raising
  succ      : Option Raising
deriving DecidableEq, Repr

/-- A plan slot (R44, R463): where its image lies, its header, the digest of the image
and of its signer's modulus. -/
structure PlanSlot where
  addr   : Nat
  hdr    : BitVec 2048
  size   : Nat
  digest : BitVec 512
  signer : BitVec 512
deriving DecidableEq, Repr

/-- A plan load in progress (R463). -/
structure LoadJob where
  slot : Nat
  addr : Nat
deriving DecidableEq, Repr

/-- A detected fault waiting for its tick (R448, R464); `page` is the key of the page that captures it. -/
structure FaultRec where
  code : BitVec 16
  ctx  : Option Nat
  page : BitVec 32
  arg  : BitVec 32
deriving DecidableEq, Repr

/-- A trail record waiting for the step that first reads it (R360). -/
structure TrailWait where
  ctx   : Nat
  step  : BitVec 64
  fresh : Bool
  rcd   : BitVec 8192
deriving DecidableEq, Repr

/-- A job abort waiting for its tick (R471). -/
structure AbortReq where
  die  : Nat
  job  : BitVec 2
  target : Nat
deriving DecidableEq, Repr

/-- A pending partition-map apply (R452): none for APPLY, the partition for
APPLY_AT_RERAISE. -/
structure PmapPend where
  reraise : Option Nat
  due     : Bool
deriving DecidableEq, Repr

/-- Raisings, partitions, plans and the checks on them. -/
structure Raise where
  ctx     : Tab Ctx
  part    : Tab PartSt
  plans   : Tab PlanSlot
  lastSlot : Nat
  load    : Option LoadJob
  faults  : List FaultRec
  trail   : List TrailWait
  trace   : List (BitVec 256)
  aborts  : List AbortReq
  latched : List AbortReq
  pmap    : Option PmapPend
  audit   : BitVec 64
  auditNext : Option (BitVec 64)
  auditHit : BitVec 20
deriving DecidableEq, Repr

/-! ## Sessions -/

/-- The session tables (R236, R237): bytes keyed by die × 2,621,440 + 1,024 × entry +
offset; the context and slot that an entry is bound to or pending on, plus 1, at key
2,560 × die + entry; the entries whose completion waits for its tick. -/
structure Sessions where
  table : List Host.Cell
  bound : Tab (Option (Nat × Nat))
  fresh : List (Nat × Nat)
deriving DecidableEq, Repr

/-! ## Trust, energy, shepherd and board -/

/-- The security processor (R364 to R391). `memKey` is keyed by die × 257 + domain and
holds the generation of the key set, 0 when it is not in use; `uds` numbers the unique device secrets,
`dik` and `bk` are the hashes of the identity key and the binding key. The carve-out keys of every
C-die exist when it has left reset. -/
structure Sec where
  memKey    : Tab Nat
  keyGen    : Nat
  uds       : BitVec 256
  dik       : BitVec 512
  bk        : BitVec 512
  mgmtKey   : Option (BitVec 256)
  mr        : List (BitVec 512)
  svn       : List Nat
  aliasCert : List Byte
  serial    : List Byte
  running   : Option (BitVec 32)
  rspLen    : Nat
  reissue   : Bool
  reissueMore : Bool
  debugs    : Nat
  sealPinNs : Nat
  sealLatch : Bool
  presPin   : Bool
  presAsserted : Bool
deriving DecidableEq, Repr

/-- Power changes in progress (R401 to R408): the block and its target. Current states and
isolation are fields of PSTATE and UNIT_STATE. -/
structure Power where
  busy : List (PowerBlk × BitVec 2)
deriving DecidableEq, Repr

/-- The energy ledger (R392 to R400). `frac` carries fractions of a µJ in 2⁻¹⁴ fJ, keyed by page, by
2^33 + p for the energy of partition p, by 2^33 + 16 for that of the package; `window` adds up each rail group's
uncorrected estimate since the last correction, in fJ (R394). `parts` are the power states that blocks have left in
this tick period; `ended` those of the one that ended last, `length` its tick-clock periods (R392, R408). -/
structure Energy where
  frac    : Tab Nat
  window  : Tab Nat
  account : Int
  now     : List EventCount
  prev    : List EventCount
  parts   : List StatePart
  ended   : List StatePart
  length  : Nat
deriving DecidableEq, Repr

/-- Shepherd, boot, flash and board (R411 to R439, R477 to R492). `markUntil` and `ppsUntil` are the
periods since package reset at which FRAME_MARK_OUT and PPS_OUT fall, `wdtFrom` those from which the
watchdog counts, `vrFrom` those of the last VR_POLL. `aonOut` tells that VDD_AON is out of tolerance (R481), `tripNew`
that a thermal trip waits for its tick, `tripLow` that THERM_TRIP_N is low (R489); `thermCrit` is THERM_CRIT_N low. -/
structure Board where
  flash     : List Host.Cell
  sram      : List Host.Cell
  core0     : Bool
  cores     : Bool
  timerCmp  : Tab (BitVec 64)
  timerPend : List Nat
  zenber    : Option (Nat × Nat × Nat × BitVec 512)
  bootHash  : BitVec 512
  flashBusy : Option (BitVec 2 × Nat × Nat × Nat)
  pstPend   : Tab (Nat × BitVec 32)
  presetPend : List Nat
  tripNew   : Bool
  markUntil : Nat
  ppsUntil  : Nat
  thermTrip : Bool
  thermCrit : Bool
  tripLow   : Bool
  aonOut    : Bool
  wdtFrom   : Nat
  vrFrom    : Nat
deriving DecidableEq, Repr

/-! ## What the package shows outside -/

/-- What leaves the package: values returned to a requester, frames and records sent,
pins driven. -/
inductive Out where
  | value (v : BitVec 32)
  | errorDone (tag : Nat)
  | readDone (tag : Nat) (v : BitVec 512)
  | writeDone (tag : Nat)
  | frame (p : Nat) (bytes : List Byte)
  | fill (p n : Nat)
  | open_ (i : OpenIf) (body : List Byte)
  | pfc (i : OpenIf) (on : Bool)
  | response (code : BitVec 8) (body : List Byte)
  | pulse (pin : String) (periods : Nat)
  | regulatorRead (addr : BitVec 7)
deriving DecidableEq, Repr

/-- The package. `free` counts the free values drawn so far (the model's own field, not
the spec's: see `Sys2Proof.Config`); `out` is what has left the package, newest last. -/
structure State where
  pending  : List Instr
  regs     : Tab Word
  latch    : Tab Word
  clu      : Clusters
  vlt      : Vaults
  edge     : Edge
  link     : Tab Link
  loose    : Loose
  opn      : Open
  time     : Time
  rai      : Raise
  ses      : Sessions
  sec      : Sec
  pwr      : Power
  nrg      : Energy
  brd      : Board
  out      : List Out
  free     : Nat
deriving DecidableEq, Repr

/-- Why a step stops with a fault. The device reports its own faults in State (R464) and
goes on; only behaviour that the spec leaves without any effect ends here. -/
inductive Fault where
  /-- A supply outside its specification: more lost cycles than L + L/32 for one frame, where "the
  device's behaviour there is undefined" (R101), or a droop of more than 100 mV, where "behaviour is
  undefined" (R483 and the table of other cases). Raised by FRAME_TICK and DROOP_STRETCH. Safe. -/
  | beyondSupplySpec
deriving DecidableEq, Repr

/-- Why a command has no meaning. -/
inductive Refusal where
  /-- The command is not modelled. Raised by the dispatcher's refused arms only. Safe. -/
  | notModelled (mnemonic : String)
deriving DecidableEq, Repr

/-! ## Reset -/

/-- No key exchange. -/
def KeyEx.init : KeyEx := { sent := [], certs := none, secret := none, own := none, finish := none, update := false }

/-- A link before training (R310). -/
def Link.init : Link :=
  { state := .disabled, cause := 0, pcoal := false, replaying := false, replayPos := 0, keyPhase := 0,
    keys := [], expect := 0, ackSent := 0xFFFF, nakSet := false,
    nakUntil := 0, nextSeq := 0, ackRx := 0xFFFF, rbuf := [], timeouts := 0,
    credits := [0, 0, 0, 0], owed := [0, 0, 0, 0], txc := 0, tagFails := [], echoes := 0, delayMax := 0,
    agree := true, mac := 0, peer := none, hello := 0, ownHello := 0, kx := KeyEx.init,
    holdoff := 0, holdLen := 0, authAt := none, lanesUp := false }

/-- An edge die before the first frame of a raising (R264). -/
def PortSeq.init : PortSeq := { pos := 0, bucket := 0, nulled := false }

/-- A raising in state NONE. -/
def Raising.init : Raising :=
  { state := .none, plan := 0, raiseId := 0, digest := 0, replay := false, startTick := 0,
    armedTrig := false, began := false, frame := 0, step := 0, stepFrame := 0, bucket := 0,
    stopAt := none, holdAt := none, resumeAt := none, rotDigest := 0, acks := [],
    answered := false, oldRaise := 0, stopFrame := 0, brace := none }

/-- A free context (R379, R391). -/
def Ctx.init : Ctx :=
  { state := .free, conf := false, access := 0, part := 0, tenant := none, bundle := none,
    ck := none, ioKeys := none, session := none, sessIn := none, sessOut := none, sessOpen := none,
    planDigests := [], importing := none, lastStatus := 0, faultCause := 0,
    raising := Raising.init, succ := none }

/-- A partition that runs nothing. The account is PART_CAP's reset value (R398, R409). -/
def PartSt.init : PartSt :=
  { kind := .none, origin := 0, run := none, inbound := true, lead := true, thin := false, holds := 0,
    thinRun := 0, entry := 0, entryRun := 0, entryCtx := 0, done := 0, began := false, idleEnt := false, lastKind := .none,
    switchTo := none,
    halted := false, haltPend := none, lastEnergy := 0, account := 1000 }

/-- A sequencer at reset (R138). -/
def Seq.init : Seq :=
  { runHalf := 0, nullFrame := false, ended := false, nextBent := 0, pos0 := 0, addr0 := 0,
    nullPos := none, ready := false, descErr := false, lineErr := false }

/-- A bent-store half's tag at reset (R138). -/
def BentTag.init : BentTag := { valid := false, index := 0, length := 0, sealed := false }

/-- An empty run (R116, R146). -/
def Run.init : Run := { count := 0, parts := [] }

/-- An empty planer table slot (R227). -/
def PlanTable.init : PlanTable := { bytes := 0, invalid := false }

/-- A line that was never written: no key set has generation 0 (R218). -/
def Side.init : Side := { dom := 0, keyGen := 0, poison := false, bad := 0 }

/-- A domain that owes no stretch. -/
def Domain.init : Domain := { owed := [], taken := 0, next := 0 }

/-- An empty table set (R263). -/
def SetSt.init : SetSt :=
  { state := .empty,
    tables := { bents := [], fwd := [], groups := [], braces := [], frames := [],
                bucketLine := 0, ports := 0 },
    ctx := none }

/-- The package right after package reset: every register at its Reset column (R8,
`Sys2Proof.Machine.regReset`), every memory with nothing listed. -/
def State.reset : State :=
  { pending := [], regs := [], latch := [],
    clu := { cyc := 0, tickCyc := 0, pipe := [], lanes := [], vreg := [], sreg := [],
             preg := [], xreg := [], tile := [], run := [], lc := [], peg := [],
             pegCmp := [], store := [], wbuf := [], bent := [], tag := [], seq := [],
             busy := [], tables := [] },
    vlt := { mem := [], side := [], open_ := [], cmds := [], hostq := [], init := [],
             refPtr := [], scrubHalf := [], revHalf := [], revisit := [], scrubRow := [], patrolAt := [],
             fixup := [] },
    edge := { landing := [], slotMem := [], sets := [], gc := [], landed := [],
              staged := [], sent := [], used := [], late := [], deferred := [], comb := [],
              pegWait := [], portSeq := [], brace := [], dupWin := [], fwdHeld := [],
              lost := [], partner := [] },
    link := [],
    loose := { staged := [], cmdq := [], seen := [], waits := [], cmdSeq := 0, route := [],
               sendCtx := [], recvCtx := [], outReq := [], tagGen := [] },
    opn := { held := [], steer := [], xoff := [], mgmtCt := none, turn := [], paused := [] },
    time := { frameLog2 := 11, pendLog2 := none, stepPend := false, periods := 0,
              tick := 0, wall := 0, wallFrom := 0, holdFrom := 0, captPin := false,
              ppsPin := false, prevLevel := false, capts := [], starts := [],
              pllOn := false, domains := [] },
    rai := { ctx := [], part := [], plans := [], lastSlot := 0, load := none, faults := [],
             trail := [], trace := [], aborts := [], latched := [], pmap := none,
             audit := 0, auditNext := none, auditHit := 0 },
    ses := { table := [], bound := [], fresh := [] },
    sec := { memKey := (List.range 16).map fun d => (257 * d + 256, d + 1), keyGen := 17, uds := Config.firstUds,
             dik := 0, bk := 0,
             mgmtKey := none, mr := [0, 0, 0, 0],
             svn := [0, 0, 0], aliasCert := [], serial := [], running := none, rspLen := 0, reissue := false, reissueMore := false,
             debugs := 0, sealPinNs := 0, sealLatch := false, presPin := false,
             presAsserted := false },
    pwr := { busy := [] },
    nrg := { frac := [], window := [], account := 2000, now := [], prev := [], parts := [],
             ended := [], length := 0 },
    brd := { flash := [], sram := [], core0 := false, cores := false, timerCmp := [],
             timerPend := [], zenber := none, bootHash := 0, flashBusy := none,
             pstPend := [], presetPend := [], tripNew := false, markUntil := 0,
             ppsUntil := 0, thermTrip := false, thermCrit := false, tripLow := false, aonOut := false, wdtFrom := 0,
             vrFrom := 0 },
    out := [], free := 0 }

end Sys2Proof.Machine
end

