-- ==== Sys2Proof/Machine/Bits.lean ====
section
/-! DEFINITION. Sparse tables, byte stores and bit fields.

A sparse table (`Tab`) keeps strictly rising keys and no entry equal to its default; a
byte store is a table of bytes. Every multi-byte value is little-endian (R5). -/
namespace Sys2Proof.Machine
open Sys2Proof

/-! ## Sparse tables -/

/-- The entry at `k`, or the default. -/
def tabGet {α : Type} (d : α) (k : Nat) : Tab α → α
  | [] => d
  | (k', v) :: t => if k' = k then v else tabGet d k t

/-- `t` without an entry at `k`. -/
def tabErase {α : Type} (k : Nat) (t : Tab α) : Tab α := t.filter fun p => p.1 != k

/-- Put `v` at `k`, keeping the keys in order. -/
def tabIns {α : Type} (k : Nat) (v : α) : Tab α → Tab α
  | [] => [(k, v)]
  | (k', v') :: t =>
    if k < k' then (k, v) :: (k', v') :: t
    else if k = k' then (k, v) :: t
    else (k', v') :: tabIns k v t

/-- The table that reads `v` at `k`; writing the default removes the entry. -/
def tabSet {α : Type} [DecidableEq α] (d : α) (k : Nat) (v : α) (t : Tab α) : Tab α :=
  if v = d then tabErase k t else tabIns k v t

/-- Replace the entry at `k` by `f` of it. -/
def tabMod {α : Type} [DecidableEq α] (d : α) (k : Nat) (f : α → α) (t : Tab α) : Tab α :=
  tabSet d k (f (tabGet d k t)) t

/-- Drop every entry whose key satisfies `p`. -/
def tabDrop {α : Type} (p : Nat → Bool) (t : Tab α) : Tab α := t.filter fun e => !p e.1

/-- Canonical form: keys strictly rising, no entry equal to the default. -/
def tabWf {α : Type} [DecidableEq α] (d : α) : Tab α → Bool
  | [] => true
  | [(_, v)] => v != d
  | (k, v) :: (k', v') :: t => v != d && decide (k < k') && tabWf d ((k', v') :: t)

/-! ## Byte stores -/

/-- Canonical form of a byte store: addresses strictly rising, no listed byte equal to 0,
which is what an unlisted address reads as. -/
def Memory.wf (m : List Host.Cell) : Bool := tabWf (0 : Byte) m

/-- The byte at address `a`. -/
def memByte (m : List Host.Cell) (a : Nat) : Byte := tabGet 0 a m

/-- The `n` bytes from `a` as one little-endian number. -/
def memNat (m : List Host.Cell) (a n : Nat) : Nat :=
  m.foldl (fun acc c => if a ≤ c.1 && c.1 < a + n then acc + c.2.toNat <<< (8 * (c.1 - a)) else acc) 0

/-- Byte `i` of a number. -/
def byteOf (x i : Nat) : Byte := BitVec.ofNat 8 (x >>> (8 * i))

/-- The listed cells of the `n` bytes of `x` at `a`. -/
def cellsOf (a n x : Nat) : List Host.Cell :=
  ((List.range n).map fun i => (a + i, byteOf x i)).filter fun c => c.2 != 0

/-- Write the `n` low bytes of `x` at `a`. -/
def memWrite (m : List Host.Cell) (a n x : Nat) : List Host.Cell :=
  (m.filter fun c => c.1 < a) ++ cellsOf a n x ++ (m.filter fun c => a + n ≤ c.1)

/-- Make every byte of `[a, a + n)` zero. -/
def memClear (m : List Host.Cell) (a n : Nat) : List Host.Cell :=
  (m.filter fun c => c.1 < a) ++ (m.filter fun c => a + n ≤ c.1)

/-- A list of bytes as a little-endian number. -/
def bytesNat : List Byte → Nat
  | [] => 0
  | b :: t => b.toNat + 256 * bytesNat t

/-- The `n` bytes of a number, lowest first. -/
def natBytes (n x : Nat) : List Byte := (List.range n).map (byteOf x)

/-- The `n` bytes from `a`. -/
def memBytes (m : List Host.Cell) (a n : Nat) : List Byte := natBytes n (memNat m a n)

/-! ## Bit fields -/

/-- Field `[lo + w − 1 : lo]` of a number. -/
def bitsOf (x lo w : Nat) : Nat := (x >>> lo) % 2 ^ w

/-- Bit `i` of a number. -/
def bitOf (x i : Nat) : Bool := x.testBit i

/-- `x` with field `[lo + w − 1 : lo]` replaced by `v`. -/
def setBits (x lo w v : Nat) : Nat :=
  x - (bitsOf x lo w) <<< lo + (v % 2 ^ w) <<< lo

/-- A register word with a field replaced. -/
def wset (x : Word) (lo w v : Nat) : Word := BitVec.ofNat 32 (setBits x.toNat lo w v)

/-- A field of a register word. -/
def wfield (x : Word) (lo w : Nat) : Nat := bitsOf x.toNat lo w

/-- A Bool as a number. -/
def b2n (b : Bool) : Nat := if b then 1 else 0

/-- Element `i` of width `w` of a packed vector. -/
def elem {n : Nat} (v : BitVec n) (w i : Nat) : BitVec w := v.extractLsb' (i * w) w

/-- Pack elements of width `w`, the first in the low bits. -/
def packElems (w : Nat) : List (BitVec w) → Nat
  | [] => 0
  | x :: t => x.toNat + packElems w t <<< w

/-- The vector of `n` bits whose elements of width `w` are `f 0, f 1, …`. -/
def ofElems (n w : Nat) (f : Nat → BitVec w) : BitVec n :=
  BitVec.ofNat n (packElems w ((List.range (n / w)).map f))

/-- A mask of `n` bits from a predicate. -/
def maskOf (n : Nat) (f : Nat → Bool) : BitVec n :=
  BitVec.ofNat n (packElems 1 ((List.range n).map fun i => BitVec.ofBool (f i)))

/-- Choose element by element: from `a` where the mask bit is 1, else from `b`. -/
def blend (n w : Nat) {k : Nat} (m : BitVec k) (a b : BitVec n) : BitVec n :=
  ofElems n w fun i => if m.getLsbD i then elem a w i else elem b w i

/-- A two's complement number of `w` bits from an integer, wrapping. -/
def wrapInt (w : Nat) (x : Int) : BitVec w := BitVec.ofInt w x

/-- Saturate an integer into a two's complement range of `w` bits. -/
def satInt (w : Nat) (x : Int) : BitVec w :=
  if x < -(2 ^ (w - 1) : Int) then BitVec.ofInt w (-(2 ^ (w - 1) : Int))
  else if x > (2 ^ (w - 1) : Int) - 1 then BitVec.ofInt w ((2 ^ (w - 1) : Int) - 1)
  else BitVec.ofInt w x

/-- Saturate a natural number to `w` bits. -/
def satNat (w x : Nat) : Nat := if x < 2 ^ w then x else 2 ^ w - 1

/-- Add 1 to a word, wrapping. -/
def winc (x : Word) : Word := x + 1

/-- Replace the first element that satisfies `p`. -/
def updFirst {α : Type} (p : α → Bool) (f : α → α) : List α → List α
  | [] => []
  | x :: t => if p x then f x :: t else x :: updFirst p f t

/-- Insert in rising order of a rank, after equal ranks. -/
def insRank {α : Type} (r : α → Nat) (x : α) : List α → List α
  | [] => [x]
  | y :: t => if r x < r y then x :: y :: t else y :: insRank r x t

/-- Sort by rising rank, keeping equal ranks in order. -/
def sortRank {α : Type} (r : α → Nat) (l : List α) : List α :=
  l.foldl (fun acc x => insRank r x acc) []

/-- Set element `i` of a list. -/
def listSet {α : Type} (l : List α) (i : Nat) (x : α) : List α := l.set i x

/-- Ceiling of the logarithm to base 2. -/
def clog2 (n : Nat) : Nat := if n ≤ 1 then 0 else Nat.log2 (n - 1) + 1

end Sys2Proof.Machine
end

