-- ==== Sys2Proof/Machine/Crypto.lean ====
section
/-! DEFINITION. The public cryptographic functions the spec names: SHA-512, AES-256, its XTS and
GCM modes, and RSA with PSS padding (R215, R306, R308, R345, R347, R371, R373, R375). -/
namespace Sys2Proof.Machine
open Sys2Proof

/-! ## SHA-512 -/

/-- The 80 round constants of SHA-512, the first in the low bits. -/
def shaK : Nat :=
  0x6c44198c4a4758175fcb6fab3ad6faec597f299cfc657e2a4cc5d4becb3e42b6431d67c49c100d4c3c9ebe0a15c9bebc32caab7b40c7249328db77f523047d841b710b35131c471b113f9804bef90dae0a637dc5a2c898a606f067aa72176fbaf57d4f7fee6ed178eada7dd6cde0eb1ed186b8c721c0c207ca273eceea26619cc67178f2e372532bbef9a3f7b2c67915a4506cebde82bde990befffa23631e288cc702081a6439ec84c87814a1f0ab7278a5636f43172f60748f82ee5defb2fc682e6ff3d6b2b8a35b9cca4f7763e3734ed8aa4ae3418acb391c0cb3c5c95a6334b0bcb5e19b48a82748774cdf8eeb991e376c085141ab5319a4c116b8d2d0c8106aa07032bbd1b8f40e35855771202ad69906245565a910d192e819d6ef5218c76c51a30654be30c24b8b70d0f89791a81a664bbc423001a2bfe8a14cf1036492722c851482353b81c2c92e47edaee6766a0abb3c77b2a8650a73548baf63de53380d139d95b3df4d2c6dfc5ac42aed2e1b21385c26c92627b70a8546d22ffc142929670a0e6e7006ca6351e003826fd5a79147930aa725c6e00bf33da88fc2bf597fc7beef0ee4b00327c898fb213fa831c66d2db43210983e5152ee66dfab76f988da831153b55cb0a9dcbd41fbd44a7484aa6ea6e4832de92c6f592b0275240ca1cc77ac9c650fc19dc68b8cd5b5efbe4786384f25e3e49b69c19ef14ad2c19bf174cf6926949bdc06a725c7123580deb1fe3b1696b172be5d74f27b896f550c7dc3d5ffb4e2243185be4ee4b28c12835b0145706fbed807aa98a3030242ab1c5ed5da6d8118923f82a4af194f9b59f111f1b605d0193956c25bf348b538e9b5dba58189dbbcb5c0fbcfec4d3b2f7137449123ef65cd428a2f98d728ae22

/-- The initial hash words of SHA-512. -/
def shaH : Nat :=
  0x5be0cd19137e21791f83d9abfb41bd6b9b05688c2b3e6c1f510e527fade682d1a54ff53a5f1d36f13c6ef372fe94f82bbb67ae8584caa73b6a09e667f3bcc908

/-- Word `i` of 64 bits of a packed table. -/
def packed64 (t i : Nat) : BitVec 64 := BitVec.ofNat 64 (t >>> (64 * i))

/-- Big-endian number of a list of bytes. -/
def bytesBE (l : List Byte) : Nat := l.foldl (fun a b => a * 256 + b.toNat) 0

/-- The `n` bytes of a number, highest first. -/
def natBytesBE (n x : Nat) : List Byte := (natBytes n x).reverse

/-- The padded message: a one bit, zeros, the length in 128 bits. -/
def shaPad (m : List Byte) : List Byte :=
  m ++ [0x80] ++ List.replicate ((239 - m.length % 128) % 128) 0 ++ natBytesBE 16 (8 * m.length)

/-- The next words of the message schedule. -/
def shaSched : Nat → List (BitVec 64) → List (BitVec 64)
  | 0, w => w
  | n + 1, w =>
    -- `w` holds the words so far, newest first
    let a := w.getD 14 0
    let b := w.getD 1 0
    let s0 := a.rotateRight 1 ^^^ a.rotateRight 8 ^^^ a >>> 7
    let s1 := b.rotateRight 19 ^^^ b.rotateRight 61 ^^^ b >>> 6
    shaSched n ((w.getD 15 0 + s0 + w.getD 6 0 + s1) :: w)

/-- One round: the eight working words and a round constant plus schedule word. -/
def shaRound (h : List (BitVec 64)) (kw : BitVec 64) : List (BitVec 64) :=
  match h with
  | [a, b, c, d, e, f, g, k] =>
    let s1 := e.rotateRight 14 ^^^ e.rotateRight 18 ^^^ e.rotateRight 41
    let t1 := k + s1 + ((e &&& f) ^^^ (~~~e &&& g)) + kw
    let s0 := a.rotateRight 28 ^^^ a.rotateRight 34 ^^^ a.rotateRight 39
    let t2 := s0 + ((a &&& b) ^^^ (a &&& c) ^^^ (b &&& c))
    [t1 + t2, a, b, c, d + t1, e, f, g]
  | h => h

/-- Compress one block of 128 bytes. -/
def shaBlock (h : List (BitVec 64)) (blk : List Byte) : List (BitVec 64) :=
  let w0 := (List.range 16).map fun i => BitVec.ofNat 64 (bytesBE ((blk.drop (8 * i)).take 8))
  let w := (shaSched 64 w0.reverse).reverse
  let z := ((List.range 80).zip w).foldl (fun acc x => shaRound acc (packed64 shaK x.1 + x.2)) h
  (h.zip z).map fun x => x.1 + x.2

/-- Compress `n` blocks. -/
def shaBlocks : Nat → List (BitVec 64) → List Byte → List (BitVec 64)
  | 0, h, _ => h
  | n + 1, h, m => shaBlocks n (shaBlock h (m.take 128)) (m.drop 128)

/-- SHA-512 as its 64 bytes in order. -/
def sha512Bytes (m : List Byte) : List Byte :=
  let p := shaPad m
  (shaBlocks (p.length / 128) ((List.range 8).map (packed64 shaH)) p).flatMap fun w => natBytesBE 8 w.toNat

/-- SHA-512 with byte 0 in the low bits, as the spec stores hashes (R5). -/
def sha512 (m : List Byte) : BitVec 512 := BitVec.ofNat 512 (bytesNat (sha512Bytes m))

/-! ## AES-256 -/

/-- The AES S-box, entry 0 in the low bits. -/
def aesS : Nat :=
  0x16bb54b00f2d99416842e6bf0d89a18cdf2855cee9871e9b948ed9691198f8e19e1dc186b95735610ef6034866b53e708a8bbd4b1f74dde8c6b4a61c2e2578ba08ae7a65eaf4566ca94ed58d6d37c8e779e4959162acd3c25c2406490a3a32e0db0b5ede14b8ee4688902a22dc4f816073195d643d7ea7c41744975fec130ccdd2f3ff1021dab6bcf5389d928f40a351a89f3c507f02f94585334d43fbaaefd0cf584c4a39becb6a5bb1fc20ed00d153842fe329b3d63b52a05a6e1b1a2c830975b227ebe28012079a059618c323c7041531d871f1e5a534ccf73f362693fdb7c072a49cafa2d4adf04759fa7dc982ca76abd7fe2b670130c56f6bf27b777c63

/-- The inverse AES S-box. -/
def aesInvS : Nat :=
  0x7d0c2155631469e126d677ba7e042b17619953833cbbebc8b0f52aae4d3be0a0ef9cc9939f7ae52d0d4ab519a97f51605fec8027591012b131c7078833a8dd1ff45acd78fec0db9a2079d2c64b3e56fc1bbe18aa0e62b76f89c5291d711af1476edf751ce837f9e28535ade72274ac9673e6b4f0cecff297eadc674f4111913a6b8a130103bdafc1020f3fca8f1e2cd00645b3b80558e4f70ad3bc8c00abd890849d8da75746155edab9edfd5048706c92b6655dcc5ca4d41698688664f6f87225d18b6d49a25b76b224d92866a12e084ec3fa420b954cee3d23c2a632947b54cbe9dec444438e3487ff2f9b8239e37cfbd7f3819ea340bf38a53630d56a0952

/-- Multiply by x in GF(2^8). -/
def gfX (b : Byte) : Byte := (b <<< 1) ^^^ (if b.getLsbD 7 then 0x1B else 0)

/-- Product in GF(2^8): by the two small factors of encryption, and bit by bit of the second factor. -/
def gfMul (a b : Byte) : Byte :=
  if b = 1 then a
  else if b = 2 then gfX a
  else if b = 3 then gfX a ^^^ a
  else ((List.range 8).foldl (fun (acc : Byte × Byte) i =>
    (if b.getLsbD i then acc.1 ^^^ acc.2 else acc.1, gfX acc.2)) (0, a)).1

def aesSub (b : Byte) : Byte := BitVec.ofNat 8 (aesS >>> (8 * b.toNat))
def aesInvSub (b : Byte) : Byte := BitVec.ofNat 8 (aesInvS >>> (8 * b.toNat))

/-- XOR of two lists of bytes. -/
def xorBytes (a b : List Byte) : List Byte := (a.zip b).map fun x => x.1 ^^^ x.2

/-- The next words of the key schedule; `w` holds the words so far, newest first, `i` is the number
of the next word and `rc` the round constant. -/
def aesSched : Nat → Nat → Byte → List (List Byte) → List (List Byte)
  | 0, _, _, w => w
  | n + 1, i, rc, w =>
    let t := w.headD []
    let t' := if i % 8 = 0 then xorBytes ((t.drop 1 ++ t.take 1).map aesSub) [rc, 0, 0, 0]
      else if i % 8 = 4 then t.map aesSub else t
    aesSched n (i + 1) (if i % 8 = 0 then gfX rc else rc) (xorBytes (w.getD 7 []) t' :: w)

/-- The 15 round keys of AES-256. -/
def aesKeys (key : List Byte) : List (List Byte) :=
  let w0 := ((List.range 8).map fun i => (key.drop (4 * i)).take 4).reverse
  let w := (aesSched 52 8 1 w0).reverse
  (List.range 15).map fun r => ((w.drop (4 * r)).take 4).flatten

/-- ShiftRows and its inverse. -/
def aesShift (s : List Byte) : List Byte := (List.range 16).map fun i => s.getD ((5 * i) % 16) 0
def aesInvShift (s : List Byte) : List Byte := (List.range 16).map fun i => s.getD ((13 * i) % 16) 0

/-- MixColumns with the first row of coefficients `m`. -/
def aesMix (m : List Byte) (s : List Byte) : List Byte :=
  (List.range 16).map fun i =>
    (List.range 4).foldl (fun acc k => acc ^^^ gfMul (s.getD (i / 4 * 4 + k) 0) (m.getD ((k + 4 - i % 4) % 4) 0)) 0

/-- AES-256 encryption of one block. -/
def aesEnc (key blk : List Byte) : List Byte :=
  let ks := aesKeys key
  let s := ((ks.drop 1).take 13).foldl
    (fun s k => xorBytes (aesMix [2, 3, 1, 1] (aesShift (s.map aesSub))) k) (xorBytes blk (ks.headD []))
  xorBytes (aesShift (s.map aesSub)) (ks.getD 14 [])

/-- AES-256 decryption of one block. -/
def aesDec (key blk : List Byte) : List Byte :=
  let ks := (aesKeys key).reverse
  let s := ((ks.drop 1).take 13).foldl
    (fun s k => aesMix [14, 11, 13, 9] (xorBytes ((aesInvShift s).map aesInvSub) k)) (xorBytes blk (ks.headD []))
  xorBytes ((aesInvShift s).map aesInvSub) (ks.getD 14 [])

/-- Multiply an XTS tweak by x. -/
def xtsX (t : Nat) : Nat := (2 * t) % 2 ^ 128 ^^^ (if t.testBit 127 then 0x87 else 0)

/-- XTS over `n` whole blocks; `key` is the data key and then the tweak key, 32 bytes each. -/
def xtsBlocks (enc : Bool) (k : List Byte) : Nat → Nat → List Byte → List Byte
  | 0, _, _ => []
  | n + 1, t, d =>
    let tw := natBytes 16 t
    let x := xorBytes (d.take 16) tw
    xorBytes (if enc then aesEnc k x else aesDec k x) tw ++ xtsBlocks enc k n (xtsX t) (d.drop 16)

/-- AES-256-XTS of a data unit under a key pair of 64 bytes, with a tweak number. -/
def xts (enc : Bool) (key : BitVec 512) (tweak : Nat) (d : List Byte) : List Byte :=
  let k1 := natBytes 32 (key.toNat % 2 ^ 256)
  let k2 := natBytes 32 (key.toNat / 2 ^ 256)
  xtsBlocks enc k1 (d.length / 16) (bytesNat (aesEnc k2 (natBytes 16 tweak))) d

/-! ## GCM -/

/-- Product in GF(2^128) in GCM's bit order. -/
def ghMul (x y : BitVec 128) : BitVec 128 :=
  ((List.range 128).foldl (fun (acc : BitVec 128 × BitVec 128) i =>
    (if x.getMsbD i then acc.1 ^^^ acc.2 else acc.1,
     if acc.2.getLsbD 0 then (acc.2 >>> 1) ^^^ (0xE1 <<< 120) else acc.2 >>> 1)) (0, y)).1

/-- A list of bytes cut in blocks of 16, the last padded with zeros. -/
def blocks16 (l : List Byte) : List (List Byte) :=
  (List.range ((l.length + 15) / 16)).map fun i =>
    let b := (l.drop (16 * i)).take 16
    b ++ List.replicate (16 - b.length) 0

/-- GHASH of whole blocks. -/
def ghash (h : BitVec 128) (bs : List (List Byte)) : BitVec 128 :=
  bs.foldl (fun y b => ghMul (y ^^^ BitVec.ofNat 128 (bytesBE b)) h) 0

/-- The tag of AES-256-GCM over authenticated data and a ciphertext, with a 96-bit nonce. -/
def gcmTag (key nonce aad ct : List Byte) : List Byte :=
  let h := BitVec.ofNat 128 (bytesBE (aesEnc key (List.replicate 16 0)))
  let y := ghash h (blocks16 aad ++ blocks16 ct ++
    [natBytesBE 8 (8 * aad.length) ++ natBytesBE 8 (8 * ct.length)])
  xorBytes (natBytesBE 16 y.toNat) (aesEnc key (nonce ++ natBytesBE 4 1))

/-- The GCM keystream applied to data (encryption and decryption). -/
def gcmCrypt (key nonce d : List Byte) : List Byte :=
  (List.range ((d.length + 15) / 16)).flatMap fun i =>
    xorBytes ((d.drop (16 * i)).take 16) (aesEnc key (nonce ++ natBytesBE 4 (i + 2)))

/-! ## RSA-4096 with PSS -/

/-- `b ^ e mod m`, by the bits of `e`, lowest first. -/
def powMod (m : Nat) : Nat → Nat → Nat → Nat → Nat
  | 0, _, _, acc => acc
  | n + 1, b, e, acc =>
    if e = 0 then acc
    else powMod m n (b * b % m) (e / 2) (if e % 2 = 1 then acc * b % m else acc)

/-- Mask generation of PSS with SHA-512. -/
def mgf1 (seed : List Byte) (n : Nat) : List Byte :=
  ((List.range ((n + 63) / 64)).flatMap fun i => sha512Bytes (seed ++ natBytesBE 4 i)).take n

/-- Whether a signature of 512 bytes over a message hash verifies under a modulus: exponent 65,537,
SHA-512, a salt of 64 bytes. Modulus and signature are big-endian. -/
def pssVerify (modulus sig : List Byte) (hash : List Byte) : Bool :=
  let n := bytesBE modulus
  let s := bytesBE sig
  if n ≤ s then false
  else
    let em := natBytesBE 512 (powMod n 17 s 65537 1)
    let db := em.take 447
    let h := (em.drop 447).take 64
    let d := xorBytes db (mgf1 h 447)
    let d := (d.headD 0 &&& 0x7F) :: d.drop 1
    let salt := d.drop 383
    em.getD 511 0 = 0xBC && (db.headD 0).toNat < 0x80 &&
    (d.take 382).all (· = 0) && d.getD 382 0 = 1 &&
    sha512Bytes (List.replicate 8 0 ++ hash ++ salt) = h

/-- The encoded message of a PSS signature over a message hash with a salt of 64 bytes. -/
def pssEncode (hash salt : List Byte) : List Byte :=
  let h := sha512Bytes (List.replicate 8 0 ++ hash ++ salt)
  let db := xorBytes (List.replicate 382 0 ++ [1] ++ salt) (mgf1 h 447)
  ((db.headD 0 &&& 0x7F) :: db.drop 1) ++ h ++ [0xBC]

/-- The PSS signature over a message hash by a private key: its modulus and exponent. -/
def pssSign (key : BitVec 4096 × BitVec 4096) (hash salt : List Byte) : List Byte :=
  natBytesBE 512 (powMod key.1.toNat 4096 (bytesBE (pssEncode hash salt)) key.2.toNat 1)

/-! ## RSAES-OAEP with SHA-512 (R371, R373, R376) -/

/-- The ciphertext of a message of at most 382 bytes under a modulus, with exponent 65,537 and a seed of 64 random
bytes. -/
def oaepSeal (modulus label seed m : List Byte) : List Byte :=
  let db := sha512Bytes label ++ List.replicate (382 - m.length) 0 ++ [1] ++ m
  let hidden := xorBytes db (mgf1 seed 447)
  natBytesBE 512 (powMod (bytesBE modulus) 17 (bytesBE (xorBytes seed (mgf1 hidden 64) ++ hidden)) 65537 1)

/-- What follows the zeros and the 1 of a padded message; none if the padding is wrong. -/
def oaepTail : List Byte → Option (List Byte)
  | [] => none
  | b :: t => if b = 0 then oaepTail t else if b = 1 then some t else none

/-- The message of a ciphertext of 512 bytes under a private key; none if it does not unwrap. -/
def oaepOpen (key : BitVec 4096 × BitVec 4096) (label c : List Byte) : Option (List Byte) :=
  if c.length ≠ 512 || key.1.toNat ≤ bytesBE c then none
  else
    let em := natBytesBE 512 (powMod key.1.toNat 4096 (bytesBE c) key.2.toNat 1)
    let hidden := em.drop 65
    let db := xorBytes hidden (mgf1 (xorBytes ((em.drop 1).take 64) (mgf1 hidden 64)) 447)
    if em.headD 0 = 0 && db.take 64 = sha512Bytes label then oaepTail (db.drop 64) else none

/-! ## HKDF-SHA-512 (R365, R371, R376) -/

/-- HMAC with SHA-512. -/
def hmac512 (key m : List Byte) : List Byte :=
  let k := if 128 < key.length then sha512Bytes key else key
  let k := k ++ List.replicate (128 - k.length) 0
  sha512Bytes (k.map (· ^^^ 0x5C) ++ sha512Bytes (k.map (· ^^^ 0x36) ++ m))

/-- The blocks of HKDF's expansion from block `i` on. -/
def hkdfBlocks (prk info : List Byte) : Nat → Nat → List Byte → List Byte
  | 0, _, _ => []
  | n + 1, i, last =>
    let t := hmac512 prk (last ++ info ++ natBytes 1 i)
    t ++ hkdfBlocks prk info n (i + 1) t

/-- `n` bytes of HKDF from a secret, a salt and an info string. -/
def hkdf (ikm salt info : List Byte) (n : Nat) : List Byte :=
  (hkdfBlocks (hmac512 salt ikm) info ((n + 63) / 64) 1 []).take n

/-- The characters of a text as bytes. -/
def textBytes (t : String) : List Byte := t.toList.map fun c => BitVec.ofNat 8 c.toNat

/-! ## The FCS of IEEE 802.3 (R291, R294) -/

/-- One bit of CRC-32. -/
def crcBit (c : Nat) : Nat := if c % 2 = 1 then c / 2 ^^^ 0xEDB88320 else c / 2

/-- One byte of CRC-32. -/
def crcByte (c : Nat) (b : Byte) : Nat :=
  crcBit (crcBit (crcBit (crcBit (crcBit (crcBit (crcBit (crcBit (c ^^^ b.toNat))))))))

/-- The FCS of a frame's bytes. -/
def crc32 (l : List Byte) : Nat := 0xFFFFFFFF ^^^ l.foldl crcByte 0xFFFFFFFF

/-! ## DER (R368 to R370) -/

/-- The length bytes of a DER value. -/
def derLen (n : Nat) : List Byte :=
  if n < 0x80 then natBytes 1 n
  else if n < 0x100 then natBytesBE 2 (0x8100 + n)
  else natBytesBE 3 (0x820000 + n)

/-- A DER value with its tag. -/
def der (tag : Nat) (l : List Byte) : List Byte := natBytes 1 tag ++ derLen l.length ++ l

/-- Bytes of a nonnegative INTEGER: one more than its highest bit needs. -/
def derIntLen : Nat → Nat → Nat
  | 0, _ => 1
  | f + 1, x => if x < 0x80 then 1 else 1 + derIntLen f (x / 0x100)

/-- A nonnegative INTEGER of at most 4,096 bits. -/
def derInt (x : Nat) : List Byte := der 0x02 (natBytesBE (derIntLen 513 x) x)

/-- Other values: SEQUENCE, OCTET STRING, BIT STRING of whole bytes, ENUMERATED, BOOLEAN, UTF8String. -/
def derSeq (l : List Byte) : List Byte := der 0x30 l
def derOctets (l : List Byte) : List Byte := der 0x04 l
def derBits (l : List Byte) : List Byte := der 0x03 (0 :: l)
def derEnum (x : Nat) : List Byte := der 0x0A (natBytes 1 x)
def derBool (b : Bool) : List Byte := der 0x01 [if b then 0xFF else 0]
def derUtf8 (t : String) : List Byte := der 0x0C (textBytes t)

/-- The next value of some DER bytes: its tag, its contents, the whole of it, and the bytes after it. -/
def derNext (l : List Byte) : Option (Nat × List Byte × List Byte × List Byte) :=
  match l with
  | t :: n :: r =>
    let k := if n.toNat < 0x80 then 0 else n.toNat % 0x80
    let len := if n.toNat < 0x80 then n.toNat else bytesBE (r.take k)
    if 4 < k || r.length < k + len then none
    else some (t.toNat, (r.drop k).take len, l.take (2 + k + len), (r.drop k).drop len)
  | _ => none

/-- The values that some DER bytes hold one after another, each as its tag, its contents and the whole of it; none
if they are not DER. `f` bounds their number. -/
def derList : Nat → List Byte → Option (List (Nat × List Byte × List Byte))
  | 0, _ => none
  | f + 1, l =>
    if l.isEmpty then some []
    else match derNext l with
      | none => none
      | some (t, c, w, r) => (derList f r).map fun x => (t, c, w) :: x

/-- The SubjectPublicKeyInfo of an RSA key with exponent 65,537 (log 103). -/
def spki (modulus : List Byte) : List Byte :=
  derSeq (derSeq (der 0x06 [0x2A, 0x86, 0x48, 0x86, 0xF7, 0x0D, 0x01, 0x01, 0x01] ++ [0x05, 0x00]) ++
    derBits (derSeq (derInt (bytesBE modulus) ++ derInt 65537)))

end Sys2Proof.Machine
end

