-- ==== Sys2Proof/Machine/Regs.lean ====
section
/-! DEFINITION. The register map: which pages exist (R442, R443), the rows of every page's
register tables (R88, R96, R107, R108, R138, R223, R235, R255, R285, R286, R310, R328,
R341, R362, R363, R391, R401, R409, R410, R437 to R439, R446, R450, R451, R455, R456,
R459, R460, R475, R476, R492), and the reset value of each register (R8). -/
namespace Sys2Proof.Machine
open Sys2Proof

/-- The kinds of register page; the DIE and DBG pages differ by die, OPN 16 and the three
TIM instances have tables of their own. -/
inductive Blk where
  | clu | vlt | pln | rgn | die | dieS | xbr | d2d | prt | slt | lnd | lse | opn | opn16 | mgt | tim0 | tim1 | tim2 | nrg | pwr | sec | pst | trl | ses | dbgC | dbgE | dbgS | brd
deriving DecidableEq, Repr

/-- How a register takes part in a latched pair (R444): not at all; as the LO or HI word;
as a row whose words alternate LO and HI; as four words of which the first latches the
others (R88). -/
inductive Latch where
  | no | lo | hi | alt | quad
deriving DecidableEq, Repr

/-- One row of a register table: offset, count and stride; the bits software can set, the
bits a 1 clears, the reset value; the bits that CNT_CLEAR zeroes (R446); its latch. -/
structure RegRow where
  off    : Nat
  n      : Nat
  stride : Nat
  rw     : Nat
  w1c    : Nat
  reset  : Nat
  cnt    : Nat
  lat    : Latch
deriving DecidableEq, Repr

/-- The STAT bits of a block that a 1 clears. -/
def statW1c : Blk → Nat
  | .vlt => 0x1
  | .dieS => 0x7
  | .prt => 0x1
  | .slt => 0x1
  | .lnd => 0x1
  | .lse => 0x1
  | .opn => 0x1
  | .opn16 => 0x1
  | .mgt => 0x1
  | .tim0 => 0x1
  | .tim2 => 0x1
  | .nrg => 0x7
  | .pst => 0xE
  | .trl => 0x1
  | .ses => 0x1
  | .dbgS => 0x1
  | _ => 0

/-- Rows of the common layout, STAT apart (R446). -/
def commonRows : List RegRow := [
  ⟨0, 1, 0, 0, 0, 0, 0, .no⟩,
  ⟨4, 1, 0, 0, 0, 0x01000000, 0, .no⟩,
  ⟨8, 1, 0, 2, 0, 0x0, 0, .no⟩,
  ⟨0xC, 1, 0, 0, 0, 0x0, 0, .no⟩,
  ⟨0x10, 1, 0, 0, 0xFFFF, 0x0, 0, .no⟩,
  ⟨0x14, 1, 0, 0xFFFF, 0, 0x0, 0, .no⟩,
  ⟨0x18, 1, 0, 0, 0, 0x0, 0, .no⟩,
  ⟨0x1C, 1, 0, 0, 0, 0x0, 0, .no⟩,
  ⟨0x20, 1, 0, 0, 0, 0x0, 0, .no⟩,
  ⟨0x24, 1, 0, 0, 0, 0x0, 0, .no⟩,
  ⟨0x28, 1, 0, 0, 0, 0x0, 0, .no⟩,
  ⟨0x2C, 1, 0, 0, 0, 0x0, 0, .no⟩,
  ⟨0x30, 2, 4, 0, 0, 0x0, 0, .alt⟩]

/-- Rows of CLU: SEQ_STAT, BENT_TAG0/1, NEXT_BENT, ENTRY_STAT, COLL_LAST, PEG_VAL, PEG_CMP, EXT_LO/HI (R138). -/
def rowsClu : List RegRow := [
  ⟨0x40, 1, 0, 0, 0, 0x0, 0, .no⟩,
  ⟨0x44, 2, 4, 0, 0, 0x0, 0, .no⟩,
  ⟨0x4C, 1, 0, 0, 0, 0x0, 0, .no⟩,
  ⟨0x50, 1, 0, 0, 0, 0x0, 0, .no⟩,
  ⟨0x54, 1, 0, 0, 0, 0x0, 0, .no⟩,
  ⟨0x80, 16, 4, 0, 0, 0x0, 0, .no⟩,
  ⟨0xC0, 16, 4, 0, 0, 0x0, 0, .no⟩,
  ⟨0x100, 16, 4, 0, 0, 0x0, 0, .alt⟩]

/-- Rows of VLT: IMAP, CARVE, SCRUB_CFG, SCRUB_POS, SCRUB_PASSES, CE_COUNT, UE_COUNT, POISON_COUNT, ERR_LOG, CE_LAST, RETIRE, RETIRE_STAT, INIT_CTRL, VCOLL_LAST, HOST_COLS, CTX_ROWS, RETIRED (R223). -/
def rowsVlt : List RegRow := [
  ⟨0x40, 1, 0, 0, 0, 0x2, 0, .no⟩,
  ⟨0x44, 1, 0, 0x7FFF7FFF, 0, 0, 0, .no⟩,
  ⟨0x48, 1, 0, 0xFFFF, 0, 0x258, 0, .no⟩,
  ⟨0x4C, 1, 0, 0, 0, 0x0, 0, .no⟩,
  ⟨0x50, 1, 0, 0, 0, 0x0, 0xFFFFFFFF, .no⟩,
  ⟨0x54, 1, 0, 0, 0, 0x0, 0xFFFFFFFF, .no⟩,
  ⟨0x58, 1, 0, 0, 0, 0x0, 0xFFFFFFFF, .no⟩,
  ⟨0x5C, 1, 0, 0, 0, 0x0, 0xFFFFFFFF, .no⟩,
  ⟨0x60, 1, 0, 0, 0, 0x0, 0, .no⟩,
  ⟨0x64, 1, 0, 0, 0, 0x0, 0, .no⟩,
  ⟨0x68, 1, 0, 0, 0, 0x0, 0, .no⟩,
  ⟨0x6C, 1, 0, 0, 0, 0x0, 0, .no⟩,
  ⟨0x70, 1, 0, 0, 0, 0x0, 0, .no⟩,
  ⟨0x74, 1, 0, 0, 0, 0x0, 0, .no⟩,
  ⟨0x78, 1, 0, 0, 0, 0x0, 0xFFFFFFFF, .no⟩,
  ⟨0x400, 256, 4, 0, 0, 0x0, 0, .no⟩,
  ⟨0x800, 16, 4, 0, 0, 0x0, 0, .no⟩]

/-- Rows of PLN: TSTAT, TVALID, COLS, BYTES_LO/HI, DERR_COUNT, DERR_LAST, GATED_COLS (R235). -/
def rowsPln : List RegRow := [
  ⟨0x40, 1, 0, 0, 0, 0x0, 0, .no⟩,
  ⟨0x44, 1, 0, 0, 0, 0x0, 0, .no⟩,
  ⟨0x48, 1, 0, 0, 0, 0x0, 0xFFFFFFFF, .no⟩,
  ⟨0x4C, 2, 4, 0, 0, 0x0, 0xFFFFFFFF, .alt⟩,
  ⟨0x54, 1, 0, 0, 0, 0x0, 0xFFFFFFFF, .no⟩,
  ⟨0x58, 1, 0, 0, 0, 0x0, 0, .no⟩,
  ⟨0x5C, 1, 0, 0, 0, 0x0, 0xFFFFFFFF, .no⟩]

/-- Rows of RGN: STRETCH_CFG, STRETCH_OWN, STRETCH_TAKEN, LAG_MAX, CORR_LAST, CYCLE_LO/HI, MASK (R108, R455). -/
def rowsRgn : List RegRow := [
  ⟨0x40, 1, 0, 0x1F, 0, 0x6, 0, .no⟩,
  ⟨0x44, 1, 0, 0, 0, 0x0, 0xFFFFFFFF, .no⟩,
  ⟨0x48, 1, 0, 0, 0, 0x0, 0xFFFFFFFF, .no⟩,
  ⟨0x4C, 1, 0, 0, 0, 0x0, 0xFFFFFFFF, .no⟩,
  ⟨0x50, 1, 0, 0, 0, 0x0, 0, .no⟩,
  ⟨0x58, 2, 4, 0, 0, 0x0, 0, .alt⟩,
  ⟨0x60, 1, 0, 0, 0, 0x0, 0, .no⟩]

/-- Rows of DIE: DIE_INFO, LINK_STAT, TEMP, SELFTEST, CLU_PEND, VLT_PEND, PLN_PEND, XCAL_RESULT, XCAL_SLIPS, XCAL_LAG_MAX (R450, R107). -/
def rowsDie : List RegRow := [
  ⟨0x40, 1, 0, 0, 0, 0x10, 0, .no⟩,
  ⟨0x44, 1, 0, 0, 0, 0x0, 0, .no⟩,
  ⟨0x48, 1, 0, 0, 0, 0x0, 0, .no⟩,
  ⟨0x4C, 1, 0, 0, 0, 0x0, 0, .no⟩,
  ⟨0x60, 4, 4, 0, 0, 0x0, 0, .no⟩,
  ⟨0x70, 4, 4, 0, 0, 0x0, 0, .no⟩,
  ⟨0x80, 4, 4, 0, 0, 0x0, 0, .no⟩,
  ⟨0x100, 16, 0x10, 0, 0, 0x0, 0, .no⟩,
  ⟨0x104, 16, 0x10, 0, 0, 0x0, 0xFFFFFFFF, .no⟩,
  ⟨0x108, 16, 0x10, 0, 0, 0x0, 0, .no⟩]

/-- Rows of DIE@19: DIE_INFO, TEMP, PART_DIES, PORT_PART, EE01_SHARE, EE12_SHARE, PRESET, PRESET_STATE, ROT_CFG, ROT_POS, ROT, LIVE_DIES, LIVE_PORT, LIVE_EE01, LIVE_EE12, PMAP_CMD, PMAP_STAT (R451, R439). -/
def rowsDieS : List RegRow := [
  ⟨0x40, 1, 0, 0, 0, 0x10, 0, .no⟩,
  ⟨0x48, 1, 0, 0, 0, 0x0, 0, .no⟩,
  ⟨0x100, 16, 4, 0xFFFF, 0, 0x0, 0, .no⟩,
  ⟨0x140, 48, 4, 0x1F, 0, 0x0, 0, .no⟩,
  ⟨0x200, 16, 4, 0x1F, 0, 0x0, 0, .no⟩,
  ⟨0x240, 16, 4, 0x1F, 0, 0x0, 0, .no⟩,
  ⟨0x300, 1, 0, 0, 0, 0x0, 0, .no⟩,
  ⟨0x310, 16, 4, 0, 0, 0x1, 0, .no⟩,
  ⟨0x380, 16, 4, 0x1F, 0, 0x0, 0, .no⟩,
  ⟨0x3C0, 16, 4, 0, 0, 0x0, 0, .no⟩,
  ⟨0x400, 256, 4, 0x1FFFFFF, 0, 0x0, 0, .no⟩,
  ⟨0x800, 16, 4, 0, 0, 0x0, 0, .no⟩,
  ⟨0x840, 48, 4, 0, 0, 0x0, 0, .no⟩,
  ⟨0x900, 16, 4, 0, 0, 0x0, 0, .no⟩,
  ⟨0x940, 16, 4, 0, 0, 0x0, 0, .no⟩,
  ⟨0x980, 1, 0, 0, 0, 0x0, 0, .no⟩,
  ⟨0x984, 1, 0, 0, 0, 0x0, 0, .no⟩]

/-- Rows of XBR: XCOLL_LAST, XFERS, EMPTY_RX (R455). -/
def rowsXbr : List RegRow := [
  ⟨0x40, 1, 0, 0, 0, 0x0, 0, .no⟩,
  ⟨0x44, 1, 0, 0, 0, 0x0, 0xFFFFFFFF, .no⟩,
  ⟨0x48, 1, 0, 0, 0, 0x0, 0xFFFFFFFF, .no⟩]

/-- Rows of D2D: HSTAT, HOST_REQS, HOST_ERRS, SCHED_XFERS (R456). -/
def rowsD2d : List RegRow := [
  ⟨0x40, 1, 0, 0, 0, 0x0, 0, .no⟩,
  ⟨0x44, 1, 0, 0, 0, 0x0, 0xFFFFFFFF, .no⟩,
  ⟨0x48, 1, 0, 0, 0, 0x0, 0xFFFFFFFF, .no⟩,
  ⟨0x4C, 1, 0, 0, 0, 0x0, 0xFFFFFFFF, .no⟩]

/-- Rows of PRT: CFG, LSTAT, PARTNER, DELAY, VERSION, FEATURES, TIMERS, MAC_LO, MAC_HI, RBUF, CREDITS, FEC_CORR, FEC_UNCORR, FCS_ERR, TAG_ERR, STOMP_RX, NAK_TX, NAK_RX, REPLAYED, TIMEOUTS, DOWN_COUNT, DUP_RX, CREDIT_WAITS (R310). -/
def rowsPrt : List RegRow := [
  ⟨0x40, 1, 0, 0, 0, 0x10, 0, .no⟩,
  ⟨0x44, 1, 0, 0, 0, 0x0, 0, .no⟩,
  ⟨0x48, 1, 0, 0, 0, 0x0, 0, .no⟩,
  ⟨0x4C, 1, 0, 0, 0, 0x0, 0, .no⟩,
  ⟨0x50, 1, 0, 0, 0, 0x0, 0, .no⟩,
  ⟨0x54, 1, 0, 0, 0, 0x0, 0, .no⟩,
  ⟨0x58, 1, 0, 0xFFFFFF, 0, 0x5000C8, 0, .no⟩,
  ⟨0x5C, 1, 0, 0xFFFFFFFF, 0, 0x0, 0, .lo⟩,
  ⟨0x60, 1, 0, 0xFFFF, 0, 0x0, 0, .hi⟩,
  ⟨0x64, 1, 0, 0, 0, 0x0, 0xFFF0000, .no⟩,
  ⟨0x68, 1, 0, 0, 0, 0x0, 0, .no⟩,
  ⟨0x80, 1, 0, 0, 0, 0x0, 0xFFFFFFFF, .no⟩,
  ⟨0x84, 1, 0, 0, 0, 0x0, 0xFFFFFFFF, .no⟩,
  ⟨0x88, 1, 0, 0, 0, 0x0, 0xFFFFFFFF, .no⟩,
  ⟨0x8C, 1, 0, 0, 0, 0x0, 0xFFFFFFFF, .no⟩,
  ⟨0x90, 1, 0, 0, 0, 0x0, 0xFFFFFFFF, .no⟩,
  ⟨0x94, 1, 0, 0, 0, 0x0, 0xFFFFFFFF, .no⟩,
  ⟨0x98, 1, 0, 0, 0, 0x0, 0xFFFFFFFF, .no⟩,
  ⟨0x9C, 1, 0, 0, 0, 0x0, 0xFFFFFFFF, .no⟩,
  ⟨0xA0, 1, 0, 0, 0, 0x0, 0xFFFFFFFF, .no⟩,
  ⟨0xA4, 1, 0, 0, 0, 0x0, 0xFFFFFFFF, .no⟩,
  ⟨0xA8, 1, 0, 0, 0, 0x0, 0xFFFFFFFF, .no⟩,
  ⟨0xAC, 1, 0, 0, 0, 0x0, 0xFFFFFFFF, .no⟩]

/-- Rows of SLT: SCOLL_LAST, STRAY_COUNT, LATE_COUNT, STOMP_COUNT, BACKLOG_MAX, BRACE_LEAD, BRACE_STAT, SET_CFG, SET_CTRL, SET_PORTS (R285). -/
def rowsSlt : List RegRow := [
  ⟨0x40, 1, 0, 0, 0, 0x0, 0, .no⟩,
  ⟨0x44, 1, 0, 0, 0, 0x0, 0xFFFFFFFF, .no⟩,
  ⟨0x48, 1, 0, 0, 0, 0x0, 0xFFFFFFFF, .no⟩,
  ⟨0x4C, 1, 0, 0, 0, 0x0, 0xFFFFFFFF, .no⟩,
  ⟨0x50, 1, 0, 0, 0, 0x0, 0xFFFFFFFF, .no⟩,
  ⟨0x54, 1, 0, 0xFF, 0, 0x8, 0, .no⟩,
  ⟨0x58, 1, 0, 0, 0, 0x0, 0, .no⟩,
  ⟨0x100, 4, 0x10, 0, 0, 0x0, 0, .no⟩,
  ⟨0x104, 4, 0x10, 0, 0, 0x0, 0, .no⟩,
  ⟨0x108, 4, 0x10, 0, 0, 0x0, 0, .no⟩]

/-- Rows of LND: CTX_SEL, RING_CFG, STAGE_CFG, OVW_LAST, STEPS_DONE, GC (R286). -/
def rowsLnd : List RegRow := [
  ⟨0x40, 1, 0, 0xFF, 0, 0x0, 0, .no⟩,
  ⟨0x44, 1, 0, 0, 0, 0x0, 0, .no⟩,
  ⟨0x48, 1, 0, 0, 0, 0x0, 0, .no⟩,
  ⟨0x4C, 1, 0, 0, 0, 0x0, 0, .no⟩,
  ⟨0x50, 1, 0, 0, 0, 0x0, 0xFFFFFFFF, .no⟩,
  ⟨0x80, 16, 4, 0, 0, 0x0, 0, .no⟩]

/-- Rows of LSE: CFG, DRAIN_STAT, DEFLECT_MASK_LO, DEFLECT_MASK_HI, FLOOD_MASK_LO, FLOOD_MASK_HI, TIMERS, CMD_RETRY, ROUTE_IDX, ROUTE_LO, ROUTE_HI, PORT_DIM, FWD, DEFLECTED, ESCAPED, DROP_HOP, DROP_UNREACH, STRAY, CMD_RX, CMD_DUP, CMD_UNKNOWN, CMD_DROP, AGE_MAX, QBASE_LO, QBASE_HI, QCFG, QPTR, ENDP_STAT, DUP_DISCARDS, REORDER_SKIPS, COMPL_STALE, SYNTH_COUNT (R328). -/
def rowsLse : List RegRow := [
  ⟨0x40, 1, 0, 0x31, 0, 0x20, 0, .no⟩,
  ⟨0x44, 1, 0, 0, 0, 0x1, 0, .no⟩,
  ⟨0x48, 1, 0, 0, 0, 0x0, 0, .lo⟩,
  ⟨0x4C, 1, 0, 0, 0, 0x0, 0, .hi⟩,
  ⟨0x50, 1, 0, 0xFFFFFFFF, 0, 0x0, 0, .lo⟩,
  ⟨0x54, 1, 0, 0xFFFF, 0, 0x0, 0, .hi⟩,
  ⟨0x58, 1, 0, 0xFFFFFFFF, 0, 0x64320A, 0, .no⟩,
  ⟨0x5C, 1, 0, 0xFFFF, 0, 0x14, 0, .no⟩,
  ⟨0x60, 1, 0, 0xFFFF, 0, 0x0, 0, .no⟩,
  ⟨0x64, 1, 0, 0xFFFFFFFF, 0, 0x0, 0, .lo⟩,
  ⟨0x68, 1, 0, 0xFFFFFFFF, 0, 0x0, 0, .hi⟩,
  ⟨0x80, 16, 4, 0x1F, 0, 0x7, 0, .no⟩,
  ⟨0x100, 1, 0, 0, 0, 0x0, 0xFFFFFFFF, .no⟩,
  ⟨0x104, 1, 0, 0, 0, 0x0, 0xFFFFFFFF, .no⟩,
  ⟨0x108, 1, 0, 0, 0, 0x0, 0xFFFFFFFF, .no⟩,
  ⟨0x10C, 1, 0, 0, 0, 0x0, 0xFFFFFFFF, .no⟩,
  ⟨0x110, 1, 0, 0, 0, 0x0, 0xFFFFFFFF, .no⟩,
  ⟨0x114, 1, 0, 0, 0, 0x0, 0xFFFFFFFF, .no⟩,
  ⟨0x118, 1, 0, 0, 0, 0x0, 0xFFFFFFFF, .no⟩,
  ⟨0x11C, 1, 0, 0, 0, 0x0, 0xFFFFFFFF, .no⟩,
  ⟨0x120, 1, 0, 0, 0, 0x0, 0xFFFFFFFF, .no⟩,
  ⟨0x124, 1, 0, 0, 0, 0x0, 0xFFFFFFFF, .no⟩,
  ⟨0x128, 1, 0, 0, 0, 0x0, 0xFFFFFFFF, .no⟩,
  ⟨0x200, 32, 0x10, 0xFFFFFFFF, 0, 0x0, 0, .lo⟩,
  ⟨0x204, 32, 0x10, 0xFFFF, 0, 0x0, 0, .hi⟩,
  ⟨0x208, 32, 0x10, 0xFFFF, 0, 0x0, 0, .no⟩,
  ⟨0x20C, 16, 0x10, 0xFFFF, 0, 0x0, 0, .no⟩,
  ⟨0x30C, 16, 0x10, 0xFFFF0000, 0, 0x0, 0, .no⟩,
  ⟨0x400, 1, 0, 0, 0x80000000, 0x0, 0, .no⟩,
  ⟨0x404, 1, 0, 0, 0, 0x0, 0xFFFFFFFF, .no⟩,
  ⟨0x408, 1, 0, 0, 0, 0x0, 0xFFFFFFFF, .no⟩,
  ⟨0x40C, 1, 0, 0, 0, 0x0, 0xFFFFFFFF, .no⟩,
  ⟨0x410, 1, 0, 0, 0, 0x0, 0xFFFFFFFF, .no⟩]

/-- Rows of OPN: IF_CFG, IF_STAT, TX_LAT, RX_LAT, IF_MAC_LO, IF_MAC_HI, RX_FILTERED, RX_TOO_LONG, RX_DROP_FULL, TX_BAD, PFC_SENT, MCAST_LO, MCAST_HI, IPADDR (R341, R459). -/
def rowsOpn : List RegRow := [
  ⟨0x40, 1, 0, 0, 0, 0x0, 0, .no⟩,
  ⟨0x44, 1, 0, 0, 0, 0x0, 0, .no⟩,
  ⟨0x48, 1, 0, 0, 0, 0x0, 0, .no⟩,
  ⟨0x4C, 1, 0, 0, 0, 0x0, 0, .no⟩,
  ⟨0x50, 4, 8, 0xFFFFFFFF, 0, 0x0, 0, .lo⟩,
  ⟨0x54, 4, 8, 0xFFFF, 0, 0x0, 0, .hi⟩,
  ⟨0xA0, 1, 0, 0, 0, 0x0, 0xFFFFFFFF, .no⟩,
  ⟨0xA4, 1, 0, 0, 0, 0x0, 0xFFFFFFFF, .no⟩,
  ⟨0xA8, 1, 0, 0, 0, 0x0, 0xFFFFFFFF, .no⟩,
  ⟨0xAC, 1, 0, 0, 0, 0x0, 0xFFFFFFFF, .no⟩,
  ⟨0xB0, 1, 0, 0, 0, 0x0, 0xFFFFFFFF, .no⟩,
  ⟨0x200, 64, 8, 0xFFFFFFFF, 0, 0x0, 0, .lo⟩,
  ⟨0x204, 64, 8, 0x8000FFFF, 0, 0x0, 0, .hi⟩,
  ⟨0x400, 128, 4, 0xFFFFFFFF, 0, 0x0, 0, .no⟩]

/-- Rows of OPN16: RXQ_BASE_LO, RXQ_BASE_HI, RXQ_CFG, RXQ_PTR, TXQ_BASE_LO, TXQ_BASE_HI, TXQ_CFG, TXQ_PTR, TXC_BASE_LO, TXC_BASE_HI, TXC_CFG, TXC_PTR, STEER_IDX, STEER_LO, STEER_HI (R460). -/
def rowsOpn16 : List RegRow := [
  ⟨0x600, 64, 0x10, 0xFFFFFFFF, 0, 0x0, 0, .lo⟩,
  ⟨0x604, 64, 0x10, 0xFFFF, 0, 0x0, 0, .hi⟩,
  ⟨0x608, 64, 0x10, 0x8001FFFF, 0, 0x0, 0, .no⟩,
  ⟨0x60C, 64, 0x10, 0xFFFF, 0, 0x0, 0, .no⟩,
  ⟨0xA00, 64, 0x10, 0xFFFFFFFF, 0, 0x0, 0, .lo⟩,
  ⟨0xA04, 64, 0x10, 0xFFFF, 0, 0x0, 0, .hi⟩,
  ⟨0xA08, 64, 0x10, 0x8000FFFF, 0, 0x0, 0, .no⟩,
  ⟨0xA0C, 64, 0x10, 0xFFFF0000, 0, 0x0, 0, .no⟩,
  ⟨0xE00, 1, 0, 0xFFFFFFFF, 0, 0x0, 0, .lo⟩,
  ⟨0xE04, 1, 0, 0xFFFF, 0, 0x0, 0, .hi⟩,
  ⟨0xE08, 1, 0, 0x8000FFFF, 0, 0x0, 0, .no⟩,
  ⟨0xE0C, 1, 0, 0xFFFF, 0, 0x0, 0, .no⟩,
  ⟨0xE10, 1, 0, 0xFF, 0, 0x0, 0, .no⟩,
  ⟨0xE14, 1, 0, 0xFFFFFFFF, 0, 0x0, 0, .lo⟩,
  ⟨0xE18, 1, 0, 0xFFFFFFFF, 0, 0x0, 0, .hi⟩]

/-- Rows of MGT: IF_CFG, IF_STAT, TX_LAT, RX_LAT, IF_MAC_LO, IF_MAC_HI, CMD_PORT, RX_FILTERED, RX_TOO_LONG, RX_DROP_FULL, TX_BAD, PFC_SENT, CMD_BAD, MCAST_LO, MCAST_HI, IPADDR, RXQ_BASE_LO, RXQ_BASE_HI, RXQ_CFG, RXQ_PTR, TXQ_BASE_LO, TXQ_BASE_HI, TXQ_CFG, TXQ_PTR, TXC_BASE_LO, TXC_BASE_HI, TXC_CFG, TXC_PTR, STEER_IDX, STEER_LO, STEER_HI (R341, R459, R460). -/
def rowsMgt : List RegRow := [
  ⟨0x40, 1, 0, 0, 0, 0x0, 0, .no⟩,
  ⟨0x44, 1, 0, 0, 0, 0x0, 0, .no⟩,
  ⟨0x48, 1, 0, 0, 0, 0x0, 0, .no⟩,
  ⟨0x4C, 1, 0, 0, 0, 0x0, 0, .no⟩,
  ⟨0x50, 1, 8, 0xFFFFFFFF, 0, 0x0, 0, .lo⟩,
  ⟨0x54, 1, 8, 0xFFFF, 0, 0x0, 0, .hi⟩,
  ⟨0x70, 1, 0, 0xFFFF, 0, 0x0, 0, .no⟩,
  ⟨0xA0, 1, 0, 0, 0, 0x0, 0xFFFFFFFF, .no⟩,
  ⟨0xA4, 1, 0, 0, 0, 0x0, 0xFFFFFFFF, .no⟩,
  ⟨0xA8, 1, 0, 0, 0, 0x0, 0xFFFFFFFF, .no⟩,
  ⟨0xAC, 1, 0, 0, 0, 0x0, 0xFFFFFFFF, .no⟩,
  ⟨0xB0, 1, 0, 0, 0, 0x0, 0xFFFFFFFF, .no⟩,
  ⟨0xB4, 1, 0, 0, 0, 0x0, 0xFFFFFFFF, .no⟩,
  ⟨0x200, 64, 8, 0xFFFFFFFF, 0, 0x0, 0, .lo⟩,
  ⟨0x204, 64, 8, 0x8000FFFF, 0, 0x0, 0, .hi⟩,
  ⟨0x400, 32, 4, 0xFFFFFFFF, 0, 0x0, 0, .no⟩,
  ⟨0x600, 16, 0x10, 0xFFFFFFFF, 0, 0x0, 0, .lo⟩,
  ⟨0x604, 16, 0x10, 0xFFFF, 0, 0x0, 0, .hi⟩,
  ⟨0x608, 16, 0x10, 0x8001FFFF, 0, 0x0, 0, .no⟩,
  ⟨0x60C, 16, 0x10, 0xFFFF, 0, 0x0, 0, .no⟩,
  ⟨0xA00, 16, 0x10, 0xFFFFFFFF, 0, 0x0, 0, .lo⟩,
  ⟨0xA04, 16, 0x10, 0xFFFF, 0, 0x0, 0, .hi⟩,
  ⟨0xA08, 16, 0x10, 0x8000FFFF, 0, 0x0, 0, .no⟩,
  ⟨0xA0C, 16, 0x10, 0xFFFF0000, 0, 0x0, 0, .no⟩,
  ⟨0xE00, 1, 0, 0xFFFFFFFF, 0, 0x0, 0, .lo⟩,
  ⟨0xE04, 1, 0, 0xFFFF, 0, 0x0, 0, .hi⟩,
  ⟨0xE08, 1, 0, 0x8000FFFF, 0, 0x0, 0, .no⟩,
  ⟨0xE0C, 1, 0, 0xFFFF, 0, 0x0, 0, .no⟩,
  ⟨0xE10, 1, 0, 0xFF, 0, 0x0, 0, .no⟩,
  ⟨0xE14, 1, 0, 0xFFFFFFFF, 0, 0x0, 0, .lo⟩,
  ⟨0xE18, 1, 0, 0xFFFFFFFF, 0, 0x0, 0, .hi⟩]

/-- Rows of TIM0: FRAME_CFG, DISC_CTRL, TICK_COUNT_LO/HI, PHASE_ERR, HOLD_LIMIT, MARK_CFG, MARK_PHASE, START_AT, START_CTRL, STRETCH_LAST, MISSED_TICKS, WALL, WALL_SET, WALL_CMD, RATE_ADJ, TICK_TAI, CAPT_STAT, CAPT_TAI, CAPT_TICK_LO/HI, CAPT_POP, MTIME_LO/HI, PART_FRAME_LO, PART_FRAME_HI, PART_GATE, PART_HELD (R88). -/
def rowsTim0 : List RegRow := [
  ⟨0x40, 1, 0, 0, 0, 0xB, 0, .no⟩,
  ⟨0x44, 1, 0, 3, 0, 0x0, 0, .no⟩,
  ⟨0x48, 2, 4, 0, 0, 0x0, 0, .alt⟩,
  ⟨0x50, 1, 0, 0, 0, 0x0, 0, .no⟩,
  ⟨0x54, 1, 0, 0xFFFFFFFF, 0, 0x5F5E1, 0, .no⟩,
  ⟨0x58, 1, 0, 0xFFFFFFFF, 0, 0x8000000, 0, .no⟩,
  ⟨0x5C, 1, 0, 0xFFFFFF, 0, 0x0, 0, .no⟩,
  ⟨0x60, 3, 4, 0xFFFFFFFF, 0, 0x0, 0, .no⟩,
  ⟨0x6C, 1, 0, 0xFFFF, 0, 0x0, 0, .no⟩,
  ⟨0x70, 1, 0, 0xF0, 0x200, 0x0, 0, .no⟩,
  ⟨0x74, 1, 0, 0, 0, 0x0, 0, .no⟩,
  ⟨0x78, 1, 0, 0, 0, 0x0, 0, .no⟩,
  ⟨0x80, 4, 4, 0, 0, 0x0, 0, .quad⟩,
  ⟨0x90, 3, 4, 0xFFFFFFFF, 0, 0x0, 0, .no⟩,
  ⟨0x9C, 1, 0, 0xFFFF, 0, 0x0, 0, .no⟩,
  ⟨0xA0, 1, 0, 0, 0, 0x0, 0, .no⟩,
  ⟨0xA4, 1, 0, 0xFFFFFFFF, 0, 0x0, 0, .no⟩,
  ⟨0xB0, 4, 4, 0, 0, 0x0, 0, .quad⟩,
  ⟨0xC0, 1, 0, 0x600, 0x100, 0x0, 0, .no⟩,
  ⟨0xC4, 4, 4, 0, 0, 0x0, 0, .no⟩,
  ⟨0xD4, 2, 4, 0, 0, 0x0, 0, .alt⟩,
  ⟨0xDC, 1, 0, 0, 0, 0x0, 0, .no⟩,
  ⟨0xE0, 2, 4, 0, 0, 0x0, 0, .alt⟩,
  ⟨0x100, 16, 0x10, 0, 0, 0x0, 0, .lo⟩,
  ⟨0x104, 16, 0x10, 0, 0, 0x0, 0, .hi⟩,
  ⟨0x108, 16, 0x10, 0, 0, 0x0, 0, .no⟩,
  ⟨0x10C, 16, 0x10, 0, 0, 0x0, 0, .no⟩]

/-- Rows of TIM1: REF_CTRL, REF_STAT, REF_SWITCHES, REF_OFFSET_A, REF_OFFSET_B, HOLDOVER_MS (R96). -/
def rowsTim1 : List RegRow := [
  ⟨0x40, 1, 0, 7, 0, 0x2, 0, .no⟩,
  ⟨0x44, 1, 0, 0, 0x300, 0x0, 0, .no⟩,
  ⟨0x48, 1, 0, 0, 0, 0x0, 0, .no⟩,
  ⟨0x4C, 1, 0, 0, 0, 0x0, 0, .no⟩,
  ⟨0x50, 1, 0, 0, 0, 0x0, 0, .no⟩,
  ⟨0x54, 1, 0, 0, 0, 0x0, 0, .no⟩]

/-- Rows of TIM2: NODE_ID, PREP_TIMEOUT, RSEL, RCMD, RSTAT, RAISE_ID, START_TICK_LO/HI, AT_FRAME_LO/HI, RESUME_TICK_LO/HI, OLD_RAISE_ID, ACKED, MEMBER, RUN_ID (R362). -/
def rowsTim2 : List RegRow := [
  ⟨0x40, 1, 0, 0x8000FFFF, 0, 0x0, 0, .no⟩,
  ⟨0x44, 1, 0, 0xFFFF, 0, 0xA, 0, .no⟩,
  ⟨0x48, 1, 0, 0xFF, 0, 0x0, 0, .no⟩,
  ⟨0x4C, 1, 0, 0, 0, 0x0, 0, .no⟩,
  ⟨0x50, 1, 0, 0, 0, 0x0, 0, .no⟩,
  ⟨0x54, 1, 0, 0xFFFF, 0, 0x0, 0, .no⟩,
  ⟨0x58, 2, 4, 0xFFFFFFFF, 0, 0x0, 0, .alt⟩,
  ⟨0x60, 2, 4, 0xFFFFFFFF, 0, 0x0, 0, .alt⟩,
  ⟨0x68, 2, 4, 0xFFFFFFFF, 0, 0x0, 0, .alt⟩,
  ⟨0x70, 1, 0, 0xFFFF, 0, 0x0, 0, .no⟩,
  ⟨0x74, 1, 0, 0, 0, 0x0, 0, .no⟩,
  ⟨0x78, 1, 0, 0, 0, 0x0, 0, .no⟩,
  ⟨0x7C, 1, 0, 0, 0, 0x0, 0, .no⟩]

/-- Rows of NRG: BUDGET, DECL_SCALE, MARGIN, BASE_FRAME, BUDGET_FRAME, PKG_CAP, PART_CAP, ACCOUNT, COEF_ID, COEF_IDX, COEF_DATA, THIN_LIMIT, PART_ADMIT, PART_ACCOUNT, PART_LAST, THIN_COUNT, CORR (R409). -/
def rowsNrg : List RegRow := [
  ⟨0x40, 1, 0, 0xFFF, 0, 0x898, 0, .no⟩,
  ⟨0x44, 1, 0, 0xFFFF, 0, 0x1000, 0, .no⟩,
  ⟨0x48, 1, 0, 0xFFFFFF, 0, 0x0, 0, .no⟩,
  ⟨0x4C, 1, 0, 0, 0, 0x0, 0, .no⟩,
  ⟨0x50, 1, 0, 0, 0, 0x0, 0, .no⟩,
  ⟨0x54, 1, 0, 0xFFFFFF, 0, 0x7D0, 0, .no⟩,
  ⟨0x58, 1, 0, 0xFFFFFF, 0, 0x3E8, 0, .no⟩,
  ⟨0x5C, 1, 0, 0, 0, 0x0, 0, .no⟩,
  ⟨0x60, 1, 0, 0xFFFFFFFF, 0, 0x0, 0, .no⟩,
  ⟨0x64, 1, 0, 0x3F, 0, 0x0, 0, .no⟩,
  ⟨0x68, 1, 0, 0xFFFFFF, 0, 0x0, 0, .no⟩,
  ⟨0x6C, 1, 0, 0xFFFF, 0, 0x400, 0, .no⟩,
  ⟨0x100, 16, 0x10, 0, 0, 0x0, 0, .no⟩,
  ⟨0x104, 16, 0x10, 0, 0, 0x0, 0, .no⟩,
  ⟨0x108, 16, 0x10, 0, 0, 0x0, 0, .no⟩,
  ⟨0x10C, 16, 0x10, 0, 0, 0x0, 0xFFFFFFFF, .no⟩,
  ⟨0x200, 39, 4, 0, 0, 0x4000, 0, .no⟩]

/-- Rows of PWR: ISO_RELEASE, REFUSE_CAUSE, BIAS, UNIT_STATE (R410). -/
def rowsPwr : List RegRow := [
  ⟨0x40, 1, 0, 0, 0, 0x0, 0, .no⟩,
  ⟨0x44, 1, 0, 0, 0, 0x0, 0, .no⟩,
  ⟨0x50, 4, 4, 0, 0, 0x0, 0, .no⟩,
  ⟨0x100, 64, 4, 0, 0, 0x0, 0, .no⟩]

/-- Rows of SEC: CMD, CMD_STAT, REQ_LO/HI, REQ_LEN, RSP_LO/HI, RSP_LEN, NONCE, CONFIG_SERIAL, PRESENCE, SEAL_STAT, MASKED_READS, AUTH_HOLDOFF, LINK_REKEY, LINK_MIN_SVN, REMOTE_POLICY, UTC_OFFSET, CTX_ATTR (R391). -/
def rowsSec : List RegRow := [
  ⟨0x40, 1, 0, 0, 0, 0x0, 0, .no⟩,
  ⟨0x44, 1, 0, 0, 0, 0x0, 0, .no⟩,
  ⟨0x48, 1, 0, 0xFFFFFFFF, 0, 0x0, 0, .lo⟩,
  ⟨0x4C, 1, 0, 0xFFFF, 0, 0x0, 0, .hi⟩,
  ⟨0x50, 1, 0, 0xFFFFF, 0, 0x0, 0, .no⟩,
  ⟨0x54, 1, 0, 0xFFFFFFFF, 0, 0x0, 0, .lo⟩,
  ⟨0x58, 1, 0, 0xFFFF, 0, 0x0, 0, .hi⟩,
  ⟨0x5C, 1, 0, 0xFFFFF, 0, 0x0, 0, .no⟩,
  ⟨0x60, 8, 4, 0, 0, 0x0, 0, .no⟩,
  ⟨0x80, 1, 0, 0, 0, 0x0, 0, .no⟩,
  ⟨0x84, 1, 0, 0, 0, 0x0, 0, .no⟩,
  ⟨0x88, 1, 0, 0, 0, 0x0, 0, .no⟩,
  ⟨0x8C, 1, 0, 0, 0, 0x0, 0, .no⟩,
  ⟨0x90, 1, 0, 0xFF, 0, 0x1, 0, .no⟩,
  ⟨0x94, 1, 0, 0xFFFF, 0, 0x18, 0, .no⟩,
  ⟨0x98, 1, 0, 0xFFFFFFFF, 0, 0x0, 0, .no⟩,
  ⟨0x9C, 1, 0, 3, 0, 0x0, 0, .no⟩,
  ⟨0xA0, 1, 0, 0xFFFF, 0, 0x25, 0, .no⟩,
  ⟨0x100, 256, 4, 0, 0, 0x0, 0, .no⟩]

/-- Rows of PST: DATA, WEAR (R437). -/
def rowsPst : List RegRow := [
  ⟨0x400, 256, 4, 0, 0, 0x0, 0, .no⟩,
  ⟨0x800, 256, 4, 0, 0, 0x0, 0, .no⟩]

/-- Rows of TRL: CFG, RING_LO/HI, RING_RECORDS, RPTR, TSTAT, LOST, WRITTEN (R363). -/
def rowsTrl : List RegRow := [
  ⟨0x40, 1, 0, 1, 0, 0x0, 0, .no⟩,
  ⟨0x44, 1, 0, 0xFFFFFFFF, 0, 0x0, 0, .lo⟩,
  ⟨0x48, 1, 0, 0xFFFF, 0, 0x0, 0, .hi⟩,
  ⟨0x4C, 1, 0, 0xFFFF, 0, 0x0, 0, .no⟩,
  ⟨0x50, 1, 0, 0xFFFF, 0, 0x0, 0, .no⟩,
  ⟨0x54, 1, 0, 0, 5, 0x0, 0, .no⟩,
  ⟨0x58, 1, 0, 0, 0, 0x0, 0xFFFFFFFF, .no⟩,
  ⟨0x5C, 1, 0, 0, 0, 0x0, 0xFFFFFFFF, .no⟩]

/-- Rows of SES: COMMIT, COMMIT_STAT, BUCKET_COMMIT, BUCKET_STAT, PENDING, DONE_COUNT, DONE_LAST, COLS_WRITTEN (R255). -/
def rowsSes : List RegRow := [
  ⟨0x40, 1, 0, 0, 0, 0x0, 0, .no⟩,
  ⟨0x44, 1, 0, 0, 0, 0x0, 0, .no⟩,
  ⟨0x48, 1, 0, 0, 0, 0x0, 0, .no⟩,
  ⟨0x4C, 1, 0, 0, 0, 0x0, 0, .no⟩,
  ⟨0x50, 1, 0, 0, 0, 0x0, 0, .no⟩,
  ⟨0x54, 1, 0, 0, 0, 0x0, 0xFFFFFFFF, .no⟩,
  ⟨0x58, 1, 0, 0, 0, 0x0, 0, .no⟩,
  ⟨0x5C, 1, 0, 0, 0, 0x0, 0xFFFFFFFF, .no⟩]

/-- Rows of DBG@C: AUDIT_CTRL, AUDIT_LAST, AUDIT_COUNT, TRACE_EN_LO/HI, HALT, HALT_STAT, ABORT, ABORT_STAT, PEEK_SEL, PEEK_DATA (R476). -/
def rowsDbgC : List RegRow := [
  ⟨0x40, 1, 0, 0x10F, 0, 0x0, 0, .no⟩,
  ⟨0x44, 1, 0, 0, 0, 0x0, 0, .no⟩,
  ⟨0x48, 1, 0, 0, 0, 0x0, 0xFFFFFFFF, .no⟩,
  ⟨0x50, 2, 4, 0xFFFFFFFF, 0, 0x0, 0, .alt⟩,
  ⟨0x60, 1, 0, 0, 0, 0x0, 0, .no⟩,
  ⟨0x64, 1, 0, 0, 0, 0x0, 0, .no⟩,
  ⟨0x70, 1, 0, 0, 0, 0x0, 0, .no⟩,
  ⟨0x74, 1, 0, 0, 0, 0x0, 0, .no⟩,
  ⟨0x80, 1, 0, 0xFFFFFFFF, 0, 0x0, 0, .no⟩,
  ⟨0x84, 1, 0, 0, 0, 0x0, 0, .no⟩]

/-- Rows of DBG@E: PEEK_SEL, PEEK_DATA (R476). -/
def rowsDbgE : List RegRow := [
  ⟨0x80, 1, 0, 0xFFFFFFFF, 0, 0x0, 0, .no⟩,
  ⟨0x84, 1, 0, 0, 0, 0x0, 0, .no⟩]

/-- Rows of DBG@19: PLAN_CMD, PLAN_STAT, PLAN_ADDR_LO/HI, PLAN_ERR_LO/HI, RESIDENT_LO/HI, FLOG_PTR, FLOG_LOST, TRACE_BASE_LO/HI, TRACE_CFG, TRACE_PTR, TRACE_LOST, FPOLICY, FLOG (R475). -/
def rowsDbgS : List RegRow := [
  ⟨0x40, 1, 0, 0, 0, 0x0, 0, .no⟩,
  ⟨0x44, 1, 0, 0, 0, 0x0, 0, .no⟩,
  ⟨0x48, 1, 0, 0xFFFFFFFF, 0, 0x0, 0, .lo⟩,
  ⟨0x4C, 1, 0, 0xFFFF, 0, 0x0, 0, .hi⟩,
  ⟨0x50, 2, 4, 0, 0, 0x0, 0, .alt⟩,
  ⟨0x58, 2, 4, 0, 0, 0x0, 0, .alt⟩,
  ⟨0x60, 1, 0, 0, 0, 0x0, 0, .no⟩,
  ⟨0x64, 1, 0, 0, 0, 0x0, 0xFFFFFFFF, .no⟩,
  ⟨0x70, 1, 0, 0xFFFFFFFF, 0, 0x0, 0, .lo⟩,
  ⟨0x74, 1, 0, 0xFFFF, 0, 0x0, 0, .hi⟩,
  ⟨0x78, 1, 0, 0x8000FFFF, 0, 0x0, 0, .no⟩,
  ⟨0x7C, 1, 0, 0xFFFF, 0, 0x0, 0, .no⟩,
  ⟨0x80, 1, 0, 0, 0, 0x0, 0xFFFFFFFF, .no⟩,
  ⟨0x400, 256, 4, 0xFFF, 0, 0xAAA, 0, .no⟩,
  ⟨0x800, 256, 4, 0, 0, 0x0, 0, .no⟩]

/-- Rows of BRD: RESET, BOOT_STAT, WDT_CFG, WDT_KICK, WDT_COUNT, FLASH_ADDR, FLASH_SRC_LO/HI, FLASH_LEN, FLASH_CMD, VR_DEV, VR_STATUS, VR_POLL, THERM_STAT (R438, R492). -/
def rowsBrd : List RegRow := [
  ⟨0x40, 1, 0, 0, 0, 0x0, 0, .no⟩,
  ⟨0x44, 1, 0, 0, 0, 0x0, 0, .no⟩,
  ⟨0x48, 1, 0, 0x8000FFFF, 0, 0x3E8, 0, .no⟩,
  ⟨0x4C, 1, 0, 0, 0, 0x0, 0, .no⟩,
  ⟨0x50, 1, 0, 0, 0, 0x0, 0xFFFFFFFF, .no⟩,
  ⟨0x54, 1, 0, 0xFFFFFFFF, 0, 0x0, 0, .no⟩,
  ⟨0x58, 1, 0, 0xFFFFFFFF, 0, 0x0, 0, .lo⟩,
  ⟨0x5C, 1, 0, 0xFFFF, 0, 0x0, 0, .hi⟩,
  ⟨0x60, 1, 0, 0x7FFFFFF, 0, 0x0, 0, .no⟩,
  ⟨0x64, 1, 0, 0, 0, 0x0, 0, .no⟩,
  ⟨0x80, 16, 4, 0x807F, 0, 0x0, 0, .no⟩,
  ⟨0xC0, 16, 4, 0, 0, 0x0, 0, .no⟩,
  ⟨0x100, 1, 0, 0xFF, 0, 0xA, 0, .no⟩,
  ⟨0x104, 1, 0, 0, 0, 0x0, 0xFFFF0000, .no⟩]

/-- The rows of a page, after the common ones. -/
def blkRows : Blk → List RegRow
  | .clu => rowsClu
  | .vlt => rowsVlt
  | .pln => rowsPln
  | .rgn => rowsRgn
  | .die => rowsDie
  | .dieS => rowsDieS
  | .xbr => rowsXbr
  | .d2d => rowsD2d
  | .prt => rowsPrt
  | .slt => rowsSlt
  | .lnd => rowsLnd
  | .lse => rowsLse
  | .opn => rowsOpn
  | .opn16 => rowsOpn16
  | .mgt => rowsMgt
  | .tim0 => rowsTim0
  | .tim1 => rowsTim1
  | .tim2 => rowsTim2
  | .nrg => rowsNrg
  | .pwr => rowsPwr
  | .sec => rowsSec
  | .pst => rowsPst
  | .trl => rowsTrl
  | .ses => rowsSes
  | .dbgC => rowsDbgC
  | .dbgE => rowsDbgE
  | .dbgS => rowsDbgS
  | .brd => rowsBrd

/-- The type code of a page (R443). -/
def blkType : Blk → Nat
  | .clu => 0x1
  | .vlt => 0x2
  | .pln => 0x3
  | .rgn => 0x4
  | .die => 0x5
  | .dieS => 0x5
  | .xbr => 0x6
  | .d2d => 0x7
  | .prt => 0x8
  | .slt => 0x9
  | .lnd => 0xA
  | .lse => 0xB
  | .opn => 0xC
  | .opn16 => 0xC
  | .mgt => 0xD
  | .tim0 => 0xE
  | .tim1 => 0xE
  | .tim2 => 0xE
  | .nrg => 0xF
  | .pwr => 0x10
  | .sec => 0x11
  | .pst => 0x12
  | .trl => 0x13
  | .ses => 0x14
  | .dbgC => 0x15
  | .dbgE => 0x15
  | .dbgS => 0x15
  | .brd => 0x16

/-! ## Where pages lie -/

/-- The page of die `die` at page offset `off` of its region: its kind and instance
(R442). A D2D instance that names no link under R15 is no page. -/
def pageAt (die off : Nat) : Option (Blk × Nat) :=
  let k := off / 0x1000
  let c := die < 16
  let e := 16 ≤ die && die < 19
  let s := die = 19
  if 20 ≤ die || off % 0x1000 ≠ 0 then none
  else if k = 0 then some (if s then .dieS else .die, 0)
  else if k = 1 then some (if c then .pwr else if e then .slt else .tim0, 0)
  else if k = 2 then some (if c then (.ses, 0) else if e then (.lnd, 0) else (.tim1, 1))
  else if k = 3 then (if e then some (.lse, 0) else if s then some (.tim2, 2) else none)
  else if k = 4 then (if s then some (.nrg, 0) else none)
  else if k = 5 then (if s then some (.sec, 0) else none)
  else if k = 6 then (if s then some (.trl, 0) else none)
  else if k = 7 then (if s then some (.mgt, 0) else none)
  else if 8 ≤ k && k < 12 then (if s then some (.pst, k - 8) else none)
  else if k = 12 then (if s then some (.brd, 0) else none)
  else if 0x10 ≤ k && k < 0x14 then
    (if c then some (.rgn, k - 0x10) else if e && k = 0x10 then some (.rgn, 0) else none)
  else if 0x18 ≤ k && k < 0x1C then (if c then some (.xbr, k - 0x18) else none)
  else if 0x20 ≤ k && k < 0x26 then
    (if (c || s) && k < 0x24 then some (.d2d, k - 0x20)
     else if die = 16 && k ≠ 0x24 then some (.d2d, k - 0x20)
     else if die = 17 then some (.d2d, k - 0x20)
     else if die = 18 && k ≠ 0x25 then some (.d2d, k - 0x20)
     else none)
  else if 0x40 ≤ k && k < 0x50 then (if e then some (.prt, k - 0x40) else none)
  else if 0x60 ≤ k && k < 0x70 then (if e then some (.opn, k - 0x60) else none)
  else if k = 0x70 then (if e then some (.opn16, 16) else none)
  else if 0x100 ≤ k && k < 0x140 then (if c then some (.clu, k - 0x100) else none)
  else if 0x140 ≤ k && k < 0x180 then (if c then some (.vlt, k - 0x140) else none)
  else if 0x180 ≤ k && k < 0x1C0 then (if c then some (.pln, k - 0x180) else none)
  else if k = 0x1F0 then some (if c then .dbgC else if e then .dbgE else .dbgS, 0)
  else none

/-- A page's base, as an offset from 0x0F00_0000_0000 (R442). -/
def pageBase (die off : Nat) : Nat := die * 0x1000000 + off

/-- CLU page of package cluster `c`. -/
def pgClu (c : Nat) : Nat := pageBase (c / 64) (0x100000 + 0x1000 * (c % 64))
/-- VLT page of package vault `v`. -/
def pgVlt (v : Nat) : Nat := pageBase (v / 64) (0x140000 + 0x1000 * (v % 64))
/-- PLN page of package cluster `c`. -/
def pgPln (c : Nat) : Nat := pageBase (c / 64) (0x180000 + 0x1000 * (c % 64))
/-- RGN page of package region `r` (0 to 63), or 64 + e for edge die e. -/
def pgRgn (r : Nat) : Nat :=
  if r < 64 then pageBase (r / 4) (0x10000 + 0x1000 * (r % 4)) else pageBase (r - 48) 0x10000
/-- XBR page of package region `r`. -/
def pgXbr (r : Nat) : Nat := pageBase (r / 4) (0x18000 + 0x1000 * (r % 4))
/-- DIE page of die `d`. -/
def pgDie (d : Nat) : Nat := pageBase d 0
/-- S0's DIE page. -/
def pgDieS : Nat := pageBase 19 0
/-- PWR page of C-die `d`. -/
def pgPwr (d : Nat) : Nat := pageBase d 0x1000
/-- SES page of C-die `d`. -/
def pgSes (d : Nat) : Nat := pageBase d 0x2000
/-- SLT page of edge die `e` (0 to 2). -/
def pgSlt (e : Nat) : Nat := pageBase (16 + e) 0x1000
/-- LND page of edge die `e`. -/
def pgLnd (e : Nat) : Nat := pageBase (16 + e) 0x2000
/-- LSE page of edge die `e`. -/
def pgLse (e : Nat) : Nat := pageBase (16 + e) 0x3000
/-- D2D page `k` of die `d`. -/
def pgD2d (d k : Nat) : Nat := pageBase d (0x20000 + 0x1000 * k)
/-- PRT page of port `p` (0 to 47). -/
def pgPrt (p : Nat) : Nat := pageBase (16 + p / 16) (0x40000 + 0x1000 * (p % 16))
/-- OPN page of port `p`. -/
def pgOpn (p : Nat) : Nat := pageBase (16 + p / 16) (0x60000 + 0x1000 * (p % 16))
/-- OPN instance 16 of edge die `e`. -/
def pgOpn16 (e : Nat) : Nat := pageBase (16 + e) 0x70000
/-- DBG page of die `d`. -/
def pgDbg (d : Nat) : Nat := pageBase d 0x1F0000
/-- The pages of S0. -/
def pgTim0 : Nat := pageBase 19 0x1000
def pgTim1 : Nat := pageBase 19 0x2000
def pgTim2 : Nat := pageBase 19 0x3000
def pgNrg : Nat := pageBase 19 0x4000
def pgSec : Nat := pageBase 19 0x5000
def pgTrl : Nat := pageBase 19 0x6000
def pgMgt : Nat := pageBase 19 0x7000
def pgPst (i : Nat) : Nat := pageBase 19 (0x8000 + 0x1000 * i)
def pgBrd : Nat := pageBase 19 0xC000
def pgDbgS : Nat := pgDbg 19

/-- The key of the bank `b` of the register at key `k` (R286, R362, R409). -/
def bankKey (k b : Nat) : Nat := k + b * 0x100000000

/-- PAGE_ID of the page at base `pg` (R443, R446). -/
def pageId (pg : Nat) : Nat :=
  match pageAt (pg / 0x1000000) (pg % 0x1000000) with
  | some (b, i) => blkType b * 0x10000 + i * 0x100 + pg / 0x1000000
  | none => 0

/-- The row of a table that holds page offset `o`. -/
def findRow (o : Nat) : List RegRow → Option RegRow
  | [] => none
  | r :: t =>
    if r.off ≤ o && o < r.off + (if r.n = 1 then 4 else r.n * r.stride) &&
        (if r.n = 1 then o = r.off else (o - r.off) % r.stride = 0) then some r
    else findRow o t

/-- The row of the register at page offset `o` of a page of kind `b`. -/
def regRow (b : Blk) (o : Nat) : Option RegRow :=
  if o = 0xC then some ⟨0xC, 1, 0, 0, statW1c b, 0, 0, .no⟩
  else if o < 0x40 then findRow o commonRows
  else findRow o (blkRows b)

/-- The reset value of the register at key `k` (R8). Three rows depend on the die or the
instance: DIE_INFO.KIND (R450), and CARVE, which covers rows 20,480 to 24,575 on C0, C4,
C8 and C12 (R205, R223). -/
def regReset (k : Nat) : Word :=
  let a := k % 0x100000000
  let die := a / 0x1000000
  let o := a % 0x1000
  match pageAt die (a % 0x1000000 - o) with
  | none => 0
  | some (b, _) =>
    match regRow b o with
    | none => 0
    | some r =>
      if b = .vlt && o = 0x44 then (if die % 4 = 0 then 0x10005000 else 0)
      else if o = 0x40 && b = .die then (if die < 16 then 0x10 else 0x110)
      else if o = 0x40 && b = .dieS then 0x210
      else BitVec.ofNat 32 r.reset

/-- The stored value of the register at key `k`. -/
def regGet (s : State) (k : Nat) : Word := tabGet (regReset k) k s.regs

/-- Store a register value. -/
def regSet (s : State) (k : Nat) (v : Word) : State :=
  { s with regs := tabSet (regReset k) k v s.regs }

/-- A register's stored value as a number. -/
def regNat (s : State) (k : Nat) : Nat := (regGet s k).toNat

/-- Field `[lo + w − 1 : lo]` of a register. -/
def regField (s : State) (k lo w : Nat) : Nat := wfield (regGet s k) lo w

/-- Bit `i` of a register. -/
def regBit (s : State) (k i : Nat) : Bool := (regGet s k).getLsbD i

/-- Replace a field of a register. -/
def regPut (s : State) (k lo w v : Nat) : State := regSet s k (wset (regGet s k) lo w v)

/-- The 64 bits of a LO/HI pair whose LO word is at key `k`. -/
def regPair (s : State) (k : Nat) : Nat := regNat s k + regNat s (k + 4) * 0x100000000

/-- Store the 64 bits of a LO/HI pair. -/
def regPairSet (s : State) (k v : Nat) : State :=
  regSet (regSet s k (BitVec.ofNat 32 v)) (k + 4) (BitVec.ofNat 32 (v / 0x100000000))

/-- The registers' canonical form: keys strictly rising and no entry at its reset value. -/
def regsWf : Tab Word → Bool
  | [] => true
  | [(k, v)] => v != regReset k
  | (k, v) :: (k', v') :: t => v != regReset k && decide (k < k') && regsWf ((k', v') :: t)

end Sys2Proof.Machine
end

