-- ==== Sys2Proof/Machine/Ops.lean ====
section
/-! DEFINITION. The named operations over registers, memories, contexts and partitions that
every meaning is written with. -/
namespace Sys2Proof.Machine
open Sys2Proof

/-! ## Contexts and partitions -/

/-- Context `c`. -/
def ctx (s : State) (c : Nat) : Ctx := tabGet Ctx.init c s.rai.ctx

/-- Store context `c`. -/
def setCtx (s : State) (c : Nat) (x : Ctx) : State :=
  { s with rai.ctx := tabSet Ctx.init c x s.rai.ctx }

/-- Partition `p`. -/
def part (s : State) (p : Nat) : PartSt := tabGet PartSt.init p s.rai.part

/-- Store partition `p`. -/
def setPart (s : State) (p : Nat) (x : PartSt) : State :=
  { s with rai.part := tabSet PartSt.init p x s.rai.part }

/-- The raising of context `c`. -/
def raising (s : State) (c : Nat) : Raising := (ctx s c).raising

/-- Store the raising of context `c`. -/
def setRaising (s : State) (c : Nat) (r : Raising) : State :=
  setCtx s c { ctx s c with raising := r }

/-- A raising in COMMITTED, RUNNING or HELD (R34, R46, R407, R452). -/
def liveState (r : RaiseState) : Bool := r = .committed || r = .running || r = .held

/-- Whether context `c` holds a raising in COMMITTED, RUNNING or HELD. -/
def ctxLive (s : State) (c : Nat) : Bool := liveState (raising s c).state

/-- Whether context `c` holds a raising in any state from LOADED to HELD (R346). -/
def ctxHolds (s : State) (c : Nat) : Bool :=
  match (raising s c).state with
  | .loaded | .prepared | .committed | .running | .held => true
  | _ => (ctx s c).succ.isSome

/-- Every context that has an entry. -/
def ctxList (s : State) : List Nat := s.rai.ctx.map (·.1)

/-- Whether any context of the package holds a raising (R66, R85, R363). -/
def anyRaising (s : State) : Bool := (ctxList s).any (ctxHolds s)

/-- LIVE_DIES of partition `p` (R451). -/
def liveDies (s : State) (p : Nat) : Nat := regNat s (pgDieS + 0x800 + 4 * p)

/-- The partition that holds C-die `d` (R30). -/
def partOfDie (s : State) (d : Nat) : Option Nat :=
  (List.range 16).find? fun p => bitOf (liveDies s p) d

/-- Whether the live map assigns `k` of the ports or shares at base `o` to a partition, and
to which (R31, R451). -/
def liveAssign (s : State) (o k : Nat) : Option Nat :=
  let r := regNat s (pgDieS + o + 4 * k)
  if bitOf r 4 then some (r % 16) else none

/-- The partition to which the live map assigns port Pn (R31). -/
def partOfPort (s : State) (n : Nat) : Option Nat := liveAssign s 0x840 n

/-- The partition of cluster `c`. -/
def clusterPart (s : State) (c : Nat) : Option Nat := partOfDie s (c / 64)

/-- The context that cluster `c` serves in this tick period, for the attribution of R464. -/
def clusterCtx (s : State) (c : Nat) : Option Nat :=
  match clusterPart s c with
  | none => none
  | some p => (part s p).run

/-- The sequencer of cluster `c`. -/
def seqOf (s : State) (c : Nat) : Seq := tabGet Seq.init c s.clu.seq

/-- Store the sequencer of cluster `c`. -/
def setSeq (s : State) (c : Nat) (q : Seq) : State :=
  { s with clu.seq := tabSet Seq.init c q s.clu.seq }

/-- Whether a period issues bundles: a frame of contents, or the rest of a frame's work
after a missed tick (R71, R73). -/
def issues (k : PeriodKind) : Bool := k = .contents || k = .finish

/-- Whether cluster `c` is ON: in every other state its clocks are gated or stopped (R402). -/
def clusterOn (s : State) (c : Nat) : Bool := regField s (pgClu c + 0x24) 0 2 = 0

/-- Whether cluster `c` issues bundles of its bent now (R73, R122, R124, R402). -/
def clusterIssues (s : State) (c : Nat) : Bool :=
  match clusterPart s c with
  | none => false
  | some p => issues (part s p).kind && !(seqOf s c).nullFrame && !(seqOf s c).ended && clusterOn s c

/-! ## Time -/

/-- L, the frame length in cycles (R66). -/
def frameLen (s : State) : Nat := 2 ^ s.time.frameLog2

/-- The first position of the guard, 31L/32 (R67). -/
def guardPos (s : State) : Nat := 31 * frameLen s / 32

/-- The cycle at which partition `p` issued position 0. -/
def originOf (s : State) (c : Nat) : Nat :=
  match clusterPart s c with
  | none => s.clu.tickCyc
  | some p => (part s p).origin

/-- The issue position of cycle `t` in cluster `c`'s frame (R123). -/
def posOf (s : State) (c t : Nat) : Nat := t - originOf s c

/-! ## Free values and outputs -/

/-- Draw a value that the spec leaves undefined (log 7). -/
def drawFree (s : State) (w : Nat) : BitVec w × State :=
  (Config.freeValue s.free w, { s with free := s.free + 1 })

/-- Something leaves the package. -/
def emit (s : State) (o : Out) : State := { s with out := s.out ++ [o] }

/-! ## Counters -/

/-- The page of a register key, without its bank. -/
def pageOfKey (k : Nat) : Nat := k % 0x100000000 / 0x1000 * 0x1000

/-- CNT_FREEZE of a page (R446). -/
def frozen (s : State) (pg : Nat) : Bool := regBit s (pg + 8) 1

/-- Add to a wrapping 32-bit counter of a page (R446). -/
def cntAdd (s : State) (k n : Nat) : State :=
  if frozen s (pageOfKey k) then s else regSet s k (regGet s k + BitVec.ofNat 32 n)

/-- Add to a wrapping register that CNT_FREEZE does not touch (R446). -/
def rawAdd (s : State) (k n : Nat) : State := regSet s k (regGet s k + BitVec.ofNat 32 n)

/-- Raise a high-water mark (R446). -/
def cntMax (s : State) (k n : Nat) : State :=
  if frozen s (pageOfKey k) || n ≤ regNat s k then s else regSet s k (BitVec.ofNat 32 n)

/-- Add to a 64-bit LO/HI counter of a page. -/
def cntAdd64 (s : State) (k n : Nat) : State :=
  if frozen s (pageOfKey k) then s else regPairSet s k ((regPair s k + n) % 2 ^ 64)

/-! ## Activity (R392) -/

/-- Add to the count of an event. -/
def addCount (l : List EventCount) (x : EventCount) : List EventCount :=
  if l.any fun y => y.page = x.page && y.part = x.part && y.kind = x.kind then
    l.map fun y => if y.page = x.page && y.part = x.part && y.kind = x.kind then { y with count := y.count + x.count } else y
  else l ++ [x]

/-- `n` events of a kind on the block of page `pg`, for partition `p`. -/
def countEv (s : State) (pg : Nat) (p : Option Nat) (k : EventKind) (n : Nat) : State :=
  if n = 0 then s else { s with nrg.now := addCount s.nrg.now ⟨pg, p, k, n⟩ }

/-- A tick ends the period of `n` tick-clock periods whose events `now` counts and whose power states `parts` holds; they
wait for the ledger. -/
def rollEvents (s : State) (n : Nat) : State :=
  { s with nrg.prev := s.nrg.now.foldl addCount s.nrg.prev, nrg.now := []
           nrg.ended := s.nrg.parts, nrg.parts := [], nrg.length := n }

/-- The one bits of a mask. -/
def onesIn {n : Nat} (m : BitVec n) : Nat := ((List.range n).filter m.getLsbD).length

/-! ## The cluster's register files and stores -/

/-- Vector register `r` of cluster `c`. -/
def vregOf (s : State) (c r : Nat) : VecReg := tabGet 0 (c * 64 + r) s.clu.vreg
/-- Scalar register. -/
def sregOf (s : State) (c r : Nat) : BitVec 64 := tabGet 0 (c * 32 + r) s.clu.sreg
/-- Predicate register; p0 reads as 256 one bits (R115). -/
def pregOf (s : State) (c r : Nat) : BitVec 256 :=
  if r = 0 then BitVec.allOnes 256 else tabGet 0 (c * 16 + r) s.clu.preg
/-- Extent register. -/
def xregOf (s : State) (c r : Nat) : BitVec 64 := tabGet 0 (c * 8 + r) s.clu.xreg
/-- Accumulator tile: element (row, column) is 32-bit element 64 × row + column (R136). -/
def tileOf (s : State) (c t : Nat) : BitVec 131072 := tabGet 0 (c * 4 + t) s.clu.tile
/-- Open run of a tile. -/
def runOf (s : State) (c t : Nat) : Run := tabGet Run.init (c * 4 + t) s.clu.run
/-- Loop counter. -/
def lcOf (s : State) (c k : Nat) : BitVec 16 := tabGet 0 (c * 2 + k) s.clu.lc
/-- Peg. -/
def pegOf (s : State) (c g : Nat) : BitVec 32 := tabGet 0 (c * 16 + g) s.clu.peg
/-- Compare value of a peg. -/
def pegCmpOf (s : State) (c g : Nat) : BitVec 32 := tabGet 0 (c * 16 + g) s.clu.pegCmp
/-- A peg signals while its value is at least its nonzero compare value (R133). -/
def pegSignal (s : State) (c g : Nat) : Bool :=
  pegCmpOf s c g ≠ 0 && (pegCmpOf s c g).toNat ≤ (pegOf s c g).toNat

/-- Write a vector register. -/
def setVreg (s : State) (c r : Nat) (v : VecReg) : State :=
  { s with clu.vreg := tabSet 0 (c * 64 + r) v s.clu.vreg }
/-- Write a scalar register. -/
def setSreg (s : State) (c r : Nat) (v : BitVec 64) : State :=
  { s with clu.sreg := tabSet 0 (c * 32 + r) v s.clu.sreg }
/-- Write a predicate register; writes to p0 are discarded (R115). -/
def setPreg (s : State) (c r : Nat) (v : BitVec 256) : State :=
  if r = 0 then s else { s with clu.preg := tabSet 0 (c * 16 + r) v s.clu.preg }
/-- Write an extent register. -/
def setXreg (s : State) (c r : Nat) (v : BitVec 64) : State :=
  { s with clu.xreg := tabSet 0 (c * 8 + r) v s.clu.xreg }
/-- Write a tile's values. -/
def setTile (s : State) (c t : Nat) (v : BitVec 131072) : State :=
  { s with clu.tile := tabSet 0 (c * 4 + t) v s.clu.tile }
/-- Write a tile's open run. -/
def setRun (s : State) (c t : Nat) (r : Run) : State :=
  { s with clu.run := tabSet Run.init (c * 4 + t) r s.clu.run }
/-- Write a loop counter. -/
def setLc (s : State) (c k : Nat) (v : BitVec 16) : State :=
  { s with clu.lc := tabSet 0 (c * 2 + k) v s.clu.lc }
/-- Write a peg. -/
def setPeg (s : State) (c g : Nat) (v : BitVec 32) : State :=
  { s with clu.peg := tabSet 0 (c * 16 + g) v s.clu.peg }
/-- Write a peg's compare value. -/
def setPegCmp (s : State) (c g : Nat) (v : BitVec 32) : State :=
  { s with clu.pegCmp := tabSet 0 (c * 16 + g) v s.clu.pegCmp }

/-- Size of a cluster store (R117). -/
def storeSize : Nat := 0x400000
/-- Size of a weight buffer (R135). -/
def wbufSize : Nat := 0x8000

/-- `n` bytes of the cluster store at `a`, which does not wrap. -/
def storeNat (s : State) (c a n : Nat) : Nat := memNat s.clu.store (c * storeSize + a) n

/-- Write `n` bytes of the cluster store. -/
def setStore (s : State) (c a n x : Nat) : State :=
  { s with clu.store := memWrite s.clu.store (c * storeSize + a) n x }

/-- `n` bytes of the weight buffer from offset `o`, modulo 32,768 (R145). -/
def wbufNat (s : State) (c o n : Nat) : Nat :=
  let k := min n (wbufSize - o)
  memNat s.clu.wbuf (c * wbufSize + o) k + memNat s.clu.wbuf (c * wbufSize) (n - k) <<< (8 * k)

/-- Write `n` bytes of the weight buffer from offset `o`, modulo 32,768. -/
def setWbuf (s : State) (c o n x : Nat) : State :=
  let k := min n (wbufSize - o)
  let m := memWrite s.clu.wbuf (c * wbufSize + o) k x
  { s with clu.wbuf := if n ≤ k then m else memWrite m (c * wbufSize) (n - k) (x >>> (8 * k)) }

/-- Bundle `a` of half `h` of the bent store (R120). -/
def bundleOf (s : State) (c h a : Nat) : BitVec 256 := tabGet 0 ((c * 2 + h) * 8192 + a) s.clu.bent

/-- Write a bundle of the bent store. -/
def setBundle (s : State) (c h a : Nat) (v : BitVec 256) : State :=
  { s with clu.bent := tabSet 0 ((c * 2 + h) * 8192 + a) v s.clu.bent }

/-- Tag of half `h`. -/
def tagOf (s : State) (c h : Nat) : BentTag := tabGet BentTag.init (c * 2 + h) s.clu.tag

/-- Store a tag. -/
def setTag (s : State) (c h : Nat) (t : BentTag) : State :=
  { s with clu.tag := tabSet BentTag.init (c * 2 + h) t s.clu.tag }

/-- The idle half (R120). -/
def idleHalf (s : State) (c : Nat) : Nat := 1 - (seqOf s c).runHalf.toNat

/-- Half `h` is sealed for another bent or loses its tag: the entry bent is no longer in half 0 with its tag set
(R125, R138). -/
def entryGone (s : State) (c h : Nat) : State :=
  if h = 0 then setSeq s c { seqOf s c with ready := false } else s

/-! ## Time now (R82, R89) -/

/-- A 32-bit word as a signed number. -/
def sword (x : Word) : Int := x.toInt

/-- Wall time of one tick-clock period, in 2⁻⁵⁶ ns: 1.25 ns corrected by RATE_ADJ (R82, R88). -/
def perInc (s : State) : Int := 5 * 2 ^ 54 + 5 * 2 ^ 14 * sword (regGet s (pgTim0 + 0xA4))

/-- Tick-clock periods that `n` cycles last (R89, R98): a stretched cycle lasts two. The stretches are taken in
order of the periods in which they begin, one a cycle, and one that begins while another is taken follows it. -/
def periodsOf (starts : List Int) (n : Nat) : Nat :=
  ((starts.mergeSort (· ≤ ·)).foldl (fun (t : Nat × Int) x =>
    let b := max x t.2
    if b < (t.1 : Int) then (t.1 + 1, b + 2) else (t.1, b)) (n, 0)).1

/-- Cycles that have ended `n` tick-clock periods after the tick (R89, R98). -/
def cyclesBy (starts : List Int) (n : Nat) : Nat :=
  ((starts.mergeSort (· ≤ ·)).foldl (fun (t : Nat × Int) x =>
    let b := max x t.2
    if b < (n : Int) then (t.1 - 1, b + 2) else (t.1, b)) (n, 0)).1

/-- Tick-clock periods since the latest tick: what the cycles that have happened last (R89). -/
def elapsed (s : State) : Nat :=
  let n := s.clu.cyc - s.clu.tickCyc
  if n = 0 then 0 else periodsOf s.time.starts n

/-- Wall time `n` periods after the latest tick. -/
def wallAt (s : State) (n : Nat) : Int := s.time.wall + n * perInc s

/-- 2⁻⁵⁶ ns in a second. -/
def secUnits : Int := 1000000000 * 2 ^ 56

/-- Wall time in the format of R82: SEC, NS, FRAC. -/
def taiOf (w : Int) : BitVec 128 :=
  let x := w.toNat
  let ns := x / 2 ^ 56
  BitVec.ofNat 128 (ns / 1000000000 % 2 ^ 64 + (ns % 1000000000) <<< 64 + (x / 2 ^ 40 % 65536) <<< 96)

/-- Tick-clock periods since package reset. -/
def nowPeriods (s : State) : Nat := s.time.periods + elapsed s

/-- Free bytes: a random number, or bytes of which the spec says nothing. -/
def freeBytes (s : State) (n : Nat) : List Byte × State :=
  let x := drawFree s (8 * n)
  (natBytes n x.1.toNat, x.2)

/-! ## Pauses of open interfaces (R330) -/

/-- The place of a port's interface 0 in the table of pauses; number 48 is the management port. -/
def pauseKey (p : Nat) : Nat := 4 * p

/-- Free what the partners of `n` interfaces paused, from the one at `k` in the table of pauses. -/
def pauseClear (s : State) (k n : Nat) : State :=
  { s with opn.paused := s.opn.paused.filter fun x => x.1 < 8 * k || 8 * (k + n) ≤ x.1 }

end Sys2Proof.Machine
end

