-- ==== Sys2Proof/Machine/Flags.lean ====
section
/-! DEFINITION. Status bits, interrupt events, error captures, refusals and fault records
(R407, R444 to R449, R464). -/
namespace Sys2Proof.Machine
open Sys2Proof

/-- Set bits of a register. -/
def orReg (s : State) (k m : Nat) : State := regSet s k (regGet s k ||| BitVec.ofNat 32 m)

/-- Clear bits of a register. -/
def clrReg (s : State) (k m : Nat) : State := regSet s k (regGet s k &&& ~~~(BitVec.ofNat 32 m))

/-- Set STAT bit `b` of a page. -/
def statSet (s : State) (pg b : Nat) : State := orReg s (pg + 0xC) (1 <<< b)

/-- An interrupt event: set IRQ_STAT bit `b` of a page (R447). -/
def irq (s : State) (pg b : Nat) : State := orReg s (pg + 0x10) (1 <<< b)

/-- Whether a page's interrupt line is asserted (R447). -/
def irqLine (s : State) (pg : Nat) : Bool := regGet s (pg + 0x10) &&& regGet s (pg + 0x14) ≠ 0

/-- The number of the interrupt source that is line `k` of die `d` (R449). -/
def sourceOf (d k : Nat) : Nat := 1 + 32 * d + k

/-- The pages whose lines make line `k` of die `d` (R449): the shared ones of a region, or a port's PRT and OPN. -/
def linePages (d k : Nat) : List Nat :=
  if d < 16 then
    let region := fun (f : Nat → Nat) (r : Nat) => (List.range 16).map fun c => f (64 * d + 16 * r + c)
    match k with
    | 0 => [pgDie d] | 1 => [pgPwr d] | 2 => [pgSes d] | 3 => [pgDbg d]
    | 4 | 5 | 6 | 7 => [pgRgn (4 * d + (k - 4))]
    | 8 | 9 | 10 | 11 => [pgXbr (4 * d + (k - 8))]
    | 12 | 13 | 14 | 15 => [pgD2d d (k - 12)]
    | 16 | 17 | 18 | 19 => region pgClu (k - 16)
    | 20 | 21 | 22 | 23 => region pgVlt (k - 20)
    | 24 | 25 | 26 | 27 => region pgPln (k - 24)
    | _ => []
  else if d < 19 then
    let e := d - 16
    match k with
    | 0 => [pgDie d] | 1 => [pgSlt e] | 2 => [pgLnd e] | 3 => [pgLse e] | 4 => [pgRgn (64 + e)] | 5 => [pgDbg d]
    | 28 => [pgOpn16 e]
    | _ =>
      if k < 12 then [pgD2d d (k - 6)]
      else if k < 28 then [pgPrt (16 * e + (k - 12)), pgOpn (16 * e + (k - 12))]
      else []
  else if d = 19 then
    match k with
    | 0 => [pgDieS] | 1 => [pgTim0] | 2 => [pgTim1] | 3 => [pgTim2] | 4 => [pgNrg] | 5 => [pgSec] | 6 => [pgTrl]
    | 7 => [pgMgt] | 12 => [pgBrd] | 13 => [pgDbgS]
    | _ =>
      if 8 ≤ k && k < 12 then [pgPst (k - 8)]
      else if 14 ≤ k && k < 18 then [pgD2d 19 (k - 14)]
      else []
  else []

/-- Whether APLIC source `n` is asserted: the OR of the lines of its pages (R449). It is a level, and no register holds
it. -/
def aplicSource (s : State) (n : Nat) : Bool :=
  n ≠ 0 && (linePages ((n - 1) / 32) ((n - 1) % 32)).any (irqLine s)

/-- A capture of a page (R448): the first event since ERR_CAPT0 was read, later ones set MORE. -/
def capture (s : State) (pg code pos arg : Nat) : State :=
  if regBit s (pg + 0x1C) 31 then orReg s (pg + 0x1C) (1 <<< 30)
  else
    let s := regSet s (pg + 0x1C)
      (BitVec.ofNat 32 (code % 0x10000 + pos % 0x4000 * 0x10000 + 0x80000000))
    regSet s (pg + 0x20) (BitVec.ofNat 32 arg)

/-- Detect a fault (R464): the page captures it, and it waits for the tick that ends the
tick period, attributed to a context. -/
def fault (s : State) (code pg pos arg : Nat) (c : Option Nat) : State :=
  let s := capture s pg code pos arg
  { s with rai.faults := s.rai.faults ++
      [{ code := BitVec.ofNat 16 code, ctx := c, page := BitVec.ofNat 32 pg,
         arg := BitVec.ofNat 32 arg }] }

/-- A first-since-read capture register (VCOLL_LAST, DERR_LAST, XCOLL_LAST, SCOLL_LAST,
OVW_LAST, AUDIT_LAST): VALID is bit 31, MORE is bit 30. -/
def firstCapt (s : State) (k v : Nat) : State :=
  if regBit s k 31 then orReg s k (1 <<< 30)
  else regSet s k (BitVec.ofNat 32 (v % 0x40000000 + 0x80000000))

/-- COLL_LAST (R138): VALID is bit 30, MORE is bit 31. -/
def collCapt (s : State) (c v : Nat) : State :=
  let k := pgClu c + 0x54
  if regBit s k 30 then orReg s k (1 <<< 31)
  else regSet s k (BitVec.ofNat 32 (v % 0x40000000 + 0x40000000))

/-- A last-event register (ERR_LOG, CE_LAST, R223): the event replaces the one held, MORE
tells that one was held. -/
def lastCapt (s : State) (k v : Nat) : State :=
  let more := if regBit s k 31 then 0x40000000 else 0
  regSet s k (BitVec.ofNat 32 (v % 0x40000000 + more + 0x80000000))

/-- Clear VALID and MORE of a capture register. -/
def captClear (s : State) (k : Nat) : State := clrReg s k 0xC0000000

/-- A refusal or abort of a power change (R407): counted on the page written, with the
refuser, and its cause in REFUSE_CAUSE of the die. -/
def refusePower (s : State) (pg refuser cause : Nat) : State :=
  let s := rawAdd s (pg + 0x28) 1
  let s := regSet s (pg + 0x2C) (BitVec.ofNat 32 (pageId refuser))
  regSet s (pgPwr (pg / 0x1000000) + 0x44)
    (BitVec.ofNat 32 (cause + pageId pg / 0x10000 * 0x10000))

/-- A masked read (R382). -/
def countMasked (s : State) (n : Nat) : State := rawAdd s (pgSec + 0x8C) n

end Sys2Proof.Machine
end

