-- ==== Sys2Proof/Machine/Vault.lean ====
section
/-! DEFINITION. The vault: rows and their owners, stored lines and the checks of a read, and
the judgement of vault commands (R201 to R219). -/
namespace Sys2Proof.Machine
open Sys2Proof

/-! ## Rows and owners -/

/-- Bytes of a vault (R201). -/
def vaultSize : Nat := 0x60000000
/-- Rows of a bank (R201). -/
def vaultRows : Nat := 24576
/-- The domain number of the carve-out (R216). -/
def domCarve : Nat := 256

/-- BASE and COUNT of a window register (R204, R205, R223). -/
def winOf (x : Word) : Nat × Nat := (wfield x 0 15, wfield x 16 15)

/-- The row window of context `c` in vault `v` (R204). -/
def ctxRows (s : State) (v c : Nat) : Nat × Nat := winOf (regGet s (pgVlt v + 0x400 + 4 * c))

/-- The carve-out rows of vault `v` (R205). -/
def carveRows (s : State) (v : Nat) : Nat × Nat := winOf (regGet s (pgVlt v + 0x44))

/-- Whether a row lies in a window. -/
def inWin (w : Nat × Nat) (row : Nat) : Bool := w.1 ≤ row && row < w.1 + w.2

/-- Whether two windows share a row; an empty window shares none. -/
def winMeet (a b : Nat × Nat) : Bool :=
  a.2 ≠ 0 && b.2 ≠ 0 && a.1 < b.1 + b.2 && b.1 < a.1 + a.2

/-- The owner of a row: a context, the carve-out (256), or none for a free row (R206). -/
def rowOwner (s : State) (v row : Nat) : Option Nat :=
  if inWin (carveRows s v) row then some domCarve
  else (List.range 256).find? fun c => inWin (ctxRows s v c) row

/-- The vault offset of a byte (R202). -/
def vaultOfs (row bank col line : Nat) : Nat :=
  row * 0x10000 + bank * 0x800 + col * 0x80 + line * 0x40

/-- The retired rows of a vault (R221), as ROW + 2^15 × BANK. -/
def isRetired (s : State) (v row bank : Nat) : Bool :=
  (List.range 16).any fun n =>
    let r := regNat s (pgVlt v + 0x800 + 4 * n)
    bitOf r 31 && r % 0x100000 = row + bank * 0x8000

/-! ## Stored lines -/

/-- The key of a line's side-band. -/
def lineKey (v u : Nat) : Nat := v * 0x1800000 + u / 64

/-- The side-band of the line at `u`. -/
def sideOf (s : State) (v u : Nat) : Side := tabGet Side.init (lineKey v u) s.vlt.side

/-- The generation of the key set of a domain on a die; 0 when it is not in use (R366). -/
def keyGenOf (s : State) (die dom : Nat) : Nat := tabGet 0 (die * 257 + dom) s.sec.memKey

/-- The 64 stored bytes of the line at `u`. -/
def lineData (s : State) (v u : Nat) : Nat := memNat s.vlt.mem (v * vaultSize + u / 64 * 64) 64

/-- Store a line under its owner's keys (R215, R219). -/
def storeLine (s : State) (v u dom data : Nat) (poison : Bool) : State :=
  { s with
    vlt.mem := memWrite s.vlt.mem (v * vaultSize + u / 64 * 64) 64 data
    vlt.side := tabSet Side.init (lineKey v u)
      { dom := dom, keyGen := keyGenOf s (v / 64) dom, poison := poison, bad := 0 } s.vlt.side }

/-- What the checks of R217 find in a line read under a domain's keys: 0 good, 1 uncorrectable,
2 tag mismatch, 3 poison; and whether a symbol was corrected. -/
def lineKind (s : State) (v u dom : Nat) : Nat × Bool :=
  let d := sideOf s v u
  if 2 ≤ d.bad then (1, false)
  else if d.keyGen = 0 || d.keyGen ≠ keyGenOf s (v / 64) dom || d.dom ≠ dom then (2, d.bad = 1)
  else if d.poison then (3, d.bad = 1)
  else (0, d.bad = 1)

/-- ERR_LOG and CE_LAST fields of a line (R223). -/
def lineLog (u kind source : Nat) : Nat :=
  u / 0x10000 + u / 0x800 % 32 * 0x8000 + u / 0x80 % 16 * 0x100000 + u / 0x40 % 2 * 0x1000000 +
  kind * 0x2000000 + source * 0x10000000

/-- Count what a check found (R217, R223): a correction is also reported to the scrubber. -/
def noteLine (s : State) (v u source : Nat) (k : Nat × Bool) : State :=
  let pg := pgVlt v
  let s := if k.2 then
      let s := lastCapt (cntAdd s (pg + 0x54) 1) (pg + 0x64) (lineLog u 0 source)
      let s := irq s pg 4
      let row := BitVec.ofNat 20 (u / 0x10000 + u / 0x800 % 32 * 0x8000)
      let l := tabGet [] v s.vlt.revisit
      let f := tabGet [] v s.vlt.fixup
      { s with
        vlt.revisit := tabSet [] v (if l.contains row then l else l ++ [row]) s.vlt.revisit
        vlt.fixup := tabSet [] v (if f.contains (u / 64) then f else f ++ [u / 64]) s.vlt.fixup }
    else s
  if k.1 = 0 then s
  else
    let s := cntAdd s (pg + (if k.1 = 3 then 0x5C else 0x58)) 1
    irq (lastCapt s (pg + 0x60) (lineLog u k.1 source)) pg 0

/-- Read a line under a domain's keys, with the checks and counts of R217: the data, zero if a
check fails, and the kind of the failure (0 none). -/
def readLine (s : State) (v u dom source : Nat) : Nat × Nat × State :=
  let k := lineKind s v u dom
  (if k.1 = 0 then lineData s v u else 0, k.1, noteLine s v u source k)

/-! ## Vault commands (R208, R210, R211) -/

/-- First column position, L/128 (R207). -/
def scrubEnd (s : State) : Nat := frameLen s / 128
/-- First position of the refresh window, 119L/128 (R207). -/
def refreshPos (s : State) : Nat := 119 * frameLen s / 128

/-- The open row of a bank. -/
def openRow (s : State) (v b : Nat) : Option Nat :=
  match tabGet 0 (v * 32 + b) s.vlt.open_ with
  | 0 => none
  | r + 1 => some r

/-- Open or close a bank's row. -/
def setOpenRow (s : State) (v b : Nat) (r : Option Nat) : State :=
  { s with vlt.open_ := tabSet 0 (v * 32 + b) (match r with | none => 0 | some r => r + 1) s.vlt.open_ }

/-- The commands sent to vault `v` in this frame. -/
def vcmds (s : State) (v : Nat) : List VCmd := tabGet [] v s.vlt.cmds

/-- Record a command sent to the stack. -/
def noteCmd (s : State) (v : Nat) (k : VCmdKind) (b t : Nat) : State :=
  { s with vlt.cmds := tabSet [] v (vcmds s v ++ [⟨k, BitVec.ofNat 5 b, t⟩]) s.vlt.cmds }

/-- Whether a sent command of the kinds `ks`, in bank `b` if one is named, lies less than `n`
cycles before `t`. -/
def nearCmd (h : List VCmd) (ks : List VCmdKind) (b : Option Nat) (n t : Nat) : Bool :=
  h.any fun x => ks.contains x.kind && (b.isNone || b = some x.bank.toNat) && t < x.stage + n

/-- The code of R211 that a command staged in cycle `t`, at position `p`, breaks; 0 for none. Of several it reports the
first of 13; for ACT 11, 2, 4; for a column 12, 10, 1, 7, 8, 9; for PRE 3, 5, 6: a DESIGN CHOICE (log 128), R211 gives no
order. -/
def judgeCmd (s : State) (v : Nat) (k : VCmdKind) (b t p : Nat) (implied : Bool) : Nat :=
  let h := vcmds s v
  if k = .pre && (openRow s v b).isNone then 0
  else if refreshPos s ≤ p && !(implied && p ≤ refreshPos s + 3) then 13
  else
    match k with
    | .pre =>
      if nearCmd h [.act] (some b) 28 t then 3
      else if nearCmd h [.rd] (some b) 2 t then 5
      else if nearCmd h [.wr] (some b) 4 t then 6
      else 0
    | .act =>
      if (openRow s v b).isSome then 11
      else if nearCmd h [.act] (some b) 40 t || nearCmd h [.act] none 1 t ||
          8 ≤ (h.filter fun x => x.kind = .act && t < x.stage + 16).length then 2
      else if nearCmd h [.pre] (some b) 12 t then 4
      else 0
    | .rd | .wr =>
      if p < scrubEnd s then 12
      else if (openRow s v b).isNone then 10
      else if nearCmd h [.act] (some b) 16 t then 1
      else if nearCmd h [.rd, .wr] none 1 t then 7
      else if k = .rd && (nearCmd h [.wr] (some b) 8 t || nearCmd h [.wr] none 3 t) then 8
      else if k = .wr && nearCmd h [.rd] none 2 t then 9
      else 0

/-- The VAULT_COLLISION fault and VCOLL_LAST (R212, R223). -/
def vaultBreach (s : State) (v code b p : Nat) : State :=
  let arg := p % 0x4000 + code * 0x4000 + b * 0x40000
  let s := irq (firstCapt s (pgVlt v + 0x74) arg) (pgVlt v) 1
  fault s 6 (pgVlt v) p (arg + 0x80000000) (clusterCtx s v)

/-- The cycle of the precharge that AP implies after a column at `t` (R210). -/
def impliedPre (s : State) (v b : Nat) : Nat :=
  (vcmds s v).foldl (fun acc x =>
    if x.bank.toNat = b then
      match x.kind with
      | .act => max acc (x.stage + 28)
      | .rd => max acc (x.stage + 2)
      | .wr => max acc (x.stage + 4)
      | .pre => acc
    else acc) 0

/-- An activation (R150, R204): refused out of context, else judged and sent. -/
def vaultActivate (s : State) (v b row t : Nat) : State :=
  let p := posOf s v t
  match clusterCtx s v with
  | none => s
  | some c =>
    let w := ctxRows s v c
    if vaultRows ≤ row || w.2 ≤ row then
      fault s 8 (pgVlt v) p (row % 0x8000 + b * 0x8000) (some c)
    else
      let code := judgeCmd s v .act b t p false
      if code ≠ 0 then vaultBreach s v code b p
      else setOpenRow (countEv (noteCmd s v .act b t) (pgVlt v) (clusterPart s v) .activation 1) v b (some (w.1 + row))

/-- A precharge (R211, R212). -/
def vaultPrecharge (s : State) (v b t : Nat) (implied : Bool) : State :=
  let p := posOf s v t
  let code := judgeCmd s v .pre b t p implied
  if code ≠ 0 then vaultBreach s v code b p
  else if (openRow s v b).isNone then s
  else setOpenRow (noteCmd s v .pre b t) v b none

end Sys2Proof.Machine
end

