-- ==== Sys2Proof/Machine/Image.lean ====
section
/-! DEFINITION. The host map of DRAM (R203) and the plan image: header fields (R38, R39),
cluster map (R42), buckets (R60), bent records (R49), frame lists (R48) and where port
records lie (R265). A plan slot keeps its header; the rest is read from the carve-out,
where the image must not change while it is resident (R463). -/
namespace Sys2Proof.Machine
open Sys2Proof

/-- IMAP.MODE of C-die `d` (R203). -/
def imapMode (s : State) (d : Nat) : Nat := regField s (pgVlt (64 * d) + 0x40) 0 2

/-- The package vault and vault offset of a package address in the DRAM range (R203). -/
def dramMap (s : State) (a : Nat) : Option (Nat × Nat) :=
  if 0x18000000000 ≤ a then none
  else
    let n := a / 0x1800000000
    let o := a % 0x1800000000
    let g := match imapMode s n with | 1 => 0x1000 | 2 => 0x10000 | _ => 0x200000
    if imapMode s n = 0 then some (64 * n + o / vaultSize, o % vaultSize)
    else some (64 * n + o / g % 64, o / (64 * g) * g + o % g)

/-- The plaintext byte at a package address. -/
def dramByte (s : State) (a : Nat) : Nat :=
  match dramMap s a with
  | none => 0
  | some (v, u) => (memByte s.vlt.mem (v * vaultSize + u)).toNat

/-- `n` plaintext bytes at a package address. -/
def dramNat (s : State) (a : Nat) : Nat → Nat
  | 0 => 0
  | n + 1 => dramByte s a + 256 * dramNat s (a + 1) n

/-- The owner of the row of a package address, if it is not free. -/
def dramOwner (s : State) (a : Nat) : Option Nat :=
  match dramMap s a with
  | none => none
  | some (v, u) => rowOwner s v (u / 0x10000)

/-! ## The header -/

/-- The plan in slot `k`. -/
def planSlot (s : State) (k : Nat) : Option PlanSlot :=
  match s.rai.plans.find? (fun e => e.1 = k) with
  | some e => some e.2
  | none => none

/-- A header field of `n` bytes at offset `o`. -/
def hdrField (h : BitVec 2048) (o n : Nat) : Nat := bitsOf h.toNat (8 * o) (8 * n)

def hMagic (h : BitVec 2048) : Nat := hdrField h 0 4
def hFmtMajor (h : BitVec 2048) : Nat := hdrField h 5 1
def hTuvor (h : BitVec 2048) : Nat := hdrField h 6 1
def hFrameLog2 (h : BitVec 2048) : Nat := hdrField h 7 1
def hReq (h : BitVec 2048) : Nat := hdrField h 8 4
def hOpt (h : BitVec 2048) : Nat := hdrField h 0xC 4
def hChips (h : BitVec 2048) : Nat := hdrField h 0x10 4
def hDieMask (h : BitVec 2048) : Nat := hdrField h 0x14 2
def hBatch (h : BitVec 2048) : Nat := hdrField h 0x16 2
def hPorts (h : BitVec 2048) : Nat := hdrField h 0x18 8
def hShares (h : BitVec 2048) : Nat := hdrField h 0x20 4
def hBuckets (h : BitVec 2048) : Nat := hdrField h 0x24 1
def hBraces (h : BitVec 2048) : Nat := hdrField h 0x26 2
def hMapOff (h : BitVec 2048) : Nat := hdrField h 0x28 8
def hBucketOff (h : BitVec 2048) : Nat := hdrField h 0x30 8
def hDirOff (h : BitVec 2048) : Nat := hdrField h 0x38 8
def hBents (h : BitVec 2048) : Nat := hdrField h 0x40 4
def hEnergyMax (h : BitVec 2048) : Nat := hdrField h 0x44 4
def hWeightDigest (h : BitVec 2048) : Nat := hdrField h 0x48 64
def hSigOff (h : BitVec 2048) : Nat := hdrField h 0x88 8
def hPlanRows (h : BitVec 2048) : Nat := hdrField h 0x90 2
def hRowDemand (h : BitVec 2048) : Nat := hdrField h 0x92 2
def hPageTokens (h : BitVec 2048) : Nat := hdrField h 0x94 4
def hReserved (h : BitVec 2048) : Nat :=
  hdrField h 0x98 104 + hdrField h 0x25 1 + hTuvor h / 16 + hPorts h / 2 ^ 48

/-- Whether a plan sets feature bit `b` (R39), as required or as optional. -/
def hFeature (h : BitVec 2048) (b : Nat) : Bool := bitOf (hReq h) b || bitOf (hOpt h) b

/-- The header of the plan that context `c`'s raising runs. -/
def ctxHdr (s : State) (c : Nat) : BitVec 2048 :=
  match planSlot s (raising s c).plan with
  | some p => p.hdr
  | none => 0

/-! ## The rest of the image -/

/-- `n` bytes of the image at package address `img`, from offset `o`. -/
def imgNat (s : State) (img o n : Nat) : Nat := dramNat s (img + o) n

/-- How many bits of `x` below bit `n` are set. -/
def popBelow (x : Nat) : Nat → Nat
  | 0 => 0
  | n + 1 => b2n (bitOf x n) + popBelow x n

/-- Whether package cluster `c` is set in the cluster map (R38, R42). -/
def imgHasCluster (s : State) (img : Nat) (h : BitVec 2048) (c : Nat) : Bool :=
  bitOf (hDieMask h) (c / 64) &&
    bitOf (imgNat s img (hMapOff h + 8 * popBelow (hDieMask h) (c / 64)) 8) (c % 64)

/-- The package clusters of the cluster map, in rising order. -/
def imgClusters (s : State) (img : Nat) (h : BitVec 2048) : List Nat :=
  (List.range 1024).filter (imgHasCluster s img h)

/-- The ports of PORT_MASK, in rising order. -/
def hdrPorts (h : BitVec 2048) : List Nat := (List.range 48).filter (bitOf (hPorts h))

/-- A field of bucket record `k` (R60). -/
def bucketField (s : State) (img : Nat) (h : BitVec 2048) (k o n : Nat) : Nat :=
  imgNat s img (hBucketOff h + 32 * k + o) n

/-- STEP_FRAMES of bucket `k`. -/
def bucketFrames (s : State) (img : Nat) (h : BitVec 2048) (k : Nat) : Nat :=
  bucketField s img h k 4 4

/-- A field of bent record `k` (R49). -/
def bentField (s : State) (img : Nat) (h : BitVec 2048) (k o n : Nat) : Nat :=
  imgNat s img (hDirOff h + 32 * k + o) n

/-- Bytes of one frame-list entry: one index per cluster and port, padded to 8 bytes (R48). -/
def frameEntryBytes (clusters ports : Nat) : Nat := (2 * (clusters + ports) + 7) / 8 * 8

/-- The bent index of column `col` in frame `j` of bucket `k` (R48). -/
def frameBent (s : State) (img : Nat) (h : BitVec 2048) (cols k j col : Nat) : Nat :=
  imgNat s img (bucketField s img h k 8 8 + j * frameEntryBytes cols 0 + 2 * col) 2

/-- Whether the cluster `c` belongs to the cluster map of the plan that runs it (R42). -/
def inClusterMap (s : State) (x c : Nat) : Bool :=
  match planSlot s (raising s x).plan with
  | some p => imgHasCluster s p.addr p.hdr c
  | none => false

end Sys2Proof.Machine
end

