-- ==== Sys2Proof/Machine/Engine.lean ====
section
/-! DEFINITION. DRAM as host requesters reach it (R18, R206, R213, R214, R219, R221, R223, R336, R382, R441,
R456): which dies and rows serve them, the host channel they pass, and the writes and unmasked reads of the
device's own engines. The engines' accesses happen within the command that makes them (log 25). -/
namespace Sys2Proof.Machine
open Sys2Proof

/-- PRESET_STATE of C-die `d` (R416). -/
def presetState (s : State) (d : Nat) : Nat := regField s (pgDieS + 0x310 + 4 * d) 0 3

/-- Die, page offset within the region, and offset within the page of a register key. -/
def kDie (k : Nat) : Nat := k / 0x1000000
def kPage (k : Nat) : Nat := k % 0x1000000 / 0x1000 * 0x1000
def kOff (k : Nat) : Nat := k % 0x1000

/-- The kind and instance of the page that holds a key, if the die serves it: a disabled C-die serves its
DIE and DBG pages alone (R442, R462). -/
def pageServed (s : State) (k : Nat) : Option (Blk × Nat) :=
  if kDie k < 16 && presetState s (kDie k) = 4 && kPage k ≠ 0 && kPage k ≠ 0x1F0000 then none
  else pageAt (kDie k) (kPage k)

/-- An access by name of the page at base `pg`: an error completion where no die serves it (R442, R462). -/
def onServed (s : State) (pg : Nat) (f : State → State) : State :=
  if (pageServed s pg).isSome then f s else emit s (.errorDone 0)

/-- Whether a C-die serves DRAM accesses (R441). -/
def dieServes (s : State) (d : Nat) : Bool :=
  let p := presetState s d
  p ≠ 2 && p ≠ 4 && p ≠ 5 && regField s (pgDie d + 0x24) 0 2 < 2

/-- ACCESS bit that a requester needs of an open context. -/
def accessBit : Requester → Nat
  | .openPort => 1
  | .loose => 2
  | _ => 0

/-- How a host access to a row of `dom` goes: 0 as asked, 1 masked, 2 refused (R382). -/
def rowAccess (s : State) (dom : Nat) (who : Requester) (write : Bool) : Nat :=
  if dom = domCarve then 0
  else
    let x := ctx s dom
    if x.conf then (if who = .importEngine && write then 0 else if write then 2 else 1)
    else if who = .importEngine || x.access.getLsbD (accessBit who) then 0
    else 2

/-- Whether an address lies in the carve-out. -/
def inCarve (s : State) (a : Nat) : Bool := dramOwner s a = some domCarve

/-! ## The channel (R15, R18, R456) -/

/-- The D2D pages that a request to C-die `d` passes, at its senders: from S0 (3) or edge die 0 to 2, over the
link to the nearest die of the same row or column and then straight on (log 24). -/
def hostPath (src d : Nat) : List Nat :=
  let row := d / 4
  let col := d % 4
  match src with
  | 0 => pgD2d 16 col :: (List.range row).map fun j => pgD2d (4 * j + col) 2
  | 1 => pgD2d 17 row :: (List.range (3 - col)).map fun j => pgD2d (4 * row + 3 - j) 3
  | 2 => pgD2d 18 col :: (List.range (3 - row)).map fun j => pgD2d (12 + col - 4 * j) 0
  | _ => pgD2d 19 row :: (List.range col).map fun j => pgD2d (4 * row + j) 1

/-- Count a request on its way (`o` = 0x44), or an error completion (`o` = 0x48). -/
def countPath (s : State) (src d o : Nat) : State := (hostPath src d).foldl (fun s pg => cntAdd s (pg + o) 1) s

/-- The D2D pages that a register access from S0 to a page of die `d` passes, at its senders: those of a C-die's DRAM
accesses; to an edge die straight along row 0 or 3 and over its link there (log 24). -/
def regPath (d : Nat) : List Nat :=
  if d < 16 then hostPath 3 d
  else if d = 16 then [pgD2d 19 0, pgD2d 0 0]
  else if d = 17 then pgD2d 19 0 :: (List.range 4).map fun j => pgD2d j 1
  else if d = 18 then [pgD2d 19 3, pgD2d 12 2]
  else []

/-- The same from edge die 1, whose endpoint makes remote accesses (R312): over its link to the nearest die of the row. -/
def remotePath (d : Nat) : List Nat :=
  if d < 16 then hostPath 1 d
  else if d = 16 then [pgD2d 17 4]
  else if d = 18 then [pgD2d 17 5]
  else if d = 19 then pgD2d 17 0 :: (List.range 4).map fun j => pgD2d (3 - j) 3
  else []

/-- Count a request or an error completion on the pages of a path. -/
def countOn (s : State) (l : List Nat) (o : Nat) : State := l.foldl (fun s pg => cntAdd s (pg + o) 1) s

/-- A register access over a path: a request, and an error completion where it gets one (R456). -/
def countAccess (s : State) (l : List Nat) (ok : Bool) : State :=
  let s := countOn s l 0x44
  if ok then s else countOn s l 0x48

/-- `n` column accesses of vault `v` that belong to no partition (R395). -/
def baseCols (s : State) (v n : Nat) : State := countEv s (pgVlt v) none .column n

/-- `n` host column accesses of vault `v` (R223). -/
def countCols (s : State) (v n : Nat) : State := baseCols (cntAdd s (pgVlt v + 0x78) n) v n

/-! ## Writes -/

/-- Write `n` bytes at offset `u` of vault `v` under its row's owner: a whole line, or a read-modify-write (R214,
R219). False if a check of R217 fails. -/
def putBytes (s : State) (v u dom n data : Nat) (poison : Bool) : Bool × State :=
  let s := countCols s v 1
  if n = 64 then (true, storeLine s v u dom data poison)
  else
    let x := readLine s v u dom 1
    if x.2.1 = 0 then
      (true, storeLine (countCols x.2.2 v 1) v u dom (setBits x.1 (8 * (u % 64)) (8 * n) data) poison)
    else (false, x.2.2)

/-- Whether a host write to a row of `dom` is refused: by Trust, or because the bank-row is retired (R221,
R382). -/
def writeRefused (s : State) (v u dom : Nat) (who : Requester) : Bool :=
  rowAccess s dom who true ≠ 0 || isRetired s v (u / 0x10000) (u / 0x800 % 32)

/-- An engine on die `src` writes `n` bytes of one line (R213, R214, R336); false if it gets an error
completion. -/
def engineWrite (s : State) (src : Nat) (who : Requester) (a n data : Nat) : Bool × State :=
  match dramMap s a with
  | none => (false, s)
  | some (v, u) =>
    let d := v / 64
    let s := countPath s src d 0x44
    match rowOwner s v (u / 0x10000) with
    | none => (false, countPath s src d 0x48)
    | some dom =>
      if !dieServes s d || 64 < a % 64 + n || writeRefused s v u dom who then (false, countPath s src d 0x48)
      else
        let x := putBytes s v u dom n data false
        if x.1 then x else (false, countPath x.2 src d 0x48)

/-- Write the `n` bytes of `x` from address `a`, line by line; false if one of the lines gets an error completion.
`f` bounds the number of lines. -/
def engineWrites (s : State) (src : Nat) (who : Requester) (a n x : Nat) : Nat → Bool × State
  | 0 => (true, s)
  | f + 1 =>
    if n = 0 then (true, s)
    else
      let k := min n (64 - a % 64)
      let y := engineWrite s src who a k (x % 2 ^ (8 * k))
      let z := engineWrites y.2 src who (a + k) (n - k) (x >>> (8 * k)) f
      (y.1 && z.1, z.2)

/-- Write `n` bytes to a ring in the shepherd's carve-out: a part outside it is not written (R326, R360,
R460). -/
def carveWrites (s : State) (src a n x : Nat) : State :=
  if inCarve s a && inCarve s (a + n - 1) then (engineWrites s src .dma a n x (n / 64 + 2)).2 else s

/-! ## Reads without masks -/

/-- An engine on die `src` reads a line of the carve-out: none if it is not there, or gets an error
completion. -/
def carveLine (s : State) (src a : Nat) : Option Nat × State :=
  match dramMap s a with
  | none => (none, s)
  | some (v, u) =>
    let d := v / 64
    let s := countPath s src d 0x44
    if !inCarve s a || !dieServes s d then (none, countPath s src d 0x48)
    else
      let x := readLine (countCols s v 1) v u domCarve 1
      if x.2.1 = 0 then (some x.1, x.2.2) else (none, countPath x.2.2 src d 0x48)

/-- Read whole lines of the carve-out from a 64-aligned address; none if one of them is not delivered. -/
def carveRead (s : State) (src a : Nat) : Nat → Option Nat × State
  | 0 => (some 0, s)
  | n + 1 =>
    let x := carveLine s src a
    let y := carveRead x.2 src (a + 64) n
    (match x.1, y.1 with
     | some p, some q => some (p + q <<< 512)
     | _, _ => none, y.2)

end Sys2Proof.Machine
end

