-- ==== Sys2Proof/Machine/Planer.lean ====
section
/-! DEFINITION. The planer's decoder (R224 to R234). -/
namespace Sys2Proof.Machine
open Sys2Proof

/-- Code length of byte value `x` in a table (R226). -/
def codeLen (t : BitVec 1024) (x : Nat) : Nat := bitsOf t.toNat (4 * x) 4

/-- A table is empty when all its bytes are zero (R226). -/
def tableEmpty (t : BitVec 1024) : Bool := t = 0

/-- A table is valid when it has a code and its Kraft sum is at most 1 (R226). -/
def tableValid (t : BitVec 1024) : Bool :=
  t ≠ 0 &&
    ((List.range 256).foldl (fun acc x =>
      let l := codeLen t x; if l = 0 then acc else acc + 2 ^ (15 - l)) 0) ≤ 2 ^ 15

/-- Canonical codes of a table (R229): length, code and symbol, in order of length and then
of value. -/
def canonCodes (t : BitVec 1024) : List (Nat × Nat × Nat) :=
  let syms := (List.range 15).flatMap fun l =>
    ((List.range 256).filter fun x => codeLen t x = l + 1).map fun x => (l + 1, x)
  (syms.foldl (fun (acc : List (Nat × Nat × Nat) × Nat × Nat) p =>
      -- next code and the length it has
      let code := if acc.1.isEmpty then 0 else (acc.2.1 + 1) <<< (p.1 - acc.2.2)
      (acc.1 ++ [(p.1, code, p.2)], code, p.1)) ([], 0, 0)).1

/-- Outcome of reading one code: a symbol and the next bit, no code matches, or the column
ends first. -/
inductive CodeRead where
  | sym (x : Nat) (next : Nat)
  | noMatch
  | ended
deriving DecidableEq, Repr

/-- Read one code at bit `b`, most significant bit first (R229). `fuel` bits may still be
read, `len` of them have been, with value `v`. -/
def readCode (codes : List (Nat × Nat × Nat)) (col : Nat) : Nat → Nat → Nat → Nat → CodeRead
  | 0, _, _, _ => .noMatch
  | fuel + 1, b, len, v =>
    if 1024 ≤ b then
      (if codes.any (fun c => len < c.1 && c.2.1 >>> (c.1 - len) = v) then .ended else .noMatch)
    else
      let v' := 2 * v + b2n (bitOf col b)
      match codes.find? (fun c => c.1 = len + 1 && c.2.1 = v') with
      | some c => .sym c.2.2 (b + 1)
      | none => readCode codes col fuel (b + 1) (len + 1) v'

/-- Read `n` codes from bit `b` (R229): the bytes and the next bit, or the cause of R232. -/
def readCodes (codes : List (Nat × Nat × Nat)) (col : Nat) : Nat → Nat → Except Nat (List Byte × Nat)
  | 0, b => .ok ([], b)
  | n + 1, b =>
    match readCode codes col 15 b 0 0 with
    | .noMatch => .error 3
    | .ended => .error 4
    | .sym x b' =>
      match readCodes codes col n b' with
      | .error e => .error e
      | .ok (l, e) => .ok (BitVec.ofNat 8 x :: l, e)

/-- Decode a planed column: its bytes, or the cause of R232 (R228 to R232). -/
def planeDecode (tables : Nat → PlanTable) (col : Nat) : Except Nat (List Byte) :=
  let y := bitsOf col 0 8
  let t := tables (bitsOf col 8 5)
  if 192 < y then .error 1
  else if t.invalid || !tableValid t.bytes then .error 2
  else
    match readCodes (canonCodes t.bytes) col y 16 with
    | .error e => .error e
    | .ok (l, b) =>
      if col >>> b ≠ 0 && b < 1024 then .error 5
      else if bitsOf col 13 3 ≠ 0 then .error 6
      else .ok l

/-- The table store of cluster `c` (R227). -/
def tableOf (s : State) (c n : Nat) : PlanTable := tabGet PlanTable.init (c * 32 + n) s.clu.tables

/-- Whether the planer of cluster `c` decodes: feature bit 0 of the running plan (R225). -/
def planerDecodes (s : State) (c : Nat) : Bool :=
  match clusterCtx s c with
  | none => false
  | some x => hFeature (ctxHdr s x) 0

end Sys2Proof.Machine
end

