-- ==== Sys2Proof/Machine/Topology.lean ====
section
/-! DEFINITION. The tick grid (R66, R85), the stretches that a domain takes (R97 to R100), the links between dies
and the crossings between domains (R11 to R19, R27, R102 to R107). Stretched domains are numbered 0 to 63 for the package regions and 64 + e
for edge die e (R89). -/
namespace Sys2Proof.Machine
open Sys2Proof

/-! ## The tick and its grid (R66, R69, R85, R100) -/

/-- The frame length that governs from the next tick on (R66). -/
def nextFrameLen (s : State) : Nat := 2 ^ s.time.pendLog2.getD s.time.frameLog2

/-- The frame period in 2⁻⁵⁶ ns that governs from the next tick on, whose multiples are the grid (R66, R85). -/
def framePeriod (s : State) : Int := nextFrameLen s * (5 * 2 ^ 54)

/-- The grid index of the grid instant nearest to an instant (R85). -/
def gridIndex (s : State) (w : Int) : Int := (2 * w + framePeriod s) / (2 * framePeriod s)

/-- Tick phase minus grid in ps, for a tick at wall time `w` (R85, R88). -/
def phaseOfTick (s : State) (w : Int) : Int := (w - gridIndex s w * framePeriod s) * 1000 / 2 ^ 56

/-- DISC_CTRL.MODE is 1 (R85). -/
def discOn (s : State) : Bool := regField s (pgTim0 + 0x44) 0 2 = 1

/-- PHASE_ERR. -/
def phaseErr (s : State) : Int := sword (regGet s (pgTim0 + 0x50))

/-- DISC_CTRL.LOCKED (R85, R88). -/
def discLocked (s : State) : Bool := discOn s && (phaseErr s).natAbs ≤ 1250

/-- Tick-clock periods of the tick period that ends now: L, or one fewer or more while discipline slews
the tick toward the grid (R69, R85); with a STEP pending, as many as bring the tick to the nearest grid instant,
or to the one after it where that instant has passed: a DESIGN CHOICE (log 86), R85 gives no tick in the past. -/
def tickPeriods (s : State) : Nat :=
  let l := frameLen s
  if s.time.stepPend then
    let w := wallAt s l
    let at_ := fun (i : Int) => (l : Int) + (2 * (i * framePeriod s - w) + perInc s) / (2 * perInc s)
    let n := at_ (gridIndex s w)
    if max 1 (elapsed s : Int) ≤ n then n.toNat else (max 1 (at_ (gridIndex s w + 1))).toNat
  else if discOn s then
    (if 625 ≤ phaseErr s then l - 1 else if phaseErr s ≤ -625 then l + 1 else l)
  else l

/-- The stretches that count toward a tick period of `n` tick-clock periods (R100). -/
def stretchCount (s : State) (n : Nat) : Nat := (s.time.starts.filter fun x => x + 4 ≤ (n : Int)).length

/-- Whether a stretch that begins in period `x` counts toward the present tick period (R100). -/
def countsNow (s : State) (x : Int) : Bool := x + 4 ≤ (tickPeriods s : Int)

/-! ## Stretched domains -/

/-- A stretched domain. -/
def domainOf (s : State) (d : Nat) : Domain := tabGet Domain.init d s.time.domains

/-- Store a stretched domain. -/
def setDomain (s : State) (d : Nat) (x : Domain) : State :=
  { s with time.domains := tabSet Domain.init d x s.time.domains }

/-- The period in which domain `d` owes a stretch at the latest: its own when it begins, an echo 4 periods later
(R98). -/
def owedFrom (d : Nat) (x : Nat × Int) : Int := if x.1 = d then x.2 else x.2 + 4

/-- How many of the stretches of `l` domain `d` has taken by period `tp`, of those that begin before `lim`, and the
first period in which it takes no stretch: it takes them one per period, in consecutive periods (R98). -/
def dueTakes (d : Nat) (tp lim : Int) : List (Nat × Int) → Int → Nat × Int
  | [], free => (0, free)
  | x :: l, free =>
    let due := max free (owedFrom d x)
    if x.2 + 4 ≤ lim && due ≤ tp then
      let r := dueTakes d tp lim l (due + 2)
      (r.1 + 1, r.2)
    else (0, free)

/-- What domain `d` has taken of what it owes by period `tp` of the present tick period, and when it is free
again. A stretch that counts toward the next tick period is still owed at the tick (R100). -/
def takesBy (s : State) (d : Nat) (tp : Int) : Nat × Int :=
  let m := domainOf s d
  dueTakes d tp (tickPeriods s) m.owed m.next

/-! ## Links -/

/-- Where the link output of package region `r` leads (R15, R16): the domain at the far end
and the input by which that end names the link; none for the link to S0, which has no
scheduled part. -/
def linkOfRegion (r : Nat) : Option (Nat × Nat) :=
  let d := r / 4
  match r % 4 with
  | 0 => some (if 4 ≤ d then (4 * (d - 4) + 3, 20) else (64, d))
  | 1 => some (if d % 4 < 3 then (4 * (d + 1) + 2, 20) else (65, d / 4))
  | 2 => if 0 < d % 4 then some (4 * (d - 1) + 1, 20) else none
  | _ => some (if d < 12 then (4 * (d + 4), 20) else (66, d - 12))

/-- Where link `k` of edge die `e` leads (R15, R268). -/
def linkOfEdge (e k : Nat) : Option (Nat × Nat) :=
  if k < 4 then
    some (if e = 0 then (4 * k, 20) else if e = 1 then (4 * (4 * k + 3) + 1, 20)
          else (4 * (12 + k) + 3, 20))
  else if k = 4 then (if 0 < e then some (64 + e - 1, 5) else none)
  else if k = 5 then (if e < 2 then some (64 + e + 1, 4) else none)
  else none

/-- The die of a domain. -/
def dieOfDom (x : Nat) : Nat := if x < 64 then x / 4 else x - 48

/-- The XCAL record of the crossing by which domain `x` receives on input `port` (R107). -/
def xcalRec (x port : Nat) : Nat :=
  if 64 ≤ x then port
  else if port = 20 then (match x % 4 with | 0 => 0 | 1 => 1 | 2 => 3 | _ => 2)
  else
    let q := port - 16
    4 + 3 * (x % 4) + (if q < x % 4 then q else q - 1)

/-- The domain that sends on the crossing by which domain `x` receives on input `port`. -/
def xcalSender (x port : Nat) : Nat :=
  if 64 ≤ x then (match linkOfEdge (x - 64) port with | some (y, _) => y | none => x)
  else if port = 20 then (match linkOfRegion x with | some (y, _) => y | none => x)
  else x / 4 * 4 + (port - 16)

/-- Latency of a crossing in receiver cycles (R17, R27). -/
def crossLat (x port : Nat) : Nat := if x < 64 && port < 20 then 6 else 24

/-- Stretched periods a domain has taken since the latest tick (R98). -/
def stretchesOf (s : State) (x : Nat) : Nat := (domainOf s x).taken + (takesBy s x (elapsed s)).1

/-- The register of field group `o` of the XCAL record of a crossing. -/
def xcalKey (x port o : Nat) : Nat := pgDie (dieOfDom x) + 0x100 + 0x10 * xcalRec x port + o

/-- The drift between two domains (R99). -/
def driftOf (s : State) (x y : Nat) : Int := (stretchesOf s x : Int) - stretchesOf s y

/-- Whether the receiver finds a tag other than the one it expects (R102, R106): the entry is
not written yet, or already overwritten, at the present drift. -/
def crossingSlips (s : State) (x port : Nat) : Bool :=
  let a : Int := regField s (xcalKey x port 0) 0 6
  let lat : Int := crossLat x port
  let depth : Int := if lat = 6 then 32 else 48
  let drift := driftOf s (xcalSender x port) x
  drift > lat - a || -drift ≥ depth + a - lat

/-- What a slip does (R106), for the context that scheduled the read. -/
def takeSlip (s : State) (x port pos : Nat) (c : Option Nat) : State :=
  let s := cntAdd s (xcalKey x port 4) 1
  let s := regPut s (xcalKey x port 0) 24 2 3
  fault s 0x11 (pgDie (dieOfDom x)) pos (xcalRec x port) c

/-- Record the drift seen at a buffer (R107, XCAL_LAG_MAX). -/
def noteDrift (s : State) (x port : Nat) : State :=
  let d := min 7 (driftOf s (xcalSender x port) x).natAbs
  if regNat s (xcalKey x port 8) < d then regSet s (xcalKey x port 8) (BitVec.ofNat 32 d) else s

/-- The partition whose schedule owns a lane of link `k` of edge die `e`: that of the C-die, or
the partition to which the live map assigns the share (R31, R32, R268). -/
def edgeLanePart (s : State) (e k lane : Nat) : Option Nat :=
  if k < 4 then
    (match linkOfEdge e k with | some (r, _) => partOfDie s (r / 4) | none => none)
  else if e = 0 || (e = 1 && k = 4) then liveAssign s 0x900 (lane / 2)
  else liveAssign s 0x940 (lane / 2)

/-- The context that runs in partition `p` now. -/
def partCtx (s : State) (p : Option Nat) : Option Nat :=
  match p with | none => none | some p => (part s p).run

/-- The position of cycle `t` in the frame of partition `p`. -/
def partPos (s : State) (p : Option Nat) (t : Nat) : Nat :=
  match p with | none => t - s.clu.tickCyc | some p => t - (part s p).origin

/-- The transfer present on an input in cycle `t` (R155). -/
def presentOn (s : State) (dst port lane t : Nat) : Option LaneXfer :=
  s.clu.lanes.find? fun x => x.dst = dst && x.port = port && x.lane = lane && x.pos = t

/-- Whether the region crossbar masks inputs of cluster `c` (R405, R455). -/
def clusterMasked (s : State) (c : Nat) : Bool := regBit s (pgRgn (c / 16) + 0x60) (c % 16)

/-- Whether region `r` is in RETAIN or changing, so that others read absent from it (R405). -/
def regionMasked (s : State) (r : Nat) : Bool :=
  r < 64 && (regField s (pgRgn r + 0x24) 0 2 ≠ 0 || regBit s (pgRgn r + 0x24) 8)

/-- Place a transfer on an output lane (R155, R156, R26), to be present in cycle `t`. Two on
one lane collide, and neither is delivered correctly; the result says whether they did. -/
def placeXfer (s : State) (src dst port lane t : Nat) (v : Line) : State × Bool :=
  let hit := s.clu.lanes.any fun x => x.src = src && x.lane = lane && x.pos = t
  if hit then
    ({ s with clu.lanes := s.clu.lanes.map fun x =>
        if x.src = src && x.lane = lane && x.pos = t then { x with v := none } else x }, true)
  else
    ({ s with clu.lanes := s.clu.lanes ++ [⟨dst, port, lane, t, src, some v⟩] }, false)

end Sys2Proof.Machine
end

