-- ==== Sys2Proof/Machine/LinkOps.lean ====
section
/-! DEFINITION. Chroip ports: their state, the frames they send and their replay buffers (R291 to R293, R298 to
R302, R306, R307). -/
namespace Sys2Proof.Machine
open Sys2Proof

/-- Field of `n` bytes at byte `o` of a number. -/
def byteFld (x o n : Nat) : Nat := bitsOf x (8 * o) (8 * n)

/-! ## Ports -/

/-- Port `p`. -/
def linkOf (s : State) (p : Nat) : Link := tabGet Link.init p s.link

/-- Store port `p`. -/
def setLink (s : State) (p : Nat) (k : Link) : State := { s with link := tabSet Link.init p k s.link }

/-! ## Power states, as the ledger sees them (R392, R396, R401, R410) -/

/-- What the page at base `pg` says of its block's power state: CURRENT; a cluster's page with its units'; a port counts by
whether it is DISABLED. -/
def blockState (s : State) (pg : Nat) : Nat :=
  let d := pg / 0x1000000
  match pageAt d (pg % 0x1000000) with
  | some (.clu, i) => regField s (pg + 0x24) 0 2 + 4 * regField s (pgPwr d + 0x100 + 4 * i) 0 12
  | some (.prt, i) => b2n ((linkOf s (16 * (d - 16) + i)).state ≠ .disabled)
  | _ => regField s (pg + 0x24) 0 2

/-- The block of page `pg` leaves its power state: the ledger keeps how long it held it in this tick period (R392,
R408). -/
def noteState (s : State) (pg : Nat) : State :=
  { s with nrg.parts := s.nrg.parts ++ [⟨pg, blockState s pg, elapsed s⟩] }

/-- PRT.CFG.KIND (R287). -/
def portKind (s : State) (p : Nat) : Nat := regField s (pgPrt p + 0x40) 0 2

/-- Whether a port is an UP Chroip port. -/
def portUp (s : State) (p : Nat) : Bool := portKind s p = 1 && (linkOf s p).state = .up

/-- The port address (R291). -/
def portMac (s : State) (p : Nat) : Nat := regPair s (pgPrt p + 0x5C) % 2 ^ 48

/-- Replay-buffer lines in use (R300). -/
def rbufLines (k : Link) : Nat := k.rbuf.foldl (fun a e => a + e.lines) 0

/-- Lines of an entry of a kind (R300). -/
def entryLines (kind : Nat) : Nat := if kind = 1 then 17 else 2

/-- The contexts whose running table set names port `p`. -/
def portCtxs (s : State) (p : Nat) : List Nat :=
  (List.range 4).filterMap fun k =>
    let t := tabGet SetSt.init (p / 16 * 4 + k) s.edge.sets
    if t.state = .running && t.tables.ports.getLsbD p then t.ctx else none

/-- The context from whose table set port `p` runs (R263): of the contexts that rotate on it, the one
that its partition runs. -/
def portCtx (s : State) (p : Nat) : Option Nat :=
  let l := portCtxs s p
  match partCtx s (partOfPort s p) with
  | some c => if l.contains c then some c else l.head?
  | none => l.head?

/-- The ACK a header carries: the current one, or in coalesced mode the one of the last expiry of
ACK_TIMER (R298, R299). -/
def headerAck (k : Link) : BitVec 16 := if k.pcoal then k.ackSent else k.expect - 1

/-! ## The wire (R291, R306) -/

/-- The Ethernet header of a frame of Chroip: destination, source and EtherType. -/
def ethHead (dst src : Nat) : List Byte := natBytesBE 6 dst ++ natBytesBE 6 src ++ [0x9B, 0x3E]

/-- Bytes of the header that a kind carries after the link header (R256, R311, R314). -/
def extBytes (kind : Nat) : Nat :=
  if kind = 1 || kind = 2 then 20 else if kind = 3 || kind = 4 then 22 else 0

/-- The installed key and salt of a phase, for sending or receiving. -/
def linkKey (k : Link) (phase : Nat) (rx : Bool) : Option (BitVec 288) := tabGet none (2 * phase + b2n rx) k.keys

/-- The key proper, and the nonce of a TXC: the salt, then TXC (R306). -/
def keyBytes (x : BitVec 288) : List Byte := natBytes 32 (x.toNat % 2 ^ 256)
def linkNonce (x : BitVec 288) (txc : Nat) : List Byte := natBytes 4 (x.toNat / 2 ^ 256) ++ natBytes 8 txc

/-- A body as it goes on the wire with its tag: sealed under the key, or plain with a tag of zeros before keys are
installed (R295, R306). -/
def sealBody (key : Option (BitVec 288)) (txc : Nat) (head body : List Byte) : List Byte :=
  match key with
  | none => body ++ List.replicate 16 0
  | some x =>
    let ct := gcmCrypt (keyBytes x) (linkNonce x txc) body
    ct ++ gcmTag (keyBytes x) (linkNonce x txc) head ct

/-- The bytes of a frame on the wire: Ethernet header, link header `h`, the kind's header, body, tag and FCS; a stomped
frame carries the complement of its FCS (R291, R294). -/
def wireFrame (k : Link) (h : BitVec 128) (ext : BitVec 176) (body : List Byte) (stomped : Bool) : List Byte :=
  let kind := bitsOf h.toNat 0 4
  let dst := match k.peer with | some a => a.toNat | none => 0xFFFFFFFFFFFF
  let head := ethHead dst k.mac.toNat ++ natBytes 16 h.toNat ++ natBytes (extBytes kind) ext.toNat
  let f := head ++ sealBody (linkKey k (bitsOf h.toNat 4 2) false) (bitsOf h.toNat 64 64) head body
  f ++ natBytes 4 (if stomped then 0xFFFFFFFF ^^^ crc32 f else crc32 f)

/-- A link header (R292). `aux` is SEQ, or the body length of kinds 5 to 7. -/
def linkHeader (s : State) (p kind aux : Nat) (replay : Bool) : BitVec 128 :=
  let k := linkOf s p
  let fr := match portCtx s p with
    | some c => if (raising s c).state = RaiseState.running || (raising s c).state = RaiseState.held
        then (1, (raising s c).frame.toNat % 256) else (0, 0)
    | none => (0, 0)
  let vc := ((List.range 4).find? fun v => k.owed.getD v 0 ≠ 0).getD 0
  let n := min 16 (k.owed.getD vc 0)
  BitVec.ofNat 128 (kind + k.keyPhase.toNat <<< 4 + (b2n k.nakSet + 2 * b2n replay + 4 * fr.1) <<< 8 +
    (aux % 0x10000) <<< 16 + (headerAck k).toNat <<< 32 + fr.2 <<< 48 +
    (vc + 4 * n) <<< 56 + k.txc.toNat <<< 64)

/-- Send one frame: form the header, count its NAK, return its credits, raise TXC (R298, R302, R307). After a NAK the
next waits for 1 µs, or for a replay (R298). -/
def sendRaw (s : State) (p kind aux : Nat) (replay : Bool) (ext : BitVec 176) (body : List Byte)
    (stomped : Bool) : State :=
  let k := linkOf s p
  let h := linkHeader s p kind aux replay
  let s := if k.nakSet then cntAdd s (pgPrt p + 0x94) 1 else s
  let vc := bitsOf h.toNat 56 2
  let n := bitsOf h.toNat 58 5
  let s := setLink s p { k with
    txc := k.txc + 1
    nakSet := false
    nakUntil := if k.nakSet then nowPeriods s + 800 else k.nakUntil
    owed := k.owed.set vc (k.owed.getD vc 0 - n) }
  emit s (.frame p (wireFrame k h ext body stomped))

/-- Send one good frame. -/
def sendFrame (s : State) (p kind aux : Nat) (replay : Bool) (ext : BitVec 176) (body : List Byte) : State :=
  sendRaw s p kind aux replay ext body false

/-- Send an IDLE frame of `n` bytes in all (R293). -/
def sendIdle (s : State) (p n : Nat) : State := sendFrame s p 5 (n - 50) false 0 (List.replicate (n - 50) 0)

/-- Whether a new sequenced frame of a kind may be sent now (R300, R301). -/
def seqFits (s : State) (p kind : Nat) : Bool :=
  let k := linkOf s p
  portUp s p && !k.replaying && rbufLines k + entryLines kind ≤ 2048

/-- Send a new sequenced frame and keep it in the replay buffer (R298, R300). -/
def sendSeq (s : State) (p kind : Nat) (ext : BitVec 176) (body : List Byte) (vc : Nat) : State :=
  let k := linkOf s p
  let e : ReplayEnt := { seq := k.nextSeq, kind := BitVec.ofNat 4 kind, ext := ext, body := body,
                         lines := entryLines kind, vc := BitVec.ofNat 2 vc }
  let k' := { k with nextSeq := k.nextSeq + 1, rbuf := k.rbuf ++ [e] }
  let s := sendFrame (setLink s p k') p kind k.nextSeq.toNat false ext body
  let hi := regField s (pgPrt p + 0x64) 16 12
  if hi < rbufLines k' then regPut s (pgPrt p + 0x64) 16 12 (rbufLines k') else s

/-- Owe the partner a credit on a virtual channel (R302). -/
def oweCredit (s : State) (p vc : Nat) : State :=
  let k := linkOf s p
  setLink s p { k with owed := k.owed.set vc (k.owed.getD vc 0 + 1) }

end Sys2Proof.Machine
end

