-- ==== Sys2Proof/Machine/CmdOps.lean ====
section
/-! DEFINITION. Command frames: how they are formed, deduplicated, queued, routed and
delivered (R314 to R317), and the endpoint's queues (R326). -/
namespace Sys2Proof.Machine
open Sys2Proof

/-! ## Node ID and header fields -/

/-- The package's node ID, if one is assigned (R342). -/
def nodeId (s : State) : Nat := regField s (pgTim2 + 0x40) 0 16
/-- NODE_ID.VALID. -/
def nodeValid (s : State) : Bool := regBit s (pgTim2 + 0x40) 31

def cDst (f : CmdFrame) : Nat := byteFld f.hdr.toNat 0 3
def cOrigin (f : CmdFrame) : Nat := byteFld f.hdr.toNat 3 3
def cCode (f : CmdFrame) : Nat := byteFld f.hdr.toNat 6 1
def cFlood (f : CmdFrame) : Bool := f.hdr.getLsbD 56
def cAckReq (f : CmdFrame) : Bool := f.hdr.getLsbD 57
def cRaiseId (f : CmdFrame) : Nat := byteFld f.hdr.toNat 8 2
def cSeq (f : CmdFrame) : BitVec 32 := f.hdr.extractLsb' 80 32
def cHops (f : CmdFrame) : Nat := bitsOf f.hdr.toNat 112 6
def cBodyLen (f : CmdFrame) : Nat := bitsOf f.hdr.toNat 120 7
/-- `n` body bytes at offset `o`. -/
def cBody (f : CmdFrame) (o n : Nat) : Nat := byteFld f.body.toNat o n

/-- Nonzero reserved bits of a command header (R314, R344). -/
def cReserved (f : CmdFrame) : Bool :=
  let h := f.hdr.toNat
  bitsOf h 16 8 ≠ 0 || bitsOf h 40 8 ≠ 0 || bitsOf h 58 6 ≠ 0 || bitsOf h 118 2 ≠ 0 ||
  bitsOf h 127 49 ≠ 0 || (cFlood f && cDst f ≠ 0) || 64 < cBodyLen f

/-- One more hop. -/
def cHop (f : CmdFrame) : CmdFrame :=
  { f with hdr := BitVec.ofNat 176 (setBits f.hdr.toNat 112 6 (cHops f + 1)) }

/-! ## Leaving -/

/-- LSE counter `o` of edge die `e` (R328). -/
def lseCount (s : State) (e o : Nat) : State := cntAdd s (pgLse e + o) 1

/-- Queue a command on a port, to be sent twice; a full queue drops it (R315). -/
def enqueueCmd (s : State) (p : Nat) (f : CmdFrame) : State :=
  let q := tabGet [] p s.loose.cmdq
  if 64 ≤ q.length then lseCount s (p / 16) 0x124
  else { s with loose.cmdq := tabSet [] p (q ++ [(f, 2)]) s.loose.cmdq }

/-- Whether port `p` is in its die's FLOOD_MASK. -/
def inFlood (s : State) (p : Nat) : Bool := bitOf (regPair s (pgLse (p / 16) + 0x50)) p

/-- Send a flooded command on every UP Chroip port of FLOOD_MASK but the one it came by (R315). -/
def floodOn (s : State) (f : CmdFrame) (but : Option Nat) : State :=
  (List.range 48).foldl (fun s p =>
    if portUp s p && inFlood s p && but ≠ some p then enqueueCmd s p f else s) s

/-- The route entry of a destination on edge die `e` (R317). -/
def routeOf (s : State) (e dst : Nat) : Nat := (tabGet 0 (e * 65536 + dst % 65536) s.loose.route).toNat

/-- The valid candidates of a route entry, in order. -/
def routeCands (r : Nat) : List Nat :=
  ((List.range 4).filter fun k => bitOf r (7 * k + 6)).map fun k => bitsOf r (7 * k) 6

/-- The escape port of a route entry. -/
def routeEsc (r : Nat) : Option Nat := if bitOf r 34 then some (bitsOf r 28 6) else none

/-- The port by which a directed command leaves edge die `e` (R315). -/
def cmdPort (s : State) (e dst : Nat) : Option Nat :=
  let r := routeOf s e dst
  (routeCands r ++ (routeEsc r).toList).find? (portUp s)

/-- Send a directed command from edge die `e`. -/
def directOn (s : State) (e : Nat) (f : CmdFrame) : State :=
  match cmdPort s e (cDst f) with
  | none => s
  | some p => enqueueCmd s p f

/-! ## Seen pairs -/

/-- Tick-clock periods in 10 ms. -/
def tenMs : Nat := 8000000

/-- Whether the pair (ORIGIN, CMD_SEQ) was seen in the last 10 ms (R315). -/
def cmdSeen (s : State) (f : CmdFrame) : Bool :=
  s.loose.seen.any fun x => x.1.toNat = cOrigin f && x.2.1 = cSeq f && nowPeriods s < x.2.2 + tenMs

/-- Hold the pair, dropping the oldest of 1,024. -/
def noteSeen (s : State) (f : CmdFrame) : State :=
  let l := s.loose.seen.filter fun x => nowPeriods s < x.2.2 + tenMs
  let l := if 1024 ≤ l.length then l.drop (l.length - 1023) else l
  { s with loose.seen := l ++ [(BitVec.ofNat 24 (cOrigin f), cSeq f, nowPeriods s)] }

/-! ## Originating -/

/-- A command of this package with the next CMD_SEQ (R314). -/
def mkCmd (s : State) (dst : Option Nat) (code : Nat) (ack : Bool) (raiseId len body : Nat) : CmdFrame × State :=
  let fl := match dst with | none => 1 | some _ => 0
  let h := dst.getD 0 % 65536 + nodeId s <<< 24 + code <<< 48 + (fl + 2 * b2n ack) <<< 56 +
    raiseId % 65536 <<< 64 + s.loose.cmdSeq.toNat <<< 80 + len <<< 120
  ({ hdr := BitVec.ofNat 176 h, body := BitVec.ofNat 512 body },
   { s with loose.cmdSeq := s.loose.cmdSeq + 1 })

/-- Flood a command from here. -/
def floodCmd (s : State) (code raiseId len body : Nat) : State :=
  let x := mkCmd s none code false raiseId len body
  floodOn (noteSeen x.2 x.1) x.1 none

/-- Send a directed command from here, out of edge die 1; with ACK_REQ it waits for its CACK (R315). -/
def directCmd (s : State) (dst code : Nat) (ack : Bool) (raiseId len body : Nat) : State :=
  let x := mkCmd s (some dst) code ack raiseId len body
  let s := noteSeen x.2 x.1
  let s := if ack then { s with loose.waits := s.loose.waits ++ [{ cmd := x.1, resends := 0 }] } else s
  directOn s 1 x.1

/-! ## Endpoint queues (R326) -/

/-- Address of record `n` of endpoint queue `q`. -/
def epRecord (s : State) (q n : Nat) : Nat := regPair s (pgLse 1 + 0x200 + 0x10 * q) % 2 ^ 48 + 128 * n

/-- HEAD and TAIL of endpoint queue `q`, and its size. -/
def epHead (s : State) (q : Nat) : Nat := regField s (pgLse 1 + 0x20C + 0x10 * q) 0 16
def epTail (s : State) (q : Nat) : Nat := regField s (pgLse 1 + 0x20C + 0x10 * q) 16 16
def epSize (s : State) (q : Nat) : Nat := regField s (pgLse 1 + 0x208 + 0x10 * q) 0 16

/-- The index after `n` in a ring of `size` records. -/
def ringNext (n size : Nat) : Nat := if size ≤ n + 1 then 0 else n + 1

/-- Whether a ring whose writer fills `tail` has no room (R328): it holds at most size − 1 records. -/
def ringFull (head tail size : Nat) : Bool := size < 2 || ringNext tail size = head

/-- Whether endpoint queue `q` is full. -/
def epFull (s : State) (q : Nat) : Bool := ringFull (epHead s q) (epTail s q) (epSize s q)

/-- Deliver a record to queue `q`: a header of 22 bytes, TICK_COUNT, a payload of 64 bytes. A full queue
takes nothing. -/
def epDeliver (s : State) (q hdr payload : Nat) : State :=
  if epFull s q then s
  else
    let t := epTail s q
    let r := hdr % 2 ^ 176 + s.time.tick.toNat <<< 192 + payload % 2 ^ 512 <<< 512
    regPut (carveWrites s 1 (epRecord s q t) 128 r) (pgLse 1 + 0x20C + 0x10 * q) 16 16 (ringNext t (epSize s q))

/-- Deliver a command to queue 31 (R348). -/
def deliverCmd (s : State) (f : CmdFrame) : State := epDeliver s 31 f.hdr.toNat f.body.toNat

/-- Flood a command from here that this package acts on too: it also goes to its own queue 31 (R348). -/
def floodActed (s : State) (code raiseId len body : Nat) : State :=
  let x := mkCmd s none code false raiseId len body
  deliverCmd (floodOn (noteSeen x.2 x.1) x.1 none) x.1

end Sys2Proof.Machine
end

