-- ==== Sys2Proof/Machine/PlanOps.lean ====
section
/-! DEFINITION. More of the plan image: port records (R265), brace records (R281), the member
table (R345), digests (R345, R454), and what a raising is from them. -/
namespace Sys2Proof.Machine
open Sys2Proof

/-- Offset of the port record of the k-th port of PORT_MASK (R49, R265). -/
def portRecOff (h : BitVec 2048) (k : Nat) : Nat := hDirOff h + 32 * hBents h + 32 * k

/-- Offset of brace record `k` (R49, R281). -/
def braceRecOff (h : BitVec 2048) (k : Nat) : Nat := portRecOff h (hdrPorts h).length + 64 * k

/-- Offset of the member table (R49, R345). -/
def memberOff (h : BitVec 2048) : Nat := braceRecOff h (hBraces h)

/-- The node-ID field of member `m`. -/
def memberNode (s : State) (img : Nat) (h : BitVec 2048) (m : Nat) : Nat :=
  imgNat s img (memberOff h + 16 + 8 * m) 3

/-- The parent of member `m`. -/
def memberParent (s : State) (img : Nat) (h : BitVec 2048) (m : Nat) : Nat :=
  imgNat s img (memberOff h + 16 + 8 * m + 3) 2

/-- The members whose node is the package's (R347). -/
def ownMembers (s : State) (img : Nat) (h : BitVec 2048) : List Nat :=
  (List.range (hChips h)).filter fun m => memberNode s img h m = nodeId s

/-- This package's member index in a plan; a plan of one package has member 0. -/
def memberIndex (s : State) (img : Nat) (h : BitVec 2048) : Nat :=
  if hChips h ≤ 1 then 0 else (ownMembers s img h).headD 0

/-- The children of member `m` (R345). -/
def memberChildren (s : State) (img : Nat) (h : BitVec 2048) (m : Nat) : List Nat :=
  (List.range (hChips h)).filter fun k => 0 < k && memberParent s img h k = m

/-- `n` plaintext bytes of the image as a list. -/
def imgBytes (s : State) (img o n : Nat) : List Byte :=
  (List.range n).map fun i => BitVec.ofNat 8 (dramByte s (img + o + i))

/-- RAISE_DIGEST (R345): the first 32 bytes of the hash of the member table; 0 for one package. -/
def raiseDigest (s : State) (img : Nat) (h : BitVec 2048) : BitVec 256 :=
  if hChips h ≤ 1 then 0
  else (sha512 (imgBytes s img (memberOff h) (16 + 8 * hChips h))).extractLsb' 0 256

/-- COUNT of partition `p`'s rotation table (R451). DESIGN CHOICE (log 108): the field holds 5 bits and its meaning
is given for 0 to 16 alone (R53); 17 to 31 act as 16. -/
def rotCount (s : State) (p : Nat) : Nat := min 16 (regField s (pgDieS + 0x380 + 4 * p) 0 5)

/-- Rotation entry `j` of partition `p`: RUN (0 acts as 1), CTX, IDLE. -/
def rotEntry (s : State) (p j : Nat) : Nat × Nat × Bool :=
  let r := regGet s (pgDieS + 0x400 + 0x40 * p + 4 * j)
  (max 1 (wfield r 0 16), wfield r 16 8, r.getLsbD 24)

/-- ROT_DIGEST (R347, R454). -/
def rotDigest (s : State) (p : Nat) : Nat :=
  (sha512 ((List.range (rotCount s p)).flatMap fun j =>
    natBytes 4 (regNat s (pgDieS + 0x400 + 0x40 * p + 4 * j) % 0x2000000))).toNat % 2 ^ 64

/-- The plan slot of the raising of context `c`: where its image lies and its header. -/
def ctxImg (s : State) (c : Nat) : Nat × BitVec 2048 :=
  match planSlot s (raising s c).plan with
  | some p => (p.addr, p.hdr)
  | none => (0, 0)

/-- Whether this package is the root of context `c`'s raising (R240, R345). -/
def isRoot (s : State) (c : Nat) : Bool :=
  let x := ctxImg s c
  memberIndex s x.1 x.2 = 0

/-- Whether context `c`'s raising spans more than one package. -/
def isMulti (s : State) (c : Nat) : Bool := 1 < hChips (ctxImg s c).2

/-- The clusters of context `c`'s plan, in rising order. -/
def ctxClusters (s : State) (c : Nat) : List Nat :=
  let x := ctxImg s c
  imgClusters s x.1 x.2

/-- The clusters of a partition. -/
def partClusters (s : State) (p : Nat) : List Nat :=
  ((List.range 16).filter (bitOf (liveDies s p))).flatMap fun d => (List.range 64).map fun i => 64 * d + i

end Sys2Proof.Machine
end

