-- ==== Sys2Proof/Machine/ClusterOps.lean ====
section
/-! DEFINITION. What happens to whole clusters: the clear of their state (R116, R381), the loads of
the entry bent (R125) and of the planer's tables (R227), and the choice of a bent (R122). -/
namespace Sys2Proof.Machine
open Sys2Proof

/-- Every register, tile, loop counter and peg of cluster `c` zero, and its weight buffer (R116). -/
def clearRegs (s : State) (c : Nat) : State :=
  { s with
    clu.vreg := tabDrop (fun k => k / 64 = c) s.clu.vreg
    clu.sreg := tabDrop (fun k => k / 32 = c) s.clu.sreg
    clu.preg := tabDrop (fun k => k / 16 = c) s.clu.preg
    clu.xreg := tabDrop (fun k => k / 8 = c) s.clu.xreg
    clu.tile := tabDrop (fun k => k / 4 = c) s.clu.tile
    clu.run := tabDrop (fun k => k / 4 = c) s.clu.run
    clu.lc := tabDrop (fun k => k / 2 = c) s.clu.lc
    clu.peg := tabDrop (fun k => k / 16 = c) s.clu.peg
    clu.pegCmp := tabDrop (fun k => k / 16 = c) s.clu.pegCmp
    clu.wbuf := memClear s.clu.wbuf (c * wbufSize) wbufSize }

/-- The planer's table store of cluster `c` is emptied, and holds no tables of a prepared context (R227,
R235). -/
def emptyTables (s : State) (c : Nat) : State :=
  regSet (regPut { s with clu.tables := tabDrop (fun k => k / 32 = c) s.clu.tables } (pgPln c + 0x40) 1 1 0)
    (pgPln c + 0x44) 0

/-- The whole state of cluster `c` cleared (R381). -/
def clearCluster (s : State) (c : Nat) : State :=
  let s := emptyTables (clearRegs s c) c
  { s with
    clu.store := memClear s.clu.store (c * storeSize) storeSize
    clu.bent := tabDrop (fun k => k / 16384 = c) s.clu.bent
    clu.tag := tabDrop (fun k => k / 2 = c) s.clu.tag
    clu.seq := tabDrop (fun k => k = c) s.clu.seq }

/-- Vault offset of the plan area of context `x` in the vault of cluster `c` (R49, R204). -/
def planArea (s : State) (x c : Nat) : Nat := (ctxRows s c x).1 * 0x10000

/-- Read `n` lines of the vault of cluster `c` from offset `u` as a device load: the bytes, zeros for
a line that fails a check; the first failed line and the kind of its failure. -/
def loadLines (s : State) (x c u : Nat) : Nat → Nat × Option (Nat × Nat) × State
  | 0 => (0, none, s)
  | n + 1 =>
    let a := readLine s c u x 3
    let b := loadLines a.2.2 x c (u + 64) n
    (a.1 + b.1 <<< 512, if a.2.1 = 0 then b.2.1 else some (u, a.2.1), b.2.2)

/-- The P fault of a load: an ERR_LOG argument for its first failed line (R125, R227). -/
def loadFault (s : State) (x c : Nat) (bad : Option (Nat × Nat)) : State :=
  match bad with
  | none => s
  | some (u, k) => fault s 0xB (pgVlt c) 0 (lineLog u k 3 + 0x80000000) (some x)

/-- Load the entry bent of context `x` into half 0 of cluster `c`, which is ON (R125). `prep`: while a raising is
prepared; otherwise in a switch frame. A switch frame's descriptor that is malformed with no failing line sets DESC_ERR
and gives no fault, and null frames follow: the model's choice (log 127). -/
def loadEntryOn (s : State) (x c : Nat) (prep : Bool) : State :=
  let u := planArea s x c
  let d := loadLines s x c u 2
  let idx := bitsOf d.1 0 16
  let len := bitsOf d.1 16 11
  let descErr := d.1 >>> 27 ≠ 0 || len = 0 || 1024 < len
  let b := if descErr then (0, none, d.2.2) else loadLines d.2.2 x c (u + 128) ((len + 1) / 2)
  let s := b.2.2
  let bad := match d.2.1 with | some z => some z | none => b.2.1
  let q := seqOf s c
  if descErr then
    let s := setSeq s c { q with ready := false, descErr := true, lineErr := bad.isSome }
    if prep then s else loadFault s x c bad
  else
    let s := (List.range len).foldl (fun s i => setBundle s c 0 i (BitVec.ofNat 256 (b.1 >>> (256 * i)))) s
    let s := setTag s c 0 { valid := true, index := BitVec.ofNat 16 idx, length := BitVec.ofNat 14 len,
                            sealed := true }
    let s := setSeq s c { q with runHalf := 0, nullFrame := false, nextBent := BitVec.ofNat 16 idx,
                                 ready := !(prep && bad.isSome), descErr := false, lineErr := bad.isSome }
    if prep then s else loadFault s x c bad

/-- Load the entry bent: a cluster that is not ON takes nothing, and READY stays 0 (R405, R408). -/
def loadEntry (s : State) (x c : Nat) (prep : Bool) : State :=
  if clusterOn s c then loadEntryOn s x c prep else setSeq s c { seqOf s c with ready := false }

/-- Load the planer tables of context `x` in cluster `c`; in pass-through mode nothing is loaded, and the
store stays empty (R227). LOAD_ERR and ERR_SLOT of an earlier load are then cleared: the model's choice (log 127). In a
cluster that is not ON nothing is loaded either, and READY is 0 (log 127). -/
def loadTables (s : State) (x c : Nat) (decode prep : Bool) : State :=
  let pg := pgPln c
  if !clusterOn s c then regSet (emptyTables s c) (pg + 0x40) 0
  else if !decode then regSet (emptyTables s c) (pg + 0x40) 2
  else
    let u := planArea s x c + 0x8080
    let one := fun (acc : State × Option (Nat × Nat) × Option Nat × Option Nat × Nat) n =>
      let (s, line, mal, first, valid) := acc
      let r := loadLines s x c (u + 128 * n) 2
      let t := BitVec.ofNat 1024 r.1
      let malformed := r.2.1.isNone && t ≠ 0 && !tableValid t
      let inv := r.2.1.isSome || malformed
      let e : PlanTable := { bytes := t, invalid := inv }
      let s := { r.2.2 with clu.tables := tabSet PlanTable.init (c * 32 + n) e r.2.2.clu.tables }
      (s, (if line.isNone then r.2.1 else line), (if mal.isNone && malformed then some n else mal),
        (if first.isNone && inv then some n else first),
        if inv || t = 0 then valid else valid + 2 ^ n)
    let (s, line, mal, first, valid) := (List.range 32).foldl one (s, none, none, none, 0)
    let err := first.isSome
    let s := regSet s (pg + 0x44) (BitVec.ofNat 32 valid)
    let s := regSet s (pg + 0x40) (BitVec.ofNat 32
      (2 * b2n (!(prep && err)) + 4 * b2n err + 8 * first.getD 0))
    let s := if err then irq s pg 1 else s
    if prep then s
    else
      match line, mal with
      | some z, _ => loadFault s x c (some z)
      | none, some n => fault s 0xC pg 0 n (some x)
      | none, none => s

/-- Whether the planer tables of cluster `c` are ready (R235). -/
def tablesReady (s : State) (c : Nat) : Bool := regBit s (pgPln c + 0x40) 1

/-- Whether the entry bent and tables of context `x` would load without fault, on a scratch copy of the
state (R347 for a context that is armed while another one runs). -/
def wouldLoad (s : State) (x c : Nat) (decode : Bool) : Bool :=
  let t := loadTables (loadEntry (clearCluster s c) x c true) x c decode true
  (seqOf t c).ready && tablesReady t c

/-- Choose the bent of a frame of contents (R122). -/
def selectBent (s : State) (x c : Nat) : State :=
  let q := seqOf s c
  let q0 := { q with nullFrame := false, ended := false, pos0 := 0, addr0 := 0, nullPos := none }
  let h := q.runHalf.toNat
  let t := tagOf s c h
  let i := tagOf s c (1 - h)
  if q.nextBent = 0 then setSeq s c { q0 with nullFrame := true }
  else if t.valid && t.index = q.nextBent then setSeq s c q0
  else if i.valid && i.index = q.nextBent then setSeq s c { q0 with runHalf := BitVec.ofNat 1 (1 - h) }
  else fault (setSeq s c { q0 with nullFrame := true }) 0xE (pgClu c) 0 q.nextBent.toNat (some x)

/-- The sequencer of a cluster outside the cluster map, or in a frame without contents (R42, R73). -/
def nullBent (s : State) (c : Nat) : State :=
  setSeq s c { seqOf s c with nullFrame := true, ended := false, pos0 := 0, addr0 := 0, nullPos := none }

end Sys2Proof.Machine
end

