-- ==== Sys2Proof/Machine/SessionOps.lean ====
section
/-! DEFINITION. Session entries, slot records and the commits that join them (R236 to R248,
R252, R494), as far as other commands need them. -/
namespace Sys2Proof.Machine
open Sys2Proof

/-! ## Entries -/

/-- Key of byte `o` of entry `e` of die `d`. -/
def entKey (d e o : Nat) : Nat := d * 2621440 + 1024 * e + o
/-- `n` bytes of an entry. -/
def entNat (s : State) (d e o n : Nat) : Nat := memNat s.ses.table (entKey d e o) n
/-- Write `n` bytes of an entry. -/
def entSet (s : State) (d e o n x : Nat) : State :=
  { s with ses.table := memWrite s.ses.table (entKey d e o) n x }
/-- SLOT of an entry (R237). -/
def entSlot (s : State) (d e : Nat) : Nat := entNat s d e 2 2 % 1024
/-- STATE of an entry (R237). -/
def entState (s : State) (d e : Nat) : Nat := entNat s d e 4 1

/-- The context and slot an entry is bound to or pending on. -/
def boundOf (s : State) (d e : Nat) : Option (Nat × Nat) := tabGet none (2560 * d + e) s.ses.bound
/-- Bind an entry, or free it. -/
def setBound (s : State) (d e : Nat) (x : Option (Nat × Nat)) : State :=
  { s with ses.bound := tabSet none (2560 * d + e) x s.ses.bound }

/-- Whether an entry of die `d` is bound to a slot of a context, or pending on it (R245). -/
def slotTaken (s : State) (d c slot : Nat) : Bool :=
  s.ses.bound.any fun e => e.1 / 2560 = d && e.2 = some (c, slot)

/-! ## Records -/

/-- Home cluster and record position of a batch slot (R239). -/
def slotHome (s : State) (c slot : Nat) : Option (Nat × Nat) :=
  let cl := ctxClusters s c
  match cl[slot % cl.length]? with
  | none => none
  | some h => some (h, slot / cl.length + 1)

/-- The lead vault (R239). -/
def leadVault (s : State) (c : Nat) : Option Nat := (ctxClusters s c).head?

/-- Vault offset of column `col` of the record at position `p` of context `c` in vault `v` (R239). -/
def recOfs (s : State) (c v p col : Nat) : Nat :=
  vaultOfs ((ctxRows s v c).1 + hPlanRows (ctxImg s c).2 + p / 32) (p % 32) col 0

/-- Read a column of a record under the context's keys; a line that fails a check reads as zeros. -/
def readCol (s : State) (c v u : Nat) : Nat × State :=
  let a := readLine s v u c 1
  let b := readLine a.2.2 v (u + 64) c 1
  (a.1 + b.1 <<< 512, b.2.2)

/-- Write a column of a record, if the row is the context's. HOST_COLS does not count it, and a retired bank-row does not
refuse it: DESIGN CHOICEs (log 129), R221 and R223 speak of host accesses alone. -/
def writeCol (s : State) (c v u data : Nat) : State :=
  let s := baseCols s v 1
  if rowOwner s v (u / 0x10000) = some c then
    storeLine (storeLine s v u c (data % 2 ^ 512) false) v (u + 64) c (data >>> 512) false
  else s

/-- The live bank of two SEQ values (R243). -/
def liveBank (q0 q1 : Nat) : Nat :=
  let d := (q1 + 2 ^ 32 - q0) % 2 ^ 32
  if 1 ≤ d && d < 2 ^ 31 then 1 else 0

/-- The bank that a commit writes and its SEQ (R243): SEQ lies `o` bytes into the columns `c0` and
`c1` of the two banks. -/
def nextBank (s : State) (c v p c0 c1 o : Nat) : Nat × Nat × State :=
  let a := readCol s c v (recOfs s c v p c0)
  let b := readCol a.2 c v (recOfs a.2 c v p c1)
  let q0 := bitsOf a.1 (8 * o) 32
  let q1 := bitsOf b.1 (8 * o) 32
  let l := liveBank q0 q1
  (1 - l, ((if l = 0 then q0 else q1) + 1) % 2 ^ 32, b.2)

/-- BUCKET of the context record (R243, R252). -/
def recordBucket (s : State) (c : Nat) : Nat × State :=
  match leadVault s c with
  | none => (0, s)
  | some v =>
    let a := readCol s c v (recOfs s c v 0 0)
    let b := readCol a.2 c v (recOfs a.2 c v 0 1)
    let x := if liveBank (bitsOf a.1 32 32) (bitsOf b.1 32 32) = 0 then a.1 else b.1
    (x % 256, b.2)

/-! ## Images -/

/-- The 896 bytes of an entry's IMAGE. -/
def entImage (s : State) (d e : Nat) : Nat := entNat s d e 0x20 896

/-- Session number (R236). -/
def sessionNo (d e : Nat) : Nat := 2560 * d + e

/-- The IMAGE as the SES takes it (R245, R382): for a confidential context each column is deciphered
under the input key with the tweak of its column. -/
def imagePlain (s : State) (c session seq img : Nat) : Nat :=
  let x := ctx s c
  match x.conf, x.ioKeys with
  | true, some k =>
    (List.range 7).foldl (fun acc i =>
      acc + bytesNat (xts false (k.extractLsb' 0 512) ((session * 2 ^ 32 + seq) * 16 + i)
        (natBytes 128 (bitsOf img (1024 * i) 1024))) <<< (1024 * i)) 0
  | _, _ => img

/-- Whether an image passes R242: reserved bytes zero, PAGES at most 320, INPUTS at most 32. -/
def imageGood (img : Nat) : Bool :=
  byteFld img 49 1 = 0 && byteFld img 56 72 = 0 && byteFld img 50 2 ≤ 320 && byteFld img 52 4 ≤ 32

/-- HEAD as the SES writes it (R242): SEQ, SESSION and FLAGS are its own. -/
def headOf (img seq session : Nat) : Nat :=
  img % 2 ^ 320 + seq <<< 320 + session <<< 352 + 1 <<< 384 + byteFld img 50 78 <<< 400

/-! ## Jobs -/

/-- The jobs of a vault's host engine. -/
def hostQ (s : State) (v : Nat) : List HostQ := tabGet [] v s.vlt.hostq

/-- Store them. -/
def setHostQ (s : State) (v : Nat) (l : List HostQ) : State :=
  { s with vlt.hostq := tabSet [] v l s.vlt.hostq }

/-- Queue a job (R246): after the host engine began this frame's guard it is late (R248). -/
def queueJob (s : State) (v : Nat) (j : HostJob) : State :=
  setHostQ s v (hostQ s v ++
    [{ job := j, aborted := false, late := guardPos s ≤ s.clu.cyc - s.clu.tickCyc }])

/-- A new frame: no job is late any more (R248). -/
def clearLate (s : State) : State :=
  { s with vlt.hostq := s.vlt.hostq.map fun q => (q.1, q.2.map fun x => { x with late := false }) }

/-- The context a job belongs to: a commit's binding, a bucket's or a replay's context. -/
def jobCtx (s : State) : HostJob → Option Nat
  | .access _ _ => none
  | .commit d e _ _ _ _ => (boundOf s d e).map (·.1)
  | .bucket _ c _ _ => some c
  | .replay c _ _ _ _ => some c

/-- The number of commits of a die not yet complete (R255). -/
def pendingCommits (s : State) (d : Nat) : Nat :=
  s.vlt.hostq.foldl (fun acc q => acc + (q.2.filter fun x =>
    match x.job with | .commit d' _ _ _ _ _ => d' = d | _ => false).length) 0

/-- Whether a bucket commit of a context is pending. -/
def bucketPending (s : State) (c : Nat) : Bool :=
  s.vlt.hostq.any fun q => q.2.any fun x => match x.job with | .bucket _ c' _ _ => c' = c | _ => false

/-- R248: discard the pending commits of a context, and unbind its entries with REASON 4. -/
def unbindCtx (s : State) (c : Nat) : State :=
  let es := s.ses.bound.filter fun e => match e.2 with | some (c', _) => c' = c | none => false
  let s := { s with vlt.hostq := s.vlt.hostq.filterMap fun q =>
    let l := q.2.filter fun x => jobCtx s x.job ≠ some c
    if l.isEmpty then none else some (q.1, l) }
  es.foldl (fun s e =>
    let d := e.1 / 2560
    let k := e.1 % 2560
    entSet (entSet (setBound s d k none) d k 4 1 0) d k 5 1 4) s

end Sys2Proof.Machine
end

