-- ==== Sys2Proof/Machine/RaiseOps.lean ====
section
/-! DEFINITION. Raisings: their ends (R346, R354), the status checks of ARM and phase one (R41,
R347, R396, R397), reports (R354), and the areas of landing SRAM (R262, R286). -/
namespace Sys2Proof.Machine
open Sys2Proof

/-! ## Landing areas -/

/-- Bytes of landing SRAM of an edge die. -/
def landSize : Nat := 0x2000000

/-- Address of ring entry `d` mod 4 of context `c` on edge die `e` (R74, R262, R286). -/
def ringAddr (s : State) (e c d : Nat) : Nat :=
  let r := regGet s (bankKey (pgLnd e + 0x44) c)
  e * landSize + (wfield r 0 9 + d % 4 * wfield r 16 9) * 0x10000

/-- Lines of a ring entry of context `c`. -/
def ringLines (s : State) (e c : Nat) : Nat := wfield (regGet s (bankKey (pgLnd e + 0x44) c)) 16 9 * 1024

/-- Address of the staging area of context `c`. -/
def stageAddr (s : State) (e c : Nat) : Nat :=
  e * landSize + wfield (regGet s (bankKey (pgLnd e + 0x48) c)) 0 9 * 0x10000

/-- Lines of the staging area of context `c`. -/
def stageLines (s : State) (e c : Nat) : Nat := wfield (regGet s (bankKey (pgLnd e + 0x48) c)) 16 9 * 1024

/-- Key of gate counter `n` of ring entry `d` mod 4 of context `c` on edge die `e`. -/
def gcKey (e c d n : Nat) : Nat := ((e * 256 + c) * 4 + d % 4) * 16 + n

/-- Key of the combine steps of group `g` in ring entry `d` mod 4. -/
def combKey (e c d g : Nat) : Nat := ((e * 256 + c) * 4 + d % 4) * 2048 + g

/-- Key of what an edge die holds for a context. -/
def edgeKey (e c : Nat) : Nat := e * 256 + c

/-- Release ring entry `d` mod 4 of context `c` on edge die `e` (R74, R305): its counters and LANDED
bits clear. -/
def releaseRing (s : State) (c d e : Nat) : State :=
  let k := gcKey e c d 0 / 16
  let l := ringAddr s e c d / 64
  let n := ringLines s e c
  { s with
    edge.gc := tabDrop (fun x => x / 16 = k) s.edge.gc
    edge.landed := tabDrop (fun x => l ≤ x && x < l + n) s.edge.landed
    edge.comb := tabDrop (fun x => x / 2048 = k) s.edge.comb }

/-! ## Ends -/

/-- Table set `k` of edge die `e`. -/
def setOf (s : State) (e k : Nat) : SetSt := tabGet SetSt.init (e * 4 + k) s.edge.sets
/-- Store a table set. -/
def putSet (s : State) (e k : Nat) (t : SetSt) : State :=
  { s with edge.sets := tabSet SetSt.init (e * 4 + k) t s.edge.sets }

/-- The partition map apply that waits for a re-raising in partition `p` is cancelled (R452). -/
def cancelPmap (s : State) (p : Nat) : State :=
  match s.rai.pmap with
  | some ⟨some q, _⟩ =>
    if q = p then regSet { s with rai.pmap := none } (pgDieS + 0x984) (BitVec.ofNat 32 (4 * 2)) else s
  | _ => s

/-- What the edge dies do when a raising of context `c` ends: sets become cached, ring entries are
released, waiting sends, combines and pegs are dropped, braces and duplicate windows end (R263,
R305, R346). -/
def edgeEnd (s : State) (c : Nat) : State :=
  let s := (List.range 3).foldl (fun s e => (List.range 4).foldl (fun s d => releaseRing s c d e) s) s
  { s with
    edge.sets := s.edge.sets.map fun e =>
      if e.2.ctx = some c then (e.1, { e.2 with ctx := none, state := SetState.cached }) else e
    edge.deferred := s.edge.deferred.filterMap fun e =>
      let l := e.2.filter fun d => d.ctx ≠ c
      if l.isEmpty then none else some (e.1, l)
    edge.pegWait := s.edge.pegWait.filter fun w => w.ctx ≠ c
    edge.portSeq := tabDrop (fun k => k % 256 = c) s.edge.portSeq
    edge.brace := tabDrop (fun k => k % 256 = c) s.edge.brace
    edge.dupWin := tabDrop (fun k => k % 256 = c) s.edge.dupWin }

/-- Whether context `c` is the predecessor that an apply at the re-raising of its partition waits for (R452): the one
with a successor, or before any has one the one that runs (log 42). -/
def isPredecessor (s : State) (c : Nat) : Bool :=
  let p := (ctx s c).part
  if (ctxList s).any fun d => (ctx s d).part = p && (ctx s d).succ.isSome then (ctx s c).succ.isSome
  else (part s p).run = some c

/-- Whether partition `p` runs context `c` or switches to it. -/
def partServes (s : State) (p c : Nat) : Bool :=
  let st := part s p
  st.run = some c || (st.kind = .switch_ && st.switchTo = some c)

/-- The raising of context `c` ends in `st` (R346): nothing further begins, the edge dies let go, its session
entries become unbound (R248), and its clusters' table stores serve no context any more (R235). -/
def endRaising (s : State) (c : Nat) (st : RaiseState) : State :=
  let r := raising s c
  let pred := isPredecessor s c
  let s := setRaising s c { r with state := st, stopAt := none, holdAt := none, resumeAt := none, armedTrig := false }
  let s := unbindCtx (edgeEnd s c) c
  let s := if partServes s (ctx s c).part c then
      (ctxClusters s c).foldl (fun s k => regPut s (pgPln k + 0x40) 1 1 0) s else s
  let s := { s with rai.trail := s.rai.trail.filter fun w => w.ctx ≠ c }
  let x := ctx s c
  let s := setCtx s c { x with state := if x.state = .running then CtxState.keyed else x.state }
  if pred then cancelPmap s x.part else s

/-! ## Reports -/

/-- The body of a FAULT_REPORT (R348, R354). -/
def reportBody (s : State) (c cause cls : Nat) : Nat :=
  let x := ctxImg s c
  cause + cls <<< 8 + memberIndex s x.1 x.2 <<< 16 + (raising s c).frame.toNat <<< 64 + s.time.tick.toNat <<< 128

/-- Send a directed command, or deliver it here if this package is its destination. -/
def sendTo (s : State) (dst code : Nat) (ack : Bool) (raiseId len body : Nat) : State :=
  if dst = nodeId s then
    let x := mkCmd s (some dst) code ack raiseId len body
    deliverCmd x.2 x.1
  else directCmd s dst code ack raiseId len body

/-- The root's node of a plan: this package's own, where the plan is for one package. -/
def rootNode (s : State) (x : Nat × BitVec 2048) : Nat := if hChips x.2 ≤ 1 then nodeId s else memberNode s x.1 x.2 0

/-- FAULT_REPORT of context `c` to its root (R354). -/
def faultReport (s : State) (c cause cls : Nat) : State :=
  sendTo s (rootNode s (ctxImg s c)) 10 true (raising s c).raiseId.toNat 24 (reportBody s c cause cls)

/-- A fault ends the raising of context `c` (R354): FAULTED, STOP flooded, FAULT_REPORT to the root. -/
def faultRaising (s : State) (c cause cls : Nat) : State :=
  let s := floodActed s 1 (raising s c).raiseId.toNat 8 0
  let s := faultReport s c cause cls
  let s := setCtx s c { ctx s c with faultCause := BitVec.ofNat 4 cause }
  irq (endRaising s c .faulted) pgTim2 1

/-! ## Checks -/

/-- The die mask that an ARM in partition `p` checks: the live map, or the staged map while an
APPLY_AT_RERAISE is pending (R452). -/
def mapOffset (s : State) (p : Nat) : Bool := match s.rai.pmap with | some ⟨some q, _⟩ => q = p | _ => false

/-- Whether a plan fits partition `p` (R41). -/
def fitsPartition (s : State) (h : BitVec 2048) (p : Nat) : Bool :=
  let st := mapOffset s p
  let dies := regNat s (pgDieS + (if st then 0x100 else 0x800) + 4 * p) % 0x10000
  let has := fun (o k : Nat) => let r := regNat s (pgDieS + o + 4 * k); bitOf r 4 && r % 16 = p
  dies = hDieMask h &&
  (hdrPorts h).all (fun n => has (if st then 0x140 else 0x840) n) &&
  ((List.range 32).all fun k => !bitOf (hShares h) k ||
    (if k < 16 then has (if st then 0x200 else 0x900) k else has (if st then 0x240 else 0x940) (k - 16)))

/-- The set of the die of port `n` that serves raising `rid` there: a loaded or cached one, or with `keep` one from which
context `c` runs, which a successor of the same raising takes over (R347, R357). -/
def setFor (s : State) (c rid n : Nat) (keep : Bool) : Option Nat :=
  (List.range 4).find? fun k =>
    let t := setOf s (n / 16) k
    (t.state = .loaded || t.state = .cached || (keep && t.state = .running && t.ctx = some c)) &&
      t.tables.ports.getLsbD n && regField s (pgSlt (n / 16) + 0x100 + 0x10 * k) 16 16 = rid

/-- Whether the landing SRAM holds the plan's areas for the context, and no cable is longer than the
plan assumes (R265). -/
def portsFit (s : State) (img : Nat) (h : BitVec 2048) : Bool :=
  let ps := hdrPorts h
  ((List.range ps.length).zip ps).all fun x =>
    let o := portRecOff h x.1
    regField s (pgPrt x.2 + 0x4C) 0 16 ≤ imgNat s img (o + 2) 2

/-- Whether context `c`'s landing areas are as large as the plan needs. -/
def areasFit (s : State) (c img : Nat) (h : BitVec 2048) : Bool :=
  let ps := hdrPorts h
  (List.range 3).all fun e =>
    match ((List.range ps.length).zip ps).find? (fun x => x.2 / 16 = e) with
    | none => true
    | some (k, _) =>
      let o := portRecOff h k
      let ring := imgNat s img (o + 8) 2
      let stage := imgNat s img (o + 10) 2
      ring * 1024 ≤ ringLines s e c && stage * 1024 ≤ stageLines s e c && 4 * ring + stage ≤ 440

/-- BASE_FRAME (R396). -/
def baseFrame (s : State) : Nat :=
  Config.baseFrame ((List.range 64).map fun n => regField s (bankKey (pgNrg + 0x68) n) 0 24) (s.time.frameLog2 ::
    ((List.range 16).map fun d => regField s (pgDie d + 0x24) 0 2) ++
    ((List.range 64).map fun r => regField s (pgRgn r + 0x24) 0 2) ++
    ((List.range 1024).map fun c => regField s (pgClu c + 0x24) 0 2 + 4 * regField s (pgPln c + 0x24) 0 2) ++
    ((List.range 1024).map fun c => regField s (pgPwr (c / 64) + 0x100 + 4 * (c % 64)) 0 12) ++
    ((List.range 48).map fun p => b2n ((linkOf s p).state ≠ .disabled)))

/-- BUDGET in watts: 0 acts as 1, above 2,200 as 2,200 (R396, R409). -/
def budgetW (s : State) : Nat := min 2200 (max 1 (regField s (pgNrg + 0x40) 0 12))

/-- BUDGET_FRAME in µJ: watts × L × 1.25 ns (R396). -/
def budgetFrame (s : State) : Nat := budgetW s * frameLen s / 800

/-- DECL_SCALE × an energy in µJ (R397, R409). -/
def declScale (s : State) (x : Nat) : Nat := max 0x800 (regField s (pgNrg + 0x44) 0 16) * x / 0x1000

/-- The contexts of partition `p`'s rotation table; of an empty table, every context of the partition. -/
def rotCtxs (s : State) (p : Nat) : List Nat :=
  if rotCount s p = 0 then (ctxList s).filter fun c => (ctx s c).part = p
  else ((List.range (rotCount s p)).filter fun j => !(rotEntry s p j).2.2).map fun j => (rotEntry s p j).2.1

/-- D_p (R397): over the contexts of the rotation table that hold a raising, and `extra` µJ for the one
under test. -/
def partDecl (s : State) (p extra : Nat) : Nat :=
  declScale s ((rotCtxs s p).foldl (fun a c =>
    if ctxHolds s c then max a (hEnergyMax (ctxImg s c).2) else a) extra)

/-- Admission (R397). -/
def admitted (s : State) (p e : Nat) : Bool :=
  baseFrame s + regField s (pgNrg + 0x48) 0 24 +
    (List.range 16).foldl (fun a q => a + partDecl s q (if q = p then e else 0)) 0 ≤ budgetFrame s

/-- Whether an initialisation of the context's rows runs in some vault (R218). -/
def initRuns (s : State) (c : Nat) : Bool := s.vlt.init.any fun e => e.2.dom = c

/-- Whether another context of the partition holds a raising in COMMITTED, RUNNING or HELD. -/
def othersLive (s : State) (c : Nat) : Bool :=
  (ctxList s).any fun d => d ≠ c && (ctx s d).part = (ctx s c).part && ctxLive s d

/-- Whether partition `p` contains a die in partial reset, or returning from one (R416). -/
def partAway (s : State) (p : Nat) : Bool :=
  (List.range 16).any fun d => bitOf (liveDies s p) d && (presetState s d = 2 || presetState s d = 5)

/-- Whether the thermal trip is set (R489): BRD.THERM_STAT bit 0. -/
def tripSet (s : State) : Bool := s.brd.thermTrip

/-- Whether the entry bents and tables are ready for context `c` (R347 code 9). While the partition runs
another raising, or the context its predecessor, the check reads the vault without loading. -/
def entriesReady (s : State) (c img : Nat) (h : BitVec 2048) : Bool :=
  let aside := othersLive s c || ctxLive s c
  (imgClusters s img h).all fun k =>
    regField s (pgClu k + 0x24) 0 2 = 0 &&
    (if aside then wouldLoad s c k (hFeature h 0) else (seqOf s k).ready && tablesReady s k)

/-- Whether the plan's signer may run it in context `c` (R375). -/
def signerOk (s : State) (c : Nat) (p : PlanSlot) (owner : Option (BitVec 512)) : Bool :=
  let x := ctx s c
  let t := x.tenant = some p.signer
  if x.conf then t else t || owner = some p.signer

/-- Register `i` of the persistent store (R427). -/
def pstKey (i : Nat) : Nat := pgPst (i / 256) + 0x400 + 4 * (i % 256)

/-- `n` registers of the persistent store from `i`, as one number. -/
def pstNat (s : State) (i n : Nat) : Nat :=
  (List.range n).foldl (fun a k => a + regNat s (pstKey (i + k)) <<< (32 * k)) 0

/-- The PST page of register `i`. -/
def pstPage (i : Nat) : Nat := pgPst (i / 256)

/-- A write is performed (R427, R429): the value, its wear, WORN, and the interrupt. -/
def pstStore (s : State) (i : Nat) (v : Word) : State :=
  let k := pstPage i + 0x800 + 4 * (i % 256)
  let w := min 0xFFFFFF (regNat s k + 1)
  let s := regSet (regSet s (pstKey i) v) k (BitVec.ofNat 32 w)
  let s := if 1000000 < w then statSet s (pstPage i) 3 else s
  irq s (pstPage i) 0

/-- The owner-key hash in force (R430, R431). -/
def ownerHash (s : State) : Option (BitVec 512) :=
  let sel := pstNat s 64 1
  if bitOf sel 1 then some (BitVec.ofNat 512 (pstNat s (if bitOf sel 0 then 16 else 0) 16)) else none

/-- The fabric anchor in force, 0 if none is (R430, R431). -/
def anchorNat (s : State) : Nat :=
  let sel := pstNat s 64 1
  if bitOf sel 3 then pstNat s (if bitOf sel 2 then 48 else 32) 16 else 0

/-- sealState (R369, R430). -/
def sealState (s : State) : Nat := pstNat s 73 1 % 4

end Sys2Proof.Machine
end

