-- ==== Sys2Proof/Machine/Certs.lean ====
section
/-! DEFINITION. The keys of the security processor and its certificates (R365, R368 to R370, R378). Key generation and
the names in certificates are constants without a body (log 72); random numbers are free values (log 7). -/
namespace Sys2Proof.Machine
open Sys2Proof

/-! ## Keys (R365) -/

/-- The seed of a key that is made from the UDS. -/
def udsSeed (uds : BitVec 256) (info : List Byte) : List Byte := hkdf (natBytes 32 uds.toNat) [] info 64

/-- The device identity key and the binding key of a UDS: modulus and private exponent. -/
def dikOf (uds : BitVec 256) : BitVec 4096 × BitVec 4096 := Config.rsaKey (udsSeed uds (textBytes "ATB DIK"))
def bkOf (uds : BitVec 256) : BitVec 4096 × BitVec 4096 := Config.rsaKey (udsSeed uds (textBytes "ATB BIND"))

/-- A 64-byte value as a string of bytes. -/
def hashBytes (x : BitVec 512) : List Byte := natBytes 64 x.toNat

/-- The alias key: it changes with the measured firmware. -/
def akOf (s : State) : BitVec 4096 × BitVec 4096 :=
  Config.rsaKey (udsSeed s.sec.uds (textBytes "ATB ALIAS" ++ (s.sec.mr.take 3).flatMap hashBytes))

/-- The key that a context's random number makes. -/
def ckOf (seed : BitVec 256) : BitVec 4096 × BitVec 4096 := Config.rsaKey (natBytes 32 seed.toNat)

/-- A modulus as 512 bytes, highest first. -/
def modBytes (key : BitVec 4096 × BitVec 4096) : List Byte := natBytesBE 512 key.1.toNat

/-- The SHA-512 of a key's SubjectPublicKeyInfo. -/
def spkiHash (key : BitVec 4096 × BitVec 4096) : BitVec 512 := sha512 (spki (modBytes key))

/-! ## The time of issue (R368) -/

/-- A number as `n` decimal digits. -/
def digits : Nat → Nat → List Byte
  | 0, _ => []
  | n + 1, x => digits n (x / 10) ++ [BitVec.ofNat 8 (0x30 + x % 10)]

/-- Year, month and day of a day counted from 1970-01-01. -/
def civilDate (day : Nat) : Nat × Nat × Nat :=
  let z := day + 719468
  let era := z / 146097
  let doe := z % 146097
  let yoe := (doe - doe / 1460 + doe / 36524 - doe / 146096) / 365
  let doy := doe - (365 * yoe + yoe / 4 - yoe / 100)
  let mp := (5 * doy + 2) / 153
  let m := if mp < 10 then mp + 3 else mp - 9
  (yoe + 400 * era + (if m ≤ 2 then 1 else 0), m, doy - (153 * mp + 2) / 5 + 1)

/-- A time of X.509 from its UTC seconds: UTCTime before 2050, else GeneralizedTime (log 103). -/
def derTime (t : Nat) : List Byte :=
  let d := civilDate (t / 86400)
  let rest := digits 2 d.2.1 ++ digits 2 d.2.2 ++ digits 2 (t % 86400 / 3600) ++ digits 2 (t % 3600 / 60) ++
    digits 2 (t % 60) ++ [0x5A]
  if d.1 < 2050 then der 0x17 (digits 2 (d.1 % 100) ++ rest) else der 0x18 (digits 4 d.1 ++ rest)

/-- UTC seconds now: the TAI wall time less UTC_OFFSET, or 0 where wall time is zero. An inserted leap second takes the
second before it (log 103). -/
def utcNow (s : State) : Nat :=
  let w := wallAt s (elapsed s)
  let o := ((regGet s (pgSec + 0xA0)).setWidth 16 : BitVec 16).toInt
  if w ≤ 0 then 0
  else (w / secUnits - o - (if Config.leapSecond (w / secUnits).toNat then 1 else 0)).toNat

/-- notAfter of every certificate that the SEC issues. -/
def derForever : List Byte := der 0x18 (textBytes "99991231235959Z")

/-! ## Extensions (R369) -/

/-- The OID of Atuibin extension `n`: 1.3.6.1.4.1.88431.2.n. -/
def extOid (n : Nat) : List Byte := [0x2B, 0x06, 0x01, 0x04, 0x01, 0x85, 0xB2, 0x6F, 0x02, BitVec.ofNat 8 n]

/-- A non-critical extension. -/
def derExt (n : Nat) (value : List Byte) : List Byte := derSeq (der 0x06 (extOid n) ++ derOctets value)

/-- ATB-IDENT, which carries the SubjectPublicKeyInfo of the binding key; the stepping is DIE_INFO's 0x10 (R450). -/
def atbIdent (bk : BitVec 4096 × BitVec 4096) : List Byte :=
  derSeq (derInt 1 ++ der 0x0C (textBytes "ATB-Z20") ++ derInt 0x10 ++ spki (modBytes bk))

/-- dieStates: per die index 1 normal, 2 in partial reset or returning, 3 rejoined, 4 disabled. -/
def dieStates (s : State) : List Byte :=
  (List.range 20).map fun d =>
    let p := if d < 16 then presetState s d else 1
    BitVec.ofNat 8 (if p = 5 then 2 else p)

/-- CONFIG_SERIAL. -/
def configSerial (s : State) : Nat := regNat s (pgSec + 0x80)

/-- ATB-CONFIG. -/
def atbConfig (s : State) : List Byte :=
  derSeq (derInt 1 ++ s.sec.mr.flatMap (fun m => derOctets (hashBytes m)) ++ derSeq (s.sec.svn.flatMap derInt) ++
    derInt (configSerial s) ++ derOctets (dieStates s) ++ derOctets (hashBytes ((ownerHash s).getD 0)) ++
    derEnum (sealState s) ++ derInt s.sec.debugs)

/-- A state of a context in ATB-CONTEXT and in CTX_ATTR. -/
def ctxStateCode : CtxState → Nat
  | .free => 0 | .keyed => 1 | .running => 2 | .faulted => 3

/-- The C-dies of a partition as the bits of a BIT STRING, die 0 first. -/
def dieBits (mask : Nat) : List Byte :=
  (List.range 2).map fun i => BitVec.ofNat 8
    ((List.range 8).foldl (fun a k => a + b2n (bitOf mask (8 * i + k)) * 2 ^ (7 - k)) 0)

/-- ATB-CONTEXT of context `c`. -/
def atbContext (s : State) (c : Nat) (nonce : List Byte) : List Byte :=
  let x := ctx s c
  derSeq (derInt 1 ++ derInt c ++ derEnum (ctxStateCode x.state) ++ derBool x.conf ++
    derBits (dieBits (liveDies s x.part)) ++ derOctets nonce ++ derInt (configSerial s) ++
    derOctets (hashBytes (x.tenant.getD 0)) ++ derOctets ((x.bundle.map hashBytes).getD []) ++
    derSeq (x.planDigests.flatMap fun d => derOctets (hashBytes d)))

/-! ## Issue (R368) -/

/-- The AlgorithmIdentifier of RSASSA-PSS with SHA-512, MGF1 with SHA-512 and a 64-byte salt (log 103). -/
def pssAlg : List Byte :=
  let sha := derSeq (der 0x06 [0x60, 0x86, 0x48, 0x01, 0x65, 0x03, 0x04, 0x02, 0x03] ++ [0x05, 0x00])
  let mgf := derSeq (der 0x06 [0x2A, 0x86, 0x48, 0x86, 0xF7, 0x0D, 0x01, 0x01, 0x08] ++ sha)
  derSeq (der 0x06 [0x2A, 0x86, 0x48, 0x86, 0xF7, 0x0D, 0x01, 0x01, 0x0A] ++
    derSeq (der 0xA0 sha ++ der 0xA1 mgf ++ der 0xA2 (derInt 64)))

/-- The subject name of certificate `k`: it carries the device serial number as its serialNumber attribute (R368; the form
of the attribute is log 103). -/
def certName (s : State) (k : Nat) : List Byte :=
  derSeq (Config.certNameParts k ++
    der 0x31 (derSeq (der 0x06 [0x55, 0x04, 0x05] ++ der 0x13 s.sec.serial)))

/-- A certificate: version 3, a fresh positive serial number, and a signature by the issuer's key. -/
def certIssue (s : State) (issuer : BitVec 4096 × BitVec 4096) (issuerName subjectName subject ext : List Byte) :
    List Byte × State :=
  let n := drawFree s 127
  let salt := freeBytes n.2 64
  let tbs := derSeq (der 0xA0 (derInt 2) ++ derInt (n.1.toNat % (2 ^ 127 - 1) + 1) ++ pssAlg ++ issuerName ++
    derSeq (derTime (utcNow s) ++ derForever) ++ subjectName ++ spki subject ++ der 0xA3 (derSeq ext))
  (derSeq (tbs ++ pssAlg ++ derBits (pssSign issuer (sha512Bytes tbs) salt.1)), salt.2)

/-- The alias certificate is issued (R368, R390). -/
def aliasIssue (s : State) : State :=
  let d := dikOf s.sec.uds
  let x := certIssue s d (certName s 0) (certName s 1) (modBytes (akOf s)) (derExt 2 (atbConfig s))
  { x.2 with sec.aliasCert := x.1 }

/-- The identity certificate, as the flash keeps it. -/
def identityCert (s : State) : List Byte := memBytes s.brd.flash Config.identityAt.1 Config.identityAt.2

/-- Certificates 4, 3 and 2. -/
def deviceCerts (s : State) : List Byte := s.sec.aliasCert ++ identityCert s ++ Config.deviceCa

/-- A context certificate (R368, R369, R379). -/
def ctxCertOf (s : State) (c : Nat) (nonce : List Byte) : List Byte × State :=
  certIssue s (akOf s) (certName s 1) (certName s 2) (modBytes (ckOf ((ctx s c).ck.getD 0)))
    (derExt 3 (atbContext s c nonce))

/-! ## A partner's chain (R370, R378) -/

/-- A certificate as it is read: the signed bytes, the signature, the SubjectPublicKeyInfo, the modulus, and per
extension its OID, whether it is critical, and its value. -/
structure CertView where
  tbs     : List Byte
  sig     : List Byte
  spki    : List Byte
  modulus : List Byte
  exts    : List (List Byte × Bool × List Byte)
deriving DecidableEq, Repr

/-- The modulus of a SubjectPublicKeyInfo. -/
def spkiModulus (l : List Byte) : Option (List Byte) :=
  match derList 3 l with
  | some [_, (0x03, b, _)] =>
    (match derNext (b.drop 1) with
     | some (0x30, k, _, _) => (derNext k).map fun n => natBytesBE 512 (bytesBE n.2.1)
     | _ => none)
  | _ => none

/-- One extension. -/
def extView (l : List Byte) : Option (List Byte × Bool × List Byte) :=
  match derList 4 l with
  | some [(0x06, o, _), (0x04, v, _)] => some (o, false, v)
  | some [(0x06, o, _), (0x01, b, _), (0x04, v, _)] => some (o, b ≠ [0], v)
  | _ => none

/-- The extensions of a certificate; none if one of them cannot be read. -/
def extViews (l : List Byte) : Option (List (List Byte × Bool × List Byte)) :=
  match derNext l with
  | some (0x30, c, _, _) => (derList (c.length + 1) c).bind fun x => x.mapM fun e => extView e.2.1
  | _ => none

/-- Read a certificate. -/
def certView (l : List Byte) : Option CertView :=
  match derList 4 l with
  | some [(_, t, tbs), _, (0x03, sig, _)] =>
    (match derList 12 t with
     | some [_, _, _, _, _, _, (_, k, ks), (0xA3, x, _)] =>
       (spkiModulus k).bind fun m => (extViews x).map fun e =>
         { tbs := tbs, sig := sig.drop 1, spki := ks, modulus := m, exts := e }
     | _ => none)
  | _ => none

/-- The three certificates of CERTS: alias, identity and device CA. -/
def chainView (l : List Byte) : Option (CertView × CertView × CertView) :=
  match derList 4 l with
  | some [a, i, ca] =>
    (match certView a.2.1, certView i.2.1, certView ca.2.1 with
     | some x, some y, some z => some (x, y, z)
     | _, _, _ => none)
  | _ => none

/-- The Atuibin extensions that the device knows. -/
def extKnown (o : List Byte) : Bool := o = extOid 1 || o = extOid 2 || o = extOid 3 || Config.extKnown o

/-- Whether a certificate is signed by a modulus. -/
def signedBy (c : CertView) (modulus : List Byte) : Bool := pssVerify modulus c.sig (sha512Bytes c.tbs)

/-- The firmware SVN of an alias certificate: the first integer of svn in its ATB-CONFIG, whatever is appended. -/
def chainSvn (c : CertView) : Option Nat :=
  match c.exts.find? fun e => e.1 = extOid 2 with
  | none => none
  | some e =>
    match derNext e.2.2 with
    | some (0x30, f, _, _) =>
      (match derList (f.length + 1) f with
       | some (_ :: _ :: _ :: _ :: _ :: (0x30, v, _) :: _) => (derNext v).map fun n => bytesBE n.2.1
       | _ => none)
    | _ => none

/-- Whether a partner's chain is accepted: no critical extension that is not known, each signature by the next key, up
to the Atuibin root or the fabric anchor, and the firmware SVN (log 103). -/
def chainGood (s : State) (l : List Byte) : Bool :=
  match chainView l with
  | none => false
  | some (a, i, ca) =>
    ([a, i, ca].all fun c => c.exts.all fun e => !e.2.1 || extKnown e.1) &&
    signedBy a i.modulus && signedBy i ca.modulus &&
    (signedBy ca (natBytesBE 512 Config.rootKey.toNat) ||
      (anchorNat s ≠ 0 && (sha512 ca.spki).toNat = anchorNat s)) &&
    (match chainSvn a with | some n => regNat s (pgSec + 0x98) ≤ n | none => false)

/-- The alias key of a partner's chain. -/
def chainKey (l : List Byte) : Option (List Byte) := (chainView l).map fun x => x.1.modulus

end Sys2Proof.Machine
end

