-- ==== Sys2Proof/Machine/Numbers.lean ====
section
/-! DEFINITION. Number formats and arithmetic (R169 to R199): the value of a code, the one
rounding, and the exact sums, products, quotients and roots that are rounded. -/
namespace Sys2Proof.Machine
open Sys2Proof

/-- How a format uses its largest exponent (R170): infinity and NaN; NaN in one code; none. -/
inductive FSpecial where | ieee | e4m3 | finite
deriving DecidableEq, Repr

/-- A floating-point format (R169): width, exponent and mantissa bits, bias. -/
structure FFmt where
  w    : Nat
  eb   : Nat
  mb   : Nat
  bias : Nat
  sp   : FSpecial
deriving DecidableEq, Repr

def fp64 : FFmt := ⟨64, 11, 52, 1023, .ieee⟩
def fp32 : FFmt := ⟨32, 8, 23, 127, .ieee⟩
def bf16 : FFmt := ⟨16, 8, 7, 127, .ieee⟩
def fp16 : FFmt := ⟨16, 5, 10, 15, .ieee⟩
def fp8e5m2 : FFmt := ⟨8, 5, 2, 15, .ieee⟩
def fp8e4m3 : FFmt := ⟨8, 4, 3, 7, .e4m3⟩
def fp6e3m2 : FFmt := ⟨6, 3, 2, 3, .finite⟩
def fp6e2m3 : FFmt := ⟨6, 2, 3, 1, .finite⟩
def fp4e2m1 : FFmt := ⟨4, 2, 1, 1, .finite⟩

/-- A value: NaN, an infinity, or (−1)^neg × m × 2^e (zero keeps its sign). -/
inductive FVal where
  | nan
  | inf (neg : Bool)
  | fin (neg : Bool) (m : Nat) (e : Int)
deriving DecidableEq, Repr

/-- Rounding modes (R174). -/
inductive RMode where | even | zero | up | down
deriving DecidableEq, Repr

/-- The mode an RM field names (R147). -/
def rmOf (rm : Nat) : RMode :=
  if rm = 1 then .zero else if rm = 2 then .up else if rm = 3 then .down else .even

/-- The value of a code (R170). -/
def fdecode (f : FFmt) (x : Nat) : FVal :=
  let m := bitsOf x 0 f.mb
  let e := bitsOf x f.mb f.eb
  let neg := bitOf x (f.w - 1)
  let top := 2 ^ f.eb - 1
  if f.sp = .ieee && e = top then (if m = 0 then .inf neg else .nan)
  else if f.sp = .e4m3 && e = top && m = 2 ^ f.mb - 1 then .nan
  else if e = 0 then .fin neg m (1 - (f.bias : Int) - f.mb)
  else .fin neg (2 ^ f.mb + m) ((e : Int) - f.bias - f.mb)

/-- The canonical NaN (R177); +0 in a format without NaN (R184). -/
def canonNaN (f : FFmt) : Nat :=
  match f.sp with
  | .ieee => (2 ^ f.eb - 1) <<< f.mb + 2 ^ (f.mb - 1)
  | .e4m3 => 0x7F
  | .finite => 0

/-- The code of the largest finite magnitude. -/
def maxFinite (f : FFmt) : Nat :=
  match f.sp with
  | .ieee => (2 ^ f.eb - 2) <<< f.mb + (2 ^ f.mb - 1)
  | .e4m3 => 0x7E
  | .finite => 2 ^ (f.eb + f.mb) - 1

/-- The code of an infinity; a format without one holds its largest finite value (R184). -/
def infCode (f : FFmt) : Nat :=
  match f.sp with
  | .ieee => (2 ^ f.eb - 1) <<< f.mb
  | _ => maxFinite f

/-- A magnitude code with a sign. -/
def signed (f : FFmt) (neg : Bool) (mag : Nat) : Nat := mag + b2n neg <<< (f.w - 1)

/-- The code of an overflow (R175, R184). -/
def overflowCode (f : FFmt) (rm : RMode) (neg : Bool) : Nat :=
  match f.sp, rm with
  | .ieee, .even => signed f neg (infCode f)
  | .ieee, .up => if neg then signed f neg (maxFinite f) else infCode f
  | .ieee, .down => if neg then signed f neg (infCode f) else maxFinite f
  | _, _ => signed f neg (maxFinite f)

/-- Whether a magnitude is rounded away from zero: the kept part, the part dropped against
one half (below, at, above), whether anything is dropped (R174). -/
def roundsUp (rm : RMode) (neg : Bool) (k rem half : Nat) (sticky : Bool) : Bool :=
  match rm with
  | .even => rem > half || (rem = half && half ≠ 0 && (sticky || k % 2 = 1))
  | .zero => false
  | .up => !neg && (rem ≠ 0 || sticky)
  | .down => neg && (rem ≠ 0 || sticky)

/-- Divide a magnitude by 2^sh and round to an integer. `sticky`: the true magnitude lies
strictly between m and m + 1. -/
def shiftRound (rm : RMode) (neg : Bool) (m sh : Nat) (sticky : Bool) : Nat :=
  let k := m >>> sh
  let rem := m % 2 ^ sh
  let half := if sh = 0 then 0 else 2 ^ (sh - 1)
  if roundsUp rm neg k rem half sticky then k + 1 else k

/-- Round (−1)^neg × m × 2^e once into a format (R174 to R176). -/
def roundFin (f : FFmt) (rm : RMode) (neg : Bool) (m : Nat) (e : Int) (sticky : Bool) : Nat :=
  if m = 0 && !sticky then signed f neg 0
  else
    let top : Int := e + Nat.log2 m
    let q0 : Int := max (top - f.mb) (1 - (f.bias : Int) - f.mb)
    let k := if e < q0 then shiftRound rm neg m (q0 - e).toNat sticky else m <<< (e - q0).toNat
    let big := k ≥ 2 ^ (f.mb + 1)
    let k' := if big then k / 2 else k
    let q : Int := if big then q0 + 1 else q0
    if k' < 2 ^ f.mb then signed f neg k'
    else
      let ex : Int := q + f.mb + f.bias
      let mag := ex.toNat <<< f.mb + (k' - 2 ^ f.mb)
      if ex ≥ 2 ^ f.eb || mag > maxFinite f then overflowCode f rm neg else signed f neg mag

/-- The code of a value in a format, rounded once (R174 to R177, R184). -/
def fencode (f : FFmt) (rm : RMode) : FVal → Nat
  | .nan => canonNaN f
  | .inf neg => signed f neg (infCode f)
  | .fin neg m e => roundFin f rm neg m e false

/-! ## Exact arithmetic -/

/-- A finite value as an integer at exponent `e0`, which is at most its own. -/
def finInt (neg : Bool) (m : Nat) (e e0 : Int) : Int :=
  let x : Int := (m <<< (e - e0).toNat : Nat)
  if neg then -x else x

/-- Exact sum, with the zero rule of R178. -/
def faddV (rm : RMode) : FVal → FVal → FVal
  | .nan, _ => .nan
  | _, .nan => .nan
  | .inf a, .inf b => if a = b then .inf a else .nan
  | .inf a, .fin .. => .inf a
  | .fin .., .inf b => .inf b
  | .fin n1 m1 e1, .fin n2 m2 e2 =>
    let e0 := min e1 e2
    let x := finInt n1 m1 e1 e0 + finInt n2 m2 e2 e0
    if x = 0 then .fin (if n1 = n2 then n1 else rm = .down) 0 e0
    else .fin (x < 0) x.natAbs e0

/-- Negation. -/
def fnegV : FVal → FVal
  | .nan => .nan
  | .inf n => .inf (!n)
  | .fin n m e => .fin (!n) m e

/-- Exact product (R177, R178). -/
def fmulV : FVal → FVal → FVal
  | .nan, _ => .nan
  | _, .nan => .nan
  | .inf a, .inf b => .inf (a != b)
  | .inf a, .fin b m _ => if m = 0 then .nan else .inf (a != b)
  | .fin a m _, .inf b => if m = 0 then .nan else .inf (a != b)
  | .fin n1 m1 e1, .fin n2 m2 e2 => .fin (n1 != n2) (m1 * m2) (e1 + e2)

/-- a × b + c, exactly. -/
def ffmaV (rm : RMode) (a b c : FVal) : FVal := faddV rm (fmulV a b) c

/-- Quotient, rounded once (R174, R177, R178, R195). -/
def fdivCode (f : FFmt) (rm : RMode) : FVal → FVal → Nat
  | .nan, _ => canonNaN f
  | _, .nan => canonNaN f
  | .inf _, .inf _ => canonNaN f
  | .inf a, .fin b _ _ => signed f (a != b) (infCode f)
  | .fin a _ _, .inf b => signed f (a != b) 0
  | .fin n1 m1 e1, .fin n2 m2 e2 =>
    let neg := n1 != n2
    if m2 = 0 then (if m1 = 0 then canonNaN f else signed f neg (infCode f))
    else if m1 = 0 then signed f neg 0
    else
      let k := f.mb + 4 + Nat.log2 m2
      let num := m1 <<< k
      roundFin f rm neg (num / m2) (e1 - e2 - k) (num % m2 ≠ 0)

/-- Integer square root, one result bit at a time from bit `n − 1`. -/
def isqrtFrom : Nat → Nat → Nat → Nat
  | 0, _, r => r
  | n + 1, x, r => let r' := r + 2 ^ n; isqrtFrom n x (if r' * r' ≤ x then r' else r)

/-- Square root, rounded once (R177, R195). -/
def fsqrtCode (f : FFmt) (rm : RMode) : FVal → Nat
  | .nan => canonNaN f
  | .inf false => infCode f
  | .inf true => canonNaN f
  | .fin neg m e =>
    if m = 0 then signed f neg 0
    else if neg then canonNaN f
    else
      let k0 := 2 * (f.mb + 4)
      let k := if (e - k0) % 2 = 0 then k0 else k0 + 1
      let x := m <<< k
      let r := isqrtFrom (Nat.log2 x / 2 + 1) x 0
      roundFin f rm false r ((e - k) / 2) (r * r ≠ x)

/-- Round a finite value to an integer in a mode (R183). -/
def roundInt (rm : RMode) (neg : Bool) (m : Nat) (e : Int) : Int :=
  let k : Nat := if e < 0 then shiftRound rm neg m (-e).toNat false else m <<< e.toNat
  if neg then -(k : Int) else k

/-- Floating to integer (R183): saturated, NaN gives 0. -/
def fToInt (rm : RMode) (w : Nat) : FVal → BitVec w
  | .nan => 0
  | .inf neg => if neg then satInt w (-(2 ^ w : Int)) else satInt w (2 ^ w)
  | .fin neg m e => satInt w (roundInt rm neg m e)

/-- An integer as a value. -/
def intV (x : Int) : FVal := .fin (x < 0) x.natAbs 0

/-- Multiply by 2^k. -/
def fscaleV (k : Int) : FVal → FVal
  | .fin n m e => .fin n m (e + k)
  | v => v

/-! ## Order -/

/-- Compare two finite values as numbers. -/
def finLt (n1 : Bool) (m1 : Nat) (e1 : Int) (n2 : Bool) (m2 : Nat) (e2 : Int) : Bool :=
  let e0 := min e1 e2
  finInt n1 m1 e1 e0 < finInt n2 m2 e2 e0

/-- a < b, false when either is NaN (R179). -/
def fltV : FVal → FVal → Bool
  | .nan, _ => false
  | _, .nan => false
  | .inf a, .inf b => a && !b
  | .inf a, .fin .. => a
  | .fin .., .inf b => !b
  | .fin n1 m1 e1, .fin n2 m2 e2 => finLt n1 m1 e1 n2 m2 e2

/-- a = b as numbers; +0 equals −0 (R179). -/
def feqV : FVal → FVal → Bool
  | .nan, _ => false
  | _, .nan => false
  | a, b => !fltV a b && !fltV b a

/-- The sign of a value. -/
def fnegQ : FVal → Bool
  | .nan => false
  | .inf n => n
  | .fin n _ _ => n

/-- a < b with −0 below +0 (R178). -/
def fltZ (a b : FVal) : Bool := fltV a b || (feqV a b && fnegQ a && !fnegQ b)

/-- Maximum (R178). -/
def fmaxV : FVal → FVal → FVal
  | .nan, _ => .nan
  | _, .nan => .nan
  | a, b => if fltZ a b then b else a

/-- Minimum (R178). -/
def fminV : FVal → FVal → FVal
  | .nan, _ => .nan
  | _, .nan => .nan
  | a, b => if fltZ b a then b else a

/-- The VCLASS bit of a code (R179). -/
def fclass (f : FFmt) (x : Nat) : Nat :=
  let neg := bitOf x (f.w - 1)
  match fdecode f x with
  | .nan => if bitOf x (f.mb - 1) then 8 else 9
  | .inf n => if n then 0 else 7
  | .fin _ m _ =>
    if m = 0 then (if neg then 3 else 4)
    else if m < 2 ^ f.mb then (if neg then 2 else 5)
    else (if neg then 1 else 6)

/-! ## Matrix formats (R144, R169 to R172) -/

/-- Element width in bits of a matrix format. -/
def matBits (fmt : Nat) : Nat :=
  if fmt ≤ 5 then 8 else if fmt ≤ 9 then 6 else if fmt ≤ 12 then 4
  else if fmt ≤ 14 then 16 else 32

/-- Whether a matrix format is an MX format. -/
def matMx (fmt : Nat) : Bool :=
  fmt = 3 || fmt = 4 || fmt = 5 || fmt = 8 || fmt = 9 || fmt = 11

/-- The floating-point layout of a matrix format's element; none for integers. -/
def matFmt (fmt : Nat) : Option FFmt :=
  match fmt with
  | 1 => some fp8e4m3 | 2 => some fp8e5m2 | 4 => some fp8e4m3 | 5 => some fp8e5m2
  | 6 => some fp6e3m2 | 7 => some fp6e2m3 | 8 => some fp6e3m2 | 9 => some fp6e2m3
  | 10 => some fp4e2m1 | 11 => some fp4e2m1 | 13 => some bf16 | 14 => some fp16
  | 15 => some fp32
  | _ => none

/-- The value of an element of a matrix format before its block scale (R170, R172). -/
def matValue (fmt : Nat) (x : Nat) : FVal :=
  match matFmt fmt with
  | some f => fdecode f x
  | none =>
    let w := matBits fmt
    let v := intV (BitVec.ofNat w x).toInt
    if fmt = 3 then fscaleV (-6) v else v

/-- The value of an element under a block scale X; 0xFF makes it NaN (R172). -/
def mxValue (fmt : Nat) (x scale : Nat) : FVal :=
  if scale = 0xFF then .nan else fscaleV ((scale : Int) - 127) (matValue fmt x)

/-! ## Exact runs (R186 to R189) -/

/-- The exact sum of the active products of a run, in units of 2^−298, and what R188 and
R189 ask of them. -/
structure RunSum where
  any    : Bool
  nan    : Bool
  posInf : Bool
  negInf : Bool
  allNeg : Bool
  sum    : Int
deriving DecidableEq, Repr

/-- No product. -/
def RunSum.empty : RunSum := ⟨false, false, false, false, true, 0⟩

/-- Add one exact product. -/
def runAddV (r : RunSum) : FVal → RunSum
  | .nan => { r with any := true, nan := true }
  | .inf n => { r with any := true, posInf := r.posInf || !n, negInf := r.negInf || n }
  | .fin n m e =>
    { r with any := true, allNeg := r.allNeg && n && m = 0,
             sum := r.sum + finInt n m e (-298) }

/-- The value of a run (R188, R189). -/
def runValue (r : RunSum) : FVal :=
  if r.nan || (r.posInf && r.negInf) then .nan
  else if r.posInf then .inf false
  else if r.negInf then .inf true
  else if r.sum = 0 then .fin r.allNeg 0 0
  else .fin (r.sum < 0) r.sum.natAbs (-298)

/-- Close a run on an FP32 code: unchanged bits when it holds no active product (R187 to R189). -/
def closeRun (v : BitVec 32) (r : RunSum) : BitVec 32 :=
  if r.any then BitVec.ofNat 32 (fencode fp32 .even (faddV .even (fdecode fp32 v.toNat) (runValue r)))
  else v

end Sys2Proof.Machine
end

