-- ==== Sys2Proof/Machine/Pipe.lean ====
section
/-! DEFINITION. What happens in the cycles: the stages and results of the operations in
flight (R21, R22, R117 to R119, R131, R135, R137, R139, R146, R154 to R157, R268), and how
an operation issues (R67, R112, R140, R404, R469).

A cycle is worked off in four phases: outputs placed on lanes and changes of open runs; reads,
takes and vault commands; writes; seals (R121 places a bent write of the same cycle before
the seal). Inside a phase the order is issue cycle, then slot, so the later of two writes
stands as R22 says. -/
namespace Sys2Proof.Machine
open Sys2Proof

/-- Add an operation's stage to those in flight. -/
def pushEv (s : State) (e : Ev) : State := { s with clu.pipe := s.clu.pipe ++ [e] }

/-- A later stage of the same operation. -/
def pushAt (s : State) (e : Ev) (stage : Nat) (a : Act) : State :=
  pushEv s { e with stage := stage, act := a }

/-! ## Masks -/

/-- The lanes of the active lines of a vector-register access: line i is lanes 16i to 16i + 15. -/
def linesToLanes (lines : BitVec 16) : BitVec 256 := maskOf 256 fun l => lines.getLsbD (l / 16)

/-- Write the active 64-byte lines of a store access. -/
def storeLines (s : State) (c a n : Nat) (on : Nat → Bool) (x : Nat) : State :=
  (List.range n).foldl (fun s i => if on i then setStore s c (a + 64 * i) 64 (x >>> (512 * i)) else s) s

/-! ## Store banks and weight-buffer bytes -/

/-- The store access of a stage, as address and bytes (R118). -/
def storeAccess : Act → Option (Nat × Nat)
  | .loadV _ _ a => some (a.toNat, 1024)
  | .storeV a _ _ => some (a.toNat, 1024)
  | .swbRead a _ _ => some (a.toNat, 512)
  | .loadS _ _ a => some (a.toNat, 8)
  | .storeS a _ _ => some (a.toNat, 8)
  | .loadX _ _ a => some (a.toNat, 4)
  | .mmaAct _ _ _ a n _ => some (a.toNat, n)
  | .vwrRead a _ _ _ _ => some (a.toNat, 128)
  | .storeCol a _ _ => some (a.toNat, 128)
  | .sendRead a _ _ _ => some (a.toNat, 64)
  | .recvWrite a _ => some (a.toNat, 64)
  | _ => none

/-- Whether two store accesses share a bank (R117): granules of 128 bytes, 16 banks. -/
def banksMeet (x y : Nat × Nat) : Bool :=
  let g := fun (z : Nat × Nat) => (z.1 / 128, (z.1 + z.2 - 1) / 128 - z.1 / 128 + 1)
  let a := g x
  let b := g y
  (List.range a.2).any fun i => (List.range b.2).any fun j => (a.1 + i) % 16 = (b.1 + j) % 16

/-- The weight-buffer bytes a stage writes: runs of offset and length (R135). -/
def wbufRuns : Act → List (Nat × Nat)
  | .wbufWrite o lines _ => ((List.range 8).filter lines.getLsbD).map fun i => (o.toNat + 64 * i, 64)
  | .wbufBytes o v => if v.isEmpty then [] else [(o.toNat, v.length)]
  | _ => []

/-- Whether a run covers an offset, modulo 32,768. -/
def runHas (r : Nat × Nat) (o : Nat) : Bool := (o + wbufSize - r.1) % wbufSize < r.2

/-- The lowest offset that two stages' writes share (R138). -/
def sharedOfs (a b : Act) : Option Nat :=
  let cand := (wbufRuns a).flatMap fun x => (wbufRuns b).flatMap fun y =>
    [0, x.1 % wbufSize, y.1 % wbufSize].filter fun o => runHas x o && runHas y o
  match cand with
  | [] => none
  | x :: t => some (t.foldl min x)

/-- The pairs of a list whose members satisfy `p`, in order (the earlier member first). -/
def pairsWith {α : Type} (p : α → α → Bool) : List α → List (α × α)
  | [] => []
  | x :: t => ((t.filter (p x)).map fun y => (x, y)) ++ pairsWith p t

/-- Whether two stages of a cycle are accesses of one cluster that share a store bank (R117). -/
def storeMeet (e f : Ev) : Bool :=
  e.unit = f.unit &&
    (match storeAccess e.act, storeAccess f.act with | some x, some y => banksMeet x y | _, _ => false)

/-- The other stage of the cycle that shares a store bank with `e`. -/
def bankClash (now : List Ev) (e : Ev) : Bool :=
  match storeAccess e.act with
  | none => false
  | some x => (now.filter fun f => f.unit = e.unit && f ≠ e).any fun f =>
      match storeAccess f.act with | some y => banksMeet x y | none => false

/-- The lowest offset that `e` and another stage of the cycle both write. -/
def wbufClash (now : List Ev) (e : Ev) : Option Nat :=
  ((now.filter fun f => f.unit = e.unit && f ≠ e).filterMap fun f => sharedOfs e.act f.act).head?

/-! ## Faults of the cycle -/

/-- Store collisions of a cycle (R119, R138): every two accesses that share a bank, named by the one that issued
first, ties by slot; `now` is in that order, so the first pair holds the access that issued first. That each
pair is one collision is DEDUCED (log 96). -/
def storeCollisions (s : State) (now : List Ev) (t : Nat) : State :=
  (pairsWith storeMeet now).foldl (fun s x =>
    let a := match storeAccess x.1.act with | some y => y.1 | none => 0
    fault (collCapt s x.1.unit a) 2 (pgClu x.1.unit) (posOf s x.1.unit t) (a + 0x40000000)
      (clusterCtx s x.1.unit)) s

/-- Weight-buffer collisions of a cycle (R135, R138): every two writes that share a byte, the lowest offset
first. -/
def wbufCollisions (s : State) (now : List Ev) (t : Nat) : State :=
  let l := (pairsWith (fun e f => e.unit = f.unit && (sharedOfs e.act f.act).isSome) now).filterMap fun x =>
    (sharedOfs x.1.act x.2.act).map fun o => (x.1.unit, o)
  (sortRank (·.2) l).foldl (fun s x =>
    let v := x.2 + 0x400000
    fault (collCapt s x.1 v) 3 (pgClu x.1) (posOf s x.1 t) (v + 0x40000000) (clusterCtx s x.1)) s

/-! ## Audit (R469) -/

/-- The register a stage in flight will write. -/
def actDest : Act → Option Dest
  | .vregWrite r _ _ | .vregElem r _ _ _ | .loadV r _ _ => some (.vreg r)
  | .sregWrite r _ | .sregKeep r | .loadS r _ _ => some (.sreg r)
  | .pregWrite r _ _ => some (.preg r)
  | .xLimit r _ | .xPos r _ | .xShift r _ | .loadX r _ _ => some (.xreg r)
  | .tileClose t _ _ | .tileFill t _ _ _ | .tileZero t _ => some (.tile t)
  | .lcWrite k _ => some (.lc k)
  | .pegAdd g _ => some (.peg g)
  | .pegCmpWrite g _ => some (.pegCmp g)
  | _ => none

/-- The numbers of the active ones of `n` lines from address `a`, which is line-aligned. -/
def activeLines {k : Nat} (a n : Nat) (m : BitVec k) : List Nat :=
  ((List.range n).filter m.getLsbD).map fun i => a / 64 + i

/-- The 64-byte lines of the cluster store that a stage in flight will write: no line of a gated element. -/
def actStore : Act → List Nat
  | .storeV a lines _ => activeLines a.toNat 16 lines
  | .storeS a on _ => if on then [a.toNat / 64] else []
  | .storeCol a lines _ => activeLines a.toNat 2 lines
  | .vaultRd _ _ _ lines (.store a) => activeLines a.toNat 2 lines
  | .colCheck _ lines _ _ (.store a) _ => activeLines a.toNat 2 lines
  | .recvTake _ _ on a _ => if on then [a.toNat / 64] else []
  | .recvWrite a _ => [a.toNat / 64]
  | _ => []

/-- The 64-byte lines of the cluster store that a read stage reads. -/
def actReads : Act → List Nat
  | .loadV _ lines a => activeLines a.toNat 16 lines
  | .swbRead a _ lines => activeLines a.toNat 8 lines
  | .vwrRead a _ _ _ lines => activeLines a.toNat 2 lines
  | .loadS _ on a | .loadX _ on a | .sendRead a _ _ on => if on then [a.toNat / 64] else []
  | .mmaAct _ _ _ a n on =>
    if on then (List.range ((a.toNat + n - 1) / 64 - a.toNat / 64 + 1)).map (a.toNat / 64 + ·) else []
  | _ => []

/-- The 64-byte parts of the weight buffer that `n` bytes from offset `o` lie in, modulo 32,768. -/
def wbufParts (o n : Nat) : List Nat :=
  if n = 0 then [] else (List.range ((o % 64 + n - 1) / 64 + 1)).map fun i => (o / 64 + i) % 512

/-- The parts of the weight buffer that a stage in flight will write. How much a planed column yields in decode
mode (`dec`) is not known before it is decoded: up to 192 bytes are taken as its destination; in pass-through mode
its active lines are (R225). -/
def actWbuf (dec : Bool) : Act → List Nat
  | .wbufWrite o lines _ | .swbRead _ o lines => (activeLines o.toNat 8 lines).map (· % 512)
  | .wbufBytes o v => wbufParts o.toNat v.length
  | .vaultRd _ _ _ lines (.planer o) | .colCheck _ lines _ _ (.planer o) _ | .planeIn o lines _ =>
    if lines = 0 then [] else wbufParts o.toNat (if dec then 192 else if lines = 3 then 128 else 64)
  | _ => []

/-- The parts of the weight buffer that a read stage reads: weights and block scales (R135, R173). -/
def actWbufReads : Act → List Nat
  | .mmaWgt _ _ _ o n w a =>
    let sc := fun (x : Option (BitVec 15)) => match x with | some o => wbufParts o.toNat 64 | none => []
    wbufParts o.toNat n ++ sc w ++ sc a
  | _ => []

/-- Whether cluster `c` is audited now. -/
def audited (s : State) (c : Nat) : Bool := c < 1024 && s.rai.audit.getLsbD (c / 16)

/-- Record an audit event (R469, R476). -/
def auditEvent (s : State) (c t kind slot : Nat) : State :=
  let pg := pgDbg (c / 64)
  let v := posOf s c t % 0x4000 + slot * 0x4000 + kind * 0x20000 + c % 64 * 0x80000
  let s := irq (cntAdd (firstCapt s (pg + 0x44) v) (pg + 0x48) 1) pg 0
  if regBit s (pg + 0x40) 8 && !s.rai.auditHit.getLsbD (c / 64) then
    fault { s with rai.auditHit := s.rai.auditHit ||| (1 <<< (c / 64) : BitVec 20) } 0x10 pg
      (posOf s c t) (v + 0x80000000) (clusterCtx s c)
  else s

/-- Whether a read stage of `e` meets lines of the store, or parts of the weight buffer, whose write has not
arrived, by an operation that issued in an earlier cycle: one that issues with `e` or after it is no writer whose
result `e` should see, a DESIGN CHOICE (log 120), R469 names no order of issue. -/
def readsEarly (s : State) (now : List Ev) (e : Ev) : Bool :=
  let late := (now ++ s.clu.pipe).filter fun f => f.unit = e.unit && f.issue < e.issue
  late.any fun f => (actReads e.act).any (actStore f.act).contains || (actWbufReads e.act).any (actWbuf (planerDecodes s e.unit) f.act).contains

/-- The register that a stage's result reaches in its own cycle: a load's read stage delivers a cycle later. -/
def resultDest : Act → Option Dest
  | .loadV .. | .loadS .. | .loadX .. | .pegAdd .. => none
  | a => actDest a

/-- Audit events of a cycle: early reads in read stages (kind 1) and two results that reach
one register together (kind 2). -/
def auditCycle (s : State) (now : List Ev) (t : Nat) : State :=
  now.foldl (fun s e =>
    if !audited s e.unit then s
    else
      let s := if readsEarly s now e then auditEvent s e.unit t 1 e.slot else s
      match resultDest e.act with
      | none => s
      | some d =>
        if now.any (fun f => f.unit = e.unit && f ≠ e && resultDest f.act = some d &&
            (f.issue * 8 + f.slot < e.issue * 8 + e.slot)) then auditEvent s e.unit t 2 e.slot else s) s

/-! ## Open runs -/

/-- Give the contribution `seq` of unit `c` bytes it has read, wherever it waits: in an open
run or in a closing that has not landed. -/
def fillContrib (s : State) (c seq : Nat) (f : Contrib → Contrib) : State :=
  let g := fun (l : List Contrib) => l.map fun x => if x.seq = seq then f x else x
  { s with
    clu.run := s.clu.run.map fun e => if e.1 / 4 = c then (e.1, { e.2 with parts := g e.2.parts }) else e
    clu.pipe := s.clu.pipe.map fun e =>
      if e.unit = c then
        match e.act with
        | .tileClose t v parts => { e with act := .tileClose t v (g parts) }
        | .runSet t r => { e with act := .runSet t { r with parts := g r.parts } }
        | _ => e
      else e }

/-- Batch rows of a fold (R145). -/
def foldRows (f : Nat) : Nat := 64 >>> f

/-- k-terms of one operation (R145). -/
def foldTerms (fmt f : Nat) : Nat := if matBits fmt = 4 || matBits fmt = 6 then 2 <<< f else 1 <<< f

/-- The value of activation (row r, term j) of a contribution (R145, R172, R173). -/
def actValue (p : Contrib) (r j : Nat) : FVal :=
  let w := matBits p.fmt.toNat
  let k := foldTerms p.fmt.toNat p.fold.toNat
  let x := bitsOf p.act.toNat ((r * k + j) * w) w
  if matMx p.fmt.toNat then mxValue p.fmt.toNat x (bitsOf p.ascale.toNat (8 * r) 8)
  else matValue p.fmt.toNat x

/-- The value of weight (term j, column n) of a contribution. -/
def wgtValue (p : Contrib) (j n : Nat) : FVal :=
  let w := matBits p.fmt.toNat
  let x := bitsOf p.wgt.toNat ((j * 64 + n) * w) w
  if matMx p.fmt.toNat then mxValue p.fmt.toNat x (bitsOf p.wscale.toNat (8 * n) 8)
  else matValue p.fmt.toNat x

/-- The exact run of element (row r, column n) (R146, R186, R187): active products only. -/
def elemRun (parts : List Contrib) (r n : Nat) : RunSum :=
  parts.foldl (fun acc p =>
    if p.rows.getLsbD r && p.cols.getLsbD n && r < foldRows p.fold.toNat then
      ((List.range (foldTerms p.fmt.toNat p.fold.toNat)).filter p.terms.getLsbD).foldl
        (fun acc j => runAddV acc (fmulV (actValue p r j) (wgtValue p j n))) acc
    else acc) RunSum.empty

/-- Close a run (R146): every element whose run holds an active product is written with
round(v + run), `v` being the value read at issue; the others keep what they hold. -/
def closeTile (now v : BitVec 131072) (parts : List Contrib) : BitVec 131072 :=
  ofElems 131072 32 fun i =>
    let run := elemRun parts (i / 64) (i % 64)
    if run.any then closeRun (elem v 32 i) run else elem now 32 i

/-! ## Stages -/

/-- The phase of a stage within its cycle. -/
def phaseOf : Act → Nat
  | .laneOut .. | .edgeOut .. | .runSet .. => 0
  | .vregWrite .. | .vregElem .. | .sregWrite .. | .pregWrite .. | .xLimit .. | .xPos .. | .xShift ..
  | .lcWrite .. | .jump .. | .pegCmpWrite .. | .nextBent .. | .tileClose .. | .tileFill ..
  | .tileZero .. | .storeV .. | .wbufWrite .. | .storeS .. | .storeCol .. | .wbufBytes ..
  | .bentCol .. | .recvWrite .. | .edgeWrite .. => 2
  | .sealHalf .. | .pegAdd .. => 3
  | _ => 1

/-- XCOLL_LAST and the crossbar-collision fault (R26, R455). -/
def xbarCollision (s : State) (r port lane pos : Nat) (c : Option Nat) : State :=
  let v := pos % 0x4000 + port * 0x4000 + lane * 0x80000
  let s := irq (firstCapt s (pgXbr r + 0x40) v) (pgXbr r) 0
  fault s 5 (pgXbr r) pos (v + 0x80000000) c

/-- A transfer leaves region output `port` (R155). On a cluster port it is present in the same cycle on the input
numbered by the cluster that sends it, an FFWD's as an FSEND's: a DESIGN CHOICE for the FFWD (log 121), R155 names
the FSEND alone. -/
def regionOut (s : State) (c port lane t : Nat) (v : Line) : State :=
  let r := c / 16
  let s := cntAdd s (pgXbr r + 0x44) 1
  if clusterMasked s c then s
  else
    let put := fun (s : State) (dst p at_ : Nat) =>
      let x := placeXfer s (64 * r + port) dst p lane at_ v
      if x.2 then xbarCollision x.1 r port lane (posOf s c t) (clusterCtx s c) else x.1
    if port < 16 then put s (128 + (16 * r + port)) (c % 16) t
    else if port < 20 then
      (if regionMasked s r then s
       else put (countEv s (pgXbr r) (clusterPart s c) .path 1) (r / 4 * 4 + (port - 16)) (16 + r % 4) (t + 6))
    else
      match linkOfRegion r with
      | none => s
      | some (dst, p) =>
        let side := match r % 4 with | 0 => 0 | 1 => 1 | 2 => 3 | _ => 2
        let s := cntAdd s (pgD2d (r / 4) side + 0x4C) 1
        if regionMasked s r then s
        else put (countEv s (pgD2d (r / 4) side) (clusterPart s c) .link 1) dst p (t + 24)

/-- Deliver a vault column, checked in stage `e.stage`, to where the operation wants it (R149, R154, R224, R225,
R233, R234). `bad`: a line failed a check of R217; `data` holds zeros for it. A wholly gated BENTLD writes nothing,
so that it is no first BENTLD after a seal: a DESIGN CHOICE (log 97), R121 judges by the bent-store write. -/
def deliverCol (s : State) (e : Ev) (lines : BitVec 2) (dst : ColDest) (data : BitVec 1024) (bad : Bool) : State :=
  match dst with
  | .store a => pushAt s e (e.stage + 1) (.storeCol a lines data)
  | .bent a => if lines = 0 then s else pushAt s e (e.stage + 1) (.bentCol a lines data)
  | .planer o =>
    if lines = 0 then s
    else if planerDecodes s e.unit && lines ≠ 3 then cntAdd s (pgPln e.unit + 0x5C) 1
    else if bad then s
    else pushAt s e (e.stage + 10) (.planeIn o lines data)

/-- The planer's last cycle on a column (R224, R225, R228 to R232): what it yields is written in the next cycle. -/
def planeCol (s : State) (e : Ev) (o : BitVec 15) (lines : BitVec 2) (data : BitVec 1024) : State :=
  let pg := pgPln e.unit
  let put := fun (v : List Byte) =>
    pushAt (cntAdd64 (cntAdd s (pg + 0x48) 1) (pg + 0x4C) v.length) e (e.stage + 1) (.wbufBytes o v)
  if !planerDecodes s e.unit then put (natBytes (if lines = 3 then 128 else 64) data.toNat)
  else
    match planeDecode (tableOf s e.unit) data.toNat with
    | .ok v => countEv (put v) pg (clusterPart s e.unit) .decoded v.length
    | .error cause =>
      let pos := posOf s e.unit e.issue
      let v := pos % 0x4000 + cause * 0x4000 + bitsOf data.toNat 8 5 * 0x20000
      let s := irq (firstCapt (cntAdd s (pg + 0x54) 1) (pg + 0x58) v) pg 0
      fault s 0xC pg pos (v + 0x80000000) (clusterCtx s e.unit)

/-- The checks of R217 end on a column, in cycle 29 of its read: they count, and each failing line is a P fault.
`k0` and `k1` tell what the checks find. -/
def checkCol (s : State) (e : Ev) (u : Nat) (lines : BitVec 2) (k0 k1 : Nat × Bool) (dst : ColDest)
    (data : BitVec 1024) : State :=
  let one := fun (s : State) (i : Nat) (k : Nat × Bool) =>
    if !lines.getLsbD i then s
    else
      let s := noteLine s e.unit (u + 64 * i) 0 k
      if k.1 = 0 then s
      else fault s 0xB (pgVlt e.unit) (posOf s e.unit e.issue) (lineLog (u + 64 * i) k.1 0 + 0x80000000)
        (clusterCtx s e.unit)
  let fails := fun (i : Nat) (k : Nat × Bool) => lines.getLsbD i && k.1 ≠ 0
  deliverCol (one (one s 0 k0) 1 k1) e lines dst data (fails 0 k0 || fails 1 k1)

/-- A column read at its stage (R210 to R212, R217, R224): the lines are sampled now, arrive 24 cycles later, and
their checks end in cycle 29. A read that breaks R208 or R211 delivers undefined bytes without a check. The precharge
that AP implies is not sent either where its column is refused: a DESIGN CHOICE (log 98), R212 sends no part of a
refused command. -/
def vaultReadCol (s : State) (e : Ev) (bank : BitVec 5) (col : BitVec 4) (ap : Bool) (lines : BitVec 2)
    (dst : ColDest) : State :=
  let v := e.unit
  let b := bank.toNat
  let pos := posOf s v e.stage
  let code := judgeCmd s v .rd b e.stage pos false
  if code ≠ 0 then
    let d := drawFree (vaultBreach s v code b pos) 1024
    pushAt d.2 e (e.stage + 29) (.colCheck 0 lines (0, false) (0, false) dst d.1)
  else
    let row := match openRow s v b with | some r => r | none => 0
    let s := countEv (noteCmd s v .rd b e.stage) (pgVlt v) (clusterPart s v) .column (b2n (lines ≠ 0))
    let s := if ap then pushAt s e (impliedPre s v b) (.vaultPre bank true) else s
    match clusterCtx s v with
    | none => s
    | some c =>
      let u := vaultOfs row b col.toNat 0
      let rd := fun i => let k := lineKind s v (u + 64 * i) c; (k, if lines.getLsbD i && k.1 = 0 then lineData s v (u + 64 * i) else 0)
      pushAt s e (e.stage + 29) (.colCheck u lines (rd 0).1 (rd 1).1 dst
        (BitVec.ofNat 1024 ((rd 0).2 + (rd 1).2 <<< 512)))

/-- A column write at its stage (R210 to R212, R219). -/
def vaultWriteCol (s : State) (e : Ev) (bank : BitVec 5) (col : BitVec 4) (ap : Bool) (lines : BitVec 2)
    (data : BitVec 1024) : State :=
  let v := e.unit
  let b := bank.toNat
  let pos := posOf s v e.stage
  let code := judgeCmd s v .wr b e.stage pos false
  if code ≠ 0 then vaultBreach s v code b pos
  else
    let row := match openRow s v b with | some r => r | none => 0
    let s := countEv (noteCmd s v .wr b e.stage) (pgVlt v) (clusterPart s v) .column (b2n (lines ≠ 0))
    let s := if ap then pushAt s e (impliedPre s v b) (.vaultPre bank true) else s
    match clusterCtx s v with
    | none => s
    | some c => (List.range 2).foldl (fun s i =>
        if lines.getLsbD i then
          storeLine s v (vaultOfs row b col.toNat i) c (bitsOf data.toNat (512 * i) 512) false
        else s) s

/-- Bytes of a store read, undefined where the access collided (R119). -/
def readStore (s : State) (c a n : Nat) (bad : Bool) : Nat × State :=
  if bad then let d := drawFree s (8 * n); (d.1.toNat, d.2) else (storeNat s c a n, s)

/-- Data of a store write, undefined where the access collided (R119). -/
def writeData (s : State) (n x : Nat) (bad : Bool) : Nat × State :=
  if bad then let d := drawFree s (8 * n); (d.1.toNat, d.2) else (x, s)

/-- A peg's changes of one cycle, summed (R131, R132). -/
def pegApply (s : State) (c g t : Nat) (d : Int) : State :=
  let v : Int := (pegOf s c g).toNat + d
  if v < 0 then
    fault (setPeg s c g 0) 9 (pgClu c) (posOf s c t) g (clusterCtx s c)
  else setPeg s c g (BitVec.ofInt 32 v)

/-- Take what is present on an input in cycle `t`, for context `x`: none, or a line (undefined where
transfers collided or the crossing slipped, R26, R106). -/
def takeInput (s : State) (x : Option Nat) (pos t dst port lane : Nat) : Option Line × State :=
  let s := if dst < 128 then noteDrift s dst port else s
  if dst < 128 && crossingSlips s dst port then
    let s := takeSlip s dst port pos x
    let d := drawFree s 513
    (if d.1.getLsbD 512 then some (d.1.extractLsb' 0 512) else none, d.2)
  else
    match presentOn s dst port lane t with
    | none => (none, s)
    | some x =>
      match x.v with
      | some v => (some v, s)
      | none => let d := drawFree s 512; (some d.1, d.2)

/-- The input that a crossbar port names for cluster `c`: its own port, its region's, or the
link attachment (R152, R155). -/
def inputOf (c port : Nat) : Nat × Nat := if port < 16 then (128 + c, port) else (c / 16, port)

/-- Byte address of a landing line: an area's base and a line number. -/
def landAddr (area line : Nat) : Nat := area + 64 * line

/-- SCOLL_LAST and the slot-collision fault (R270, R285): at a lane or line, or at a slot. -/
def slotCollision (s : State) (x port pos : Nat) (lane : Bool) (c : Option Nat) : State :=
  let w := pos % 0x4000 + port * 0x4000 + b2n lane * 0x40000
  let s := irq (firstCapt s (pgSlt x + 0x40) w) (pgSlt x) 0
  fault s 7 (pgSlt x) pos (w + 0x80000000) c

/-- What a stage does. `bad`: its store access shares a bank; `wbad`: its weight-buffer write
meets another. -/
def doAct (s : State) (e : Ev) (bad : Bool) (wbad : Bool) : State :=
  let c := e.unit
  match e.act with
  | .vregWrite r lanes v => setVreg s c r.toNat (blend 8192 32 lanes v (vregOf s c r.toNat))
  | .vregElem r w i v =>
    setVreg s c r.toNat (ofElems 8192 w fun k =>
      if k = i then BitVec.ofNat w v else elem (vregOf s c r.toNat) w k)
  | .sregWrite r v => setSreg s c r.toNat v
  | .sregKeep _ => s
  | .pregWrite r m v => setPreg s c r.toNat ((v &&& m) ||| (pregOf s c r.toNat &&& ~~~m))
  | .xLimit r v => setXreg s c r.toNat (BitVec.ofNat 64 (setBits (xregOf s c r.toNat).toNat 0 32 v.toNat))
  | .xPos r v => setXreg s c r.toNat (BitVec.ofNat 64 (setBits (xregOf s c r.toNat).toNat 32 24 v.toNat))
  | .xShift r v => setXreg s c r.toNat (BitVec.ofNat 64 (setBits (xregOf s c r.toNat).toNat 56 4 v.toNat))
  | .lcWrite k v => setLc s c k.toNat v
  | .jump a => setSeq s c { seqOf s c with pos0 := posOf s c e.stage + 1, addr0 := a.toNat }
  | .busyTo slot free => { s with clu.busy := tabSet 0 (c * 8 + slot) free s.clu.busy }
  | .fault code page arg => fault s code.toNat page (posOf s c e.issue) arg.toNat (clusterCtx s c)
  | .audit kind slot => auditEvent s c e.issue kind slot
  | .count k n => countEv s (pgClu c) (clusterPart s c) k n
  | .mark imm =>
    match clusterCtx s c with
    | none => s
    | some x =>
      if !bitOf (regPair s (pgDbg (c / 64) + 0x50)) (c % 64) then s else
      let r := s.time.tick.toNat + (raising s x).frame.toNat <<< 64 + c <<< 128 + x <<< 144 +
        imm.toNat <<< 160 + posOf s c e.issue <<< 192
      { s with rai.trace := s.rai.trace ++ [BitVec.ofNat 256 r] }
  | .pegAdd .. => s
  | .pegCmpWrite g v => setPegCmp s c g.toNat v
  | .sealHalf i l =>
    entryGone (setTag s c (idleHalf s c) { valid := true, index := i, length := l, sealed := true }) c (idleHalf s c)
  | .nextBent i => setSeq s c { seqOf s c with nextBent := i }
  | .runSet t r => setRun s c t.toNat r
  | .mmaWgt seq p _ o n w a =>
    let x := wbufNat s c o.toNat n
    let s := fillContrib s c seq fun k => { k with wgt := k.wgt ||| BitVec.ofNat 16384 (x <<< (8 * n * p)) }
    let s := match w with
      | some o => let y := wbufNat s c o.toNat 64; fillContrib s c seq fun k => { k with wscale := BitVec.ofNat 512 y }
      | none => s
    match a with
    | some o => let y := wbufNat s c o.toNat 64; fillContrib s c seq fun k => { k with ascale := BitVec.ofNat 512 y }
    | none => s
  | .mmaAct seq p _ a n on =>
    let x := readStore s c a.toNat n bad
    if on then fillContrib x.2 c seq fun k => { k with act := k.act ||| BitVec.ofNat 8192 (x.1 <<< (8 * n * p)) } else s
  | .tileClose t v parts => setTile s c t.toNat (closeTile (tileOf s c t.toNat) v parts)
  | .tileFill t q cols v =>
    setTile s c t.toNat (ofElems 131072 32 fun i =>
      if i / 256 = q.toNat && cols.getLsbD (i % 64) then elem v 32 (i % 256)
      else elem (tileOf s c t.toNat) 32 i)
  | .tileZero t cols =>
    setTile s c t.toNat (ofElems 131072 32 fun i =>
      if cols.getLsbD (i % 64) then 0 else elem (tileOf s c t.toNat) 32 i)
  | .loadV r lines a =>
    let x := readStore s c a.toNat 1024 bad
    pushAt x.2 e (e.stage + 1) (.vregWrite r (linesToLanes lines) (BitVec.ofNat 8192 x.1))
  | .storeV a lines v =>
    let x := writeData s 1024 v.toNat bad
    storeLines x.2 c a.toNat 16 lines.getLsbD x.1
  | .swbRead a o lines =>
    let x := readStore s c a.toNat 512 bad
    pushAt x.2 e (e.stage + 2) (.wbufWrite o lines (BitVec.ofNat 4096 x.1))
  | .wbufWrite o lines v =>
    let x := writeData s 512 v.toNat wbad
    (List.range 8).foldl (fun s i =>
      if lines.getLsbD i then setWbuf s c (o.toNat + 64 * i) 64 (x.1 >>> (512 * i)) else s) x.2
  | .loadS r on a =>
    let x := readStore s c a.toNat 8 bad
    if on then pushAt x.2 e (e.stage + 1) (.sregWrite r (BitVec.ofNat 64 x.1)) else x.2
  | .storeS a on v =>
    let x := writeData s 8 v.toNat bad
    if on then setStore x.2 c a.toNat 8 x.1 else x.2
  | .loadX r on a =>
    let x := readStore s c a.toNat 4 bad
    if on then pushAt x.2 e (e.stage + 1) (.xLimit r (BitVec.ofNat 32 x.1)) else x.2
  | .vaultAct b row => vaultActivate s c b.toNat row e.stage
  | .vaultPre b auto => vaultPrecharge s c b.toNat e.stage auto
  | .vaultRd b col ap lines dst => vaultReadCol s e b col ap lines dst
  | .vwrRead a b col ap lines =>
    let x := readStore s c a.toNat 128 bad
    pushAt x.2 e (e.stage + 3) (.vaultWr b col ap lines (BitVec.ofNat 1024 x.1))
  | .vaultWr b col ap lines v => vaultWriteCol s e b col ap lines v
  | .colCheck u lines k0 k1 dst v => checkCol s e u lines k0 k1 dst v
  | .planeIn o lines v => planeCol s e o lines v
  | .storeCol a lines v =>
    let x := writeData s 128 v.toNat bad
    storeLines x.2 c a.toNat 2 lines.getLsbD x.1
  | .wbufBytes o v =>
    let x := writeData s v.length (bytesNat v) wbad
    if v.isEmpty then s else setWbuf x.2 c o.toNat v.length x.1
  | .bentCol a lines v =>
    let h := idleHalf s c
    let t := tagOf s c h
    let s := entryGone (if t.sealed then setTag s c h { t with valid := false, sealed := false } else s) c h
    (List.range 4).foldl (fun s i =>
      if lines.getLsbD (i / 2) then setBundle s c h (a.toNat + i) (elem v 256 i) else s) s
  | .sendRead a port lane on =>
    let x := readStore s c a.toNat 64 bad
    if on then pushAt x.2 e (e.stage + 2) (.laneOut port lane (BitVec.ofNat 512 x.1)) else x.2
  | .laneOut port lane v => regionOut s c port.toNat lane.toNat e.stage v
  | .recvTake port lane on a peg =>
    let i := inputOf c port.toNat
    let x := if on then takeInput s (clusterCtx s c) (posOf s c e.stage) e.stage i.1 i.2 lane.toNat else (none, s)
    let s := x.2
    let s := if on && x.1.isNone then cntAdd s (pgXbr (c / 16) + 0x48) 1 else s
    let s := pushAt s e (e.stage + 2) (.recvWrite a x.1)
    match x.1, peg with
    | some _, some g => pushAt s e (e.stage + 2) (.pegAdd g 1)
    | _, _ => s
  | .recvWrite a v =>
    match v with
    | none => s
    | some l => let x := writeData s 64 l.toNat bad; setStore x.2 c a.toNat 64 x.1
  | .fwdTake sel port lane =>
    let i := inputOf c sel.toNat
    let x := takeInput s (clusterCtx s c) (posOf s c e.stage) e.stage i.1 i.2 lane.toNat
    match x.1 with
    | none => cntAdd x.2 (pgXbr (c / 16) + 0x48) 1
    | some l => pushAt x.2 e (e.stage + 1) (.laneOut port lane l)
  | .edgeTake link lane area line =>
    let q := edgeLanePart s (e.unit - 1024) link.toNat lane.toNat
    let x := takeInput s (partCtx s q) (partPos s q e.stage) e.stage (64 + (e.unit - 1024)) link.toNat lane.toNat
    match x.1 with
    | none => x.2
    | some l => pushAt x.2 e (e.stage + 1) (.edgeWrite q area line l)
  | .edgeWrite q area line l =>
    let x := writeData (countEv s (pgLnd (e.unit - 1024)) q .line 1) 64 l.toNat wbad
    { x.2 with
      edge.landing := memWrite x.2.edge.landing (landAddr area line) 64 x.1
      edge.staged := x.2.edge.staged ++ [(landAddr area line, e.stage)] }
  | .edgeRead link lane area line =>
    pushAt s e (e.stage + 1)
      (.edgeOut link lane (BitVec.ofNat 512 (memNat s.edge.landing (landAddr area line) 64)))
  | .edgeOut link lane v =>
    let x := e.unit - 1024
    match linkOfEdge x link.toNat with
    | none => s
    | some (dst, p) =>
      let s := cntAdd s (pgD2d (16 + x) link.toNat + 0x4C) 1
      let s := countEv s (pgD2d (16 + x) link.toNat)
        (if link.toNat < 4 then edgeLanePart s x link.toNat lane.toNat else none) .link 1
      let r := placeXfer s (64 * (64 + x) + link.toNat) dst p lane.toNat (e.stage + 24) v
      if r.2 then
        let q := edgeLanePart s x link.toNat lane.toNat
        slotCollision r.1 x e.slot (partPos s q e.stage) true (partCtx s q)
      else r.1

/-! ## Cycles -/

/-- A landing's or a combine's 1 for package peg `g`, due in cycle `t`: summed with that cycle's other changes (R131,
R275). It belongs to no slot of the cluster. -/
def pegArrive (s : State) (g t : Nat) : State := pushEv s ⟨g / 16, 8, t, t, .pegAdd (BitVec.ofNat 4 g) 1⟩

/-- The partition whose schedule owns a stage of edge die `e`. -/
def edgeActPart (s : State) (e : Nat) : Act → Option Nat
  | .edgeTake link lane _ _ | .edgeRead link lane _ _ | .edgeOut link lane _ => edgeLanePart s e link.toNat lane.toNat
  | .edgeWrite q _ _ _ => q
  | _ => none

/-- Whether two stages are TAKEs of one edge die that write one line (R270). -/
def takesMeet (e f : Ev) : Bool :=
  e.unit = f.unit &&
    (match e.act, f.act with
     | .edgeWrite _ a l _, .edgeWrite _ a' l' _ => landAddr a l = landAddr a' l'
     | _, _ => false)

/-- Whether a TAKE writes a line that another TAKE of the cycle writes too (R270), be the other one's entry equal. -/
def lineClash (now : List Ev) (e : Ev) : Bool := 2 ≤ (now.filter (takesMeet e)).length

/-- Line collisions of the edge dies in a cycle (R270), at the position in the frame of the partition whose lane it
is, for the context that runs there. -/
def lineCollisions (s : State) (now : List Ev) (t : Nat) : State :=
  (pairsWith takesMeet now).foldl (fun s x =>
    let q := edgeActPart s (x.1.unit - 1024) x.1.act
    slotCollision s (x.1.unit - 1024) x.1.slot (partPos s q t) true (partCtx s q)) s

/-- Sum the peg changes of a cycle, one peg at a time (R131). -/
def pegCycle (s : State) (now : List Ev) (t : Nat) : State :=
  let ks := now.filterMap fun e => match e.act with | .pegAdd g d => some (e.unit, g, d) | _ => none
  ((ks.map fun k => (k.1, k.2.1)).eraseDups).foldl (fun s k =>
    pegApply s k.1 k.2.toNat t ((ks.filter fun x => (x.1, x.2.1) = k).foldl (fun a x => a + x.2.2) 0)) s

/-- The banks that a store access of a stage touches: those of its active lines (R117, R393). -/
def banksTouched : Act → Nat
  | .recvWrite _ none => 0
  | a => if (storeAccess a).isNone then 0 else (((actReads a ++ actStore a).map (· / 2)).eraseDups).length

/-- The bank accesses of a cycle as events (R393). -/
def countBanks (s : State) (now : List Ev) : State :=
  now.foldl (fun s e => countEv s (pgClu e.unit) (clusterPart s e.unit) .bank (banksTouched e.act)) s

/-- Run the stages of one phase, in order. -/
def runPhase (ph : Nat) (now : List Ev) (s : State) : State :=
  (now.filter fun e => phaseOf e.act = ph).foldl
    (fun s e => doAct s e (bankClash now e) ((wbufClash now e).isSome || lineClash now e)) s

/-- Take the stages due in cycle `t` out of those in flight, in order of issue and slot. -/
def dueNow (s : State) (t : Nat) : List Ev :=
  sortRank (fun e => e.issue * 8 + e.slot) (s.clu.pipe.filter fun e => e.stage = t)

/-- Work off cycle `t`. A receive's write, and a planer's, are known only in an earlier
cycle, so every store access of the cycle is in flight when it begins. Of a store collision and a weight-buffer collision
in one cycle, COLL_LAST holds the store's: a DESIGN CHOICE (log 128), R138 gives no order. -/
def runCycle (s : State) (t : Nat) : State :=
  let now := dueNow s t
  let s := { s with
    clu.pipe := s.clu.pipe.filter fun e => e.stage ≠ t
    clu.lanes := s.clu.lanes.filter fun x => t ≤ x.pos
    clu.cyc := max s.clu.cyc t }
  let s := storeCollisions s now t
  let s := wbufCollisions s now t
  let s := lineCollisions s now t
  let s := auditCycle s now t
  let s := countBanks s now
  let s := runPhase 0 now s
  let s := runPhase 1 now s
  let s := runPhase 2 now s
  let s := pegCycle s now t
  let s := runPhase 3 now s
  { s with clu.cyc := max s.clu.cyc (t + 1) }

/-- The earliest stage in flight that lies before cycle `target`. -/
def nextStage (s : State) (target : Nat) : Option Nat :=
  s.clu.pipe.foldl (fun acc e =>
    if target ≤ e.stage then acc
    else match acc with | none => some e.stage | some t => some (min t e.stage)) none

/-- Work off up to `n` cycles that lie before `target`. -/
def advanceN : Nat → Nat → State → State
  | 0, target, s => { s with clu.cyc := max s.clu.cyc target }
  | n + 1, target, s =>
    match nextStage s target with
    | none => { s with clu.cyc := max s.clu.cyc target }
    | some t => advanceN n target (runCycle s t)

/-- Let every cycle before `target` happen. -/
def advance (s : State) (target : Nat) : State := advanceN (target + 1 - s.clu.cyc) target s

/-! ## Issue -/

/-- What an operation is when it issues: its slot (0 M, 1 V0, 2 V1, 3 L, 4 S, 5 F, 6 C, 7
bundle bits [255:252]); whether its encoding is good; whether it runs on a unit with power
states (R404: bit 0 M, 1 V0, 2 V1, 3 the planer); its occupancy (R140); its last stage or
result, counted from issue (R67); the registers it reads (R469); its stages. -/
structure OpInfo where
  slot : Nat
  enc  : Bool
  unit : Nat
  occ  : Nat
  due  : Nat
  srcs : List Dest
  evs  : List (Nat × Act)
deriving DecidableEq, Repr

/-- The cycle in which a slot issues: its position in the frame of its partition, or now if
that has passed. -/
def issueCycle (s : State) (i : Issue) : Nat := max s.clu.cyc (originOf s i.cl.val + i.pos)

/-- Whether the units of mask `m` of cluster `c` are not ON or are isolated (R404): M, V0, V1
in PWR.UNIT_STATE, the planer in PLN.PSTATE, the whole cluster in CLU.PSTATE. -/
def unitOff (s : State) (c m : Nat) : Nat :=
  let u := regNat s (pgPwr (c / 64) + 0x100 + 4 * (c % 64))
  let off := fun i => bitsOf u (4 * i + 2) 2 ≠ 0 || bitOf u (12 + i)
  let pl := regNat s (pgPln c + 0x24)
  let all := regField s (pgClu c + 0x24) 0 2 ≠ 0
  let bad := b2n (off 0) + 2 * b2n (off 1) + 4 * b2n (off 2) +
    8 * b2n (bitsOf pl 0 2 ≠ 0 || bitOf pl 9)
  if all then m else bad &&& m

/-- The bundle address of cycle `t` (R123). -/
def bundleAddr (s : State) (c t : Nat) : Nat :=
  (seqOf s c).addr0 + (posOf s c t - (seqOf s c).pos0)

/-- Whether the bundle address of cycle `t` lies below the running half's LENGTH (R124). -/
def inBent (s : State) (c t : Nat) : Bool :=
  bundleAddr s c t < (tagOf s c (seqOf s c).runHalf.toNat).length.toNat

/-- Whether a bundle's slot runs in cycle `t`: bundles of the bent issue (R124), in the work part
after a missed tick (R71), and the bundle has not been replaced by the null bundle (R112). -/
def slotRuns (s : State) (c t : Nat) : Bool :=
  clusterIssues s c && inBent s c t && (seqOf s c).nullPos ≠ some t &&
    (match clusterPart s c with
     | none => false
     | some p => (part s p).kind ≠ .finish || posOf s c t < guardPos s)

/-- An encoding fault (R112): the null bundle issues in place of the whole bundle. Where several slots of one bundle
break R112, the fault names the first in the order in which their commands come: a DESIGN CHOICE (log 99), the rule
and R464 do not say. -/
def encodingFault (s : State) (c t slot : Nat) : State :=
  let s := { s with clu.pipe := s.clu.pipe.filter fun e => !(e.unit = c && e.issue = t && e.slot < 8) }
  let s := setSeq s c { seqOf s c with nullPos := some t }
  let idx := (tagOf s c (seqOf s c).runHalf.toNat).index.toNat
  pushEv s ⟨c, slot, t, t, .fault 1 (pgClu c) (BitVec.ofNat 32 (slot + idx * 0x10000))⟩

/-- Stages that only record something about the issue: the fault of R67 for work that reaches
the guard, audit events for sources whose value has not arrived (R469), the occupancy. -/
def issueNotes (s : State) (c t : Nat) (o : OpInfo) : List (Nat × Act) :=
  (if guardPos s ≤ posOf s c (t + o.due) then [(0, .fault 0xD (pgClu c) (BitVec.ofNat 32 o.slot))] else []) ++
  (if audited s c then
    (o.srcs.filter fun d => s.clu.pipe.any fun e => e.unit = c && e.issue < t && actDest e.act = some d).map
      fun _ => (0, Act.audit 1 o.slot)
   else []) ++
  (if 1 < o.occ then [(0, .busyTo o.slot (t + o.occ))] else [])

/-- Issue an operation in cycle `t` of cluster `c` (R112, R140, R404). -/
def issueAt (s : State) (c t : Nat) (o : OpInfo) : State :=
  let put := fun (s : State) (l : List (Nat × Act)) =>
    { s with clu.pipe := s.clu.pipe ++ l.map fun x => ⟨c, o.slot, t, t + x.1, x.2⟩ }
  if !slotRuns s c t then s
  else if !o.enc then encodingFault s c t o.slot
  else
    let off := unitOff s c o.unit
    if off ≠ 0 then
      put s [(0, .fault 0xF (pgPwr (c / 64)) (BitVec.ofNat 32 (c % 64 + off * 0x100)))]
    else if t < tabGet 0 (c * 8 + o.slot) s.clu.busy then
      put s [(0, .fault 4 (pgClu c) (BitVec.ofNat 32 o.slot))]
    else put s (o.evs ++ issueNotes s c t o)

/-- A slot operation: let the earlier cycles happen, then read the operands and issue. -/
def issueOp (s : State) (i : Issue) (op : State → Nat → OpInfo) : State :=
  let t := issueCycle s i
  let s := advance s t
  issueAt s i.cl.val t (op s t)

end Sys2Proof.Machine
end

