-- ==== Sys2Proof/Machine/EdgeOps.lean ====
section
/-! DEFINITION. What an edge die knows of its table sets and port bents (R262 to R269, R281), the
packets it forms, holds late and diverts (R256, R257, R261, R283), the gate (R72, R75, R277), and the
combiner (R194, R276). The spec does not give the layout of a table set in slot-table SRAM: what a
set's bytes hold is `Config.decodeSet` (log 20). -/
namespace Sys2Proof

/-- The table set that the bytes of its pages hold. -/
opaque Config.decodeSet : List Host.Cell → Machine.TableSet

namespace Machine

/-! ## Sets and port bents -/

/-- The set of edge die `e` from which context `c` runs. -/
def ctxSet (s : State) (e c : Nat) : Option TableSet :=
  (List.range 4).findSome? fun k =>
    let t := setOf s e k
    if t.state = .running && t.ctx = some c then some t.tables else none

/-- The running set that serves raising `rid` on port `p`, and its context (R263). -/
def setForRaise (s : State) (p rid : Nat) : Option (TableSet × Nat) :=
  (List.range 4).findSome? fun k =>
    let t := setOf s (p / 16) k
    match t.ctx with
    | some c => if t.state = .running && t.tables.ports.getLsbD p &&
        regField s (pgSlt (p / 16) + 0x100 + 0x10 * k) 16 16 = rid then some (t.tables, c) else none
    | none => none

/-- The ports of edge die `e`. -/
def diePorts (e : Nat) : List Nat := (List.range 16).map fun k => 16 * e + k

/-- The port bent index that frame list `j` of bucket `b` gives a port (R48, R264). -/
def listedBent (t : TableSet) (b j p : Nat) : Nat :=
  match (((t.frames[b]?).getD [])[j]?).getD [] |>.find? (fun x => x.1.toNat = p) with
  | some x => x.2.toNat
  | none => 0

/-- The port bent of an index (R43: index 0 is none). -/
def bentOf (t : TableSet) (p i : Nat) : Option PortBent :=
  if i = 0 then none else (t.bents.find? fun x => x.1.toNat = p && x.2.1.toNat = i).map (·.2.2)

/-- The brace state of context `c` on edge die `e`. -/
def braceOf (s : State) (e c : Nat) : Option BraceSt := tabGet none (edgeKey e c) s.edge.brace

/-- A brace record of a set. -/
def braceNamed (t : TableSet) (id : BitVec 16) : Option BraceRec := t.braces.find? fun r => r.id = id

/-- The brace record that runs. -/
def braceActive (s : State) (t : TableSet) (e c : Nat) : Option BraceRec :=
  ((braceOf s e c).bind (·.active)).bind (braceNamed t)

/-- The brace record in force for forwards and diverts: the pending one, else the one that runs (R283). -/
def braceRec (s : State) (t : TableSet) (e c : Nat) : Option BraceRec :=
  (((braceOf s e c).bind (·.pending)).bind fun x => braceNamed t x.1).or (braceActive s t e c)

/-- The brace record that runs in frame `f`: a pending one from its switch frame on (R282). -/
def braceAt (s : State) (t : TableSet) (e c f : Nat) : Option BraceRec :=
  match (braceOf s e c).bind (·.pending) with
  | some x => if x.2.toNat ≤ f then braceNamed t x.1 else braceActive s t e c
  | none => braceActive s t e c

/-- The index that the brace of frame `f` puts in place of a primary index (R282). -/
def braceIndex (s : State) (t : TableSet) (e c p i f : Nat) : Nat :=
  match braceAt s t e c f with
  | some r =>
    (match r.map.find? fun m => m.1.toNat = p && m.2.1.toNat = i with
     | some m => m.2.2.toNat
     | none => i)
  | none => i

/-- The bucket index that the staging line holds (R264). -/
def bucketLineVal (s : State) (t : TableSet) (e c : Nat) : Nat :=
  memNat s.edge.landing (stageAddr s e c + 64 * t.bucketLine.toNat) 1 % 16

/-- Where edge die `e` is within the step of context `c`. -/
def portSeqOf (s : State) (e c : Nat) : PortSeq :=
  tabGet PortSeq.init (edgeKey e c) s.edge.portSeq

/-- The frames that the frame lists of bucket `b` have in a step: its STEP_FRAMES (R264). -/
def listedFrames (t : TableSet) (b : Nat) : Nat := ((t.frames[b]?).getD []).length

/-- The bent that port `p` runs `k` frames after the present one, by the die's own count of the step, where the present
step or the first frame of the next one says it (R264). -/
def bentAhead (s : State) (t : TableSet) (e c p k : Nat) : Option PortBent :=
  let r := raising s c
  let q := portSeqOf s e c
  let read := bucketLineVal s t e c
  let b := if q.pos = 0 then read else q.bucket
  let nul := if q.pos = 0 then t.frames.length ≤ read else q.nulled
  let j := if r.began then q.pos + k else k - 1
  let f := r.frame.toNat + k - b2n (!r.began)
  let pick := fun b j => bentOf t p (braceIndex s t e c p (listedBent t b j p) f)
  if j = 0 then pick 0 0
  else if !r.began then none
  else if nul && k = 0 then none
  else if j < listedFrames t b then (if nul then none else pick b j)
  else if j = listedFrames t b then pick 0 0
  else none

/-- The bent that port `p` runs now. -/
def bentNow (s : State) (t : TableSet) (e c p : Nat) : Option PortBent := bentAhead s t e c p 0

/-- The slot entry of a bent for a unit. -/
def slotEntry (b : PortBent) (short : Bool) (slot : BitVec 11) : Option SlotEntry :=
  b.slots.find? fun x => x.short = short && x.slot = slot

/-- Lines of a packet (R256). -/
def packetLines (short : Bool) : Nat := if short then 1 else 16

/-! ## Lane entries (R268) -/

def lanePos (x : BitVec 64) : Nat := bitsOf x.toNat 0 14
def laneLink (x : BitVec 64) : Nat := bitsOf x.toNat 14 3
def laneNo (x : BitVec 64) : Nat := bitsOf x.toNat 17 5
def laneDir (x : BitVec 64) : Bool := x.getLsbD 22
def laneSpace (x : BitVec 64) : Nat := bitsOf x.toNat 23 2
def laneLine (x : BitVec 64) : Nat := bitsOf x.toNat 25 19
def laneRun (x : BitVec 64) : Nat := bitsOf x.toNat 44 4

/-- Whether a lane entry keeps its encoding on an edge die (R268). -/
def laneGood (e : Nat) (x : BitVec 64) : Bool :=
  (linkOfEdge e (laneLink x)).isSome && (4 ≤ laneLink x || laneNo x < 8) && laneSpace x ≠ 3 &&
  bitsOf x.toNat 48 16 = 0

/-- Byte address of the area that a lane entry names, for context `c`. -/
def laneArea (s : State) (e c : Nat) (x : BitVec 64) : Nat :=
  let f := (raising s c).frame.toNat
  match laneSpace x with
  | 0 => stageAddr s e c
  | 1 => ringAddr s e c f
  | _ => ringAddr s e c (f + 1)

/-- The port whose bent of this frame holds a lane entry, as a lane group of the die; 0 if none does. -/
def laneGroup (s : State) (e c : Nat) (x : BitVec 64) : Nat :=
  match ctxSet s e c with
  | none => 0
  | some t => ((diePorts e).find? fun p => match bentNow s t e c p with
      | some b => b.lanes.contains x
      | none => false).getD 0 % 16

/-- Whether some TAKE of context `c`'s present frame writes staging line `l` (R271). -/
def takeWrites (s : State) (t : TableSet) (e c l : Nat) : Bool :=
  (diePorts e).any fun p => match bentNow s t e c p with
    | some b => b.lanes.any fun x => !laneDir x && laneSpace x = 0 && laneLine x ≤ l && l ≤ laneLine x + laneRun x
    | none => false

/-- The lines of a slot entry's buffer that TAKEs of the frame write and had not written by cycle `t`. -/
def missingLines (s : State) (ts : TableSet) (e c : Nat) (x : SlotEntry) (t : Nat) : List Nat :=
  (List.range (packetLines x.short)).filterMap fun i =>
    let l := x.stage.toNat + i
    let a := landAddr (stageAddr s e c) l
    if takeWrites s ts e c l && !(s.edge.staged.any fun y => y.1 = a && y.2 ≤ t) then some a else none

/-- The edge issue position of cycle `t` for context `c`. -/
def edgePos (s : State) (c t : Nat) : Nat := t - (part s (ctx s c).part).origin

/-! ## Units of a port's frame (R259, R260) -/

/-- Link bytes before a unit. -/
def unitByte (short : Bool) (k : Nat) : Nat :=
  if short then
    let g := k / 4
    27894 * g + 1094 * (if k % 4 = 3 then 25 else 6 * (k % 4 + 1)) + 136 * (k % 4)
  else
    let r := k % 25
    27894 * (k / 25) + 1094 * r + 136 * min (r / 6) 3

/-- N(k): nominal start of a unit, in tick-clock periods after the tick. -/
def unitStart (short : Bool) (k : Nat) : Nat := unitByte short k * 544 / 64250

/-- Data slots and loose slots of a frame (R258). -/
def dataSlots (s : State) : Nat := 25 * (frameLen s / 256)
def looseSlots (s : State) : Nat := 4 * (frameLen s / 256)

/-- Link bytes of a frame, and those of its slots (R258). -/
def linkBytes (s : State) : Nat := frameLen s * 64250 / 544
def slotBytes (s : State) : Nat := 1094 * dataSlots s + 136 * looseSlots s

/-- Whether loose slot `j` is reserved for commands (R258). -/
def reservedSlot (log2 j : Nat) : Bool := if log2 = 10 then j % 2 = 1 else j % 4 = 3

/-- First link byte of a unit and its bytes (R258, R259). -/
def unitFrom (s : State) : PortUnit → Nat
  | .data k => unitByte false k.toNat
  | .loose j => unitByte true j.toNat
  | .allowance => slotBytes s
def unitSize (s : State) : PortUnit → Nat
  | .data k => if k.toNat < dataSlots s then 1094 else 0
  | .loose j => if j.toNat < looseSlots s then 136 else 0
  | .allowance => linkBytes s - slotBytes s

/-- Link bytes that a unit has carried in this tick period. -/
def unitUsed (s : State) (p : Nat) (u : PortUnit) : Nat :=
  ((s.edge.used.find? fun x => x.1 = (p, u)).map (·.2)).getD 0

/-- Link bytes that are left of a unit (R290). -/
def unitRoom (s : State) (p : Nat) (u : PortUnit) : Nat := unitSize s u - unitUsed s p u

/-- The tick-clock period after the tick in which the next frame of a unit begins (R259, R290). -/
def unitNext (s : State) (p : Nat) (u : PortUnit) : Nat := (unitFrom s u + unitUsed s p u) * 544 / 64250

/-- A unit has carried `n` more bytes; fewer than 64 that are left are filled with zeros (R290). -/
def carry (s : State) (p : Nat) (u : PortUnit) (n : Nat) : State :=
  let left := unitRoom s p u - n
  let used := if left < 64 then unitSize s u else unitUsed s p u + n
  let s := { s with edge.used := ((p, u), used) :: s.edge.used.filter fun x => x.1 ≠ (p, u) }
  if left = 0 || 64 ≤ left then s else emit s (.fill p left)

/-- Bytes of a leashed packet on the wire (R256). -/
def packetBytes (short : Bool) : Nat := if short then 134 else 1094

/-- The unit of a slot entry or of an OUT_SLOT. -/
def slotUnit (short : Bool) (k : Nat) : PortUnit := if short then .loose (BitVec.ofNat 8 k) else .data (BitVec.ofNat 11 k)

/-! ## Packets (R257) -/

/-- A leashed header. -/
def leashedHdr (dst src rid due route srcFrame flags : Nat) : BitVec 160 :=
  BitVec.ofNat 160 (dst % 2 ^ 24 + (src % 2 ^ 24) <<< 24 + (rid % 2 ^ 16) <<< 48 + (due % 2 ^ 32) <<< 64 +
    (route % 2 ^ 16) <<< 96 + (srcFrame % 256) <<< 112 + flags <<< 120)

def lDst (h : BitVec 160) : Nat := byteFld h.toNat 0 3
def lSrc (h : BitVec 160) : Nat := byteFld h.toNat 3 3
def lRaise (h : BitVec 160) : Nat := byteFld h.toNat 6 2
def lDue (h : BitVec 160) : BitVec 32 := h.extractLsb' 64 32
def lRoute (h : BitVec 160) : Nat := byteFld h.toNat 12 2
def lSrcFrame (h : BitVec 160) : Nat := byteFld h.toNat 14 1
def lShort (h : BitVec 160) : Bool := h.getLsbD 120
def lDiverted (h : BitVec 160) : Bool := h.getLsbD 121

/-- Nonzero reserved bits of a leashed header (R257, R344). -/
def lReserved (h : BitVec 160) : Bool :=
  bitsOf h.toNat 122 38 ≠ 0 || bitsOf h.toNat 16 8 ≠ 0 || bitsOf h.toNat 40 8 ≠ 0

/-- The header with another ROUTE, and DIVERTED if a diversion sets it. -/
def lReroute (h : BitVec 160) (route : Nat) (divert : Bool) : BitVec 160 :=
  BitVec.ofNat 160 (setBits (setBits h.toNat 96 16 route) 121 1 (b2n (lDiverted h || divert)))

/-- Payload bytes of a packet as they stand in its body. -/
def lBody (x : Leashed) : List Byte := natBytes (64 * packetLines (lShort x.hdr)) x.payload.toNat

/-- KIND of a packet (R293). -/
def lKind (x : Leashed) : Nat := if lShort x.hdr then 2 else 1

/-! ## Braces (R281, R282) -/

/-- Whether a raising lost port `p`: until a re-raising its leashed traffic does not use it (R304). -/
def portLost (s : State) (p c : Nat) : Bool := tabGet false (p * 256 + c) s.edge.lost

/-- Whether context `c`'s leashed traffic may use port `p`. -/
def leashUp (s : State) (p c : Nat) : Bool := portUp s p && !portLost s p c

/-- The ports of context `c`'s running sets that its raising has not got. -/
def downPorts (s : State) (c : Nat) : List Nat :=
  (List.range 48).filter fun p => match ctxSet s (p / 16) c with
    | some t => t.ports.getLsbD p && !leashUp s p c
    | none => false

/-- The own port of a link that a DOWN entry names by either of its ends. -/
def downOwn (s : State) (x : BitVec 32) : Option Nat :=
  let node := bitsOf x.toNat 0 24
  if node = nodeId s then some (bitsOf x.toNat 24 8)
  else (List.range 48).find? fun p => portKind s p = 1 && regGet s (pgPrt p + 0x48) = x

/-- The links of other packages that the braces of context `c`, the one that runs and the one that waits for its switch
frame, already assume down (R282). -/
def bracedDown (s : State) (t : TableSet) (e c : Nat) : List (BitVec 32) :=
  let l := (braceActive s t e c).toList ++ (((braceOf s e c).bind (·.pending)).bind fun x => braceNamed t x.1).toList
  (l.flatMap fun b => b.down.filter fun x => (downOwn s x).isNone).eraseDups

/-- A brace whose DOWN set equals the set of links now down: those of this package, and those that the
braces in force already assume down elsewhere (R282). -/
def matchBrace (s : State) (t : TableSet) (e c : Nat) : Option BraceRec :=
  let own := downPorts s c
  let old := bracedDown s t e c
  if own.isEmpty && old.isEmpty then none
  else t.braces.find? fun r =>
    (own.all fun p => r.down.any fun x => downOwn s x = some p) &&
    (r.down.all fun x => match downOwn s x with | some p => own.contains p | none => old.contains x) &&
    old.all fun x => r.down.contains x

/-! ## Late packets (R261) -/

/-- A packet joins a port's late queue in order of DUE; a full queue drops it, with the
leashed-overflow fault. -/
def lateAdd (s : State) (p c : Nat) (x : Leashed) : State :=
  let q := tabGet [] p s.edge.late
  if 256 ≤ q.length then fault s 0x12 (pgSlt (p / 16)) 0 p (some c)
  else
    let rank := fun (y : Leashed) => (lDue y.hdr - lDue x.hdr + 0x80000000).toNat
    let q := insRank rank x q
    let s := { s with edge.late := tabSet [] p q s.edge.late }
    cntMax s (pgSlt (p / 16) + 0x50) q.length

/-- Divert a packet for a port that is down (R283): it leaves as a late packet on the brace port, with
the brace ROUTE and DIVERTED. Without a brace entry for it, it does not leave. -/
def divert (s : State) (p c : Nat) (x : Leashed) : State :=
  match ctxSet s (p / 16) c with
  | none => s
  | some t =>
    match (matchBrace s t (p / 16) c).or (braceRec s t (p / 16) c) with
    | none => s
    | some r =>
      match r.divert.find? fun d => d.1.toNat = p && d.2.1.toNat = lRoute x.hdr with
      | none => s
      | some d => lateAdd s d.2.2.1.toNat c { x with hdr := lReroute x.hdr d.2.2.2.toNat true }

/-- Whether a packet may leave in a unit now (R290, R300, R301). -/
def fitsUnit (s : State) (p : Nat) (u : PortUnit) (x : Leashed) : Bool :=
  seqFits s p (lKind x) && packetBytes (lShort x.hdr) ≤ unitRoom s p u

/-- A packet leaves in a unit. -/
def sendIn (s : State) (p : Nat) (u : PortUnit) (x : Leashed) : State :=
  carry (sendSeq s p (lKind x) (BitVec.ofNat 176 x.hdr.toNat) (lBody x) 0) p u (packetBytes (lShort x.hdr))

/-- Send a packet in its own unit, or make it late (R261, R283, R300). -/
def sendLeashed (s : State) (p c : Nat) (u : PortUnit) (x : Leashed) : State :=
  if !leashUp s p c then divert s p c x
  else if fitsUnit s p u x then sendIn s p u x
  else lateAdd s p c x

/-- The packet that a slot entry originates in frame `f` of context `c`, with its buffer as it stands. -/
def originate (s : State) (e c : Nat) (x : SlotEntry) (f : BitVec 64) : Leashed :=
  let r := raising s c
  { hdr := leashedHdr x.dst.toNat (nodeId s) r.raiseId.toNat (f.toNat + x.dueOfs.toNat) x.route.toNat f.toNat
      (b2n x.short)
    payload := BitVec.ofNat 8192 (memNat s.edge.landing (landAddr (stageAddr s e c) x.stage.toNat)
      (64 * packetLines x.short)) }

/-! ## The gate -/

/-- Gate counter `n` of the ring entry of frame `d`. -/
def gcOf (s : State) (e c d n : Nat) : BitVec 16 := tabGet 0 (gcKey e c d n) s.edge.gc

/-- Whether a gate entry holds for the ring entry of frame `d` (R269, R277). -/
def gateHolds (s : State) (e c d : Nat) (g : BitVec 64) : Bool :=
  if g.getLsbD 0 then
    let k := bitsOf g.toNat 1 14
    pegSignal s (k / 16) (k % 16)
  else (gcOf s e c d (bitsOf g.toNat 1 4)).toNat = bitsOf g.toNat 16 16

/-- Condition 2 of R72 for context `c`, whose frame is f: the gate entries of the bents of frame f. -/
def inboundOk (s : State) (c : Nat) : Bool :=
  (List.range 3).all fun e => match ctxSet s e c with
    | none => true
    | some t => (diePorts e).all fun p => match bentNow s t e c p with
        | none => true
        | some b => b.gates.all (gateHolds s e c ((raising s c).frame.toNat + 1))

/-- The partner's last reported frame on port `p` for context `c` (R75). -/
def partnerFrame (s : State) (p c : Nat) : Nat := (tabGet 0 (p * 256 + c) s.edge.partner).toNat

/-- The frame number nearest to `f` whose low 8 bits are `b` (R292). -/
def nearFrame (f b : Nat) : Nat :=
  let d := (b + 256 - f % 256) % 256
  if d < 128 then f + d else if 256 ≤ f + d then f + d - 256 else f + d

/-- A partner's frame report. -/
def noteReport (s : State) (p c b : Nat) : State :=
  { s with edge.partner :=
      tabSet 0 (p * 256 + c) (BitVec.ofNat 64 (nearFrame (raising s c).frame.toNat b)) s.edge.partner }

/-- Condition 3 of R72: the lead rule of R75 for what frame f + 1 would send to a direct partner
(R278). -/
def leadOk (s : State) (c : Nat) : Bool :=
  let f := (raising s c).frame.toNat + 1
  (List.range 3).all fun e => match ctxSet s e c with
    | none => true
    | some t => (diePorts e).all fun p => match bentAhead s t e c p 1 with
        | none => true
        | some b => b.slots.all fun x => x.mhop || f + x.dueOfs.toNat ≤ partnerFrame s p c + 3

/-- Whether the bucket of context `c`'s present step is known on an edge die: from frame 1 on, and in frame 0 once the
frame's TAKE has written BUCKET_LINE (R264). -/
def bucketKnown (s : State) (t : TableSet) (e c : Nat) : Bool :=
  (portSeqOf s e c).pos ≠ 0 ||
  s.edge.staged.any fun x => x.1 = landAddr (stageAddr s e c) t.bucketLine.toNat

/-- EXPECT of a counter for the ring entry of frame `d`, where the bents of frame d − 1 are known (log 104). -/
def expectOf (s : State) (t : TableSet) (e c d n : Nat) : Option Nat :=
  let k := d - 1 - (raising s c).frame.toNat
  if k ≠ 0 && (raising s c).began && !bucketKnown s t e c then none
  else (diePorts e).findSome? fun p => match bentAhead s t e c p k with
    | none => none
    | some b => b.gates.findSome? fun g =>
        if !g.getLsbD 0 && bitsOf g.toNat 1 4 = n then some (bitsOf g.toNat 16 16) else none

/-- A gate counter gains 1, and with PEG_EN a peg at the tick that begins frame `d` (R275). -/
def countLanding (s : State) (e c d n : Nat) (pegEn : Bool) (peg : BitVec 14) : State :=
  let s := { s with edge.gc := tabSet 0 (gcKey e c d n) (gcOf s e c d n + 1) s.edge.gc }
  if pegEn then
    { s with edge.pegWait := s.edge.pegWait ++ [{ ctx := c, due := BitVec.ofNat 32 d, peg := peg }] }
  else s

/-! ## Combining -/

/-- One element of a combine step (R194). -/
def combineElem (fmt x y : Nat) : Nat :=
  let f := if fmt = 0 then fp32 else if fmt = 1 then bf16 else fp16
  fencode f .even (faddV .even (fdecode f x) (fdecode f y))

/-- A combine step over `n` bytes: each hold element added to the target element. -/
def combineBytes (fmt n target hold : Nat) : Nat :=
  let w := if fmt = 0 then 32 else 16
  (List.range (8 * n / w)).foldl (fun acc i =>
    acc + combineElem fmt (bitsOf target (w * i) w) (bitsOf hold (w * i) w) <<< (w * i)) 0

end Machine
end Sys2Proof
end

