-- ==== Sys2Proof/Machine/Leashed.lean ====
section
/-! DEFINITION. Leashed traffic at the edge dies: sends, lanes, table sets and their pages (R261 to
R272, R276, R285, R286). -/
namespace Sys2Proof.Machine
open Sys2Proof

/-! ## Sending (R271) -/

/-- The context whose frame of contents port `p` serves now, with its set and the port's bent. -/
def servedBent (s : State) (p : Nat) : Option (Nat × TableSet × PortBent) :=
  match partOfPort s p with
  | none => none
  | some q =>
    match (part s q).run with
    | none => none
    | some c =>
      if (part s q).kind ≠ .contents then none
      else match ctxSet s (p / 16) c with
        | none => none
        | some t => if t.ports.getLsbD p then (bentNow s t (p / 16) c p).map fun b => (c, t, b) else none

/-- The cycle in which a unit that starts at period `n` after the tick begins. -/
def unitCycle (s : State) (e n : Nat) : Nat := s.clu.tickCyc + (n - stretchesOf s (64 + e))

/-- At its slot start a slot entry originates its packet, or is deferred (R271). A unit carries one
packet in a tick period. -/
def slotSend (s : State) (p : Nat) (short : Bool) (slot : BitVec 11) : State :=
  let s := advance s (unitCycle s (p / 16) (unitStart short slot.toNat))
  match servedBent s p with
  | none => s
  | some (c, t, b) =>
    match slotEntry b short slot with
    | none => s
    | some x =>
      let key := (p, short, slot.toNat)
      if s.edge.sent.contains key then s
      else
        let e := p / 16
        let f := (raising s c).frame
        let s := { s with edge.sent := s.edge.sent ++ [key] }
        let deadline := (part s (ctx s c).part).origin + unitStart short slot.toNat
        let late := 8 + frameLen s / 32
        let miss := if deadline < late then (List.range (packetLines x.short)).filterMap fun i =>
              if takeWrites s t e c (x.stage.toNat + i) then
                some (landAddr (stageAddr s e c) (x.stage.toNat + i)) else none
            else missingLines s t e c x (deadline - late)
        if miss.isEmpty then sendLeashed s p c (slotUnit short slot.toNat) (originate s e c x f)
        else
          let d : Deferred := { ctx := c, ent := x, frame := f, lines := missingLines s t e c x s.clu.cyc }
          { s with edge.deferred := tabMod [] p (fun l => l ++ [d]) s.edge.deferred }

/-- LEASHED_SEND (R271). -/
def execLeashedSend (p : Fin 48) (short : Bool) (slot : BitVec 11) (s : State) :
    Host.Outcome State Fault Refusal := .next (slotSend s p.val short slot)

/-- Whether a deferred send's buffer is complete. -/
def deferredReady (s : State) (d : Deferred) : Bool :=
  d.lines.all fun a => s.edge.staged.any fun x => x.1 = a

/-- The first deferred send of a port whose last line is written becomes a late packet (R271). -/
def deferredSend (s : State) (p : Nat) : State :=
  let l := tabGet [] p s.edge.deferred
  match l.find? (deferredReady s) with
  | none => s
  | some d =>
    let s := { s with edge.deferred := tabSet [] p (l.erase d) s.edge.deferred }
    let x := originate s (p / 16) d.ctx d.ent d.frame
    if leashUp s p d.ctx then lateAdd s p d.ctx x else divert s p d.ctx x

/-- DEFERRED_SEND (R271). -/
def execDeferredSend (p : Fin 48) (s : State) : Host.Outcome State Fault Refusal :=
  .next (deferredSend s p.val)

/-! ## Classes of units (R316) -/

/-- What a unit may carry: commands only, run-time loose traffic, anything that waits, or its own packet. -/
inductive UnitClass where | reserved | unclaimed | empty | own
deriving DecidableEq, Repr

/-- The slot entry that the bent of port `p` has for a unit. -/
def bentEntry (s : State) (p : Nat) (short : Bool) (slot : BitVec 11) : Option SlotEntry :=
  (portCtx s p).bind fun c => (ctxSet s (p / 16) c).bind fun t =>
    (bentNow s t (p / 16) c p).bind fun b => slotEntry b short slot

/-- Whether a unit's own packet has still to be handled in this tick period. -/
def ownWaits (s : State) (p : Nat) (short : Bool) (slot : BitVec 11) : Bool :=
  (match servedBent s p with
   | some (_, _, b) => (slotEntry b short slot).isSome
   | none => false) && !s.edge.sent.contains (p, short, slot.toNat)

/-- Whether a forward entry of a running set reserves loose slot `j` of port `p` (R274). An entry does not say which of its
packets are short, so its OUT_SLOT is reserved as both (log 23). -/
def fwdClaims (s : State) (p j : Nat) : Bool :=
  (List.range 12).any fun i =>
    let t := tabGet SetSt.init i s.edge.sets
    t.state = .running && t.tables.fwd.any fun f =>
      bitsOf f.2.2.toNat 0 3 = 1 && bitsOf f.2.2.toNat 3 6 = p && bitsOf f.2.2.toNat 25 11 = j

/-- The class of a unit of port `p` (R260, R261, R274, R316). -/
def unitClass (s : State) (p : Nat) : PortUnit → UnitClass
  | .allowance => .empty
  | .data k => if ownWaits s p false k then .own else .empty
  | .loose j =>
    if reservedSlot s.time.frameLog2 j.toNat then .reserved
    else if (bentEntry s p true (j.setWidth 11)).isNone && !fwdClaims s p j.toNat then .unclaimed
    else if ownWaits s p true (j.setWidth 11) then .own
    else .empty

/-- The units of a port's frame in order of start (R259). -/
def frameUnits (s : State) : List PortUnit :=
  ((List.range (frameLen s / 256)).flatMap fun g => (List.range 4).flatMap fun i =>
    ((List.range (if i = 3 then 7 else 6)).map fun r => PortUnit.data (BitVec.ofNat 11 (25 * g + 6 * i + r))) ++
      [PortUnit.loose (BitVec.ofNat 8 (4 * g + i))]) ++ [.allowance]

/-- The tick-clock period of the tick period that an edge die is in. -/
def periodPos (s : State) (e : Nat) : Nat := s.clu.cyc - s.clu.tickCyc + stretchesOf s (64 + e)

/-- Whether a unit can still take a frame of `n` bytes that begins in period `t` or later (R290). -/
def unitOpen (s : State) (p t n : Nat) (u : PortUnit) : Bool :=
  n ≤ unitRoom s p u &&
    (t ≤ unitNext s p u || (u = .allowance && t * 64250 + 544 * n ≤ 544 * linkBytes s))

/-- The first unit from period `t` on that can take a frame of `n` bytes of no class of R316: no reserved loose slot, and
none whose own packet is still to come (log 124). -/
def freeUnit (s : State) (p t n : Nat) : Option PortUnit :=
  (frameUnits s).find? fun u => unitOpen s p t n u && (unitClass s p u = .unclaimed || unitClass s p u = .empty)

/-- A TRAIN or KEY frame goes out in the first unit that can take it, from `d` periods after the present one on (R290); where
none of the tick period can, it goes in one of the next (log 124). -/
def sendPlaced (s : State) (p kind d : Nat) (body : List Byte) : State :=
  let n := 50 + body.length
  let t := sendFrame s p kind body.length false 0 body
  match freeUnit s p (periodPos s (p / 16) + d) n with
  | some u => carry t p u n
  | none => t

/-- Send a TRAIN frame (R293, R295): its 14-byte body. -/
def sendTrain (s : State) (p : Nat) (body : Nat) : State := sendPlaced s p 6 0 (natBytes 14 body)

/-- Bytes of a loose packet or of a command on the wire (R311, R314). -/
def looseBytes (len : Nat) : Nat := 72 + min len 64

/-- One copy each of some queued commands, while they fit in a unit; what is still to be sent of them (R315). -/
def sendCmds (p : Nat) (u : PortUnit) : List (CmdFrame × Nat) → State → State × List (CmdFrame × Nat)
  | [], s => (s, [])
  | (f, n) :: t, s =>
    if looseBytes (cBodyLen f) ≤ unitRoom s p u then
      let s := sendFrame s p 4 0 false f.hdr (natBytes (cBodyLen f) f.body.toNat)
      let r := sendCmds p u t (carry s p u (looseBytes (cBodyLen f)))
      (r.1, if n ≤ 1 then r.2 else (f, n - 1) :: r.2)
    else (s, (f, n) :: t)

/-- Bytes of a replay entry on the wire. -/
def entBytes (x : ReplayEnt) : Nat := if x.kind = 3 then looseBytes x.body.length else packetBytes (x.kind = 2)

/-- The entry that a replay of port `p` sends next. -/
def replayNext (s : State) (p : Nat) : Option ReplayEnt :=
  if (linkOf s p).replaying then (linkOf s p).rbuf[(linkOf s p).replayPos]? else none

/-- Whether the replay that port `p` owes takes a unit: its next entry fits (R301). -/
def replayFits (s : State) (p : Nat) (u : PortUnit) : Bool := (replayNext s p).any fun x => entBytes x ≤ unitRoom s p u

/-- An entry is sent again, with REPLAY set; a leashed one is a late packet (R261, R285, R301). The replay ends with the
last entry of the buffer. -/
def resend (s : State) (p : Nat) (x : ReplayEnt) : State :=
  let s := sendFrame s p x.kind.toNat x.seq.toNat true x.ext x.body
  let k := linkOf s p
  let more : Bool := k.replayPos + 1 < k.rbuf.length
  let s := setLink s p { k with replaying := more, replayPos := if more then k.replayPos + 1 else 0 }
  let s := cntAdd s (pgPrt p + 0x9C) 1
  if x.kind = 3 then s else cntAdd s (pgSlt (p / 16) + 0x48) 1

/-- A replay goes on in a unit, as far as its next entries fit: in any unit but a reserved loose slot, also one whose own
packet is then made late (R301, R316). -/
def replayUnit (p : Nat) (u : PortUnit) : Nat → State → State
  | 0, s => s
  | n + 1, s =>
    match replayNext s p with
    | none => s
    | some x =>
      if entBytes x ≤ unitRoom s p u && unitClass s p u ≠ .reserved then replayUnit p u n (carry (resend s p x) p u (entBytes x))
      else s

/-- Most entries of a replay buffer (R300). -/
def rbufMax : Nat := 1024

/-- The queued commands go first in a unit that they may use, a copy each (R315, R316). -/
def sendQueued (s : State) (p : Nat) (u : PortUnit) : State :=
  if !portUp s p || unitClass s p u = .own || (unitClass s p u ≠ .reserved && replayFits s p u) then s
  else
    let r := sendCmds p u (tabGet [] p s.loose.cmdq) s
    { r.1 with loose.cmdq := tabSet [] p r.2 r.1.loose.cmdq }

/-- Whether the first late packet of a port may leave in a unit (R261, R316). -/
def lateFits (s : State) (p : Nat) (u : PortUnit) : Bool :=
  match tabGet [] p s.edge.late with
  | [] => false
  | x :: _ => unitClass s p u = .empty && fitsUnit s p u x

/-- The first late packet of a port leaves in a unit (R261). -/
def lateSend (s : State) (p : Nat) (u : PortUnit) : State :=
  match tabGet [] p s.edge.late with
  | [] => s
  | x :: t =>
    if lateFits s p u then
      sendIn (cntAdd { s with edge.late := tabSet [] p t s.edge.late } (pgSlt (p / 16) + 0x48) 1) p u x
    else s

/-- LATE_PACKET_SEND: a unit of a port takes its first late packet, after a replay and the commands that wait (R261,
R316). -/
def execLatePacketSend (u : UnitStart) (s : State) : Host.Outcome State Fault Refusal :=
  .next (lateSend (sendQueued (replayUnit u.port.val u.unit rbufMax s) u.port.val u.unit) u.port.val u.unit)

/-! ## Lanes (R268) -/

/-- One move of a lane entry, at edge position `pos` of the frame of the partition that owns the lane.
The entry is one of the bents that the die runs (log 21). -/
def laneMove (s : State) (e : Nat) (pos : Nat) (x : BitVec 64) : State :=
  let k := laneLink x
  match edgeLanePart s e k (laneNo x) with
  | none => s
  | some q =>
    match (part s q).run with
    | none => s
    | some c =>
      if !issues (part s q).kind || !laneGood e x || pos < lanePos x || lanePos x + laneRun x < pos then s
      else
        let t := max s.clu.cyc ((part s q).origin + pos)
        let s := advance s t
        let line := laneLine x + (pos - lanePos x)
        let a := laneArea s e c x
        let act := if laneDir x
          then Act.edgeRead (BitVec.ofNat 3 k) (BitVec.ofNat 5 (laneNo x)) a line
          else Act.edgeTake (BitVec.ofNat 3 k) (BitVec.ofNat 5 (laneNo x)) a line
        pushEv s { unit := 1024 + e, slot := laneGroup s e c x, issue := t, stage := t, act := act }

/-- LANE_TAKE (R268). -/
def execLaneTake (e : Fin 3) (pos : BitVec 14) (ent : BitVec 64) (s : State) : Host.Outcome State Fault Refusal :=
  .next (if laneDir ent then s else laneMove s e.val pos.toNat ent)

/-- LANE_DRIVE (R268). -/
def execLaneDrive (e : Fin 3) (pos : BitVec 14) (ent : BitVec 64) (s : State) : Host.Outcome State Fault Refusal :=
  .next (if laneDir ent then laneMove s e.val pos.toNat ent else s)

/-! ## Combine steps (R276) -/

/-- Whether step `n` of a group may begin: its hold has landed, the step before has ended, and a seed is
ready. -/
def stepReady (s : State) (c : Nat) (g : Group) (due : Nat) (st : CombSt) : Bool :=
  let n := st.ended + 1
  st.waiting.any (fun w => w.1 = n) && n ≤ g.steps.toNat &&
  (n ≠ 1 || !g.seed ||
    (let ahead := (BitVec.ofNat 32 due - BitVec.ofNat 32 (raising s c).frame.toNat).toNat
     ahead = 0 || 0x80000000 ≤ ahead || (ahead = 1 && (raising s c).began &&
       g.seedPos.toNat ≤ edgePos s c s.clu.cyc)))

/-- The next step of a group in the ring entry of frame `due`, from hold to target, and what follows
the last one. -/
def combineStep (s : State) (e c gi due : Nat) : State :=
  match ctxSet s e c with
  | none => s
  | some t =>
    match t.groups[gi]? with
    | none => s
    | some g =>
      let k := combKey e c due gi
      let st := tabGet { waiting := [], ended := 0 } k s.edge.comb
      if !stepReady s c g due st then s
      else
        match st.waiting.find? fun w => w.1 = st.ended + 1 with
        | none => s
        | some w =>
          let n := 64 * packetLines g.short
          let ring := ringAddr s e c due
          let hold := memNat s.edge.landing (landAddr ring w.2) n
          let ta := landAddr ring g.target.toNat
          let v := if w.1 = 1 && !g.seed then hold
            else combineBytes g.fmt.toNat n (memNat s.edge.landing ta n) hold
          let st' : CombSt := { waiting := st.waiting.erase w, ended := w.1 }
          let s := { countEv s (pgLnd e) (some (ctx s c).part) .line (packetLines g.short) with
            edge.landing := memWrite s.edge.landing ta n v
            edge.comb := tabSet { waiting := [], ended := 0 } k st' s.edge.comb }
          let s := cntAdd s (bankKey (pgLnd e + 0x50) c) 1
          if w.1 = g.steps.toNat then countLanding s e c due g.counter.toNat g.pegEn g.peg else s

/-- COMBINE_STEP (R276). -/
def execCombineStep (e : Fin 3) (c : Fin 256) (g : BitVec 11) (due : BitVec 32) (s : State) :
    Host.Outcome State Fault Refusal := .next (combineStep s e.val c.val g.toNat due.toNat)

/-! ## Table sets (R263, R285) -/

/-- The context that a set's RAISE_ID names. -/
def raiseCtx (s : State) (rid : Nat) : Option Nat :=
  (ctxList s).find? fun c => ctxHolds s c && ((raising s c).raiseId.toNat = rid ||
    (match (ctx s c).succ with | some r => r.raiseId.toNat = rid | none => false))

/-- Whether slot entries stand in strictly ascending order of (SHORT, SLOT) (R266). -/
def slotsRise : List SlotEntry → Bool
  | x :: y :: t => (2048 * b2n x.short + x.slot.toNat < 2048 * b2n y.short + y.slot.toNat) && slotsRise (y :: t)
  | _ => true

/-- Whether lane entries stand in ascending order of POS. -/
def lanesRise : List (BitVec 64) → Bool
  | x :: y :: t => lanePos x ≤ lanePos y && lanesRise (y :: t)
  | _ => true

/-- Whether a slot entry keeps R260 and R267. -/
def slotGood (s : State) (stage : Nat) (x : SlotEntry) : Bool :=
  x.rsv = 0 && x.dueOfs ≠ 0 && (!x.mhop || x.dueOfs = 1) && x.dst.toNat < 65536 &&
  (if x.short then x.slot.toNat < looseSlots s && !reservedSlot s.time.frameLog2 x.slot.toNat
   else x.slot.toNat < dataSlots s && x.stage.toNat % 16 = 0) &&
  x.stage.toNat + packetLines x.short ≤ stage

/-- Whether a gate entry keeps R269. -/
def gateGood (g : BitVec 64) : Bool :=
  !g.getLsbD 15 && bitsOf g.toNat 32 32 = 0 &&
  (if g.getLsbD 0 then bitsOf g.toNat 16 16 = 0 else bitsOf g.toNat 5 10 = 0)

/-- Whether a forward entry keeps R273, with `ring` lines in a ring entry. An entry with ACTION 0 may hold anything
besides (log 107). -/
def fwdGood (s : State) (t : TableSet) (ring : Nat) (w : BitVec 128) : Bool :=
  let x := w.toNat
  match bitsOf x 0 3 with
  | 0 => true
  | 1 => bitsOf x 3 6 < 48 && bitsOf x 25 11 < dataSlots s && bitsOf x 40 88 = 0
  | 2 => bitsOf x 3 19 + 16 ≤ ring && bitsOf x 41 87 = 0
  | 3 => bitsOf x 41 87 = 0 &&
      (match t.groups[bitsOf x 3 11]? with
       | some g => 1 ≤ bitsOf x 14 8 && bitsOf x 14 8 ≤ g.steps.toNat &&
           bitsOf x 22 19 + packetLines g.short ≤ ring
       | none => false)
  | _ => false

/-- Whether a combine group keeps R276. -/
def groupGood (ring : Nat) (g : Group) : Bool :=
  g.rsv = 0 && g.fmt ≠ 3 && g.steps ≠ 0 && g.target.toNat + packetLines g.short ≤ ring

/-- Whether a forward entry of the set reserves the slot of an entry of port `p` (R270). -/
def slotReserved (t : TableSet) (p : Nat) (x : SlotEntry) : Bool :=
  t.fwd.any fun f => bitsOf f.2.2.toNat 0 3 = 1 && bitsOf f.2.2.toNat 3 6 = p && bitsOf f.2.2.toNat 25 11 = x.slot.toNat

/-- Whether a port bent of the set keeps R260, R266 to R270. `ring` and `stage` are the lines of the
areas. -/
def bentGood (s : State) (t : TableSet) (e p ring stage : Nat) (b : PortBent) : Bool :=
  b.rsv = 0 && slotsRise b.slots && lanesRise b.lanes && b.gates.length ≤ 16 && b.lanes.length ≤ 16384 &&
  b.slots.all (slotGood s stage) && b.gates.all gateGood &&
  (b.slots.all fun x => !slotReserved t p x) &&
  b.lanes.all fun x => laneGood e x &&
    laneLine x + laneRun x < (if laneSpace x = 0 then stage else ring)

/-- Whether the set has a port bent of an index, of which 0 is none. -/
def bentHeld (t : TableSet) (p i : Nat) : Bool := i = 0 || (bentOf t p i).isSome

/-- Whether a brace record keeps R281 within its set. -/
def braceGood (s : State) (t : TableSet) (ring : Nat) (r : BraceRec) : Bool :=
  r.rsv = 0 && 1 ≤ r.down.length && r.down.length ≤ 4 &&
  (r.map.all fun m => bentHeld t m.1.toNat m.2.1.toNat && bentHeld t m.1.toNat m.2.2.toNat) &&
  r.fwd.all fun f => fwdGood s t ring f.2.2

/-- Whether every entry of a set keeps the encodings and names only lines of areas of `ring` and `stage` lines (R10,
R263). -/
def setWithin (s : State) (e ring stage : Nat) (t : TableSet) : Bool :=
  ((List.range 48).all fun p => !t.ports.getLsbD p || p / 16 = e) &&
  (t.bents.all fun b => b.1.toNat / 16 = e && bentGood s t e b.1.toNat ring stage b.2.2) &&
  t.fwd.all (fun f => fwdGood s t ring f.2.2) && t.groups.all (groupGood ring) &&
  t.groups.length ≤ 2048 && t.braces.all (braceGood s t ring) && t.bucketLine.toNat < stage

/-- CHECK of a set (R263): it is held against the areas of the context whose raising it names. Where no raising has the
set's RAISE_ID yet, ARM holds it against them (log 22). -/
def setGood (s : State) (e rid : Nat) (t : TableSet) : Bool :=
  match raiseCtx s rid with
  | some c => setWithin s e (ringLines s e c) (stageLines s e c) t
  | none => setWithin s e (landSize / 64) (landSize / 64) t

/-- SLT registers of set `k`: SET_CFG and SET_CTRL (R285). -/
def setCfgKey (e k : Nat) : Nat := pgSlt e + 0x100 + 0x10 * k
def setCtrlKey (e k : Nat) : Nat := pgSlt e + 0x104 + 0x10 * k

/-- First page and number of pages of set `k`. -/
def setPages (s : State) (e k : Nat) : Nat × Nat :=
  (regField s (setCfgKey e k) 0 7, regField s (setCfgKey e k) 8 7)

/-- Bytes of slot-table SRAM of an edge die. -/
def slotMemSize : Nat := 0x800000

/-- The bytes of a set's pages, from offset 0. -/
def setBytes (s : State) (e k : Nat) : List Host.Cell :=
  let pg := setPages s e k
  let a := e * slotMemSize + pg.1 * 0x10000
  (s.edge.slotMem.filter fun x => a ≤ x.1 && x.1 < a + pg.2 * 0x10000).map fun x => (x.1 - a, x.2)

/-- SET_CTRL.CHECK (R263). A running set is not checked. -/
def setCheck (s : State) (e k : Nat) : State :=
  if (setOf s e k).state = .running then s
  else
    let t := Config.decodeSet (setBytes s e k)
    let pg := setPages s e k
    if pg.1 + pg.2 ≤ 128 && setGood s e (regField s (setCfgKey e k) 16 16) t then
      putSet (regPut s (setCtrlKey e k) 5 1 0) e k { state := .loaded, tables := t, ctx := none }
    else irq (regPut s (setCtrlKey e k) 5 1 1) (pgSlt e) 2

/-- SET_CHECK (R263). -/
def execSetCheck (e : Fin 3) (k : Fin 4) (s : State) : Host.Outcome State Fault Refusal :=
  .next (setCheck s e.val k.val)

/-- SET_CTRL.RELEASE: a loaded or cached set becomes empty (R285). -/
def setRelease (s : State) (e k : Nat) : State :=
  match (setOf s e k).state with
  | .loaded | .cached => putSet s e k SetSt.init
  | _ => s

/-- SET_RELEASE (R285). -/
def execSetRelease (e : Fin 3) (k : Fin 4) (s : State) : Host.Outcome State Fault Refusal :=
  .next (setRelease s e.val k.val)

/-- A write of SET_CFG (R285). -/
def setCfgWrite (s : State) (e k : Nat) (w : Word) : State :=
  let mine := (wfield w 0 7, wfield w 8 7)
  let clash := (List.range 4).any fun j => j ≠ k && winMeet mine (setPages s e j)
  if (setOf s e k).state = .running || clash then statSet s (pgSlt e) 0
  else regSet s (setCfgKey e k) (w &&& 0xFFFF7F7F)

/-- SET_CFG_WRITE (R285). -/
def execSetCfgWrite (e : Fin 3) (k : Fin 4) (w : BitVec 32) (s : State) : Host.Outcome State Fault Refusal :=
  .next (setCfgWrite s e.val k.val w)

/-! ## Landing areas (R286) -/

/-- Pages of landing SRAM that contexts may use (R262). -/
def landPages : Nat := 440

/-- The pages of context `c`'s ring and staging area on edge die `e`. -/
def ringPages (s : State) (e c : Nat) : Nat × Nat :=
  let r := regGet s (bankKey (pgLnd e + 0x44) c)
  (wfield r 0 9, 4 * wfield r 16 9)
def stagePages (s : State) (e c : Nat) : Nat × Nat :=
  let r := regGet s (bankKey (pgLnd e + 0x48) c)
  (wfield r 0 9, wfield r 16 9)

/-- Whether an area may not become context `c`'s: it holds a raising, or the area meets
another context's or the late-queue space (R286). -/
def areaRefused (s : State) (e c : Nat) (a : Nat × Nat) : Bool :=
  ctxHolds s c ||
  (a.2 ≠ 0 && landPages < a.1 + a.2) ||
  (List.range 256).any fun d => d ≠ c && (winMeet a (ringPages s e d) || winMeet a (stagePages s e d))

/-- A write of RING_CFG or STAGE_CFG of the context that CTX_SEL names. `n`: entries. -/
def areaWrite (s : State) (e o n : Nat) (w : Word) : State :=
  let c := regField s (pgLnd e + 0x40) 0 8
  if areaRefused s e c (wfield w 0 9, n * wfield w 16 9) then statSet s (pgLnd e) 0
  else regSet s (bankKey (pgLnd e + o) c) (w &&& 0x1FF01FF)

/-- RING_CFG_WRITE (R286). -/
def execRingCfgWrite (e : Fin 3) (w : BitVec 32) (s : State) : Host.Outcome State Fault Refusal :=
  .next (areaWrite s e.val 0x44 4 w)

/-- STAGE_CFG_WRITE (R286). -/
def execStageCfgWrite (e : Fin 3) (w : BitVec 32) (s : State) : Host.Outcome State Fault Refusal :=
  .next (areaWrite s e.val 0x48 1 w)

/-- Read a capture register and clear its VALID and MORE bits. -/
def captRead (s : State) (k : Nat) : State := captClear (emit s (.value (regGet s k))) k

/-- SCOLL_LAST_READ (R285). -/
def execScollLastRead (e : Fin 3) (s : State) : Host.Outcome State Fault Refusal :=
  .next (captRead s (pgSlt e.val + 0x40))

/-- OVW_LAST_READ: of the context that CTX_SEL names (R286). -/
def execOvwLastRead (e : Fin 3) (s : State) : Host.Outcome State Fault Refusal :=
  .next (captRead s (bankKey (pgLnd e.val + 0x4C) (regField s (pgLnd e.val + 0x40) 0 8)))

end Sys2Proof.Machine
end

