-- ==== Sys2Proof/Machine/TimeOps.lean ====
section
/-! DEFINITION. The time base (R66, R69, R80 to R88, R479, R480), the reference inputs (R91 to R96)
and droop stretches (R89, R97 to R101). -/
namespace Sys2Proof.Machine
open Sys2Proof

/-! ## Wall time (R82) -/

/-- The 16 bytes of the format of R82 at a register key. -/
def taiRegs (s : State) (k : Nat) : Nat :=
  regNat s k + regNat s (k + 4) <<< 32 + regNat s (k + 8) <<< 64 + regNat s (k + 12) <<< 96

/-- Store the 16 bytes of the format of R82. -/
def taiSet (s : State) (k : Nat) (v : BitVec 128) : State :=
  let s := regSet (regSet s k (v.extractLsb' 0 32)) (k + 4) (v.extractLsb' 32 32)
  regSet (regSet s (k + 8) (v.extractLsb' 64 32)) (k + 12) (v.extractLsb' 96 32)

/-- The instant that 16 bytes in the format of R82 name. -/
def wallOf (x : Nat) : Int :=
  (((bitsOf x 0 64 * 1000000000 + bitsOf x 64 32) * 65536 + bitsOf x 96 16) * 2 ^ 40 : Nat)

/-! ## Time base commands -/

/-- A write to TIM.FRAME_CFG (R66, R88). -/
def frameCfgWrite (s : State) (v : Word) : State :=
  let n := wfield v 0 4
  if anyRaising s || n < 10 || 14 < n then statSet s pgTim0 0
  else regPut { s with time.pendLog2 := some n } (pgTim0 + 0x40) 0 4 n

/-- FRAME_CFG_WRITE (R66). -/
def execFrameCfgWrite (v : BitVec 32) (s : State) : Host.Outcome State Fault Refusal := .next (frameCfgWrite s v)

/-- A write to TIM.WALL_CMD: LOAD copies WALL_SET into wall time at the next tick-clock period (R82, R88). -/
def wallCmdWrite (s : State) (v : Word) : State :=
  if v.getLsbD 0 then
    let n := elapsed s + 1
    { s with time.wall := wallOf (taiRegs s (pgTim0 + 0x90)) - n * perInc s
             time.wallFrom := s.time.periods + n }
  else s

/-- WALL_CMD_LOAD (R82). -/
def execWallCmdLoad (v : BitVec 32) (s : State) : Host.Outcome State Fault Refusal := .next (wallCmdWrite s v)

/-- A write to TIM.RATE_ADJ: wall time goes on from where it is at the new rate (R82). -/
def rateAdjWrite (s : State) (v : Word) : State :=
  let n := elapsed s
  let w := wallAt s n
  let s := regSet s (pgTim0 + 0xA4) v
  { s with time.wall := w - n * perInc s }

/-- A write to TIM.DISC_CTRL (R85, R88). -/
def discCtrlWrite (s : State) (v : Word) : State :=
  let s := regPut s (pgTim0 + 0x44) 0 2 (wfield v 0 2)
  if v.getLsbD 2 then
    if anyRaising s then statSet s pgTim0 0 else { s with time.stepPend := true }
  else s

/-- DISC_CTRL_STEP (R85). -/
def execDiscCtrlStep (v : BitVec 32) (s : State) : Host.Outcome State Fault Refusal := .next (discCtrlWrite s v)

/-- A write to TIM.START_CTRL (R86, R88). A write of ARM while ARM is 1 leaves ARM and PART as they
are. -/
def startCtrlWrite (s : State) (v : Word) : State :=
  let k := pgTim0 + 0x70
  let armed := regBit s k 0
  let s := if v.getLsbD 9 then clrReg s k 0x200 else s
  if v.getLsbD 0 && armed then statSet s pgTim0 0
  else
    let s := regPut (regPut s k 4 4 (wfield v 4 4)) k 0 1 (wfield v 0 1)
    if v.getLsbD 0 then clrReg s k 0x100 else s

/-- START_CTRL_ARM (R86). -/
def execStartCtrlArm (v : BitVec 32) (s : State) : Host.Outcome State Fault Refusal := .next (startCtrlWrite s v)

/-- Whether the armed trigger lets a raising begin at this tick (R86): START_AT is reached, or had
passed when the raising was started, or the trigger has been disarmed since. -/
def triggerDue (s : State) : Bool :=
  let k := pgTim0 + 0x70
  !regBit s k 0 || regBit s k 8 ||
    wallOf (taiRegs s (pgTim0 + 0x60)) ≤ wallOf (taiRegs s (pgTim0 + 0xB0))

/-- The trigger fires (R86). -/
def triggerFire (s : State) : State :=
  let k := pgTim0 + 0x70
  if regBit s k 0 then orReg (clrReg s k 1) k 0x200 else s

/-! ## Captures (R87, R88, R480) -/

/-- The two capture pins combined: OR for rising edges, AND for falling ones (R480). -/
def captLevel (s : State) (capt pps : Bool) : Bool :=
  if regBit s (pgTim0 + 0xC0) 9 then capt && pps else capt || pps

/-- The pins reach levels at period `tp` after the latest tick; a selected edge is captured (R87). -/
def timeCapture (s : State) (capt pps : Bool) (tp : Nat) : State :=
  let k := pgTim0 + 0xC0
  let lv := captLevel s capt pps
  let edge := if regBit s k 9 then s.time.prevLevel && !lv else !s.time.prevLevel && lv
  let s := { s with time.captPin := capt, time.ppsPin := pps, time.prevLevel := lv }
  if edge && regBit s k 10 then
    if 16 ≤ s.time.capts.length then orReg s k 0x100
    else { s with time.capts := s.time.capts ++ [(taiOf (wallAt s tp), s.time.tick)] }
  else s

/-- TIME_CAPTURE (R87). -/
def execTimeCapture (capt pps : Bool) (tp : Nat) (s : State) : Host.Outcome State Fault Refusal :=
  .next (timeCapture s capt pps tp)

/-- A write to TIM.CAPT_STAT: EDGE, ENABLE and the clear of OVERFLOW; a change that starts the search
for edges takes the present level as the previous one (R480). -/
def captStatWrite (s : State) (v : Word) : State :=
  let k := pgTim0 + 0xC0
  let s := if v.getLsbD 8 then clrReg s k 0x100 else s
  let on := regBit s k 10
  let old := regBit s k 9
  let s := regPut s k 9 2 (wfield v 9 2)
  if v.getLsbD 10 && (!on || old ≠ v.getLsbD 9) then
    { s with time.prevLevel := captLevel s s.time.captPin s.time.ppsPin }
  else s

/-- CAPT_POP: any write removes the oldest capture (R88). -/
def execCaptPop (_v : BitVec 32) (s : State) : Host.Outcome State Fault Refusal :=
  .next { s with time.capts := s.time.capts.drop 1 }

/-- PPS_OUT_PULSE: PPS_OUT rises in the period `tp` in which wall time, advancing, reaches a whole
second, and stays high 100 ms (R479, R480). -/
def execPpsOutPulse (tp : Nat) (s : State) : Host.Outcome State Fault Refusal :=
  .next (if 0 < tp && s.time.wallFrom < s.time.periods + tp &&
      wallAt s (tp - 1) / secUnits < wallAt s tp / secUnits then
    let s := { s with brd.ppsUntil := s.time.periods + tp + 80000000 }
    emit s (.pulse "PPS_OUT" 80000000)
  else s)

/-! ## Reference inputs (R91 to R96) -/

/-- REF_STAT bits: VALID of an input, ACTIVE, HOLDOVER. -/
def refValid (s : State) (b : Bool) : Bool := regBit s (pgTim1 + 0x44) (b2n b)
def refActive (s : State) : Bool := regBit s (pgTim1 + 0x44) 2
def refHold (s : State) : Bool := regBit s (pgTim1 + 0x44) 3

/-- Whether REF_CTRL.SEL lets the PLL follow an input. -/
def refSelects (s : State) (b : Bool) : Bool :=
  match regField s (pgTim1 + 0x40) 0 2 with
  | 0 => !b
  | 1 => b
  | _ => true

/-- The input that SEL prefers. -/
def refPrefers (s : State) : Bool := bitOf (regField s (pgTim1 + 0x40) 0 2) 0

/-- Whether SEL is automatic. -/
def refAuto (s : State) : Bool := bitOf (regField s (pgTim1 + 0x40) 0 2) 1

/-- The PLL follows an input: a change of input is a switch (R93), and holdover ends (R94). -/
def refFollow (s : State) (b : Bool) : State :=
  let k := pgTim1 + 0x44
  let was := refActive s
  let s := if refHold s then
      -- HOLDOVER_EXPIRED falls with holdover: a DESIGN CHOICE (log 86), R94 gives no clearing of it
      regSet (clrReg s k 0x18) (pgTim1 + 0x54)
        (BitVec.ofNat 32 (satNat 32 ((s.time.periods + elapsed s - s.time.holdFrom) / 800000)))
    else s
  if was = b then s
  else irq (rawAdd (orReg (regPut s k 2 1 (b2n b)) k 0x100) (pgTim1 + 0x48) 1) pgTim1 0

/-- The PLL enters holdover (R94, R96). -/
def refHoldover (s : State) : State :=
  irq { orReg s (pgTim1 + 0x44) 8 with time.holdFrom := s.time.periods + elapsed s } pgTim1 2

/-- REF_INPUT_INVALID (R92, R93, R94, R96). -/
def execRefInputInvalid (b : Bool) (s : State) : Host.Outcome State Fault Refusal :=
  let s := clrReg s (pgTim1 + 0x44) (1 <<< b2n b)
  .next (
    if !s.time.pllOn || refHold s || refActive s ≠ b then s
    else
      let s := irq (orReg s (pgTim1 + 0x44) 0x200) pgTim1 1
      if refSelects s (!b) && refValid s (!b) then refFollow s (!b) else refHoldover s)

/-- REF_INPUT_VALID (R92, R94, R96). -/
def execRefInputValid (b : Bool) (s : State) : Host.Outcome State Fault Refusal :=
  let s := orReg s (pgTim1 + 0x44) (1 <<< b2n b)
  .next (
    if !s.time.pllOn || !refSelects s b then s
    else if refHold s then refFollow s b
    else if !refAuto s then refFollow s b
    else s)

/-- REF_REVERT: 1 s after the preferred input became valid again (R93). -/
def execRefRevert (s : State) : Host.Outcome State Fault Refusal :=
  let b := refPrefers s
  .next (
    if s.time.pllOn && refAuto s && regBit s (pgTim1 + 0x40) 2 && refValid s b && !refHold s then refFollow s b
    else s)

/-- HOLDOVER_EXPIRED: 60 s of holdover (R94). -/
def execHoldoverExpired (s : State) : Host.Outcome State Fault Refusal :=
  .next (if refHold s then orReg s (pgTim1 + 0x44) 0x10 else s)

/-- A write to TIM.REF_CTRL (R93, R96). A write of an automatic SEL while the PLL follows a valid input that
is not the preferred one does not switch: a DESIGN CHOICE (log 86), the rules give such a write no switch. -/
def refCtrlWrite (s : State) (v : Word) : State :=
  let s := regPut s (pgTim1 + 0x40) 0 3 (wfield v 0 3)
  let b := refPrefers s
  if !s.time.pllOn then s
  else if refAuto s then
    if !refHold s then s
    else if refValid s b then refFollow s b
    else if refValid s (!b) then refFollow s (!b)
    else s
  else if refValid s b then refFollow s b
  else s

/-- REF_SEL_WRITE (R96). -/
def execRefSelWrite (v : BitVec 32) (s : State) : Host.Outcome State Fault Refusal := .next (refCtrlWrite s v)

/-- PLL_START: the PLL starts on a valid input that SEL allows, the preferred one first (R95). -/
def execPllStart (s : State) : Host.Outcome State Fault Refusal :=
  let b := refPrefers s
  .next (
    if s.time.pllOn then s
    else if refSelects s b && refValid s b then
      { regPut s (pgTim1 + 0x44) 2 1 (b2n b) with time.pllOn := true }
    else if refSelects s (!b) && refValid s (!b) then
      { regPut s (pgTim1 + 0x44) 2 1 (b2n (!b)) with time.pllOn := true }
    else s)

/-! ## Droop stretches -/

/-- Stretches that a droop of `p` periods originates (R97). -/
def droopCount (p : Nat) (second : Bool) : Nat := if second then p / 2 else (p + 1) / 2

/-- Whether a domain is a region in RETAIN, which takes no stretches (R405). -/
def domainIdle (s : State) (x : Nat) : Bool := regField s (pgRgn x + 0x24) 0 2 = 2

/-- The largest lag of 4 or fewer cycles that R98 allows, as a free value (log 7). -/
def freeLag (s : State) : Nat × State :=
  let x := drawFree s 3
  (min 4 x.1.toNat, x.2)

/-- Domain `d` takes the first `k` stretches it owes, and is free again in period `free`. The lag of an echo among
them is free inside its bound (R98, R108, log 33). -/
def takeFirst (s : State) (d k : Nat) (free : Int) : State :=
  if k = 0 then s
  else
    let m := domainOf s d
    let s := cntAdd (setDomain s d { owed := m.owed.drop k, taken := m.taken + k, next := free }) (pgRgn d + 0x48) k
    if (m.owed.take k).all fun x => x.1 = d then s
    else
      let l := freeLag s
      cntMax l.2 (pgRgn d + 0x4C) l.1

/-- Every domain has taken by period `tp` what it owed by then: an echo reaches it within 4 cycles, and it takes
what it owes one per period, in consecutive periods (R98, R99). -/
def catchUp (s : State) (tp : Int) : State :=
  (List.range 67).foldl (fun s x =>
    if domainIdle s x then s
    else
      let r := takesBy s x tp
      takeFirst s x r.1 r.2) s

/-- Domain `d` comes to owe a stretch of origin `o` that begins in period `x`; it owes them in order of arrival
(R98). -/
def owe (d : Nat) (x : Nat × Int) (l : List (Nat × Int)) : List (Nat × Int) :=
  let first := fun y => decide (owedFrom d y ≤ owedFrom d x)
  l.takeWhile first ++ x :: l.dropWhile first

/-- A stretch originates in domain `d` in period `x`: every domain comes to owe it (R97, R98). A region in RETAIN
takes no stretches (R405). -/
def stretch1 (d : Nat) (s : State) (x : Int) : State :=
  (List.range 67).foldl (fun s y =>
    if domainIdle s y then s
    else setDomain s y { domainOf s y with owed := owe y (d, x) (domainOf s y).owed }) s

/-- The periods in which a droop of `p` periods from period `tp` begins stretches (R97). -/
def droopStarts (p : Nat) (second : Bool) (tp : Nat) : List Int :=
  (List.range (droopCount p second)).map fun i => ((tp + b2n second + 2 * i : Nat) : Int)

/-- A droop in domain `d` (R97, R98, R100): every period during it is a stretched one, which originates one
stretch. At its end every domain has taken what it owes by then. A region in RETAIN takes no stretches (R405). -/
def droop (s : State) (d mv p : Nat) (second : Bool) (tp : Nat) : State :=
  if domainIdle s d || mv ≤ 5 * max 2 (regField s (pgRgn d + 0x40) 0 5) then s
  else
    let st := droopStarts p second tp
    let s := cntAdd { s with time.starts := s.time.starts ++ st } (pgRgn d + 0x44) st.length
    catchUp (st.foldl (stretch1 d) s) (st.getLastD tp)

/-- DROOP_STRETCH (R97); a droop of more than 100 mV is outside R483. -/
def execDroopStretch (dom : Fin 67) (mv periods : Nat) (second : Bool) (tp : Nat) (s : State) :
    Host.Outcome State Fault Refusal :=
  if 100 < mv then .fault .beyondSupplySpec
  else .next (droop s dom.val mv periods second tp)

/-- Domain `d` takes, in period `tp` or in its first free period after that, the first stretch it still owes; an echo
does not arrive before its origin's period, and one that counts toward the next tick period is taken after the tick
(R98, R100, R108). -/
def takeStretch (s : State) (d tp : Nat) : State :=
  let s := catchUp s tp
  let m := domainOf s d
  match m.owed with
  | [] => s
  | x :: _ =>
    if domainIdle s d || (tp : Int) < x.2 || !countsNow s x.2 then s else takeFirst s d 1 (max m.next tp + 2)

/-- STRETCH_ECHO (R98): the domain takes its oldest owed stretch in period `x.tp` after the latest tick, or in
its first free period after that. -/
def execStretchEcho (x : EchoAt) (s : State) : Host.Outcome State Fault Refusal :=
  .next (takeStretch s x.dom.val x.tp)

/-- At a tick that ends a period of `n` tick-clock periods: what each domain owed of the period that ends it
has taken, what counts toward the next one it still owes (R98, R100, R108), CORR_LAST is `corr` (R101), and the
count of the tick period begins again. -/
def closeDomains (s : State) (n : Nat) (corr : Int) : State :=
  let one := fun (s : State) d =>
    let m := domainOf s d
    let late := m.owed.filter fun x => !(x.2 + 4 ≤ (n : Int))
    let s := cntAdd s (pgRgn d + 0x48) (m.owed.length - late.length)
    regSet (setDomain s d { owed := late.map fun x => (x.1, x.2 - n), taken := 0, next := max 0 (m.next - n) })
      (pgRgn d + 0x50) (BitVec.ofInt 32 corr)
  (List.range 67).foldl one s

end Sys2Proof.Machine
end

