-- ==== Sys2Proof/Machine/FaultOps.lean ====
section
/-! DEFINITION. Fault policies, the actions on faults and the fault log (R464 to R468), and the
resolution of aborts (R471). -/
namespace Sys2Proof.Machine
open Sys2Proof

/-- The policy group of a fault code; none for a fixed fault (R464). -/
def faultGroup (code : Nat) : Option Nat :=
  if code = 1 then some 0
  else if code ≤ 7 then some 1
  else if code ≤ 0xA then some 2
  else if code ≤ 0xC then some 3
  else if code ≤ 0xF then some 4
  else if code = 0x10 then some 5
  else none

/-- The action of a fault in context `c`: 0 LOG, 1 HOLD, 2 END (R465, R475). -/
def faultAction (s : State) (c code : Nat) : Nat :=
  match faultGroup code with
  | none => 2
  | some g => min 2 (regField s (pgDbgS + 0x400 + 4 * c) (2 * g) 2)

/-- The action on a record: a fault that no context is served in is logged only (R464). -/
def recAction (s : State) (f : FaultRec) : Nat :=
  match f.ctx with
  | none => 0
  | some c => faultAction s c f.code.toNat

/-- Write a fault to the log (R468). -/
def logFault (s : State) (f : FaultRec) : State :=
  let n := regField s (pgDbgS + 0x60) 0 6
  let k := pgDbgS + 0x800 + 0x10 * n
  let c := f.ctx.getD 0
  let a := recAction s f
  let fr := match f.ctx with | none => 0 | some c => (raising s c).frame.toNat
  let s := if regBit s k 31 then cntAdd s (pgDbgS + 0x64) 1 else s
  let s := regSet s k (BitVec.ofNat 32 (f.code.toNat + c <<< 16 + a <<< 24 + 0x80000000))
  let s := regSet (regSet s (k + 4) (BitVec.ofNat 32 (pageId f.page.toNat))) (k + 8) (BitVec.ofNat 32 fr)
  let s := regSet s (k + 12) f.arg
  irq (regPut s (pgDbgS + 0x60) 0 6 (n + 1)) pgDbgS 1

/-- CAUSE of a code (R354, R466). -/
def faultCause (code : Nat) : Nat := if code = 0x13 then 1 else if code = 0x14 then 2 else 5

/-- The code that FAULT_REPORT names, among those acted on with their actions (R466). -/
def reportCode (l : List (Nat × Nat)) : Nat :=
  if l.any fun x => x.1 = 0x13 then 0x13
  else if l.any fun x => x.1 = 0x14 then 0x14
  else
    let top := l.foldl (fun a x => max a x.2) 0
    (l.filter fun x => x.2 = top).foldl (fun a x => min a x.1) 0xFFFF

/-- Act on the faults of context `c` (R465, R466): END of a raising that runs or is committed, and of one that loses
its keys before that (R380); HOLD as if a HOLD with AT_FRAME 0 had taken effect. -/
def actOn (s : State) (l : List FaultRec) (c : Nat) : State :=
  let m := (l.filter fun f => f.ctx = some c).map fun f => (f.code.toNat, recAction s f)
  let top := m.foldl (fun a x => max a x.2) 0
  let code := reportCode m
  let st := (raising s c).state
  let lost := (st = .loaded || st = .prepared) && m.any fun x => x.1 = 0x15
  if top = 2 then (if ctxLive s c || lost then faultRaising s c (faultCause code) (code % 256) else s)
  else if top = 1 && ctxLive s c then
    let s := match st with
      | .running => setRaising s c { raising s c with state := .held, holdAt := none }
      | .committed => setRaising s c { raising s c with holdAt := some 0 }
      | _ => s
    let s := if isMulti s c then floodActed s 2 (raising s c).raiseId.toNat 8 0 else s
    faultReport s c (faultCause code) (code % 256)
  else s

/-- Act on the faults of list `l`; those of `wait` wait on. -/
def actThese (s : State) (l wait : List FaultRec) : State :=
  let s := l.foldl logFault { s with rai.faults := wait }
  (l.filterMap (·.ctx)).eraseDups.foldl (fun s c => actOn s l c) s

/-- Act on every fault that waits (R464). -/
def actFaults (s : State) : State := actThese s s.rai.faults []

/-- Whether a fault is one of a table or bent load in the switch frame that begins at this tick: it is acted on at the
next tick (R125, R227, R464). -/
def switchFault (s : State) (f : FaultRec) : Bool :=
  match f.ctx with
  | none => false
  | some c => (List.range 16).any fun p => (part s p).kind = .switch_ && (part s p).switchTo = some c

/-- Act on the faults that the tick itself has raised (R464). -/
def actTick (s : State) : State :=
  actThese s (s.rai.faults.filter fun f => !switchFault s f) (s.rai.faults.filter (switchFault s))

/-! ## Aborts (R471) -/

/-- A vault's initialisation, if one runs. -/
def initOf (s : State) (v : Nat) : Option InitRun := (s.vlt.init.find? fun e => e.1 = v).map (·.2)

/-- Store or end a vault's initialisation. -/
def setInit (s : State) (v : Nat) (x : Option InitRun) : State :=
  { s with vlt.init := match x with | none => tabErase v s.vlt.init | some i => tabIns v i s.vlt.init }

/-- Whether a job is the one that an abort names: a session commit of an entry, a bucket commit of a
context. With `z` it has written its last column, which latches its completion. -/
def abortNames (a : AbortReq) (z : Bool) : HostJob → Bool
  | .commit d e _ _ _ w => a.job = 1 && d = a.die && e = a.target && w = z
  | .bucket d c _ w => a.job = 2 && d = a.die && c = a.target && w = z
  | _ => false

/-- The vaults of a die. -/
def dieVaults (d : Nat) : List Nat := (List.range 64).map fun i => 64 * d + i

/-- Whether the job that an abort names is pending and has not completed. -/
def abortPending (s : State) (a : AbortReq) : Bool :=
  if a.job = 3 then a.target < 64 && (initOf s (64 * a.die + a.target)).isSome
  else (dieVaults a.die).any fun v => (hostQ s v).any fun q => abortNames a false q.job

/-- Whether the completion of the job that an abort names has been latched in this tick period (R471). -/
def abortLate (s : State) (a : AbortReq) : Bool :=
  s.rai.latched.contains a ||
    (a.job ≠ 3 && (dieVaults a.die).any fun v => (hostQ s v).any fun q => abortNames a true q.job)

/-- The host engine starts no further column of the job (R471). -/
def abortMark (s : State) (a : AbortReq) : State :=
  if a.job = 3 then
    let v := 64 * a.die + a.target
    setInit s v ((initOf s v).map fun i => { i with aborted := true })
  else (dieVaults a.die).foldl (fun s v =>
    if (hostQ s v).any (fun q => abortNames a false q.job) then
      setHostQ s v ((hostQ s v).map fun q => if abortNames a false q.job then { q with aborted := true } else q)
    else s) s

/-- A write of DBG.ABORT (R471, R476): it waits for the tick, but one that names no job that is pending, or that has
completed in this tick period, reads NONE (log 39). -/
def abortWrite (s : State) (d job target : Nat) : State :=
  let a : AbortReq := { die := d, job := BitVec.ofNat 2 job, target := target }
  if abortPending s a || abortLate s a then
    let s := if abortPending s a then abortMark s a else s
    { s with rai.aborts := s.rai.aborts ++ [a] }
  else irq (regPut s (pgDbg d + 0x74) 0 2 0) (pgDbg d) 1

/-- The job is gone: a commit's entry returns to the STATE it held before (R471). -/
def abortJob (s : State) (a : AbortReq) : State :=
  if a.job = 3 then setInit s (64 * a.die + a.target) none
  else
    let s := (dieVaults a.die).foldl (fun s v =>
      if (hostQ s v).any (fun q => abortNames a false q.job) then
        setHostQ s v ((hostQ s v).filter fun q => !abortNames a false q.job)
      else s) s
    if a.job = 1 then
      (if entState s a.die a.target = 1 then
        setBound (entSet s a.die a.target 4 1 0) a.die a.target none
       else entSet s a.die a.target 4 1 2)
    else s

/-- At the tick, exactly one of abort and completion is reported (R471). -/
def resolveAbort (s : State) (a : AbortReq) : State :=
  let pend := abortPending s a
  let s := if pend then abortJob s a else s
  irq (regPut s (pgDbg a.die + 0x74) 0 2 (if pend then 1 else 2)) (pgDbg a.die) 1

/-- Every abort of the tick period (R471); the next period has latched no completion yet. -/
def resolveAborts (s : State) : State :=
  let l := s.rai.aborts
  l.foldl resolveAbort { s with rai.aborts := [], rai.latched := [] }

/-- ABORT of a session commit (R471). -/
def execAbortSessionCommit (d : Fin 16) (target : BitVec 12) (s : State) : Host.Outcome State Fault Refusal :=
  .next (abortWrite s d.val 1 target.toNat)

/-- ABORT of a bucket commit (R471). -/
def execAbortBucketCommit (d : Fin 16) (target : BitVec 12) (s : State) : Host.Outcome State Fault Refusal :=
  .next (abortWrite s d.val 2 target.toNat)

/-- ABORT of an INIT_CTRL run (R471). -/
def execAbortInitCtrl (d : Fin 16) (target : BitVec 12) (s : State) : Host.Outcome State Fault Refusal :=
  .next (abortWrite s d.val 3 target.toNat)

end Sys2Proof.Machine
end

