-- ==== Sys2Proof/Machine/Sessions.lean ====
section
/-! DEFINITION. Session commands (R237, R240, R242, R245 to R248, R252, R255, R462, R494). -/
namespace Sys2Proof.Machine
open Sys2Proof

/-- Whether the package is a member, not the root, of context `c`'s raising, or the context replays. -/
def notRoot (s : State) (c : Nat) : Bool := ctxHolds s c && (!isRoot s c || (raising s c).replay)

/-- The first check that a COMMIT fails (R494), 0 for none. -/
def commitCheck (s : State) (d w : Nat) : Nat :=
  let e := bitsOf w 0 12
  let kind := bitsOf w 12 2
  let reason := bitsOf w 16 8
  let st := entState s d e
  let c := if kind = 1 then entNat s d e 1 1 else ((boundOf s d e).map (·.1)).getD (entNat s d e 1 1)
  let slot := entSlot s d e
  if presetState s d = 2 || presetState s d = 5 then 5
  else if kind = 0 || 2559 < e || bitsOf w 14 2 ≠ 0 || bitsOf w 24 8 ≠ 0 || (kind = 3 && 3 < reason) then 5
  else if notRoot s c then 7
  else if st = 1 || st = 3 || st = 4 then 1
  else if (kind = 1 && st ≠ 0) || (kind ≠ 1 && st ≠ 2) then 4
  else if kind = 1 && (!ctxHolds s c || (ctxClusters s c).isEmpty || hBatch (ctxImg s c).2 ≤ slot) then 5
  else if kind = 1 && ((slotHome s c slot).map fun x => x.1 / 64) ≠ some d then 6
  else if kind = 1 && slotTaken s d c slot then 2
  else if entNat s d e 0 1 ≠ 1 then 3
  else if kind = 3 then 0
  else
    let sl := if kind = 1 then slot else ((boundOf s d e).map (·.2)).getD slot
    let seq := match slotHome s c sl with
      | some (v, p) => (nextBank s c v p 0 7 40).2.1
      | none => 0
    if imageGood (imagePlain s c (sessionNo d e) seq (entImage s d e)) then 0 else 3

/-- A write of SES.COMMIT (R245). -/
def commitWrite (s : State) (d : Nat) (w : BitVec 32) : State :=
  let r := commitCheck s d w.toNat
  let s := regPut s (pgSes d + 0x44) 0 3 r
  if r ≠ 0 then irq s (pgSes d) 1
  else
    let e := bitsOf w.toNat 0 12
    let kind := bitsOf w.toNat 12 2
    let s := if kind = 1 then setBound s d e (some (entNat s d e 1 1, entSlot s d e)) else s
    match boundOf s d e with
    | none => s
    | some (c, slot) =>
      match slotHome s c slot with
      | none => s
      | some (v, _) =>
        let k : CommitKind := if kind = 1 then .bind else if kind = 2 then .update else .release
        let s := entSet s d e 4 1 (if kind = 1 then 1 else if kind = 2 then 3 else 4)
        queueJob s v (.commit d e k (w.extractLsb' 16 8) 0 false)

/-- COMMIT with KIND 1 (R245). -/
def execBind (d : Fin 16) (w : BitVec 32) (s : State) : Host.Outcome State Fault Refusal :=
  .next (onServed s (pgSes d.val) fun s => commitWrite s d.val (wset w 12 2 1))

/-- COMMIT with KIND 2 (R245). -/
def execUpdate (d : Fin 16) (w : BitVec 32) (s : State) : Host.Outcome State Fault Refusal :=
  .next (onServed s (pgSes d.val) fun s => commitWrite s d.val (wset w 12 2 2))

/-- COMMIT with KIND 3 (R245). -/
def execRelease (d : Fin 16) (w : BitVec 32) (s : State) : Host.Outcome State Fault Refusal :=
  .next (onServed s (pgSes d.val) fun s => commitWrite s d.val (wset w 12 2 3))

/-- The first check that a BUCKET_COMMIT fails (R494), 0 for none. -/
def bucketCheck (s : State) (d w : Nat) : Nat :=
  let c := bitsOf w 0 8
  if presetState s d = 2 || presetState s d = 5 then 5
  else if bitsOf w 12 20 ≠ 0 then 5
  else if notRoot s c then 7
  else if !ctxHolds s c || (ctxClusters s c).isEmpty then 5
  else if (leadVault s c).map (· / 64) ≠ some d then 6
  else if bucketPending s c then 1
  else if hBuckets (ctxImg s c).2 ≤ bitsOf w 8 4 then 5
  else 0

/-- A write of SES.BUCKET_COMMIT (R252). -/
def bucketWrite (s : State) (d : Nat) (w : BitVec 32) : State :=
  let r := bucketCheck s d w.toNat
  let s := regPut s (pgSes d + 0x4C) 0 3 r
  if r ≠ 0 then irq s (pgSes d) 1
  else
    match leadVault s (bitsOf w.toNat 0 8) with
    | none => s
    | some v => queueJob s v (.bucket d (bitsOf w.toNat 0 8) (w.extractLsb' 8 4) false)

/-- BUCKET_COMMIT (R252). -/
def execBucketCommit (d : Fin 16) (w : BitVec 32) (s : State) : Host.Outcome State Fault Refusal :=
  .next (onServed s (pgSes d.val) fun s => bucketWrite s d.val w)

/-! ## Completion -/

/-- The step that first reads a commit which completes now (R247): the next step of a raising that
has begun, step 0 of one that has not. -/
def firstRead (s : State) (c : Nat) : BitVec 64 :=
  let r := raising s c
  if r.began then r.step + 1 else 0

/-- Whether the trail recorder records (R360). -/
def trailOn (s : State) : Bool := regBit s (pgTrl + 0x40) 0 && !regBit s (pgTrl + 0x40) 1

/-- A trail record waits for the step that first reads its commit (R360). -/
def trailNote (s : State) (c : Nat) (rcd : Nat) : State :=
  if trailOn s then
    { s with rai.trail := s.rai.trail ++
        [{ ctx := c, step := firstRead s c, fresh := true, rcd := BitVec.ofNat 8192 rcd }] }
  else s

/-- A job that an abort can name has completed in this tick period (R471). -/
def noteLatched (s : State) (d job target : Nat) : State :=
  { s with rai.latched := s.rai.latched ++ [{ die := d, job := BitVec.ofNat 2 job, target := target }] }

/-- A commit (`job` 1) or bucket commit (2) of die `d` has completed (R255): counts and interrupt. -/
def noteDone (s : State) (d job target : Nat) : State :=
  noteLatched (irq (cntAdd s (pgSes d + 0x54) 1) (pgSes d) 0) d job target

/-- A session commit completes (R247). -/
def completeCommit (s : State) (d e : Nat) (k : CommitKind) (reason : BitVec 8) : State :=
  match boundOf s d e with
  | none => s
  | some (c, slot) =>
    let x := match slotHome s c slot with
      | some (v, p) => nextBank s c v p 0 7 40
      | none => (0, 0, s)
    let seq := (x.2.1 + 2 ^ 32 - 1) % 2 ^ 32
    let ck := match k with | .bind => 1 | .update => 2 | .release => 3
    let img := if k = .release then 0 else entImage s d e
    let s := trailNote s c (1 + c <<< 8 + (raising s c).raiseId.toNat <<< 16 + slot <<< 32 + ck <<< 48 +
      reason.toNat <<< 56 + seq <<< 64 + sessionNo d e <<< 96 + img <<< 1024)
    let s := entSet s d e 8 4 seq
    let s := if k = .release then
        setBound (entSet (entSet s d e 4 1 0) d e 5 1 reason.toNat) d e none
      else entSet s d e 4 1 2
    let s := noteDone s d 1 e
    let s := regSet s (pgSes d + 0x58) (BitVec.ofNat 32 (e + 0x80000000))
    { s with ses.fresh := s.ses.fresh ++ [(d, e)] }

/-- A bucket commit completes (R247, R252). -/
def completeBucket (s : State) (d c : Nat) (b : BitVec 4) : State :=
  let x := match leadVault s c with
    | some v => nextBank s c v 0 0 1 4
    | none => (0, 0, s)
  let seq := (x.2.1 + 2 ^ 32 - 1) % 2 ^ 32
  noteDone (trailNote s c (2 + c <<< 8 + (raising s c).raiseId.toNat <<< 16 + b.toNat <<< 32 + seq <<< 64)) d 2 c

/-- Whether a job has written its last column. -/
def jobDone : HostJob → Bool
  | .access _ _ => false
  | .commit _ _ _ _ _ z => z
  | .bucket _ _ _ z => z
  | .replay _ _ _ _ z => z

/-- COMMIT_COMPLETE: the first written commit of a vault completes (R247, R361). -/
def execCommitComplete (v : Fin 1024) (s : State) : Host.Outcome State Fault Refusal :=
  .next (match (hostQ s v.val).find? (fun q => jobDone q.job) with
    | none => s
    | some q =>
      let s := setHostQ s v.val ((hostQ s v.val).erase q)
      match q.job with
      | .commit d e k r _ _ => completeCommit s d e k r
      | .bucket d c b _ => completeBucket s d c b
      | .replay _ _ _ _ _ | .access _ _ => s)

/-! ## The entry window -/

/-- Whether byte `o` of an entry is an RW field (R237). -/
def entryRw (o : Nat) : Bool := o < 4 || (0x20 ≤ o && o < 0x3A0)

/-- Bytes of a window access. -/
def accBytes : AccSize → Nat
  | .b4 => 4
  | .b8 => 8
  | .b64 => 64

/-- A write of `n` bytes to the entry window of C-die `d` (R237, R444, R457); none: an error completion. -/
def entryWindowWrite (s : State) (d off n data : Nat) : Option State :=
  let e := off / 1024
  let o := off % 1024
  if 2560 ≤ e || o % n ≠ 0 || presetState s d = 4 then none
  else some (
    if entState s d e ≠ 0 && entState s d e ≠ 2 then
      (if (List.range n).any fun i => entryRw (o + i) then statSet s (pgSes d) 0 else s)
    else (List.range n).foldl (fun s i =>
      if entryRw (o + i) then entSet s d e (o + i) 1 (bitsOf data (8 * i) (if o + i = 3 then 2 else 8)) else s) s)

/-- ENTRY_WINDOW_WRITE (R237). -/
def execEntryWindowWrite (d : Fin 16) (off : BitVec 22) (size : AccSize) (data : BitVec 512) (s : State) :
    Host.Outcome State Fault Refusal :=
  .next ((entryWindowWrite s d.val off.toNat (accBytes size) data.toNat).getD (emit s (.errorDone 0)))

end Sys2Proof.Machine
end

