-- ==== Sys2Proof/Machine/TrailOps.lean ====
section
/-! DEFINITION. The trail ring, its records and replay (R360, R361, R363). -/
namespace Sys2Proof.Machine
open Sys2Proof

/-- Address of trail record `n`. -/
def trlRecord (s : State) (n : Nat) : Nat := regPair s (pgTrl + 0x44) % 2 ^ 48 + 1024 * n

/-- HEAD, TAIL and size of the trail ring. -/
def trlHead (s : State) : Nat := regField s (pgTrl + 0x50) 0 16
def trlTail (s : State) : Nat := regField s (pgTrl + 0x50) 16 16
def trlSize (s : State) : Nat := regField s (pgTrl + 0x4C) 0 16

/-- Write a record at TAIL; a full ring loses it (R360). -/
def trailWrite (s : State) (rcd : BitVec 8192) : State :=
  if ringFull (trlHead s) (trlTail s) (trlSize s) then
    irq (cntAdd (orReg s (pgTrl + 0x54) 1) (pgTrl + 0x58) 1) pgTrl 0
  else
    let t := trlTail s
    let s := carveWrites s 3 (trlRecord s t) 1024 rcd.toNat
    cntAdd (regPut s (pgTrl + 0x50) 16 16 (ringNext t (trlSize s))) (pgTrl + 0x5C) 1

/-- A record with bytes `o` to `o + n − 1` replaced. -/
def rcdSet (r : BitVec 8192) (o n x : Nat) : BitVec 8192 := BitVec.ofNat 8192 (setBits r.toNat (8 * o) (8 * n) x)

/-- Bytes of a record. -/
def rcdFld (r : BitVec 8192) (o n : Nat) : Nat := byteFld r.toNat o n

/-- A tick gives its count to the commits that completed before it: DONE_TICK of their entries (R237,
R247) and TICK of their records (R360). -/
def doneTick (s : State) : State :=
  let t := s.time.tick.toNat
  let s := s.ses.fresh.foldl (fun s x => entSet s x.1 x.2 0x10 8 t) s
  { s with
    ses.fresh := []
    rai.trail := s.rai.trail.map fun w =>
      if w.fresh then { w with fresh := false, rcd := rcdSet w.rcd 32 8 t } else w }

/-- At the tick that begins step `n` of context `c`, in frame `f`: the records of the commits that it
first reads (R360). -/
def trailStep (s : State) (c : Nat) (n f : BitVec 64) : State :=
  let now := s.rai.trail.filter fun w => w.ctx = c && w.step ≤ n
  let s := { s with rai.trail := s.rai.trail.filter fun w => !(w.ctx = c && w.step ≤ n) }
  if trailOn s then
    now.foldl (fun s w => trailWrite s (rcdSet (rcdSet w.rcd 16 8 n.toNat) 24 8 f.toNat)) s
  else s

/-- The record of a raising's frame 0 (R360). -/
def trailStart (s : State) (c : Nat) : State :=
  if trailOn s then
    let r := raising s c
    trailWrite s (BitVec.ofNat 8192 (3 + c <<< 8 + r.raiseId.toNat <<< 16 + r.startTick.toNat <<< 256 +
      r.digest.toNat <<< 320))
  else s

/-! ## Replay (R361) -/

/-- Whether a record keeps its format: a known KIND and no reserved field set. -/
def rcdGood (r : BitVec 8192) : Bool :=
  let k := rcdFld r 0 1
  rcdFld r 72 56 = 0 &&
  (if k = 1 then 1 ≤ rcdFld r 6 1 && rcdFld r 6 1 ≤ 3
   else if k = 2 then rcdFld r 4 2 < 16
   else k = 3)

/-- The steps of context `c` whose records the recorder may hand over: up to the one after the present
step. -/
def replayUpTo (s : State) (c : Nat) : Nat :=
  let r := raising s c
  if r.began then r.step.toNat + 1 else 0

/-- Queue the writing of a replayed record (R246, R361). -/
def replayQueue (s : State) (c : Nat) (r : BitVec 8192) : State :=
  let v := if rcdFld r 0 1 = 1 then (slotHome s c (rcdFld r 4 2)).map (·.1) else leadVault s c
  match v with
  | none => orReg s (pgTrl + 0x54) 4
  | some v => queueJob s v (.replay c r 0 (rcdFld r 16 8) false)

/-- Take a record off the ring. -/
def replayTake (s : State) : State :=
  cntAdd (regPut s (pgTrl + 0x50) 0 16 (ringNext (trlHead s) (trlSize s))) (pgTrl + 0x5C) 1

/-- Hand the ring's records over, as far as their steps allow (R361). A record of a context that does not replay
waits at HEAD until an ARM makes it replay. -/
def replayFeed : Nat → State → State
  | 0, s => s
  | n + 1, s =>
    if trlHead s = trlTail s || trlSize s < 2 then s
    else
      let x := carveRead s 3 (trlRecord s (trlHead s)) 16
      let r := BitVec.ofNat 8192 (x.1.getD 0)
      let c := rcdFld r 1 1
      let q := raising s c
      let st := rcdFld r 16 8
      if x.1.isNone || !rcdGood r || (q.replay && q.began && rcdFld r 0 1 ≠ 3 && st ≤ q.step.toNat) then
        replayFeed n (replayTake (orReg x.2 (pgTrl + 0x54) 4))
      else if !q.replay then s
      else if rcdFld r 0 1 = 3 then replayFeed n (replayTake x.2)
      else if st ≤ replayUpTo s c then replayFeed n (replayTake (replayQueue x.2 c r))
      else s

/-- Let the recorder hand over what it may, in replay mode. -/
def replayRun (s : State) : State :=
  if regField s (pgTrl + 0x40) 0 2 = 3 then replayFeed (trlSize s) s else s

/-- Whether the ring still holds a record of context `c` for step `n` or before that the recorder has not handed over:
one behind a record that waits (R361). -/
def replayBehind (s : State) (c n : Nat) : Bool :=
  let size := trlSize s
  2 ≤ size && regField s (pgTrl + 0x40) 0 2 = 3 &&
    (List.range ((trlTail s + size - trlHead s) % size)).any fun i =>
      let r := BitVec.ofNat 8192 (dramNat s (trlRecord s ((trlHead s + i) % size)) 1024)
      rcdGood r && rcdFld r 1 1 = c && rcdFld r 0 1 ≠ 3 && rcdFld r 16 8 ≤ n

/-- Whether a replay record of context `c` for step `n` or before has not completed (R361). -/
def replayLate (s : State) (c : Nat) (n : BitVec 64) : Bool :=
  (raising s c).replay && (replayBehind s c n.toNat || s.vlt.hostq.any fun q => q.2.any fun x =>
    match x.job with
    | .replay c' _ _ st z => c' = c && st ≤ n.toNat && !z
    | _ => false)

end Sys2Proof.Machine
end

