-- ==== Sys2Proof/Machine/FrameOps.lean ====
section
/-! DEFINITION. What a tick does to a partition (R50 to R56, R61, R71 to R78, R122, R264, R271, R275,
R282, R346, R353, R453): the end of a frame, the choice of what comes next, the beginning of a frame
of contents, and held frames. -/
namespace Sys2Proof.Machine
open Sys2Proof

/-! ## Steps and buckets -/

/-- The bucket that governs the present step (R61, R264). In a raising of several packages the edge dies
learn it at the tick that ends frame 0. -/
def govBucket (s : State) (c : Nat) : Nat :=
  let r := raising s c
  if isMulti s c && r.stepFrame = 0 then
    match (List.range 3).findSome? fun e => (ctxSet s e c).map fun t => bucketLineVal s t e c with
    | some b => if b < hBuckets (ctxImg s c).2 then b else r.bucket
    | none => r.bucket
  else r.bucket

/-- Whether the frame that context `c` began last is the last of its step. -/
def stepOver (s : State) (c : Nat) : Bool :=
  let x := ctxImg s c
  bucketFrames s x.1 x.2 (govBucket s c) ≤ (raising s c).stepFrame + 1

/-- Whether the next frame of context `c` is frame 0 of a step (R50, R53). -/
def atBoundary (s : State) (c : Nat) : Bool := !(raising s c).began || stepOver s c

/-- Whether context `c` takes its held frames for a replay record that has not completed (R361). -/
def awaitsReplay (s : State) (c : Nat) : Bool :=
  let r := raising s c
  let st := part s (ctx s c).part
  r.state = .running && st.run = some c && st.kind = .held && atBoundary s c &&
    replayLate s c (if r.began then r.step + 1 else 0)

/-- TSTAT.REPLAY_WAIT: some context waits for a record (R361, R363). -/
def replayWait (s : State) : Bool := (List.range 256).any (awaitsReplay s)

/-- The number of the next frame of context `c`. -/
def nextFrame (s : State) (c : Nat) : Nat :=
  let r := raising s c
  if r.began then r.frame.toNat + 1 else 0

/-- The bucket of a step that begins (R61): one package reads the committed bucket; several begin with
the last bucket. A recorded bucket at or above BUCKET_COUNT, left by a raising of another plan, acts as the
last bucket: a DESIGN CHOICE (log 95), the rule does not say. -/
def firstBucket (s : State) (c : Nat) (first : Bool) : Nat :=
  let n := hBuckets (ctxImg s c).2
  if isMulti s c then (if first then n - 1 else (raising s c).bucket)
  else min (recordBucket s c).1 (n - 1)

/-- The raising moves to its next frame. -/
def stepOn (s : State) (c : Nat) : State :=
  let r := raising s c
  if !r.began then
    setRaising s c { r with began := true, frame := 0, step := 0, stepFrame := 0, bucket := firstBucket s c true }
  else
    let b := govBucket s c
    if stepOver s c then
      let s := setRaising s c { r with bucket := b }
      setRaising s c { r with frame := r.frame + 1, step := r.step + 1, stepFrame := 0,
                              bucket := firstBucket s c false }
    else setRaising s c { r with frame := r.frame + 1, stepFrame := r.stepFrame + 1, bucket := b }

/-! ## Energy of a period (R398) -/

/-- S_p of the period that partition `p` is in; none of a period that runs no raising (R398). -/
def periodDecl (s : State) (p : Nat) : Nat :=
  let st := part s p
  match st.kind with
  | .contents | .held | .finish =>
    (match st.run with
     | some c =>
       let x := ctxImg s c
       declScale s (bucketField s x.1 x.2 (raising s c).bucket 16 4)
     | none => 0)
  | .switch_ => (match st.switchTo with | some c => declScale s (hEnergyMax (ctxImg s c).2) | none => 0)
  | _ => 0

/-! ## The end of a period -/

/-- Deferred sends of context `c` on port `p` at the end of its frame: those that are complete become late
packets, the others keep the lines they still wait for (R271, R272). -/
def deferredEnd (s : State) (c p : Nat) : State :=
  let l := tabGet [] p s.edge.deferred
  let own := l.filter fun d => d.ctx = c
  let keep := l.filterMap fun d =>
    if d.ctx ≠ c then some d
    else if deferredReady s d then none
    else some { d with lines := d.lines.filter fun a => !(s.edge.staged.any fun x => x.1 = a) }
  let s' := { s with edge.deferred := tabSet [] p keep s.edge.deferred }
  (own.filter (deferredReady s)).foldl (fun t d =>
    let x := originate t (p / 16) d.ctx d.ent d.frame
    if leashUp t p c then lateAdd t p c x else divert t p c x) s'

/-- Whether a landing address lies in the staging area of context `c`. -/
def inStage (s : State) (c a : Nat) : Bool :=
  let e := a / landSize
  stageAddr s e c ≤ a && a < stageAddr s e c + 64 * stageLines s e c

/-- Context `c` leaves its frame (R74, R271): deferred sends settle and the ring entry is released. -/
def frameEnd (s : State) (c : Nat) : State :=
  let s := (List.range 48).foldl (fun s p => deferredEnd s c p) s
  let s := { s with edge.staged := s.edge.staged.filter fun x => !inStage s c x.1 }
  let f := (raising s c).frame.toNat
  (List.range 3).foldl (fun s e => releaseRing s c f e) s

/-- What ends at a tick for partition `p`, which has not missed it: a frame of contents counts toward its
rotation entry's steps, an idle frame toward its frames (R453). -/
def periodEnd (s : State) (p : Nat) : State :=
  let st := part s p
  let e := periodDecl s p
  let s := setPart s p { st with lastKind := st.kind, lastEnergy := e }
  let st := part s p
  match st.kind, st.run with
  | .contents, some c | .finish, some c =>
    let fin := stepOver s c
    let s := setPart s p { st with done := if st.began && !st.idleEnt && st.entryCtx = c && fin
                                           then st.done + 1 else st.done }
    if (raising s c).began then frameEnd s c else s
  | .idle, _ => setPart s p { st with done := if st.began && st.idleEnt then st.done + 1 else st.done }
  | .switch_, _ => setPart s p { st with run := st.switchTo, switchTo := none }
  | _, _ => s

/-- Drop what is in flight in partition `p`: nothing of a frame reaches the next one (R67). -/
def dropPartition (s : State) (p : Nat) : State :=
  let mine := fun d => d < 16 && bitOf (liveDies s p) d
  let dstDie := fun x => if 128 ≤ x then (x - 128) / 64 else if x < 64 then x / 4 else 16
  let dies := (List.range 16).filter mine
  { s with
    clu.pipe := s.clu.pipe.filter fun e => !(e.unit < 1024 && mine (e.unit / 64))
    clu.lanes := s.clu.lanes.filter fun x => !mine (dstDie x.dst)
    clu.busy := tabDrop (fun k => mine (k / 512)) s.clu.busy
    vlt.cmds := tabDrop (fun v => dies.contains (v / 64)) s.vlt.cmds }

/-! ## Held frames (R73, R77, R78, R399) -/

/-- PART_GATE of partition `p` (R88). -/
def setGate (s : State) (p g : Nat) : State := regSet s (pgTim0 + 0x108 + 0x10 * p) (BitVec.ofNat 32 g)

/-- The latched conditions as cause bits of PART_GATE: INBOUND, LEAD, THIN. -/
def gateBits (st : PartSt) : Nat := 2 * b2n (!st.inbound) + 4 * b2n (!st.lead) + 8 * b2n st.thin

/-- The cause that a thinning hold adds to a held frame that has none of its own, as a commanded one (R77, R399,
log 36). -/
def thinBits (st : PartSt) : Nat := 8 * b2n st.thin

/-- A held frame of kind `k` with causes `g`: counted for the stall watchdog if a gate condition 2 or 3
failed, and for the ledger if it is a thinning hold. -/
def holdFrame (s : State) (p : Nat) (k : PeriodKind) (g : Nat) : State :=
  let st := part s p
  let s := setPart s p { st with
    kind := k
    holds := if bitsOf g 1 2 ≠ 0 then st.holds + 1 else 0
    thinRun := if bitOf g 3 then st.thinRun + 1 else 0 }
  let s := rawAdd (setGate s p (g + 16)) (pgTim0 + 0x10C + 0x10 * p) 1
  if bitOf g 3 then irq (cntAdd s (pgNrg + 0x10C + 0x10 * p) 1) pgNrg 2 else s

/-- A period without a frame. -/
def quiet (s : State) (p : Nat) (k : PeriodKind) : State :=
  let s := setPart s p { part s p with kind := k, holds := 0, thinRun := 0 }
  setGate s p 0

/-- A switch frame to context `c` (R54, R125, R227, R381): the clusters are cleared and loaded. A thinning
hold at the tick is served by it (R77). -/
def switchFrame (s : State) (p c : Nat) : State :=
  let st := part s p
  let s := if st.thin then holdFrame s p .switch_ 8 else quiet s p .switch_
  let s := setPart s p { part s p with switchTo := some c }
  let s := (partClusters s p).foldl clearCluster s
  let h := (ctxImg s c).2
  (ctxClusters s c).foldl (fun s k => loadTables (loadEntry s c k false) c k (hFeature h 0) false) s

/-! ## The beginning of a frame of contents -/

/-- Context `c`'s braces whose switch frame is reached come into force (R282). -/
def braceFrame (s : State) (c : Nat) : State :=
  let f := (raising s c).frame
  (List.range 3).foldl (fun s e =>
    match (braceOf s e c).bind (·.pending) with
    | some x =>
      if x.2 ≤ f then
        let b : BraceSt := { active := some x.1, pending := none }
        irq { s with edge.brace := tabSet none (edgeKey e c) (some b) s.edge.brace } (pgSlt e) 1
      else s
    | none => s) s

/-- The pegs of landings and combines that are due in the frame: they change with the frame's first cycle (R131,
R275). -/
def pegFrame (s : State) (c : Nat) : State :=
  let f : BitVec 32 := (raising s c).frame.setWidth 32
  let l := s.edge.pegWait.filter fun w => w.ctx = c && w.due = f
  let s := { s with edge.pegWait := s.edge.pegWait.filter fun w => !(w.ctx = c && w.due = f) }
  l.foldl (fun s w => pegArrive s w.peg.toNat s.clu.tickCyc) s

/-- Where edge die `e` is at the tick that begins a frame of context `c`: it counts the frames of a step itself. At the
tick after frame 0 it reads BUCKET_LINE, and its next step begins after the last frame of that bucket (R264). A step whose
bucket does not exist ends with the clusters' step: a DESIGN CHOICE (log 131), the rule does not say. -/
def portSeqNext (s : State) (t : TableSet) (e c : Nat) : PortSeq :=
  let q := portSeqOf s e c
  let r := raising s c
  if r.frame = 0 then PortSeq.init
  else if q.nulled then (if r.stepFrame = 0 then PortSeq.init else { q with pos := q.pos + 1 })
  else
    let b := if q.pos = 0 then bucketLineVal s t e c else q.bucket
    if q.pos = 0 && t.frames.length ≤ b then
      { pos := if r.stepFrame = 0 then 0 else 1, bucket := b, nulled := r.stepFrame ≠ 0 }
    else if q.pos + 1 < listedFrames t b then { pos := q.pos + 1, bucket := b, nulled := false }
    else PortSeq.init

/-- The edge dies place the frame in its step, and a bucket index read at or above BUCKET_COUNT is a BENT_TAG fault
(R264). -/
def edgeFrame (s : State) (c : Nat) : State :=
  (List.range 3).foldl (fun s e =>
    match ctxSet s e c with
    | none => s
    | some t =>
      let q := portSeqOf s e c
      let b := bucketLineVal s t e c
      let bad := (raising s c).frame ≠ 0 && !q.nulled && q.pos = 0 && t.frames.length ≤ b
      let s := { s with edge.portSeq := tabSet PortSeq.init (edgeKey e c) (portSeqNext s t e c) s.edge.portSeq }
      if bad then fault s 0xE (pgSlt e) 0 b (some c) else s) s

/-- Partition `p` begins the next frame of contents of context `c`, as far as no fault of the tick forbids it. -/
def frameBegun (s : State) (p c : Nat) : State :=
  let s := stepOn s c
  let s := setPart s p { part s p with kind := .contents, origin := s.clu.tickCyc, holds := 0, thinRun := 0 }
  let s := setGate s p 0
  let r := raising s c
  let s := if r.stepFrame = 0 then trailStep s c r.step r.frame else s
  let s := if r.replay && r.stepFrame = 0 then replayRun s else s
  let s := pegFrame s c
  let s := braceFrame s c
  let s := edgeFrame s c
  (partClusters s p).foldl (fun s k => if inClusterMap s c k then selectBent s c k else nullBent s k) s

/-- Raise again the faults of a frame that does not begin. -/
def refault (s : State) (l : List FaultRec) : State :=
  l.foldl (fun s f => fault s f.code.toNat f.page.toNat 0 f.arg.toNat f.ctx) s

/-- Partition `p` begins the next frame of contents of context `c`. A fault that this raises is acted on at
this tick (R464): under HOLD the tick takes a held frame, under END it begins no frame (R465, R466). -/
def beginFrame (s : State) (p c : Nat) : State :=
  let b := frameBegun s p c
  let l := b.rai.faults.drop s.rai.faults.length
  let top := l.foldl (fun a f => max a (recAction s f)) 0
  if top = 0 then b
  else if top = 1 then holdFrame (refault s l) p .held 0
  else quiet (refault s l) p .stopped

/-! ## The choice of what comes next -/

/-- Whether an instant of STOP or HOLD is reached: the context would begin a frame numbered AT_FRAME or
higher (R353). -/
def frameDue (s : State) (c : Nat) (at_ : Option (BitVec 64)) : Bool :=
  match at_ with
  | some a => a.toNat ≤ nextFrame s c
  | none => false

/-- Whether a stop of context `c` takes effect at this tick (R353, R355): a STOP that is due or meets a
raising in COMMITTED, or the switch to a committed successor. -/
def stopDue (s : State) (c : Nat) : Bool :=
  let r := raising s c
  liveState r.state &&
  ((r.stopAt.isSome && (r.state = .committed || frameDue s c r.stopAt)) ||
   (match (ctx s c).succ with
    | some q => q.state = .committed && q.stopFrame.toNat ≤ nextFrame s c
    | none => false))

/-- Whether a context may run in partition `p` (R453). -/
def runnable (s : State) (p c : Nat) : Bool := (ctx s c).part = p && ctxLive s c

/-- What partition `p` does at this tick with context `c` (R72, R346, R353). Where a command of its own
row decides the tick (RAISING_START, RESUME_TICK), the partition waits for it. -/
def serve (s : State) (p c : Nat) : State :=
  let st := part s p
  let r := raising s c
  if st.run ≠ some c then switchFrame s p c
  else
    match r.state with
    | .held =>
      if r.resumeAt.any fun t => t ≤ s.time.tick then quiet s p .none else holdFrame s p .held (thinBits st)
    | .running =>
      if frameDue s c r.holdAt then holdFrame s p .held (thinBits st)
      else if atBoundary s c && replayLate s c (if r.began then r.step + 1 else 0) then
        holdFrame (if replayWait s then s else irq s pgTrl 1) p .held (thinBits st)
      else if gateBits st ≠ 0 then holdFrame s p .held (gateBits st)
      else beginFrame s p c
    | _ => quiet s p .none

/-- The rotation entry that partition `p` takes next: entries that cannot run are skipped (R453). -/
def nextEntry (s : State) (p : Nat) : Option Nat :=
  let n := rotCount s p
  let j := (part s p).entry
  let j := if j < n then j else 0
  ((List.range n).map fun k => (j + k) % n).find? fun j =>
    let e := rotEntry s p j
    e.2.2 || runnable s p e.2.1

/-- Take the next entry of the rotation table and serve it; a table whose entries are all skipped runs
nothing (R453). -/
def takeEntry (s : State) (p : Nat) : State :=
  match nextEntry s p with
  | none => quiet s p .none
  | some j =>
    let e := rotEntry s p j
    let s := setPart s p { part s p with entry := j, entryRun := e.1, entryCtx := e.2.1, done := 0,
                                         began := true, idleEnt := e.2.2 }
    if e.2.2 then quiet s p .idle else serve s p e.2.1

/-- Whether the entry that partition `p` runs is over (R453): its RUN is complete, or its context can no
longer run. -/
def entryOver (s : State) (p : Nat) : Bool :=
  let st := part s p
  if st.idleEnt then st.entryRun ≤ st.done
  else !runnable s p st.entryCtx || (st.entryRun ≤ st.done && atBoundary s st.entryCtx)

/-- Whether context `c`'s raising spans several packages and may not share its partition (R56). -/
def spansAlone (s : State) (c : Nat) : Bool :=
  let h := (ctxImg s c).2
  2 ≤ hChips h && !hFeature h 3

/-- The live context of partition `p` that a partition without a rotation table takes next: one that may not share
its partition before any other, else the lowest-numbered (R56, R453). -/
def nextSole (s : State) (p : Nat) : Option Nat :=
  let l := (List.range 256).filter (runnable s p)
  match l.find? (spansAlone s) with
  | some c => some c
  | none => l.head?

/-- The context that a partition without a rotation table runs; it changes only at a step boundary (R53, R453). -/
def soleContext (s : State) (p : Nat) : Option Nat :=
  match (part s p).run with
  | some c =>
    if runnable s p c && (raising s c).state ≠ .committed && !atBoundary s c then some c else nextSole s p
  | none => nextSole s p

/-- Whether partition `p` is in the middle of a step of a context that no entry names. -/
def midStep (s : State) (p : Nat) : Option Nat :=
  match (part s p).run with
  | some c => if runnable s p c && (raising s c).state ≠ .committed && !atBoundary s c then some c else none
  | none => none

/-- The choice for partition `p` at a tick that it has not missed. -/
def choose (s : State) (p : Nat) : State :=
  let st := part s p
  if st.halted then holdFrame s p .held (thinBits st)
  else if st.began then
    if entryOver s p then quiet s p .none
    else if st.idleEnt then quiet s p .idle
    else serve s p st.entryCtx
  else if rotCount s p = 0 then
    (match soleContext s p with
     | some c => serve s p c
     | none => quiet s p .none)
  else
    (match midStep s p with
     | some c => serve s p c
     | none => takeEntry s p)

/-- Whether a die of partition `p` waits for its partial reset, or the thermal trip for its stop, at this
tick (R77, R416, R489). -/
def endsNow (s : State) (p : Nat) : Bool :=
  s.brd.tripNew || s.brd.presetPend.any fun d => bitOf (liveDies s p) d

/-- The context whose next frame partition `p` would begin. -/
def gateCtx (s : State) (p : Nat) : Option Nat :=
  let st := part s p
  if st.kind = .switch_ then st.switchTo else st.run

/-- Whether partition `p` stops at this tick (R77): it neither advances nor holds, and waits for the
command that says why. -/
def stopsNow (s : State) (p : Nat) : Bool :=
  match gateCtx s p with
  | some c => (endsNow s p && ctxLive s c) || stopDue s c
  | none => false

/-- Whether the thermal trip or a partial reset ends partition `p` at this tick, missed or not (R77, R416). A
STOP or a switch waits for a tick at which the next frame would begin (R353). -/
def tripsNow (s : State) (p : Nat) : Bool :=
  match gateCtx s p with
  | some c => endsNow s p && ctxLive s c
  | none => false

end Sys2Proof.Machine
end

