-- ==== Sys2Proof/Machine/LooseOps.lean ====
section
/-! DEFINITION. The loose routers (R311 to R322): headers, staging, the choice of an output, drops and
the drain state. -/
namespace Sys2Proof.Machine
open Sys2Proof

/-! ## Header fields (R311) -/

def oDst (r : LooseReq) : Nat := byteFld r.hdr.toNat 0 3
def oSrc (r : LooseReq) : Nat := byteFld r.hdr.toNat 3 3
def oOp (r : LooseReq) : Nat := bitsOf r.hdr.toNat 48 4
def oSpray (r : LooseReq) : Bool := r.hdr.getLsbD 52
def oResend (r : LooseReq) : Bool := r.hdr.getLsbD 53
def oVc (r : LooseReq) : Nat := bitsOf r.hdr.toNat 54 2
def oHops (r : LooseReq) : Nat := bitsOf r.hdr.toNat 56 6
def oAge (r : LooseReq) : Nat := byteFld r.hdr.toNat 8 1
def oStream (r : LooseReq) : BitVec 4 := r.hdr.extractLsb' 72 4
def oDefl (r : LooseReq) : Nat := bitsOf r.hdr.toNat 76 3
def oOrd (r : LooseReq) : BitVec 16 := r.hdr.extractLsb' 88 16
def oTag (r : LooseReq) : BitVec 16 := r.hdr.extractLsb' 104 16
def oLen (r : LooseReq) : Nat := bitsOf r.hdr.toNat 120 7
def oAddr (r : LooseReq) : Nat := byteFld r.hdr.toNat 16 6

/-- A header field replaced. -/
def oPut (r : LooseReq) (lo w v : Nat) : LooseReq :=
  { r with hdr := BitVec.ofNat 176 (setBits r.hdr.toNat lo w v) }

/-- Whether the packet is a request; the only other operation is CPL. -/
def oRequest (r : LooseReq) : Bool := oOp r ≠ 4

/-- Base VC of the packet's class (R319). -/
def oBase (r : LooseReq) : Nat := if oRequest r then 0 else 2

/-- The cases in which a router discards a packet (R313, R344). -/
def looseBad (r : LooseReq) : Bool :=
  let h := r.hdr.toNat
  let op := oOp r
  op = 0 || 5 < op ||
  bitsOf h 16 8 ≠ 0 || bitsOf h 40 8 ≠ 0 || bitsOf h 62 2 ≠ 0 || bitsOf h 79 9 ≠ 0 || bitsOf h 127 1 ≠ 0 ||
  (op = 1 && bitsOf h 136 40 ≠ 0) || (op = 4 && bitsOf h 132 44 ≠ 0) || (op = 5 && bitsOf h 128 48 ≠ 0) ||
  64 < oLen r ||
  (op = 2 && oLen r ≠ 0) || (op = 3 && oLen r = 0) || (op = 4 && oLen r ≠ 0 && oLen r ≠ 64) ||
  (op = 5 && oLen r ≠ 0) || (oVc r / 2 * 2 ≠ oBase r)

/-- A loose header from its fields. -/
def looseHdr (dst src op flags vc stream ord tag len addr : Nat) : BitVec 176 :=
  BitVec.ofNat 176 (dst % 2 ^ 24 + (src % 2 ^ 24) <<< 24 + (op + 16 * flags + 64 * vc) <<< 48 +
    (stream % 16) <<< 72 + (ord % 2 ^ 16) <<< 88 + (tag % 2 ^ 16) <<< 104 + (len % 128) <<< 120 +
    (addr % 2 ^ 48) <<< 128)

/-- The payload of a packet as a body. -/
def oBody (r : LooseReq) : List Byte := natBytes (oLen r) r.payload.toNat

/-! ## Staging -/

/-- A packet at the router of edge die `e`, whose first bit arrived in period `t` since package reset. -/
def stagedAt (e : Nat) (inPort : Option Nat) (t : Nat) (r : LooseReq) : Staged :=
  { die := e, inPort := inPort, inVc := BitVec.ofNat 2 (oVc r), arrived := t, escape := false, waited := false, pkt := r }

/-- Hold a packet at a router (R320). -/
def stage (s : State) (x : Staged) : State :=
  { countEv s (pgLse x.die) none .loose 1 with loose.staged := s.loose.staged ++ [x] }

/-- Hold a packet that comes to the router of edge die `e` now. -/
def stageLoose (s : State) (e : Nat) (inPort : Option Nat) (r : LooseReq) : State :=
  stage s (stagedAt e inPort (nowPeriods s) r)

/-- A packet leaves its staging; the port it came by owes a credit (R302, R320). -/
def unstage (s : State) (x : Staged) : State :=
  let s := { s with loose.staged := s.loose.staged.erase x }
  match x.inPort with
  | some p => oweCredit s p x.inVc.toNat
  | none => s

/-- A loose packet arrives on port `p`, its first bit in period `t` since package reset (R313). A discarded packet gives
its staging back. -/
def looseArrive (s : State) (p t : Nat) (r : LooseReq) : State :=
  if looseBad r then oweCredit (lseCount s (p / 16) 0x114) p (oVc r)
  else stage s (stagedAt (p / 16) (some p) t r)

/-- Loose packets held on edge die `e`: staged, or in a replay buffer of one of its ports (R322). -/
def looseHeld (s : State) (e : Nat) : Nat :=
  (s.loose.staged.filter fun x => x.die = e).length +
  (s.link.filter fun l => l.1 / 16 = e).foldl (fun a l => a + (l.2.rbuf.filter fun x => x.kind = 3).length) 0

/-- DRAIN_STAT.DRAINED of edge die `e`. -/
def drainedNow (s : State) (e : Nat) : Bool := looseHeld s e = 0

/-- LSE.CFG.PAUSE of edge die `e`. -/
def pausedNow (s : State) (e : Nat) : Bool := regBit s (pgLse e + 0x40) 0

/-! ## The choice of an output (R317 to R319) -/

/-- PORT_DIM of a port: its dimension and direction, and DATELINE. -/
def portDim (s : State) (p : Nat) : Nat := regField s (pgLse (p / 16) + 0x80 + 4 * (p % 16)) 0 4
def portDateline (s : State) (p : Nat) : Bool := regBit s (pgLse (p / 16) + 0x80 + 4 * (p % 16)) 4

/-- The VC that a packet takes on port `o` (R319). -/
def outVc (s : State) (x : Staged) (o : Nat) : Nat :=
  let b := oBase x.pkt
  let same := match x.inPort with
    | some p => x.inVc.toNat = b + 1 && portDim s p = portDim s o
    | none => false
  if portDateline s o || same then b + 1 else b

/-- Whether the partner of port `o` has room for the packet (R302). -/
def hasCredit (s : State) (x : Staged) (o : Nat) : Bool := (linkOf s o).credits.getD (outVc s x o) 0 ≠ 0

/-- Whether port `o` is usable for the packet (R318). -/
def looseUsable (s : State) (x : Staged) (o : Nat) : Bool := portUp s o && hasCredit s x o

/-- The preferred set (R318 rule 1). -/
def preferred (s : State) (x : Staged) : List Nat :=
  let c := routeCands (routeOf s x.die (oDst x.pkt))
  if oSpray x.pkt then c else ((c.find? (portUp s)).map fun p => [p]).getD []

/-- The escape port, if it is valid and UP. -/
def escapePort (s : State) (x : Staged) : Option Nat :=
  match routeEsc (routeOf s x.die (oDst x.pkt)) with
  | some p => if portUp s p then some p else none
  | none => none

/-- Periods that a packet has waited at period `t` after the latest tick. -/
def waitedFor (s : State) (x : Staged) (t : Nat) : Nat := s.time.periods + t - x.arrived

/-- DEFLECT_WAIT in tick-clock periods. -/
def deflectWait (s : State) (e : Nat) : Nat := 80 * max 1 (regField s (pgLse e + 0x58) 0 8)

/-- Whether the packet may not be deflected any more (R318 rules 2 and 3). -/
def deflectOver (s : State) (x : Staged) : Bool :=
  regField s (pgLse x.die + 0x40) 4 2 ≤ oDefl x.pkt || 32 ≤ oHops x.pkt

/-- Whether port `o` may deflect the packet at period `t` (R318 rule 2). -/
def deflects (s : State) (x : Staged) (o t : Nat) : Bool :=
  !deflectOver s x && deflectWait s x.die ≤ waitedFor s x t &&
  bitOf (regPair s (pgLse x.die + 0x48)) o && x.inPort ≠ some o && !(preferred s x).contains o

/-- How a packet may leave by port `o` at period `t`: 1 preferred, 2 deflected, 3 escape, 0 not. A rule is
tried when no port of the rules before it is usable. -/
def leavesBy (s : State) (x : Staged) (o t : Nat) : Nat :=
  if !looseUsable s x o || oDst x.pkt = nodeId s then 0
  else if x.escape then (if escapePort s x = some o then 3 else 0)
  else if (preferred s x).contains o then 1
  else if (preferred s x).any (looseUsable s x) then 0
  else if deflects s x o t then 2
  else if deflectOver s x && escapePort s x = some o then 3
  else 0

/-- AGE of a packet at period `t` (R319). -/
def ageAt (s : State) (x : Staged) (t : Nat) : Nat := min 255 (oAge x.pkt + waitedFor s x t / 800)

/-- Of the packets that may leave by port `o`, the one with the highest AGE; the earliest arrival breaks a
tie (R319). -/
def pickLoose (s : State) (l : List Staged) (t : Nat) : Option Staged :=
  l.foldl (fun best x => match best with
    | none => some x
    | some b => if ageAt s b t < ageAt s x t || (ageAt s b t = ageAt s x t && x.arrived < b.arrived) then some x
        else best) none

/-! ## Units of a packet (R316, R320) -/

/-- Links between edge dies that a packet of edge die `e` crosses to port `o` (R18, R274, R320). -/
def edgeHops (e o : Nat) : Nat := max e (o / 16) - min e (o / 16)

/-- Periods from the first bit in to the earliest unit that may carry the packet on (R274, R320). -/
def throughTime (hops : Nat) : Nat := 56 + 32 * hops

/-- Whether a staged packet may leave in a unit of port `o` that starts at period `t` after the tick: its header is
there in time, the unit has room, and a new sequenced frame may be sent (R290, R300, R301, R320). -/
def fitsLoose (s : State) (o : Nat) (u : PortUnit) (t : Nat) (x : Staged) : Bool :=
  x.arrived + throughTime (edgeHops x.die o) ≤ s.time.periods + t &&
  looseBytes (oLen x.pkt) ≤ unitRoom s o u && seqFits s o 3

/-- A completion that a router makes for a request it drops (R321). -/
def routerCpl (s : State) (x : Staged) (status : Nat) : LooseReq :=
  { hdr := looseHdr (oSrc x.pkt) (nodeId s) 4 0 2 (oStream x.pkt).toNat 0 (oTag x.pkt).toNat 0 status, payload := 0 }

/-- Drop a packet (R321): counted, and a request gets a synthetic completion. -/
def dropLoose (s : State) (x : Staged) (count status : Nat) : State :=
  let s := lseCount (unstage s x) x.die count
  if oRequest x.pkt then stageLoose s x.die none (routerCpl s x status) else s

/-- The packet as it leaves by port `o` at period `t` (R318, R319). -/
def onwardLoose (s : State) (x : Staged) (o t how : Nat) : LooseReq :=
  let r := oPut (oPut (oPut x.pkt 54 2 (outVc s x o)) 56 6 (oHops x.pkt + 1)) 64 8 (min 255 (ageAt s x t + 1))
  if how = 2 then oPut r 76 3 (oDefl r + 1) else r

/-- A packet leaves by port `o` in a unit (R302, R318 to R320). -/
def sendLoose (s : State) (x : Staged) (o : Nat) (u : PortUnit) (t how : Nat) : State :=
  if 63 ≤ oHops x.pkt then dropLoose s x 0x10C 10
  else
    let vc := outVc s x o
    let r := onwardLoose s x o t how
    let k := linkOf s o
    let s := setLink s o { k with credits := k.credits.set vc (k.credits.getD vc 0 - 1) }
    let s := carry (sendSeq (unstage s x) o 3 r.hdr (oBody r) vc) o u (looseBytes (oLen r))
    let s := lseCount s x.die 0x100
    let s := if how = 2 then lseCount s x.die 0x104 else if how = 3 then lseCount s x.die 0x108 else s
    cntMax s (pgLse x.die + 0x128) (oAge r)

/-- Whether a packet is unreachable (R318 rule 4). -/
def unreachable (s : State) (x : Staged) : Bool :=
  oDst x.pkt ≠ nodeId s && !(routeCands (routeOf s x.die (oDst x.pkt))).any (portUp s) && (escapePort s x).isNone

/-- Drop what edge die `e` cannot reach, and let what can no longer be deflected claim its escape port. -/
def sortStaged (s : State) (e : Nat) : State :=
  let gone := s.loose.staged.filter fun x => x.die = e && unreachable s x
  let s := gone.foldl (fun s x => dropLoose s x 0x110 9) s
  { s with loose.staged := s.loose.staged.map fun x =>
      if x.die = e && !x.escape && oDst x.pkt ≠ nodeId s && !(preferred s x).any (looseUsable s x) && deflectOver s x
      then { x with escape := true } else x }

/-! ## Units (R316) -/

/-- The staged packet that a unit takes: of those that may leave by its port, the one with the highest AGE (R318 to
R320). -/
def unitPacket (s : State) (p : Nat) (u : PortUnit) : Option Staged :=
  let t := unitNext s p u
  pickLoose s (s.loose.staged.filter fun x => fitsLoose s p u t x && leavesBy s x p t ≠ 0) t

/-- Count, once each, the packets that a unit does not take for want of credit (R302, R310). -/
def noteWaits (s : State) (p : Nat) (u : PortUnit) : State :=
  let held := fun (x : Staged) => !x.waited && fitsLoose s p u (unitNext s p u) x && oDst x.pkt ≠ nodeId s &&
    (preferred s x).contains p && !hasCredit s x p
  let n := (s.loose.staged.filter held).length
  if n = 0 then s
  else cntAdd { s with loose.staged := s.loose.staged.map fun x => if held x then { x with waited := true } else x }
    (pgPrt p + 0xAC) n

/-- The next packet of a unit, if any waits for it: in an empty unit a late one; else a loose one, outside reserved loose
slots (R316). -/
def unitFrame (s : State) (p : Nat) (u : PortUnit) : Option State :=
  match unitClass s p u with
  | .own | .reserved => none
  | .unclaimed | .empty =>
    if replayFits s p u then none
    else if lateFits s p u then some (lateSend s p u)
    else (unitPacket s p u).map fun x => sendLoose s x p u (unitNext s p u) (leavesBy s x p (unitNext s p u))

/-- Fill a unit with what waits, at most `n` packets. -/
def fillUnit (p : Nat) (u : PortUnit) : Nat → State → State
  | 0, s => s
  | n + 1, s => match unitFrame s p u with
    | some s' => fillUnit p u n s'
    | none => s

/-- Whether a port sends frames under keys: IDLE frames go out from DELAY on (R293, R306). -/
def portKeyed (s : State) (p : Nat) : Bool :=
  portKind s p = 1 && (match (linkOf s p).state with | .delay | .ready | .up => true | _ => false)

/-- IDLE in what is left of a unit; of the allowance 136 bytes at a time (R290, R293). -/
def idleUnit (s : State) (p : Nat) (u : PortUnit) : State :=
  let n := min (if u = .allowance then 136 else 1094) (unitRoom s p u)
  if n < 64 then s else carry (sendIdle s p n) p u n

/-- One unit of a port: a replay first, then what waits for it, else IDLE (R290, R301, R316). A unit whose own packet is
still to come is left to it. -/
def serveUnit (s : State) (p : Nat) (u : PortUnit) : State :=
  if !portUp s p then (if portKeyed s p then idleUnit s p u else s)
  else if unitClass s p u = .own then replayUnit p u rbufMax s
  else
    let used := unitUsed s p u
    let s := noteWaits (fillUnit p u 2200 (sendQueued (replayUnit p u rbufMax s) p u)) p u
    if u = .allowance && used < unitUsed s p u then s else idleUnit s p u

/-- The units of edge die `e` among some, in order of start and then of port (R318). -/
def unitOrder (s : State) (e : Nat) (units : List UnitStart) : List UnitStart :=
  sortRank (fun x => 64 * unitNext s x.port.val x.unit + x.port.val) (units.filter fun x => x.port.val / 16 = e)

/-- LOOSE_FORWARD: the units that start next, in order of start (R316, R318 to R321). -/
def execLooseForward (e : Fin 3) (units : List UnitStart) (s : State) : Host.Outcome State Fault Refusal :=
  .next ((unitOrder s e.val units).foldl (fun s x => serveUnit (sortStaged s e.val) x.port.val x.unit) (sortStaged s e.val))

/-- A loose frame of `n` bytes that fails its check, its first bit in at period `start` after the tick: a copy of it that
has left by then, in a unit of this edge die, is stomped; its credit is restored (R274, R320). -/
def cutLoose (s : State) (p start n : Nat) (r : LooseReq) : State :=
  let x := stagedAt (p / 16) (some p) (s.time.periods + start) r
  let from_ := start + throughTime 0
  let units := (List.range (looseSlots s)).map (fun j => PortUnit.loose (BitVec.ofNat 8 j)) ++
    (List.range (dataSlots s)).map (fun k => PortUnit.data (BitVec.ofNat 11 k)) ++ [.allowance]
  let takes := fun (o : Nat) (u : PortUnit) =>
    let t := unitNext s o u
    from_ ≤ t && t < from_ + (n * 544 + 64249) / 64250 && leavesBy s x o t ≠ 0 && oHops r < 63 &&
    (unitClass s o u = .unclaimed || unitClass s o u = .empty) && fitsLoose s o u t x &&
    !replayFits s o u && (tabGet [] o s.loose.cmdq).isEmpty && !lateFits s o u && unitPacket (stage s x) o u = some x
  if looseBad r then s
  else match (diePorts (p / 16)).findSome? fun o => (units.find? (takes o)).map fun u => (o, u) with
    | none => s
    | some (o, u) =>
      let t := unitNext s o u
      let y := onwardLoose s x o t (leavesBy s x o t)
      let s := sendRaw s o 3 (linkOf s o).nextSeq.toNat false y.hdr (oBody y) true
      cntAdd (carry s o u (looseBytes (oLen y))) (pgSlt (o / 16) + 0x4C) 1

/-! ## Tables (R322) -/

/-- Whether a table of edge die `e` may be written. -/
def tablesOpen (s : State) (e : Nat) : Bool := pausedNow s e && drainedNow s e

/-- A write of ROUTE_HI stores the entry that ROUTE_IDX addresses. -/
def routeHiWrite (s : State) (e : Nat) (w : Word) : State :=
  if tablesOpen s e then
    let v := BitVec.ofNat 64 (regNat s (pgLse e + 0x64) + wfield w 0 3 * 0x100000000)
    let s := regSet s (pgLse e + 0x68) (w &&& 7)
    { s with loose.route := tabSet 0 (e * 65536 + regField s (pgLse e + 0x60) 0 16) v s.loose.route }
  else statSet s (pgLse e) 0

/-- ROUTE_HI_WRITE (R322). -/
def execRouteHiWrite (e : Fin 3) (w : BitVec 32) (s : State) : Host.Outcome State Fault Refusal :=
  .next (routeHiWrite s e.val w)

/-- A write of PORT_DIM. -/
def portDimWrite (s : State) (e k : Nat) (w : Word) : State :=
  if tablesOpen s e then regSet s (pgLse e + 0x80 + 4 * k) (w &&& 0x1F) else statSet s (pgLse e) 0

/-- PORT_DIM_WRITE (R322). -/
def execPortDimWrite (e : Fin 3) (k : Fin 16) (w : BitVec 32) (s : State) : Host.Outcome State Fault Refusal :=
  .next (portDimWrite s e.val k.val w)

/-- A write of DEFLECT_MASK_LO or _HI. -/
def deflectMaskWrite (s : State) (e : Nat) (hi : Bool) (w : Word) : State :=
  if tablesOpen s e then
    (if hi then regSet s (pgLse e + 0x4C) (w &&& 0xFFFF) else regSet s (pgLse e + 0x48) w)
  else statSet s (pgLse e) 0

/-- DEFLECT_MASK_WRITE (R322). -/
def execDeflectMaskWrite (e : Fin 3) (hi : Bool) (w : BitVec 32) (s : State) : Host.Outcome State Fault Refusal :=
  .next (deflectMaskWrite s e.val hi w)

/-- PAUSE: a write of LSE.CFG (R322, R328). -/
def execPause (e : Fin 3) (w : BitVec 32) (s : State) : Host.Outcome State Fault Refusal :=
  .next (regSet s (pgLse e.val + 0x40) (w &&& 0x31))

/-- DRAINED: the event that DRAINED becomes 1 (R322, R328). -/
def execDrained (e : Fin 3) (s : State) : Host.Outcome State Fault Refusal :=
  .next (if drainedNow s e.val then irq s (pgLse e.val) 0 else s)

/-! ## Retries of commands (R315) -/

/-- CMD_RETRY: a directed command whose CACK has not come is sent again; after 8 resends CMD_FAIL is set. -/
def execCmdRetry (seq : BitVec 32) (s : State) : Host.Outcome State Fault Refusal :=
  .next (match s.loose.waits.find? fun w => cSeq w.cmd = seq with
    | none => s
    | some w =>
      if w.resends < 8 then
        let l := updFirst (fun x => cSeq x.cmd = seq) (fun (x : CmdWait) => { x with resends := x.resends + 1 })
          s.loose.waits
        directOn { s with loose.waits := l } 1 w.cmd
      else
        let s := { s with loose.waits := s.loose.waits.erase w }
        irq (orReg s (pgLse 1 + 0x400) 0x80000000) (pgLse 1) 1)

/-- What a CACK does at the origin (R315). -/
def cackTake (s : State) (f : CmdFrame) : State :=
  { s with loose.waits := s.loose.waits.filter fun w => (cSeq w.cmd).toNat ≠ cBody f 0 4 }

end Sys2Proof.Machine
end

