-- ==== Sys2Proof/Machine/LinkDown.lean ====
section
/-! DEFINITION. A port that goes down (R303 to R305), and what braces do at once (R282 to R284). -/
namespace Sys2Proof.Machine
open Sys2Proof

/-- Codes of R303. -/
def downCode : DownCause → Nat
  | .timeout => 1 | .phyLock => 2 | .partner => 3 | .version => 4 | .tooLong => 5
  | .auth => 6 | .protocol => 7 | .trainTimeout => 8 | .forced => 9

/-- The contexts whose running sets name port `p` and whose raisings run. -/
def runningOn (s : State) (p : Nat) : List Nat :=
  (portCtxs s p).filter fun c => let r := (raising s c).state; r = RaiseState.running || r = RaiseState.held

/-- The duplicate window of context `c` opens on every edge die (R305). -/
def openWindows (s : State) (c : Nat) : State :=
  (List.range 3).foldl (fun s e => { s with edge.dupWin := tabSet false (edgeKey e c) true s.edge.dupWin }) s

/-- A brace of context `c` is scheduled for frame `f`; one that runs goes on until then (R282, R305). -/
def scheduleBrace (s : State) (c : Nat) (id : BitVec 16) (f : BitVec 64) : State :=
  (List.range 3).foldl (fun s e => match ctxSet s e c with
    | none => s
    | some _ =>
      let b : BraceSt := { active := (braceOf s e c).bind (·.active), pending := some (id, f) }
      { s with edge.brace := tabSet none (edgeKey e c) (some b) s.edge.brace }) (openWindows s c)

/-- BRACE_LEAD of edge die `e` (R285). -/
def braceLead (s : State) (e : Nat) : Nat := max 4 (regField s (pgSlt e + 0x54) 0 8)

/-- The search for a brace when a link of context `c`'s raising at port `p` is down: the end with the lower
node ID floods BRACE; without a match the raising takes the link-down fault (R282, R284). -/
def braceSearch (s : State) (p c : Nat) : State :=
  match ctxSet s (p / 16) c with
  | none => s
  | some t =>
    match matchBrace s t (p / 16) c with
    | none => fault s 0x14 (pgSlt (p / 16)) 0 p (some c)
    | some r =>
      if nodeId s < regField s (pgPrt p + 0x48) 0 24 then
        let f := (raising s c).frame.toNat + braceLead s (p / 16)
        let s := floodActed s 5 (raising s c).raiseId.toNat 16 (r.id.toNat + f <<< 64)
        scheduleBrace s c r.id (BitVec.ofNat 64 f)
      else s

/-- The packet of a leashed replay entry. -/
def entPacket (x : ReplayEnt) : Leashed :=
  { hdr := x.ext.setWidth 160, payload := BitVec.ofNat 8192 (bytesNat x.body) }

/-- A replay entry of a port that is down: a leashed one is diverted, a loose one goes back to the router
as a resend (R304). -/
def takeBack (s : State) (p : Nat) (x : ReplayEnt) : State :=
  if x.kind = 3 then
    let r : LooseReq := { hdr := x.ext, payload := BitVec.ofNat 512 (bytesNat x.body) }
    stageLoose s (p / 16) none (oPut r 53 1 1)
  else
    match setForRaise s p (lRaise (entPacket x).hdr) with
    | some (_, c) => divert s p c (entPacket x)
    | none => s

/-! ## Refused partners (R378) -/

/-- Tick-clock periods in 10 minutes. -/
def tenMin : Nat := 480000000000

/-- Seconds of the holdoff after an AUTH down: AUTH_HOLDOFF, or twice the latest within 10 minutes of it, up to 64. -/
def holdoffAfter (s : State) (k : Link) : Nat :=
  let base := max 1 (regField s (pgSec + 0x90) 0 8)
  match k.authAt with
  | some t => if nowPeriods s < t + tenMin then max k.holdLen (min 64 (2 * k.holdLen)) else base
  | none => base

/-- A port whose partner was refused is held off. -/
def holdOff (s : State) (p : Nat) : State :=
  let k := linkOf s p
  let n := holdoffAfter s k
  setLink s p { k with holdoff := n, holdLen := n, authAt := some (nowPeriods s) }

/-! ## Going down (R304) -/

/-- What a port holds once it is down: no keys, an empty buffer, no credits. -/
def downLink (k : Link) (code : Nat) : Link :=
  { k with
    state := .down, cause := BitVec.ofNat 4 code, keys := [], keyPhase := 0, rbuf := [], replaying := false, replayPos := 0, pcoal := false,
    credits := [0, 0, 0, 0], owed := [0, 0, 0, 0], nakSet := false, kx := KeyEx.init }

/-- The raisings that run on a port have lost it (R304). -/
def loseTo (s : State) (p : Nat) : State :=
  (runningOn s p).foldl (fun s c => { s with edge.lost := tabSet false (p * 256 + c) true s.edge.lost }) s

/-- The packets that a port held leave it: its replay buffer's and its late ones (R283, R304). -/
def emptyPort (s : State) (p : Nat) (rbuf : List ReplayEnt) : State :=
  let s := rbuf.foldl (fun s x => takeBack s p x) s
  let q := tabGet [] p s.edge.late
  q.foldl (fun s x => match setForRaise s p (lRaise x.hdr) with
    | some (_, c) => divert s p c x
    | none => s) { s with edge.late := tabSet [] p [] s.edge.late }

/-- A port goes down (R303, R304). One DOWN frame stands for those of 1 µs; it goes out while the lanes carry frames. A
port that is down already records the cause. -/
def linkDown (s : State) (p code : Nat) (frames : Bool) : State :=
  let k := linkOf s p
  match k.state with
  | .disabled => s
  | .down => setLink s p { k with cause := BitVec.ofNat 4 code }
  | _ =>
    let s := if frames && k.lanesUp then sendTrain s p (5 + code <<< 16) else s
    let s := setLink s p (downLink (linkOf s p) code)
    let s := if code = 6 then holdOff s p else s
    let s := irq (cntAdd s (pgPrt p + 0xA4) 1) (pgPrt p) 1
    let l := runningOn s p
    let s := l.foldl (fun s c => braceSearch s p c) (loseTo s p)
    emptyPort s p k.rbuf

/-- LINK_DOWN (R304). -/
def execLinkDown (p : Fin 48) (cause : DownCause) (s : State) : Host.Outcome State Fault Refusal :=
  .next (linkDown s p.val (downCode cause) (cause ≠ .phyLock))

end Sys2Proof.Machine
end

