-- ==== Sys2Proof/Machine/FrameRx.lean ====
section
/-! DEFINITION. Sequenced frames as a port receives them (R294, R298, R309), and what a leashed packet
does (R263, R273 to R276, R305). -/
namespace Sys2Proof.Machine
open Sys2Proof

/-! ## Leashed packets -/

/-- The forward entry of a ROUTE at port `p`: a brace's replacement first (R273, R283). -/
def forwardEntry (s : State) (t : TableSet) (p c route : Nat) : Nat :=
  let named := fun (f : BitVec 8 × BitVec 16 × BitVec 128) => f.1.toNat = p && f.2.1.toNat = route
  let plain := ((t.fwd.find? fun f => f.1.toNat = p && f.2.1.toNat = route).map fun f => f.2.2.toNat).getD 0
  match braceRec s t (p / 16) c with
  | some r => ((r.fwd.find? named).map fun f => f.2.2.toNat).getD plain
  | none => plain

/-- A discarded leashed packet (R257, R263, R273). -/
def stray (s : State) (p : Nat) : State := cntAdd s (pgSlt (p / 16) + 0x44) 1

/-- The frame that a DUE field names, as the distance from context `c`'s current frame modulo 2^32. -/
def dueAhead (s : State) (c : Nat) (d : BitVec 32) : Nat :=
  (d - BitVec.ofNat 32 (raising s c).frame.toNat).toNat

/-- A packet refused at landing (R275, R286). -/
def landRefused (s : State) (p c route : Nat) (window : Bool) : State :=
  let e := p / 16
  let w := route % 0x10000 + p * 0x10000 + b2n window * 0x400000
  let s := irq (firstCapt s (bankKey (pgLnd e + 0x4C) c) w) (pgLnd e) 0
  fault s 0xA (pgLnd e) 0 (w + 0x80000000) (some c)

/-- A discarded duplicate (R305). -/
def dupDiscard (s : State) (p c : Nat) (x : Leashed) (line : Nat) : Bool :=
  let e := p / 16
  let ahead := dueAhead s c (lDue x.hdr)
  tabGet false (edgeKey e c) s.edge.dupWin &&
  (ahead = 0 || 0x80000000 ≤ ahead ||
    tabGet false (landAddr (ringAddr s e c (lDue x.hdr).toNat) line / 64) s.edge.landed)

/-- Write a packet's payload at a line of its ring entry and set the LANDED bit of that line. -/
def landAt (s : State) (p c : Nat) (x : Leashed) (line : Nat) : State :=
  let a := landAddr (ringAddr s (p / 16) c (lDue x.hdr).toNat) line
  { countEv s (pgLnd (p / 16)) (some (ctx s c).part) .line (packetLines (lShort x.hdr)) with
    edge.landing := memWrite s.edge.landing a (64 * packetLines (lShort x.hdr)) x.payload.toNat
    edge.landed := tabSet false (a / 64) true s.edge.landed }

/-- What becomes of a packet that lands at a line of the ring entry of frame `d` (R275, R305). -/
inductive LandCase where | duplicate | window | above | lands (d : Nat)
deriving DecidableEq, Repr

/-- The tests of a landing: the duplicate window first, then DUE, then EXPECT of the counter that the packet is for. -/
def landCase (s : State) (t : TableSet) (p c : Nat) (x : Leashed) (line n : Nat) : LandCase :=
  let ahead := dueAhead s c (lDue x.hdr)
  let d := (raising s c).frame.toNat + ahead
  if dupDiscard s p c x line then .duplicate
  else if ahead = 0 || 3 < ahead then .window
  else match expectOf s t (p / 16) c d n with
    | some m => if m < (gcOf s (p / 16) c d n).toNat + 1 then .above else .lands d
    | none => .lands d

/-- A packet that does not land is counted or refused. -/
def notLanded (s : State) (p c : Nat) (x : Leashed) : LandCase → State
  | .duplicate => cntAdd s (pgPrt p + 0xA8) 1
  | .window => landRefused s p c (lRoute x.hdr) true
  | .above => landRefused s p c (lRoute x.hdr) false
  | .lands _ => s

/-- ACTION 2: land (R275). -/
def landPacket (s : State) (t : TableSet) (p c : Nat) (x : Leashed) (w : Nat) : State :=
  let n := bitsOf w 22 4
  match landCase s t p c x (bitsOf w 3 19) n with
  | .lands d => countLanding (landAt s p c x (bitsOf w 3 19)) (p / 16) c d n (bitOf w 26) (BitVec.ofNat 14 (bitsOf w 27 14))
  | r => notLanded s p c x r

/-- ACTION 3: a combine step lands at its hold (R275, R276). -/
def holdPacket (s : State) (t : TableSet) (p c : Nat) (x : Leashed) (w : Nat) : State :=
  let g := bitsOf w 3 11
  let line := bitsOf w 22 19
  let n := ((t.groups[g]?).map fun g => g.counter.toNat).getD 0
  match landCase s t p c x line n with
  | .lands d =>
    let s := landAt s p c x line
    let add := fun (st : CombSt) => { st with waiting := st.waiting ++ [(bitsOf w 14 8, line)] }
    { s with edge.comb := tabMod { waiting := [], ended := 0 } (combKey (p / 16) c d g) add s.edge.comb }
  | r => notLanded s p c x r

/-- Periods that `n` bytes take on the line (R258). -/
def lineTime (n : Nat) : Nat := (n * 544 + 64249) / 64250

/-- ACTION 1: forward (R274). The packet's first bit is in at period `start` after the tick. It leaves in OUT_SLOT of this
tick period if the port has that slot, it is not a reserved loose one (R260, R316) and it begins late enough, else as a
late packet (log 23); one that fails its check is stomped if its copy has begun by then. -/
def forwardPacket (s : State) (p c : Nat) (x : Leashed) (w start : Nat) (replay ok : Bool) : State :=
  let o := bitsOf w 3 6
  let y := { x with hdr := lReroute x.hdr (bitsOf w 9 16) false }
  let short := lShort x.hdr
  let k := bitsOf w 25 11
  let u := slotUnit short k
  let held := (o, k + 2048 * b2n short)
  let exists_ := if short then k < looseSlots s && !reservedSlot s.time.frameLog2 k else k < dataSlots s
  let inTime := !replay && exists_ && start + throughTime (edgeHops (p / 16) o) ≤ unitStart short k
  let taken := s.edge.fwdHeld.contains held
  let cut := inTime && !taken && leashUp s o c && fitsUnit s o u y
  let hold := fun (s : State) => { s with edge.fwdHeld := s.edge.fwdHeld ++ [held] }
  if ok then
    if cut then sendIn (hold s) o u y
    else
      let s := if taken && inTime then slotCollision s (o / 16) (o % 16) k false (some c) else s
      if leashUp s o c then lateAdd s o c y else divert s o c y
  else if cut && unitStart short k < start + lineTime (packetBytes short) + throughTime 0 then
    let s := sendRaw (hold s) o (lKind y) (linkOf s o).nextSeq.toNat false (BitVec.ofNat 176 y.hdr.toNat) (lBody y) true
    cntAdd (carry s o u (packetBytes short)) (pgSlt (o / 16) + 0x4C) 1
  else s

/-- Frame reports that a packet carries for partners whose links are down (R278). -/
def srcReports (s : State) (c : Nat) (x : Leashed) : State :=
  (List.range 48).foldl (fun s p =>
    if portKind s p = 1 && (linkOf s p).state ≠ .up && regField s (pgPrt p + 0x48) 0 24 = lSrc x.hdr &&
        (match ctxSet s (p / 16) c with | some t => t.ports.getLsbD p | none => false) then
      noteReport s p c (lSrcFrame x.hdr)
    else s) s

/-- A leashed packet accepted on port `p`, its first bit in at period `start`: discarded, forwarded, landed or held (R263,
R273). `ok` is what the check of its tail finds. -/
def leashedRx (s : State) (p : Nat) (x : Leashed) (start : Nat) (replay ok : Bool) : State :=
  if lReserved x.hdr then (if ok then stray s p else s)
  else
    match setForRaise s p (lRaise x.hdr) with
    | none => if ok then stray s p else s
    | some (t, c) =>
      let s := if ok then srcReports s c x else s
      let s := if ok && lDiverted x.hdr then
          { s with edge.dupWin := tabSet false (edgeKey (p / 16) c) true s.edge.dupWin } else s
      let w := forwardEntry s t p c (lRoute x.hdr)
      match bitsOf w 0 3 with
      | 1 => forwardPacket s p c x w start replay ok
      | 2 => if ok then landPacket s t p c x w else s
      | 3 => if ok then holdPacket s t p c x w else s
      | _ => if ok then stray s p else s

/-! ## The frame that a port finds (R290 to R294) -/

/-- A frame as the receiver reads it: its length, its link header and its kind's header, its body in plain, and what the
checks of FCS and tag find. -/
structure RxView where
  len   : Nat
  link  : BitVec 128
  ext   : BitVec 176
  plain : List Byte
  fcs   : Fcs
  tagOk : Bool
deriving DecidableEq, Repr

/-- Whether some bytes begin with the Ethernet header of the link: from the partner, once its address is known, to this
port, or to every address while HELLOs go out (R290, R291). -/
def rxHead (k : Link) (l : List Byte) : Bool :=
  let own := natBytesBE 6 k.mac.toNat
  let dst := l.take 6
  (dst = own || (k.state = .hello && dst = List.replicate 6 0xFF)) &&
  (match k.peer with | some a => (l.drop 6).take 6 = natBytesBE 6 a.toNat | none => true) &&
  (l.drop 12).take 2 = [0x9B, 0x3E]

/-- Search forward, a byte at a time, for the header (R290). -/
def rxFind (k : Link) : List Byte → Option (List Byte)
  | [] => none
  | b :: t => if rxHead k (b :: t) then some (b :: t) else rxFind k t

/-- What the FCS of a frame says; an uncorrectable codeword spoils every frame that it touches (R289, R294). -/
def rxFcs (f : RxFrame) (l : List Byte) : Fcs :=
  let n := l.length - 4
  let c := bytesNat (l.drop n)
  let good := crc32 (l.take n)
  if f.uncorr ≠ 0 || l.length < 50 then .bad
  else if c = good then .good
  else if c = 0xFFFFFFFF ^^^ good then .stomp
  else .bad

/-- Whether a tag verifies: under the key of the frame's phase; TRAIN and KEY frames from before the keys carry zeros,
which are not checked (R295, R308). -/
def rxTag (k : Link) (kind phase : Nat) (txc : Nat) (head ct tag : List Byte) : Bool :=
  if (kind = 6 || kind = 7) && (k.state = .hello || k.state = .key || k.state = .delay) && tag = List.replicate 16 0 then true
  else match linkKey k phase true with
    | some x => gcmTag (keyBytes x) (linkNonce x txc) head ct = tag
    | none => false

/-- Read a frame from its Ethernet header on. -/
def rxRead (k : Link) (f : RxFrame) (l : List Byte) : RxView :=
  let link := BitVec.ofNat 128 (bytesNat ((l.drop 14).take 16))
  let kind := bitsOf link.toNat 0 4
  let phase := bitsOf link.toNat 4 2
  let h := 30 + extBytes kind
  let ct := (l.drop h).take (l.length - h - 20)
  let txc := bitsOf link.toNat 64 64
  { len := l.length
    link := link
    ext := BitVec.ofNat 176 (bytesNat ((l.drop 30).take (extBytes kind)))
    plain := match linkKey k phase true with
      | some x => gcmCrypt (keyBytes x) (linkNonce x txc) ct
      | none => ct
    fcs := rxFcs f l
    tagOk := rxTag k kind phase txc (l.take h) ct ((l.drop (l.length - 20)).take 16) }

/-! ## The check of a frame (R294) -/

def rKind (f : RxView) : Nat := bitsOf f.link.toNat 0 4
def rPhase (f : RxView) : Nat := bitsOf f.link.toNat 4 2
def rReplay (f : RxView) : Bool := f.link.getLsbD 9
def rFrameValid (f : RxView) : Bool := f.link.getLsbD 10
def rSeq (f : RxView) : BitVec 16 := f.link.extractLsb' 16 16
def rFrame (f : RxView) : Nat := bitsOf f.link.toNat 48 8

/-- Whether the length of a frame of kind 3 or 4 agrees with its header; a length field above 64 agrees with any (R293,
R313, R314). -/
def shortAgrees (f : RxView) : Bool :=
  let n := bitsOf f.ext.toNat 120 7
  72 ≤ f.len && f.len ≤ 136 && (64 < n || f.len = 72 + n)

/-- Whether the length of a frame agrees with its kind (R293). -/
def lengthAgrees (f : RxView) : Bool :=
  match rKind f with
  | 1 => f.len = 1094
  | 2 => f.len = 134
  | 3 | 4 => shortAgrees f
  | 5 => f.len = (rSeq f).toNat + 50 && 64 ≤ f.len && f.len ≤ 1094
  | 6 => f.len = 64 && rSeq f = 14
  | 7 => f.len = (rSeq f).toNat + 50
  | _ => false

/-- Everything of R294 but the FCS. -/
def restPasses (f : RxView) : Bool :=
  f.tagOk && lengthAgrees f && bitsOf f.link.toNat 6 2 = 0 && bitsOf f.link.toNat 11 5 = 0 &&
  !f.link.getLsbD 63

/-- Whether a frame passes its check. -/
def framePasses (f : RxView) : Bool := f.fcs = .good && restPasses f

/-- Count a failed check of a frame whose first bit came in period `t` since package reset (R294, R309). -/
def countFailed (s : State) (p t : Nat) (f : RxView) : State :=
  match f.fcs with
  | .stomp => cntAdd s (pgPrt p + 0x90) 1
  | .bad => cntAdd s (pgPrt p + 0x88) 1
  | .good =>
    let s := cntAdd s (pgPrt p + 0x8C) 1
    if f.tagOk then s
    else
      let s := irq s (pgPrt p) 3
      let k := linkOf s p
      let l := (k.tagFails.filter fun x => t < x + 800000) ++ [t]
      let s := setLink s p { k with tagFails := l }
      if 16 ≤ l.length then linkDown s p 6 true else s

/-- The next header asks for a replay, unless one was asked for within 1 µs before period `t` since package reset and none
has come (R298). -/
def askReplay (s : State) (p t : Nat) : State :=
  let k := linkOf s p
  if max t (nowPeriods s) < k.nakUntil || k.state ≠ .up then s else setLink s p { k with nakSet := true }

/-- What a frame that passes its check tells the receiver besides its payload: a replay has come; a frame in the phase to
which keys moved makes the other receive key go; the partner's frame (R75, R292, R298, R308). -/
def notePassed (s : State) (p : Nat) (f : RxView) : State :=
  let k := linkOf s p
  let k := if rReplay f then { k with nakUntil := 0 } else k
  let k := if rPhase f = k.keyPhase.toNat then
      { k with keys := tabSet none (2 * ((rPhase f + 1) % 2) + 1) none k.keys } else k
  let s := setLink s p k
  match rFrameValid f, portCtx s p with
  | true, some c => noteReport s p c (rFrame f)
  | _, _ => s

/-- Pass an accepted sequenced frame on (R298). -/
def passOn (s : State) (p start : Nat) (f : RxView) (ok : Bool) : State :=
  if rKind f = 3 then
    let r : LooseReq := { hdr := f.ext, payload := BitVec.ofNat 512 (bytesNat f.plain) }
    if ok then looseArrive s p (s.time.periods + start) r else cutLoose s p start f.len r
  else leashedRx s p { hdr := f.ext.setWidth 160, payload := BitVec.ofNat 8192 (bytesNat f.plain) } start (rReplay f) ok

/-- Sequenced frames at an UP port (R298). -/
def seqRx (s : State) (p start : Nat) (f : RxView) : State :=
  let ok := framePasses f
  let e := (linkOf s p).expect
  let gap := rSeq f ≠ e && (rSeq f - e).toNat < 0x8000
  let ask := fun (s : State) => if f.fcs = .stomp && !gap then s else askReplay s p (s.time.periods + start)
  if rSeq f = e then
    let s := passOn s p start f ok
    if ok then setLink s p { linkOf s p with expect := e + 1 } else ask s
  else if !ok then ask s
  else if (e - rSeq f).toNat < 0x8000 then
    let s := cntAdd s (pgPrt p + 0xA8) 1
    setLink s p { linkOf s p with ackSent := e - 1 }
  else if gap then askReplay s p (s.time.periods + start)
  else s

/-- A frame that port `p` has found (R294, R298): its check is counted in every state in which frames are accepted. -/
def viewRx (s : State) (p start : Nat) (f : RxView) : State :=
  let ok := framePasses f
  let s := if ok then notePassed s p f else countFailed s p (s.time.periods + start) f
  if (linkOf s p).state ≠ .up then s
  else if rKind f = 1 || rKind f = 2 || rKind f = 3 then seqRx s p start f
  else if ok || f.fcs = .stomp then s
  else askReplay s p (s.time.periods + start)

/-- What comes in on port `p` up to the end of a frame (R289, R290, R294). -/
def frameRx (s : State) (p : Nat) (f : RxFrame) : State :=
  let k := linkOf s p
  if k.state = .disabled then s
  else
    let s := cntAdd (cntAdd s (pgPrt p + 0x80) f.corr) (pgPrt p + 0x84) (f.uncorr + f.markers)
    if k.state = .phy || k.state = .down then s
    else match rxFind k f.bytes with
      | none => s
      | some l => viewRx s p f.start (rxRead k f l)

/-- SEQ_FRAME_RX (R298). -/
def execSeqFrameRx (p : Fin 48) (f : RxFrame) (s : State) : Host.Outcome State Fault Refusal :=
  .next (frameRx s p.val f)

end Sys2Proof.Machine
end

