-- ==== Sys2Proof/Machine/Link.lean ====
section
/-! DEFINITION. Training, replay, credits and keys of Chroip ports (R287, R295 to R302, R308, R376 to
R378). -/
namespace Sys2Proof.Machine
open Sys2Proof

/-! ## Configuration (R287, R295) -/

/-- MAC is a nonzero unicast address. -/
def macGood (s : State) (p : Nat) : Bool := portMac s p ≠ 0 && !bitOf (portMac s p) 40

/-- The PORT_MASK of a resident plan. -/
def planPorts (s : State) (slot : Nat) : Nat := ((planSlot s slot).map fun x => hPorts x.hdr).getD 0

/-- Whether a raising is prepared or runs; LOADED counts as prepared (R346). -/
def preparedOn (r : RaiseState) : Bool := r = .loaded || r = .prepared || liveState r

/-- Whether a prepared or running raising, or a prepared successor, names port `p` in its PORT_MASK (R287). -/
def portNamed (s : State) (p : Nat) : Bool :=
  (ctxList s).any fun c =>
    (preparedOn (raising s c).state && bitOf (planPorts s (raising s c).plan) p) ||
    (match (ctx s c).succ with
     | some q => preparedOn q.state && bitOf (planPorts s q.plan) p
     | none => false)

/-- Enter PHY: the link starts anew, without keys, under the MAC that is now written (R295, R310). -/
def enterPhy (s : State) (p : Nat) : State :=
  let k := linkOf s p
  let s := if k.state = .disabled then noteState s (pgPrt p) else s
  setLink s p { Link.init with
    state := .phy, cause := k.cause, holdoff := k.holdoff, holdLen := k.holdLen, authAt := k.authAt,
    mac := BitVec.ofNat 48 (portMac s p) }

/-- A disabled port starts once CFG.ENABLE, KIND and MAC let it (R295). -/
def portStart (s : State) (p : Nat) : State :=
  if (linkOf s p).state = .disabled && regBit s (pgPrt p + 0x40) 2 && portKind s p = 1 && macGood s p then enterPhy s p
  else s

/-- A port leaves open mode: its interfaces go down (R341). -/
def openOff (s : State) (p : Nat) : State :=
  if regField s (pgOpn p + 0x44) 0 4 = 0 then s
  else pauseClear (irq (regSet s (pgOpn p + 0x44) 0) (pgOpn p) 1) (pauseKey p) 4

/-- ENABLE is 0: the port goes down, if it is not, and is DISABLED (R295, R303). -/
def portOff (s : State) (p : Nat) : State :=
  let s := linkDown s p 9 true
  if (linkOf s p).state = .disabled then s
  else setLink (noteState s (pgPrt p)) p { linkOf s p with state := .disabled }

/-- FORCE_DOWN: the port goes down with cause FORCED, also from DISABLED (R295, R303). -/
def portForced (s : State) (p : Nat) : State :=
  if (linkOf s p).state = .disabled then
    (if portKind s p = 1 then
      irq (cntAdd (setLink (noteState s (pgPrt p)) p { linkOf s p with state := .down, cause := 9 }) (pgPrt p + 0xA4) 1)
        (pgPrt p) 1
     else s)
  else linkDown s p 9 true

/-- A write of PRT.CFG. -/
def portCfgWrite (s : State) (p : Nat) (w : Word) : State :=
  if wfield w 0 2 ≠ portKind s p && ((linkOf s p).state ≠ .disabled || portNamed s p) then
    statSet s (pgPrt p) 0
  else
    let s := regSet s (pgPrt p + 0x40) (w &&& 0x1F)
    let s := if wfield w 0 2 = 2 then s else openOff s p
    if !w.getLsbD 2 then portOff s p
    else if w.getLsbD 5 then portForced s p
    else portStart s p

/-- PORT_ENABLE: CFG written with ENABLE 1 (R295). -/
def execPortEnable (p : Fin 48) (w : BitVec 32) (s : State) : Host.Outcome State Fault Refusal :=
  .next (portCfgWrite s p.val (wset w 2 1 1))

/-- PORT_DISABLE: CFG written with ENABLE 0 (R295). -/
def execPortDisable (p : Fin 48) (w : BitVec 32) (s : State) : Host.Outcome State Fault Refusal :=
  .next (portCfgWrite s p.val (wset w 2 1 0))

/-- FORCE_DOWN: CFG written with FORCE_DOWN 1 (R295). -/
def execForceDown (p : Fin 48) (w : BitVec 32) (s : State) : Host.Outcome State Fault Refusal :=
  .next (portCfgWrite s p.val (wset w 5 1 1))

/-- KIND_WRITE: CFG written with some KIND (R287). -/
def execKindWrite (p : Fin 48) (w : BitVec 32) (s : State) : Host.Outcome State Fault Refusal :=
  .next (portCfgWrite s p.val w)

/-! ## Training (R295 to R297) -/

/-- The HELLO body of port `p` (R295, R296). -/
def helloBody (s : State) (p : Nat) : Nat :=
  1 + 0x02 <<< 24 + 3 <<< 32 + (nodeId s) <<< 64 + p <<< 88

/-- Lane `i`'s training: a VALID seed that the lane aligns with is kept; else full training reaches settings, and the seed
is written where they differ from it (R433). Whether the seed serves, and the settings, are free values (log 126). -/
def trainLane (s : State) (i : Nat) : State :=
  let seed := pstNat s i 1
  let ok := drawFree s 1
  if bitOf seed 31 && ok.1 = 1 then ok.2
  else
    let x := drawFree ok.2 24
    let new := 0x80000000 + x.1.toNat
    if seed = new then x.2 else pstStore x.2 i (BitVec.ofNat 32 new)

/-- The four lanes of a port are trained; their seeds are registers 530 + 4p + j (R430). -/
def trainLanes (s : State) (p : Nat) : State := ((List.range 4).map fun j => 530 + 4 * p + j).foldl trainLane s

/-- PHY_ALIGNED: PHY to HELLO; the lanes' training has ended. -/
def execPhyAligned (p : Fin 48) (s : State) : Host.Outcome State Fault Refusal :=
  .next (
    let k := linkOf s p.val
    if k.state = .phy then
      setLink (trainLanes s p.val) p.val
        { k with state := .hello, lanesUp := true, ownHello := BitVec.ofNat 112 (helloBody s p.val) }
    else s)

/-- HELLO_SEND: one HELLO in state HELLO. -/
def execHelloSend (p : Fin 48) (s : State) : Host.Outcome State Fault Refusal :=
  .next (if (linkOf s p.val).state = .hello then sendTrain s p.val (linkOf s p.val).ownHello.toNat else s)

/-! ## The key exchange (R376 to R378) -/

/-- Send a message of the key exchange in KEY frames of at most 1,024 message bytes (R376). -/
def sendKey (s : State) (p msg : Nat) (m : List Byte) : State :=
  let n := max 1 ((m.length + 1023) / 1024)
  (List.range n).foldl (fun s i =>
    let f := (m.drop (1024 * i)).take 1024
    let h := natBytes 8 (msg + i <<< 8 + n <<< 16 + m.length <<< 32)
    sendPlaced s p 7 0 (h ++ f)) s

/-- Store what a port holds of its key exchange. -/
def setKx (s : State) (p : Nat) (x : KeyEx) : State := setLink s p { linkOf s p with kx := x }

/-- Node-ID field and port number of a HELLO body as one number (R376). -/
def helloOrder (b : BitVec 112) : Nat := byteFld b.toNat 8 3 * 256 + byteFld b.toNat 11 1

/-- Whether this end is the low end of the link. -/
def lowEnd (k : Link) : Bool := helloOrder k.ownHello < helloOrder k.hello

/-- The own part and the partner's, low end first. -/
def lowFirst {α : Type} (k : Link) (own partner : α) : List α := if lowEnd k then [own, partner] else [partner, own]

/-- H of the exchange (R376). -/
def kxHash (k : Link) (own certs : List Byte) (ownSecret secret : List Byte) : List Byte :=
  sha512Bytes (((lowFirst k (natBytes 14 k.ownHello.toNat) (natBytes 14 k.hello.toNat)) ++ lowFirst k own certs ++
    lowFirst k ownSecret secret).flatten)

/-- The H of the exchange that port `p` holds; none before both SECRETs are there. -/
def kxH (k : Link) : Option (List Byte) :=
  match k.kx.certs, k.kx.own, k.kx.secret with
  | some c, some o, some x => some (kxHash k k.kx.sent c o.2 x)
  | _, _, _ => none

/-- Draw the own secret and send it, encrypted to the partner's alias key, as message `msg` (R376). -/
def sendSecret (s : State) (p msg : Nat) : State :=
  match (linkOf s p).kx.certs.bind chainKey with
  | none => s
  | some key =>
    let x := freeBytes s 64
    let seed := freeBytes x.2 64
    let m := oaepSeal key [] seed.1 x.1
    sendKey (setKx seed.2 p { (linkOf seed.2 p).kx with own := some (x.1, m) }) p msg m

/-- Sign H and send it as message `msg` (R376). -/
def sendFinish (s : State) (p msg : Nat) : State :=
  match kxH (linkOf s p) with
  | none => s
  | some h =>
    let salt := freeBytes s 64
    let m := pssSign (akOf s) h salt.1
    sendKey (setKx salt.2 p { (linkOf salt.2 p).kx with finish := some m }) p msg m

/-- The link keys and salts of an exchange that the partner's FINISH closes: low to high, high to low (R376). None if the
partner is refused (R378). -/
def linkKeys (s : State) (k : Link) (fin : List Byte) : Option (BitVec 288 × BitVec 288) :=
  match k.kx.certs, k.kx.own, k.kx.secret, kxH k with
  | some c, some o, some x, some h =>
    match chainKey c, oaepOpen (akOf s) [] x with
    | some key, some y =>
      if chainGood s c && pssVerify key fin h && y.length = 64 then
        let out := hkdf (lowFirst k o.1 y).flatten h (textBytes "CHROIP 2.0 LINK") 72
        some (BitVec.ofNat 288 (bytesNat (out.take 32 ++ (out.drop 64).take 4)),
          BitVec.ofNat 288 (bytesNat ((out.drop 32).take 32 ++ (out.drop 68).take 4)))
      else none
    | _, _ => none
  | _, _, _, _ => none

/-- Install a key pair in a phase and let the sender use it from its next unit on; the receiver keeps the key of the other
phase until a frame in the new one passes (R308). -/
def installKeys (s : State) (p : Nat) (phase : BitVec 2) (keys : BitVec 288 × BitVec 288) : State :=
  let k := linkOf s p
  let tx := if lowEnd k then keys.1 else keys.2
  let rx := if lowEnd k then keys.2 else keys.1
  let q := 2 * phase.toNat
  let old := 2 * ((phase.toNat + 1) % 2)
  setLink s p { k with
    keys := tabSet none old none (tabSet none (q + 1) (some rx) (tabSet none q (some tx) k.keys)), keyPhase := phase,
    txc := 0 }

/-- Enter KEY and send CERTS, unless the holdoff of R378 refuses it. -/
def enterKey (s : State) (p : Nat) : State :=
  let k := linkOf s p
  if k.holdoff ≠ 0 then s
  else
    let m := deviceCerts s
    sendKey (setLink s p { k with state := .key, kx := { KeyEx.init with sent := m } }) p 1 m

/-- A received HELLO (R296) from the port address `src`: it always updates PARTNER, and in state HELLO fixes version,
features and partner. -/
def helloTake (s : State) (p : Nat) (src : BitVec 48) (b : BitVec 112) : State :=
  let k := linkOf s p
  let x := b.toNat
  match k.state with
  | .disabled | .phy | .down => s
  | _ =>
    let s := regSet s (pgPrt p + 0x48) (BitVec.ofNat 32 (byteFld x 8 4))
    if k.state ≠ .hello then s
    else
      let s := setLink s p { k with peer := some src, hello := b }
      let run := min (byteFld x 2 1 + 256 * byteFld x 3 1) 0x200
      if run < 0x200 then linkDown s p 4 true
      else enterKey (regSet (regSet s (pgPrt p + 0x50) (BitVec.ofNat 32 run)) (pgPrt p + 0x54)
        (BitVec.ofNat 32 (byteFld x 4 1 % 4))) p

/-- HELLO (R296). -/
def execHello (p : Fin 48) (f : HelloFrame) (s : State) : Host.Outcome State Fault Refusal :=
  .next (helloTake s p.val f.src f.body)

/-- PROBE: answered with an ECHO (R295). -/
def execProbe (p : Fin 48) (b : BitVec 112) (hold : BitVec 32) (s : State) : Host.Outcome State Fault Refusal :=
  .next (match (linkOf s p.val).state with
    | .key | .delay | .ready | .up => sendTrain s p.val (3 + (byteFld b.toNat 2 2) <<< 16 + hold.toNat <<< 32)
    | _ => s)

/-- FEATURES bit `i` of port `p` runs. -/
def feature (s : State) (p i : Nat) : Bool := regBit s (pgPrt p + 0x54) i

/-- Twice the one-way delay of a PROBE and its ECHO, in ps: the round trip less HOLD and the fixed paths (R297). -/
def echoDelay (b : BitVec 112) (tripPs : Nat) : Nat := tripPs - 1250 * byteFld b.toNat 4 4 - Config.fixedPaths

/-- All 16 ECHOs are there: DELAY, and the acknowledgement mode (R295, R297). -/
def delayDone (s : State) (p : Nat) : State :=
  let k := linkOf s p
  let ns := (k.delayMax + 1999) / 2000
  let s := regSet s (pgPrt p + 0x4C) (BitVec.ofNat 32 (min ns 0xFFFF))
  if 520 < ns then linkDown s p 5 true
  else
    let coal := ns ≤ 30 && feature s p 0 && !regBit s (pgPrt p + 0x40) 3 && k.agree
    setLink s p { k with state := .ready, pcoal := coal, credits := [16, 16, 16, 16] }

/-- An ECHO in DELAY (R297). -/
def echoTake (s : State) (p : Nat) (b : BitVec 112) (tripPs : Nat) (agree : Bool) : State :=
  let k := linkOf s p
  let id := byteFld b.toNat 2 2
  if k.state ≠ .delay || 16 ≤ id || bitOf k.echoes id then s
  else
    let n := k.echoes + 2 ^ id
    let s := setLink s p { k with
      echoes := n, delayMax := max k.delayMax (echoDelay b tripPs), agree := k.agree && agree }
    if n = 0xFFFF then delayDone s p else s

/-- ECHO: its round trip as measured, and whether the partner's measurements agree with it (R297). -/
def execEcho (p : Fin 48) (b : BitVec 112) (m : EchoSeen) (s : State) : Host.Outcome State Fault Refusal :=
  .next (echoTake s p.val b m.tripPs m.agree)

/-- READY_SEND: one READY in state READY. -/
def execReadySend (p : Fin 48) (s : State) : Host.Outcome State Fault Refusal :=
  .next (if (linkOf s p.val).state = .ready then sendTrain s p.val 4 else s)

/-- READY: the port is UP; SEQ 0 is next and ACK reads 0xFFFF (R295). -/
def execReady (p : Fin 48) (s : State) : Host.Outcome State Fault Refusal :=
  .next (
    let k := linkOf s p.val
    if k.state = .ready then
      irq (setLink s p.val { k with state := .up, expect := 0, ackSent := 0xFFFF, nextSeq := 0, ackRx := 0xFFFF,
                                    rbuf := [], timeouts := 0, nakUntil := 0 }) (pgPrt p.val) 0
    else s)

/-- DOWN from the partner (R295, R303). -/
def execDown (p : Fin 48) (b : BitVec 112) (s : State) : Host.Outcome State Fault Refusal :=
  .next (match (linkOf s p.val).state with
    | .disabled | .phy | .down => s
    | .hello => linkDown s p.val (if byteFld b.toNat 2 1 = 4 then 4 else 3) true
    | _ => linkDown s p.val 3 true)

/-- TRAIN_TIMEOUT: 10 ms in a training state (R295). -/
def execTrainTimeout (p : Fin 48) (s : State) : Host.Outcome State Fault Refusal :=
  .next (match (linkOf s p.val).state with
    | .hello | .key | .delay | .ready => linkDown s p.val 8 true
    | _ => s)

/-- PHY_LOCK_LOSS: the uncorrectable marker codewords that showed it are counted (R289, R295). -/
def execPhyLockLoss (x : LockLoss) (s : State) : Host.Outcome State Fault Refusal :=
  let p := x.port.val
  .next (
    if (linkOf s p).state = .disabled then s
    else
      let s := linkDown (cntAdd s (pgPrt p + 0x84) x.markers) p 2 false
      setLink s p { linkOf s p with lanesUp := false })

/-- RETRAIN: DOWN to PHY (R295). -/
def execRetrain (p : Fin 48) (s : State) : Host.Outcome State Fault Refusal :=
  .next (if (linkOf s p.val).state = .down && regBit s (pgPrt p.val + 0x40) 4 && regBit s (pgPrt p.val + 0x40) 2
    then enterPhy s p.val else s)

/-! ## Acknowledgement, replay and credits (R298 to R302) -/

/-- Retire what an ACK covers (R300). -/
def ackTake (s : State) (p : Nat) (ack : BitVec 16) : State :=
  let k := linkOf s p
  if k.state ≠ .up then s
  else
    let l := k.rbuf.filter fun x => 0x8000 ≤ (ack - x.seq).toNat
    if l.length < k.rbuf.length then
      setLink s p { k with
        rbuf := l, ackRx := ack, timeouts := 0, replaying := k.replaying && !l.isEmpty,
        replayPos := k.replayPos - (k.rbuf.length - l.length) }
    else s

/-- ACK_RX (R300). -/
def execAckRx (p : Fin 48) (ack : BitVec 16) (s : State) : Host.Outcome State Fault Refusal :=
  .next (ackTake s p.val ack)

/-- NAK_RX: a replay starts from ACK + 1 (R301). -/
def execNakRx (p : Fin 48) (ack : BitVec 16) (s : State) : Host.Outcome State Fault Refusal :=
  .next (if (linkOf s p.val).state = .up then
      let s := ackTake (cntAdd s (pgPrt p.val + 0x98) 1) p.val ack
      let k := linkOf s p.val
      setLink s p.val { k with replaying := !k.rbuf.isEmpty, replayPos := 0 }
    else s)

/-- REPLAY: the replay goes on in the units of the tick period from the present position on, in order (R301); what they
cannot take waits for the next period's. -/
def replayAll (s : State) (p : Nat) : State :=
  if portUp s p && (linkOf s p).replaying then
    (frameUnits s).foldl (fun s u => match replayNext s p with
      | none => s
      | some x => if unitOpen s p (periodPos s (p / 16)) (entBytes x) u then replayUnit p u rbufMax s else s) s
  else s

/-- REPLAY (R301). -/
def execReplay (p : Fin 48) (s : State) : Host.Outcome State Fault Refusal := .next (replayAll s p.val)

/-- REPLAY_TIMEOUT: a timeout; three in a row without an advance of the ACK take the link down (R301). -/
def execReplayTimeout (p : Fin 48) (s : State) : Host.Outcome State Fault Refusal :=
  .next (
    let k := linkOf s p.val
    if k.state ≠ .up then s
    else
      let s := irq (cntAdd s (pgPrt p.val + 0xA0) 1) (pgPrt p.val) 2
      if 3 ≤ k.timeouts + 1 then linkDown s p.val 1 true
      else setLink s p.val { k with timeouts := k.timeouts + 1, replaying := !k.rbuf.isEmpty, replayPos := 0 })

/-- ACK_TIMER: in coalesced mode the ACK that headers carry becomes the current one (R299). -/
def execAckTimer (p : Fin 48) (s : State) : Host.Outcome State Fault Refusal :=
  .next (
    let k := linkOf s p.val
    if k.state = .up && k.pcoal then setLink s p.val { k with ackSent := k.expect - 1 } else s)

/-- CREDIT_RX: credits come back; more than 16 on a VC take the link down (R302). -/
def execCreditRx (p : Fin 48) (vc : BitVec 2) (count : BitVec 5) (s : State) : Host.Outcome State Fault Refusal :=
  .next (
    let k := linkOf s p.val
    let n := k.credits.getD vc.toNat 0 + count.toNat
    if k.state ≠ .up then s
    else if 16 < n then linkDown s p.val 7 true
    else setLink s p.val { k with credits := k.credits.set vc.toNat n })

/-! ## Keys (R308, R376 to R378) -/

/-- Whether port `p` runs key update. -/
def updates (s : State) (p : Nat) : Bool := portUp s p && feature s p 1

/-- The exchange of port `p` starts again for new keys, with the CERTS already verified (R377). -/
def updateStart (s : State) (p : Nat) : State :=
  sendSecret (setKx s p { (linkOf s p).kx with secret := none, own := none, finish := none, update := true }) p 4

/-- LINK_REKEY: SECRET goes out again with code 4; a LINK_REKEY register of 0 has disabled it (R377, R391). -/
def execLinkRekey (p : Fin 48) (s : State) : Host.Outcome State Fault Refusal :=
  .next (if updates s p.val && regField s (pgSec + 0x94) 0 16 ≠ 0 then updateStart s p.val else s)

/-- The partner's SECRET and FINISH of an update: the own messages that have not gone out do, and the verified result goes
into the idle phase (R308, R377); a partner that does not verify is refused (R378). -/
def updateTake (s : State) (p : Nat) (secret fin : List Byte) : State :=
  let s := if (linkOf s p).kx.update then s else updateStart s p
  let s := sendFinish (setKx s p { (linkOf s p).kx with secret := some secret }) p 5
  let k := linkOf s p
  match linkKeys s k fin with
  | some keys =>
    let s := setKx s p { k.kx with update := false }
    installKeys s p (BitVec.ofNat 2 ((k.keyPhase.toNat + 1) % 2)) keys
  | none => linkDown s p 6 true

/-- KEY_UPDATE: the partner's messages 4 and 5 (R308, R377). -/
def execKeyUpdate (m : KeyUpdateMsgs) (s : State) : Host.Outcome State Fault Refusal :=
  .next (if updates s m.port.val then updateTake s m.port.val m.secret m.finish else s)

/-- KEY_CERTS: the partner's certificates; SECRET goes out to the alias key that they hold (R376). Certificates that hold
none are refused (R378). -/
def execKeyCerts (p : Fin 48) (m : List (BitVec 8)) (s : State) : Host.Outcome State Fault Refusal :=
  .next (
    let k := linkOf s p.val
    if k.state ≠ .key || k.kx.certs.isSome then s
    else if (chainKey m).isNone then linkDown s p.val 6 true
    else sendSecret (setKx s p.val { k.kx with certs := some m }) p.val 2)

/-- KEY_SECRET: the partner's encrypted secret; FINISH goes out (R376). -/
def execKeySecret (p : Fin 48) (m : List (BitVec 8)) (s : State) : Host.Outcome State Fault Refusal :=
  .next (
    let k := linkOf s p.val
    if k.state = .key && k.kx.own.isSome && k.kx.secret.isNone then
      sendFinish (setKx s p.val { k.kx with secret := some m }) p.val 3
    else s)

/-- KEY to DELAY: keys for both directions, and 16 PROBEs 1 µs apart (R295). -/
def enterDelay (s : State) (p : Nat) (keys : BitVec 288 × BitVec 288) : State :=
  let s := installKeys s p 0 keys
  let s := setLink s p { linkOf s p with state := .delay, echoes := 0, delayMax := 0, agree := true }
  (List.range 16).foldl (fun s i =>
    sendPlaced s p 6 (800 * i) (natBytes 14 (2 + i <<< 16 + ((nowPeriods s + 800 * i) % 2 ^ 64) <<< 32))) s

/-- KEY_FINISH: the partner is accepted, or refused with AUTH (R378). -/
def execKeyFinish (p : Fin 48) (m : List (BitVec 8)) (s : State) : Host.Outcome State Fault Refusal :=
  .next (
    let k := linkOf s p.val
    if k.state ≠ .key || k.kx.finish.isNone then s
    else match linkKeys s k m with
      | some keys => enterDelay s p.val keys
      | none => linkDown s p.val 6 true)

/-- KEY_RESEND: the message that waits for the partner's next goes out again, whole (R376). -/
def keyResend (s : State) (p : Nat) : State :=
  let x := (linkOf s p).kx
  if (linkOf s p).state = .key then
    match x.finish, x.own with
    | some m, _ => sendKey s p 3 m
    | none, some o => sendKey s p 2 o.2
    | none, none => sendKey s p 1 x.sent
  else if portUp s p && x.update then
    match x.own with
    | some o => sendKey s p 4 o.2
    | none => s
  else s

/-- KEY_RESEND (R376). -/
def execKeyResend (p : Fin 48) (s : State) : Host.Outcome State Fault Refusal := .next (keyResend s p.val)

/-- AUTH_HOLDOFF_END: the port may enter KEY again (R378). -/
def execAuthHoldoffEnd (p : Fin 48) (s : State) : Host.Outcome State Fault Refusal :=
  .next (setLink s p.val { linkOf s p.val with holdoff := 0 })

end Sys2Proof.Machine
end

