-- ==== Sys2Proof/Machine/Raise.lean ====
section
/-! DEFINITION. Raisings up to their start (R346 to R350, R355): preparation, ARM, the checks, phase one and
phase two, and their ends by RCMD. -/
namespace Sys2Proof.Machine
open Sys2Proof

/-! ## A raising and its context's successor -/

/-- The raising of context `c`, or its loaded successor. -/
def rOf (s : State) (c : Nat) (su : Bool) : Raising :=
  if su then (ctx s c).succ.getD Raising.init else raising s c

/-- Store it. -/
def putR (s : State) (c : Nat) (su : Bool) (r : Raising) : State :=
  if su then setCtx s c { ctx s c with succ := some r } else setRaising s c r

/-- Where the image of a raising lies, and its header. -/
def rImg (s : State) (r : Raising) : Nat × BitVec 2048 :=
  match planSlot s r.plan with
  | some p => (p.addr, p.hdr)
  | none => (0, 0)

/-- This package's member index in a raising. -/
def rMember (s : State) (r : Raising) : Nat := let x := rImg s r; memberIndex s x.1 x.2

/-- The node of member `m` of a raising. -/
def rNode (s : State) (r : Raising) (m : Nat) : Nat := let x := rImg s r; memberNode s x.1 x.2 m

/-- The children of this package in a raising's tree; a raising of one package has none. -/
def rKids (s : State) (r : Raising) : List Nat :=
  let x := rImg s r
  if hChips x.2 ≤ 1 then [] else memberChildren s x.1 x.2 (memberIndex s x.1 x.2)

/-- Whether a raising spans packages. -/
def rMulti (s : State) (r : Raising) : Bool := 1 < hChips (rImg s r).2

/-- Per-context register `o` of the raising page (R362). -/
def rReg (c o : Nat) : Nat := bankKey (pgTim2 + o) c

/-- A command that is not valid in the present state (R362). -/
def rRefuse (s : State) : State := statSet s pgTim2 0

/-- A failed ARM or an ABORT: its code in LAST_STATUS, and the interrupt (R347, R362). -/
def rFail (s : State) (c code : Nat) : State :=
  irq (setCtx s c { ctx s c with lastStatus := BitVec.ofNat 4 code }) pgTim2 2

/-! ## Preparation (R125, R227) -/

/-- RAISING_PREPARATION: the clusters of the plan that the next ARM loads get its entry bent and tables.
While the partition runs a raising its clusters are left alone. -/
def execRaisingPreparation (c : Fin 256) (s : State) : Host.Outcome State Fault Refusal :=
  .next (match planSlot s s.rai.lastSlot with
    | none => s
    | some q =>
      if othersLive s c.val || ctxLive s c.val then s
      else
        let s := (imgClusters s q.addr q.hdr).foldl (fun s k =>
          loadTables (loadEntry (clearCluster s k) c.val k true) c.val k (hFeature q.hdr 0) true) s
        let p := (ctx s c.val).part
        setPart s p { part s p with run := some c.val })

/-! ## ARM (R346, R347) -/

/-- Whether every port of the plan has a set that serves raising `rid` of context `c` and stays within the context's
areas, and none is in open mode (R263, R331, R347; log 22). -/
def setsReady (s : State) (c rid : Nat) (h : BitVec 2048) (keep : Bool) : Bool :=
  (hdrPorts h).all fun n => portKind s n ≠ 2 && (match setFor s c rid n keep with
    | some k => setWithin s (n / 16) (ringLines s (n / 16) c) (stageLines s (n / 16) c) (setOf s (n / 16) k).tables
    | none => false)

/-- Whether the weights in the vaults are those of the plan (R374). -/
def weightsReady (s : State) (c : Nat) (h : BitVec 2048) : Bool :=
  (ctx s c).importing.isNone &&
  (hWeightDigest h = 0 || (ctx s c).bundle = some (BitVec.ofNat 512 (hWeightDigest h)))

/-- The first check of R347 that an ARM of context `c` with the plan in slot `q` fails, 0 for none; a successor with `keep`
takes over the running sets. A die in partial reset comes first (R416). -/
def armCheck (s : State) (c rid : Nat) (q : PlanSlot) (keep : Bool) : Nat :=
  let x := ctx s c
  let h := q.hdr
  if partAway s x.part then 9
  else if x.state = .free || x.state = .faulted || !fitsPartition s h x.part || !setsReady s c rid h keep ||
      !areasFit s c q.addr h || !portsFit s q.addr h then 1
  else if 2 ≤ hChips h && (!nodeValid s || (ownMembers s q.addr h).length ≠ 1) then 2
  else if !admitted s x.part (hEnergyMax h) then 8
  else if tripSet s || !entriesReady s c q.addr h || initRuns s c || !weightsReady s c h then 9
  else if hFrameLog2 h ≠ regField s (pgTim0 + 0x40) 0 4 then 11
  else if !signerOk s c q (ownerHash s) then 12
  else 0

/-- Whether a successor takes over the running sets of its predecessor (R357). -/
def takesOver (r q : Raising) : Bool := r.raiseId = q.raiseId && r.digest = q.digest

/-- ARM of context `c`, as its raising or as its successor. It loads the plan of the latest successful load (log 105).
Only a root replays (R361). -/
def armAs (s : State) (c rid : Nat) (replay su : Bool) : State :=
  match planSlot s s.rai.lastSlot with
  | none => rFail s c 1
  | some q =>
    let r := { Raising.init with
      state := .loaded, plan := s.rai.lastSlot, raiseId := BitVec.ofNat 16 rid,
      digest := raiseDigest s q.addr q.hdr,
      replay := replay && regBit s (pgTrl + 0x40) 1 && memberIndex s q.addr q.hdr = 0 }
    let code := armCheck s c rid q (su && takesOver (raising s c) r)
    if code ≠ 0 then rFail s c code
    else
      let s := setCtx s c { ctx s c with
        lastStatus := 0, succ := none, faultCause := if su then (ctx s c).faultCause else 0 }
      let s := putR s c su r
      if r.replay then replayRun s else s

/-- RCMD ARM (R346, R355, R361). -/
def rcmdArm (s : State) (c rid : Nat) (replay : Bool) : State :=
  match (raising s c).state with
  | .none | .stopped | .faulted => armAs s c rid replay false
  | .running | .held => if (ctx s c).succ.isNone then armAs s c rid replay true else rRefuse s
  | _ => rRefuse s

/-- RCMD_ARM: RAISE_ID is written, then RCMD (R362). -/
def execRcmdArm (c : Fin 256) (raiseId : BitVec 16) (s : State) : Host.Outcome State Fault Refusal :=
  .next (rcmdArm (regSet s (rReg c.val 0x54) (raiseId.setWidth 32)) c.val raiseId.toNat false)

/-- ARM_REPLAY: ARM with REPLAY set (R361). -/
def execArmReplay (c : Fin 256) (raiseId : BitVec 16) (s : State) : Host.Outcome State Fault Refusal :=
  .next (rcmdArm (regSet s (rReg c.val 0x54) (raiseId.setWidth 32)) c.val raiseId.toNat true)

/-! ## Sharing a partition (R56) -/

/-- The other contexts of partition `p` that hold a raising in COMMITTED, RUNNING or HELD. -/
def liveBeside (s : State) (p c : Nat) : List Nat := (List.range 256).filter fun x => x ≠ c && runnable s p x

/-- Whether context `c` is all that partition `p` runs: the only entry of its table or, without a table, the only
context with a raising in COMMITTED, RUNNING or HELD (R56, R453). -/
def rotAlone (s : State) (p c : Nat) : Bool :=
  if rotCount s p = 0 then (liveBeside s p c).isEmpty
  else rotCount s p = 1 && rotEntry s p 0 = ((rotEntry s p 0).1, c, false)

/-- Whether a raising of context `c` under header `h` would break R56 in partition `p`: it spans packages and would
share, or the partition has no table and runs a raising that may not share. -/
def rotBroken (s : State) (p c : Nat) (h : BitVec 2048) : Bool :=
  (2 ≤ hChips h && !hFeature h 3 && !rotAlone s p c) ||
  (rotCount s p = 0 && (liveBeside s p c).any (spansAlone s))

/-! ## START (R86, R346) -/

/-- RCMD START of a raising of one package. It is refused beside a raising that may not share the partition (R56, log
110), and does not test R41 again after a map that was applied since ARM (log 106). -/
def rcmdStart (s : State) (c : Nat) : State :=
  let r := raising s c
  if r.state ≠ .loaded || rMulti s r || rotBroken s (ctx s c).part c (rImg s r).2 then rRefuse s
  else
    let k := pgTim0 + 0x70
    let trig := regBit s k 0 && regField s k 4 4 = (ctx s c).part
    let s := if trig && wallOf (taiRegs s (pgTim0 + 0x60)) < wallAt s (elapsed s) then orReg s k 0x100 else s
    setRaising s c { r with state := .committed, startTick := s.time.tick + 1, armedTrig := trig }

/-- RCMD_START (R346). -/
def execRcmdStart (c : Fin 256) (s : State) : Host.Outcome State Fault Refusal := .next (rcmdStart s c.val)

/-! ## Phase two (R350) -/

/-- The successor becomes the raising of its context (R355). -/
def promote (s : State) (c : Nat) : State :=
  match (ctx s c).succ with
  | none => s
  | some q => setCtx s c { ctx s c with raising := q, succ := none }

/-- What COMMIT does to a raising in PREPARED (R350). -/
def commitAct (s : State) (c : Nat) (su : Bool) (digest : BitVec 256) (start : BitVec 64) : State :=
  let r := rOf s c su
  if r.state = .prepared && r.digest = digest && r.startTick = start then
    let s := putR s c su { r with state := .committed }
    if su && !ctxLive s c then promote s c else s
  else s

/-- What ABORT does to a raising in PREPARED (R349, R452). -/
def abortAct (s : State) (c : Nat) (su : Bool) (code : Nat) : State :=
  let r := rOf s c su
  if r.state = .prepared then
    let s := rFail (putR s c su { r with state := .loaded }) c code
    if su then cancelPmap s (ctx s c).part else s
  else s

/-- The root commits (R349). -/
def commitRaise (s : State) (c : Nat) (su : Bool) : State :=
  let r := rOf s c su
  let s := if rMulti s r then
      floodActed s 8 r.raiseId.toNat 40 (r.digest.toNat + r.startTick.toNat <<< 256) else s
  commitAct s c su r.digest r.startTick

/-- The root aborts (R349). -/
def abortRaise (s : State) (c : Nat) (su : Bool) (code member : Nat) : State :=
  let r := rOf s c su
  let s := if rMulti s r then floodActed s 9 r.raiseId.toNat 4 (code + member <<< 16) else s
  if r.state = .prepared then abortAct s c su code
  else
    let s := rFail s c code
    if su then cancelPmap s (ctx s c).part else s

/-! ## Phase one (R347, R349) -/

/-- What a PREPARE or RE_RAISE carries (R348). -/
structure Prep where
  digest : BitVec 256
  start  : BitVec 64
  rot    : BitVec 64
  old    : BitVec 16
  stop   : BitVec 64
deriving DecidableEq, Repr

/-- ROT_DIGEST that a plan expects of partition `p` (R347). -/
def rotWanted (s : State) (h : BitVec 2048) (p : Nat) : Nat := if hFeature h 3 then rotDigest s p else 0

/-- The checks of phase one, the first that fails, 0 for none (R347). -/
def phaseOne (s : State) (c : Nat) (su : Bool) (m : Prep) : Nat :=
  let r := rOf s c su
  let p := (ctx s c).part
  match planSlot s r.plan with
  | none => 1
  | some q =>
    let h := q.hdr
    let multi := 2 ≤ hChips h
    let run := raising s c
    if r.state ≠ .loaded then 1
    else if m.digest ≠ r.digest || (multi && (!nodeValid s || (ownMembers s q.addr h).length ≠ 1)) then 2
    else if multi && !discLocked s then 3
    else if !(hdrPorts h).all (portUp s) then 4
    else if m.rot.toNat ≠ rotWanted s h p || rotBroken s p c h then 5
    else if m.start.toNat ≤ s.time.tick.toNat + 1 then 6
    else if !admitted s p (hEnergyMax h) then 8
    else if tripSet s || !entriesReady s c q.addr h || initRuns s c then 9
    else if su && ((run.state ≠ .running && run.state ≠ .held) || run.raiseId ≠ m.old ||
        m.stop.toNat ≤ run.frame.toNat + 1) then 10
    else if hFrameLog2 h ≠ regField s (pgTim0 + 0x40) 0 4 then 11
    else if !signerOk s c q (ownerHash s) then 12
    else 0

/-- Whether a raising in phase one is being re-raised: its command carries an old raising. -/
def isReRaise (r : Raising) : Bool := r.oldRaise ≠ 0 || r.stopFrame ≠ 0

/-- PREPARE or RE_RAISE to each child (R348, R349). -/
def sendPhase (s : State) (r : Raising) : State :=
  let re := isReRaise r
  let body := r.digest.toNat + r.startTick.toNat <<< 256 + r.rotDigest.toNat <<< 320 +
    (if re then r.oldRaise.toNat <<< 384 + r.stopFrame.toNat <<< 448 else 0)
  (rKids s r).foldl (fun s k =>
    sendTo s (rNode s r k) (if re then 4 else 6) true r.raiseId.toNat (if re then 64 else 48) body) s

/-- PREPARE_ACK to node `dst` (R348). -/
def sendAck (s : State) (r : Raising) (dst code member count : Nat) : State :=
  sendTo s dst 7 true r.raiseId.toNat 8 (code + member <<< 16 + count <<< 32)

/-- The member's one answer: to its parent, or the root's decision (R349). -/
def answerUp (s : State) (c : Nat) (su : Bool) (code member count : Nat) : State :=
  let r := rOf s c su
  let s := putR s c su { r with answered := true }
  let x := rImg s r
  let m := memberIndex s x.1 x.2
  if m ≠ 0 then sendAck s r (rNode s r (memberParent s x.1 x.2 m)) code member count
  else if code ≠ 0 then abortRaise s c su code member
  else if count = max 1 (hChips x.2) then commitRaise s c su
  else
    let f := drawFree s 8
    abortRaise f.2 c su f.1.toNat 0

/-- Answer once every child has answered OK (R349). -/
def settle (s : State) (c : Nat) (su : Bool) : State :=
  let r := rOf s c su
  if r.state ≠ .prepared || r.answered then s
  else if (rKids s r).all fun k => r.acks.any fun a => a.member = k then
    answerUp s c su 0 (rMember s r) (1 + r.acks.foldl (fun n a => n + a.count) 0)
  else s

/-- Enter PREPARED and go on to the children (R349). -/
def prepare (s : State) (c : Nat) (su : Bool) (m : Prep) : State :=
  let r := { rOf s c su with
    state := .prepared, startTick := m.start, rotDigest := m.rot, oldRaise := m.old, stopFrame := m.stop,
    acks := [], answered := false }
  let s := setCtx s c { ctx s c with lastStatus := 0 }
  settle (sendPhase (putR s c su r) r) c su

/-- A received PREPARE or RE_RAISE (R349). -/
def phaseTake (s : State) (c : Nat) (su : Bool) (origin : Nat) (m : Prep) : State :=
  let code := phaseOne s c su m
  if code = 0 then prepare s c su m
  else
    let r := rOf s c su
    let s := setCtx s c { ctx s c with lastStatus := BitVec.ofNat 4 code }
    sendAck s r origin code (rMember s r) 0

/-- RCMD PREPARE or RE_RAISE on the root. -/
def phaseRoot (s : State) (c : Nat) (su : Bool) (old stop : Nat) : State :=
  let r := rOf s c su
  if r.state ≠ .loaded || rMember s r ≠ 0 then rRefuse s
  else
    let m : Prep := {
      digest := r.digest, start := BitVec.ofNat 64 (regPair s (rReg c 0x58)),
      rot := BitVec.ofNat 64 (rotWanted s (rImg s r).2 (ctx s c).part),
      old := BitVec.ofNat 16 old, stop := BitVec.ofNat 64 stop }
    let code := if regField s (rReg c 0x54) 0 16 ≠ r.raiseId.toNat then 1 else phaseOne s c su m
    if code = 0 then prepare s c su m else abortRaise s c su code 0

/-- RCMD PREPARE (R349). -/
def rcmdPrepare (s : State) (c : Nat) : State := phaseRoot s c false 0 0

/-- RCMD_PREPARE (R349). -/
def execRcmdPrepare (c : Fin 256) (s : State) : Host.Outcome State Fault Refusal := .next (rcmdPrepare s c.val)

/-- RCMD RE_RAISE: of the successor, or on a root that is new to the raising (R355). -/
def rcmdReRaise (s : State) (c : Nat) : State :=
  phaseRoot s c (ctx s c).succ.isSome (regField s (rReg c 0x70) 0 16) (regPair s (rReg c 0x60))

/-- RCMD_RE_RAISE (R355). -/
def execRcmdReRaise (c : Fin 256) (s : State) : Host.Outcome State Fault Refusal := .next (rcmdReRaise s c.val)

/-- A PREPARE_ACK (R349): of a child that has not answered yet. A code other than OK goes up at once. -/
def prepAckTake (s : State) (c : Nat) (su : Bool) (origin code member count : Nat) : State :=
  let r := rOf s c su
  if r.state ≠ .prepared || r.answered then s
  else
    match (rKids s r).find? fun k => rNode s r k = origin with
    | none => s
    | some k =>
      if r.acks.any fun a => a.member = k then s
      else if code ≠ 0 then answerUp s c su code member 0
      else
        settle (putR s c su { r with acks := r.acks ++ [{ member := k, status := 0, count := count }] }) c su

/-- PREP_TIMEOUT: MISSING with the lowest-numbered silent child (R349). -/
def prepLate (s : State) (c : Nat) (su : Bool) : State :=
  let r := rOf s c su
  if r.state ≠ .prepared || r.answered then s
  else
    match (rKids s r).find? fun k => !(r.acks.any fun a => a.member = k) with
    | none => s
    | some k => answerUp s c su 7 k 0

/-- PREP_TIMEOUT (R349). -/
def execPrepTimeout (c : Fin 256) (s : State) : Host.Outcome State Fault Refusal :=
  .next (prepLate (prepLate s c.val false) c.val true)

/-- A raising still PREPARED at START_TICK returns to LOADED and reports NO_COMMIT (R346, R350). -/
def noCommit (s : State) (c : Nat) (su : Bool) : State :=
  let r := rOf s c su
  if r.state = .prepared && r.startTick ≤ s.time.tick then
    let s := setCtx s c { ctx s c with faultCause := 4 }
    let s := putR s c su { r with state := .loaded }
    let s := if su then cancelPmap s (ctx s c).part else s
    sendTo s (rootNode s (rImg s r)) 10 true r.raiseId.toNat 24
      (4 + rMember s r <<< 16 + r.frame.toNat <<< 64 + s.time.tick.toNat <<< 128)
  else s

/-- NO_COMMIT (R350). -/
def execNoCommit (c : Fin 256) (s : State) : Host.Outcome State Fault Refusal :=
  .next (noCommit (noCommit s c.val false) c.val true)

/-! ## STOP, HOLD, RESUME, DISCARD (R346, R353) -/

/-- The earlier of a frame and one that waits already. -/
def minFrame (a : Option (BitVec 64)) (f : BitVec 64) : Option (BitVec 64) :=
  match a with
  | some g => some (if g ≤ f then g else f)
  | none => some f

/-- STOP of a raising at frame `f`; a committed successor ends before its frame 0. -/
def stopAct (s : State) (c : Nat) (su : Bool) (f : BitVec 64) : State :=
  let r := rOf s c su
  if su then (if r.state = .committed then cancelPmap (setCtx s c { ctx s c with succ := none }) (ctx s c).part else s)
  else if liveState r.state then setRaising s c { r with stopAt := minFrame r.stopAt f } else s

/-- HOLD of a raising at frame `f`. -/
def holdAct (s : State) (c : Nat) (f : BitVec 64) : State :=
  let r := raising s c
  if r.state = .committed || r.state = .running then setRaising s c { r with holdAt := minFrame r.holdAt f } else s

/-- RESUME of a held raising at tick `t`, or of one whose hold has not taken effect yet. -/
def resumeAct (s : State) (c : Nat) (t : BitVec 64) : State :=
  let r := raising s c
  if r.state = .held || r.holdAt.isSome then setRaising s c { r with resumeAt := some t } else s

/-- AT_FRAME of context `c`. -/
def atFrame (s : State) (c : Nat) : BitVec 64 := BitVec.ofNat 64 (regPair s (rReg c 0x60))

/-- Flood a command of context `c`'s raising, if it spans packages. -/
def floodOwn (s : State) (c code len body : Nat) : State :=
  if isMulti s c then floodActed s code (raising s c).raiseId.toNat len body else s

/-- RCMD STOP (R353). -/
def rcmdStop (s : State) (c : Nat) : State :=
  if ctxLive s c then stopAct (floodOwn s c 1 8 (atFrame s c).toNat) c false (atFrame s c) else rRefuse s

/-- RCMD_STOP (R353). -/
def execRcmdStop (c : Fin 256) (s : State) : Host.Outcome State Fault Refusal := .next (rcmdStop s c.val)

/-- RCMD HOLD (R353). -/
def rcmdHold (s : State) (c : Nat) : State :=
  let st := (raising s c).state
  if st = .committed || st = .running then holdAct (floodOwn s c 2 8 (atFrame s c).toNat) c (atFrame s c)
  else rRefuse s

/-- RCMD_HOLD (R353). -/
def execRcmdHold (c : Fin 256) (s : State) : Host.Outcome State Fault Refusal := .next (rcmdHold s c.val)

/-- RCMD RESUME (R353). -/
def rcmdResume (s : State) (c : Nat) : State :=
  let r := raising s c
  let t := regPair s (rReg c 0x68)
  if r.state = .held || (liveState r.state && r.holdAt.isSome) then
    resumeAct (floodOwn s c 3 8 t) c (BitVec.ofNat 64 t)
  else rRefuse s

/-- RCMD_RESUME (R353). -/
def execRcmdResume (c : Fin 256) (s : State) : Host.Outcome State Fault Refusal := .next (rcmdResume s c.val)

/-- RCMD DISCARD: the raising returns to NONE; of a raising that runs, a LOADED successor does (R346). -/
def rcmdDiscard (s : State) (c : Nat) : State :=
  let x := ctx s c
  match x.raising.state with
  | .loaded | .stopped | .faulted => setCtx s c { x with raising := Raising.init }
  | _ =>
    match x.succ with
    | some q => if q.state = .loaded then setCtx s c { x with succ := none } else rRefuse s
    | none => rRefuse s

/-- RCMD_DISCARD (R346). -/
def execRcmdDiscard (c : Fin 256) (s : State) : Host.Outcome State Fault Refusal := .next (rcmdDiscard s c.val)

/-- A write of RCMD for the context that RSEL names (R362). -/
def rcmdWrite (s : State) (w : Word) : State :=
  let c := regField s (pgTim2 + 0x48) 0 8
  match wfield w 0 4 with
  | 1 => rcmdArm s c (regField s (rReg c 0x54) 0 16) (w.getLsbD 4)
  | 2 => rcmdStart s c
  | 3 => rcmdPrepare s c
  | 4 => rcmdReRaise s c
  | 5 => rcmdStop s c
  | 6 => rcmdHold s c
  | 7 => rcmdResume s c
  | 8 => rcmdDiscard s c
  | _ => rRefuse s

/-! ## NODE_ID and TRL.CFG (R342, R363) -/

/-- A write of NODE_ID: after a change every UP Chroip port sends a HELLO (R342). -/
def nodeIdWrite (s : State) (w : Word) : State :=
  if anyRaising s then statSet s pgTim2 0
  else
    let k := pgTim2 + 0x40
    let v := w &&& 0x8000FFFF
    if regGet s k = v then s
    else
      (List.range 48).foldl (fun s p =>
        if portUp s p then
          let b := helloBody s p
          sendTrain (setLink s p { linkOf s p with ownHello := BitVec.ofNat 112 b }) p b
        else s) (regSet s k v)

/-- NODE_ID_WRITE (R342). -/
def execNodeIdWrite (w : BitVec 32) (s : State) : Host.Outcome State Fault Refusal := .next (nodeIdWrite s w)

/-- A write of TRL.CFG: a change of MODE is refused while a context holds a raising (R363). -/
def trlCfgWrite (s : State) (w : Word) : State :=
  if anyRaising s && w.getLsbD 1 ≠ regBit s (pgTrl + 0x40) 1 then statSet s pgTrl 0
  else replayRun (regPut s (pgTrl + 0x40) 0 2 (wfield w 0 2))

/-- TRL_CFG_WRITE (R363). -/
def execTrlCfgWrite (w : BitVec 32) (s : State) : Host.Outcome State Fault Refusal := .next (trlCfgWrite s w)

end Sys2Proof.Machine
end

