-- ==== Sys2Proof/Machine/KeyOps.lean ====
section
/-! DEFINITION. Key sets (R365, R366), and contexts that lose them (R379, R380). -/
namespace Sys2Proof.Machine
open Sys2Proof

/-- Die `d` generates a key set for a domain: a new generation, under which no stored line was written
(R218, R366). -/
def makeKeys (s : State) (d dom : Nat) : State :=
  { s with sec.memKey := tabSet 0 (d * 257 + dom) s.sec.keyGen s.sec.memKey
           sec.keyGen := s.sec.keyGen + 1 }

/-- The key set of a domain on die `d` is destroyed. -/
def dropKeys (s : State) (d dom : Nat) : State :=
  { s with sec.memKey := tabSet 0 (d * 257 + dom) 0 s.sec.memKey }

/-- Die `d`'s whole key store is erased (R366). -/
def eraseStore (s : State) (d : Nat) : State :=
  { s with sec.memKey := tabDrop (fun k => k / 257 = d) s.sec.memKey }

/-- The dies of a partition's live map, in order. -/
def partDies (s : State) (p : Nat) : List Nat := (List.range 16).filter (bitOf (liveDies s p))

/-- The contexts that exist in partition `p` (R379). -/
def createdIn (s : State) (p : Nat) : List Nat :=
  (ctxList s).filter fun c => (ctx s c).state ≠ CtxState.free && (ctx s c).part = p

/-- A context loses its keys (R380): it is faulted, its import ends with BAD_MSG, its session keys are
erased (R390), and its raising, if it holds one, takes KEYS_LOST. -/
def keysLost (s : State) (c d : Nat) : State :=
  let x := ctx s c
  let s := if x.importing.isSome then regPut s (pgSec + 0x44) 8 4 2 else s
  let s := setCtx s c { x with
    state := .faulted, session := none, sessIn := none, sessOut := none, sessOpen := none, importing := none }
  if ctxHolds s c then fault s 0x15 pgSec 0 d (some c) else s

/-- Die `d` leaves partition `p`, or loses its keys: the partition's contexts fault. -/
def dieKeysLost (s : State) (p d : Nat) : State :=
  (createdIn s p).foldl (fun s c => keysLost (dropKeys s d c) c d) s

end Sys2Proof.Machine
end

