-- ==== Sys2Proof/Machine/RaiseCmd.lean ====
section
/-! DEFINITION. Command frames that arrive: their travel (R314, R315, R344) and their effects on raisings
(R282, R348 to R355). -/
namespace Sys2Proof.Machine
open Sys2Proof

/-- The context that a command of raising `rid` acts on (R348): the first whose raising, or else whose
successor, has that RAISE_ID; of a context with both, `su` prefers the successor. -/
def cmdCtx (s : State) (rid : Nat) (su : Bool) : Option (Nat × Bool) :=
  (ctxList s).findSome? fun c =>
    let a := (raising s c).state ≠ .none && (raising s c).raiseId.toNat = rid
    let b := (ctx s c).succ.any fun q => q.raiseId.toNat = rid
    if rid = 0 then none
    else if b && (su || !a) then some (c, true)
    else if a then some (c, false)
    else none

/-- Whether a command of a code concerns phase one or two, and so the raising that is being prepared. -/
def phaseCode (code : Nat) : Bool := code = 4 || code = 6 || code = 7 || code = 8 || code = 9

/-- BRACE (R282): a member that has already begun frame S faults; a raising or successor that is still COMMITTED keeps it
until its frame 0. -/
def braceAct (s : State) (c : Nat) (su : Bool) (id : Nat) (f : BitVec 64) : State :=
  let keep := fun (q : Raising) => { q with brace := some (BitVec.ofNat 16 id, f) }
  let r := raising s c
  if su then (match (ctx s c).succ with
    | some q => if q.state = .committed then setCtx s c { ctx s c with succ := some (keep q) } else s
    | none => s)
  else if r.state = .committed then setRaising s c (keep r)
  else if r.state ≠ .running && r.state ≠ .held then s
  else if r.began && f ≤ r.frame then fault s 0x16 (pgSlt 1) 0 id (some c)
  else scheduleBrace s c (BitVec.ofNat 16 id) f

/-- The effect of a command on the context that it names (R348). -/
def cmdEffect (s : State) (f : CmdFrame) (c : Nat) (su : Bool) : State :=
  let w := fun o n => BitVec.ofNat 64 (cBody f o n)
  let digest : BitVec 256 := BitVec.ofNat 256 (cBody f 0 32)
  match cCode f with
  | 1 => stopAct s c su (w 0 8)
  | 2 => if su then s else holdAct s c (w 0 8)
  | 3 => if su then s else resumeAct s c (w 0 8)
  | 4 => phaseTake s c su (cOrigin f)
      { digest := digest, start := w 32 8, rot := w 40 8, old := BitVec.ofNat 16 (cBody f 48 2), stop := w 56 8 }
  | 5 => braceAct s c su (cBody f 0 2) (w 8 8)
  | 6 => phaseTake s c su (cOrigin f) { digest := digest, start := w 32 8, rot := w 40 8, old := 0, stop := 0 }
  | 7 => prepAckTake s c su (cOrigin f) (cBody f 0 1) (cBody f 2 2) (cBody f 4 4)
  | 8 => commitAct s c su digest (w 32 8)
  | 9 => abortAct s c su (cBody f 0 1)
  | _ => s

/-- A package acts on a command: a CACK ends its wait; the others act on their context and go to queue 31
(R315, R348). -/
def cmdAct (s : State) (f : CmdFrame) : State :=
  let code := cCode f
  if code = 11 then cackTake s f
  else if code = 0 || 11 < code then s
  else
    match cmdCtx s (cRaiseId f) (phaseCode code) with
    | none => s
    | some (c, su) => cmdEffect (deliverCmd s f) f c su

/-- The CACK of a directed command (R315). -/
def sendCack (s : State) (f : CmdFrame) : State :=
  if cAckReq f then directCmd s (cOrigin f) 11 false (cRaiseId f) 4 (cSeq f).toNat else s

/-- A command arrives on a port, or through the management port (R315, R316, R344). -/
def commandRx (s : State) (p : Option Nat) (f : CmdFrame) : State :=
  let e := match p with | some p => p / 16 | none => 1
  let s := lseCount s e 0x118
  if cReserved f then s
  else if cmdSeen s f then lseCount s e 0x11C
  else
    let s := noteSeen s f
    let bad := cCode f = 0 || 11 < cCode f
    let s := if bad then lseCount s e 0x120 else s
    let last := 63 ≤ cHops f
    if cFlood f then
      let s := cmdAct s f
      if last then s else floodOn s (cHop f) p
    else if cDst f = nodeId s then (if bad then s else cmdAct (sendCack s f) f)
    else if last then s
    else directOn s e (cHop f)

/-- COMMAND_RX (R315). -/
def execCommandRx (p : Option (Fin 48)) (f : CmdFrame) (s : State) : Host.Outcome State Fault Refusal :=
  .next (commandRx s (p.map (·.val)) f)

/-! ## Effects alone

Each row below is the effect of one code on this package, without the command's travel. -/

/-- A command frame with its code. -/
def cWith (f : CmdFrame) (code : Nat) : CmdFrame :=
  { f with hdr := BitVec.ofNat 176 (setBits f.hdr.toNat 48 8 code) }

/-- STOP (R353). -/
def execStop (f : CmdFrame) (s : State) : Host.Outcome State Fault Refusal := .next (cmdAct s (cWith f 1))

/-- HOLD (R353). -/
def execHold (f : CmdFrame) (s : State) : Host.Outcome State Fault Refusal := .next (cmdAct s (cWith f 2))

/-- RESUME (R353). -/
def execResume (f : CmdFrame) (s : State) : Host.Outcome State Fault Refusal := .next (cmdAct s (cWith f 3))

/-- RE_RAISE (R355). -/
def execReRaise (f : CmdFrame) (s : State) : Host.Outcome State Fault Refusal := .next (cmdAct s (cWith f 4))

/-- BRACE (R282). -/
def execBrace (f : CmdFrame) (s : State) : Host.Outcome State Fault Refusal := .next (cmdAct s (cWith f 5))

/-- PREPARE (R349). -/
def execPrepare (f : CmdFrame) (s : State) : Host.Outcome State Fault Refusal := .next (cmdAct s (cWith f 6))

/-- PREPARE_ACK (R349). -/
def execPrepareAck (f : CmdFrame) (s : State) : Host.Outcome State Fault Refusal := .next (cmdAct s (cWith f 7))

/-- COMMIT (R350). -/
def execCommit (f : CmdFrame) (s : State) : Host.Outcome State Fault Refusal := .next (cmdAct s (cWith f 8))

/-- ABORT (R349). -/
def execAbort (f : CmdFrame) (s : State) : Host.Outcome State Fault Refusal := .next (cmdAct s (cWith f 9))

/-- FAULT_REPORT (R348). -/
def execFaultReport (f : CmdFrame) (s : State) : Host.Outcome State Fault Refusal := .next (cmdAct s (cWith f 10))

/-- CACK (R315). -/
def execCack (f : CmdFrame) (s : State) : Host.Outcome State Fault Refusal := .next (cmdAct s (cWith f 11))

end Sys2Proof.Machine
end

