-- ==== Sys2Proof/Machine/VaultHost.lean ====
section
/-! DEFINITION. The vault outside the bundles: refresh and scrub (R209, R212, R219, R220), host accesses and
the host engine (R213, R214, R246, R382, R441), windows, retired rows and initialisations (R206, R218,
R221, R223). -/
namespace Sys2Proof.Machine
open Sys2Proof

/-! ## Refresh and scrub -/

/-- Whether a precharge that AP implies is still to come for bank `b` of vault `v`, no later than R208
allows for the frame that began in cycle `t0`. -/
def impliedComes (s : State) (v b t0 : Nat) : Bool :=
  s.clu.pipe.any fun e => e.unit = v && e.stage ≤ t0 + refreshPos s + 3 &&
    (match e.act with
     | .vaultPre x auto => auto && x.toNat = b
     | _ => false)

/-- REFRESH (R209): at the first position of the refresh window, open rows for which no implied precharge is
on its way are closed with rule 14 (R208, R212), and L/1,024 rows of each bank are refreshed. -/
def execRefresh (v : Fin 1024) (s : State) : Host.Outcome State Fault Refusal :=
  let t0 := originOf s v.val
  let s := advance s (max s.clu.cyc (t0 + refreshPos s))
  let s := (List.range 32).foldl (fun s b =>
    if (openRow s v.val b).isSome && !impliedComes s v.val b t0 then
      vaultBreach (setOpenRow s v.val b none) v.val 14 b (refreshPos s)
    else s) s
  let n := frameLen s / 1024
  let r := (tabGet 0 v.val s.vlt.refPtr + n) % vaultRows
  let s := countEv s (pgVlt v.val) none .refresh (32 * n)
  .next { s with vlt.refPtr := tabSet 0 v.val r s.vlt.refPtr }

/-- A bank-row as RETIRE, SCRUB_POS and the revisit list name it: ROW + 2^15 × BANK. -/
def bankRowOfs (x : Nat) : Nat := vaultOfs (x % 0x8000) (x / 0x8000) 0 0

/-- The scrubber reads the line at `u`: corrections waiting for it are written back, and an uncorrectable
line becomes zero data with POISON (R219, R220). A free row holds no line of an owner. -/
def scrubLine (s : State) (v u : Nat) : State :=
  match rowOwner s v (u / 0x10000) with
  | none => s
  | some dom =>
    let f := tabGet [] v s.vlt.fixup
    let s := if f.contains (u / 64) then
        { s with vlt.side := tabSet Side.init (lineKey v u) { sideOf s v u with bad := 0 } s.vlt.side
                 vlt.fixup := tabSet [] v (f.erase (u / 64)) s.vlt.fixup }
      else s
    let k := lineKind s v u dom
    let s := noteLine s v u 2 k
    if k.1 = 1 then storeLine s v u dom 0 true else s

/-- The scrubber reads `n` lines of a bank-row, which it has activated, from line `i` of it (R395). -/
def scrubLines (s : State) (v x i n : Nat) : State :=
  let s := baseCols (countEv s (pgVlt v) none .activation 1) v (n / 2)
  (List.range n).foldl (fun s k => scrubLine s v (bankRowOfs x + 64 * (i + k))) s

/-- The patrol moves to its next bank-row: rows in order, then banks (R220). -/
def patrolOn (s : State) (v x : Nat) : State :=
  let row := x % 0x8000 + 1
  let next := if row < vaultRows then row + x / 0x8000 * 0x8000 else (x / 0x8000 + 1) * 0x8000
  let s := { s with vlt.scrubHalf := tabSet false v false s.vlt.scrubHalf }
  if next < 32 * 0x8000 then regSet s (pgVlt v + 0x4C) (BitVec.ofNat 32 next)
  else irq (cntAdd (regSet s (pgVlt v + 0x4C) 0) (pgVlt v + 0x50) 1) (pgVlt v) 3

/-- The bundles that half `h` of cluster `c` issues from address `a` in `n` positions, with the loop counters `k0`
and `k1`: only LSET and LOOPB turn the sequence (R123). -/
def bundlesAhead (s : State) (c h len : Nat) : Nat → Nat → Nat → Nat → List Nat
  | 0, _, _, _ => []
  | n + 1, a, k0, k1 =>
    if len ≤ a then []
    else
      let b := (bundleOf s c h a).toNat
      let w := bitsOf b 228 24
      let one := bitOf w 6
      let k := if one then k1 else k0
      let put (x : Nat) := if one then (k0, x) else (x, k1)
      let next :=
        if bitsOf w 0 6 = 0x10 then (a + 1, put (bitsOf w 7 16))
        else if bitsOf w 0 6 = 0x11 && k ≠ 0 then (bitsOf w 7 13, put (k - 1))
        else (a + 1, k0, k1)
      b :: bundlesAhead s c h len n next.1 next.2.1 next.2.2

/-- The banks that a bundle's L operation activates, accesses or precharges (R149, R150). -/
def bundleBanks (b : Nat) : List Nat :=
  let w := bitsOf b 124 40
  let ride := if bitOf w 19 then [bitsOf w 20 5] else []
  match bitsOf w 0 5 with
  | 1 => ride
  | 2 | 3 | 4 | 5 => bitsOf w 9 5 :: ride
  | 6 => [bitsOf w 9 5]
  | _ => []

/-- The banks that half `h` of cluster `c` touches in positions 0 to L/128 + 15 of a frame (R208, R220). -/
def banksAhead (s : State) (c h : Nat) : List Nat :=
  (bundlesAhead s c h (tagOf s c h).length.toNat (scrubEnd s + 16) 0 (lcOf s c 0).toNat (lcOf s c 1).toNat).flatMap
    bundleBanks

/-- The banks that the present frame's bundles touch in those positions. -/
def banksNow (s : State) (v : Nat) : List Nat :=
  if clusterIssues s v then banksAhead s v (seqOf s v).runHalf.toNat else []

/-- The banks that the coming frame's bundles touch in those positions, if it is one of contents: those of the half
that NEXT_BENT names (R122). -/
def banksNext (s : State) (v : Nat) : List Nat :=
  let q := seqOf s v
  match clusterPart s v with
  | none => []
  | some _ =>
    ([q.runHalf.toNat, 1 - q.runHalf.toNat].filter fun h => (tagOf s v h).valid && (tagOf s v h).index = q.nextBent).flatMap
      (banksAhead s v)

/-- Periods between two segments of the patrol, in 1/1,572,864 of one, for a pass of 786,432 bank-rows in
SCRUB_CFG.PERIOD seconds (R220). -/
def patrolStep (s : State) (v : Nat) : Nat :=
  regField s (pgVlt v + 0x48) 0 16 * (if scrubEnd s < 16 then 800000000 else 1600000000)

/-- Whether the patrol's next segment is due (R220). -/
def patrolDue (s : State) (v : Nat) : Bool :=
  regField s (pgVlt v + 0x48) 0 16 ≠ 0 && tabGet 0 v s.vlt.patrolAt ≤ 1572864 * nowPeriods s

/-- The bank-row that the scrubber reads next in vault `v`, in a bank outside `banks`: corrected bank-rows before
the patrol's (R220). -/
def scrubPick (s : State) (v : Nat) (banks : List Nat) : Option Nat :=
  let rows := (tabGet [] v s.vlt.revisit).map (·.toNat) ++
    (if patrolDue s v then [regField s (pgVlt v + 0x4C) 0 20] else [])
  rows.find? fun x => !banks.contains (x / 0x8000)

/-- The patrol reads its next segment. -/
def patrolSegment (s : State) (v : Nat) : State :=
  let half := scrubEnd s < 16
  let x := regField s (pgVlt v + 0x4C) 0 20
  let n := patrolStep s v
  let next := max (tabGet 0 v s.vlt.patrolAt) (1572864 * nowPeriods s - n) + n
  let s := { s with vlt.patrolAt := tabSet 0 v next s.vlt.patrolAt }
  if half && !tabGet false v s.vlt.scrubHalf then
    scrubLines { s with vlt.scrubHalf := tabSet false v true s.vlt.scrubHalf } v x 0 16
  else patrolOn (scrubLines s v x (if half then 16 else 0) (if half then 16 else 32)) v x

/-- The scrubber reads a segment of a corrected bank-row `x`. -/
def revisitSegment (s : State) (v x : Nat) : State :=
  let half := scrubEnd s < 16
  let second := tabGet false v s.vlt.revHalf
  if half && !second then scrubLines { s with vlt.revHalf := tabSet false v true s.vlt.revHalf } v x 0 16
  else
    let l := (tabGet [] v s.vlt.revisit).erase (BitVec.ofNat 20 x)
    scrubLines { s with vlt.revisit := tabSet [] v l s.vlt.revisit, vlt.revHalf := tabSet false v false s.vlt.revHalf }
      v x (if half then 16 else 0) (if half then 16 else 32)

/-- One segment of a bank-row: L/128 columns, at most the 16 that a bank-row has; at the shortest frame a bank-row
takes two. -/
def scrubSegment (s : State) (v x : Nat) : State :=
  if (tabGet [] v s.vlt.revisit).any fun r => r.toNat = x then revisitSegment s v x else patrolSegment s v

/-- The bank-row that the scrubber has opened for the coming window. -/
def scrubOpen (s : State) (v : Nat) : Option Nat :=
  match tabGet 0 v s.vlt.scrubRow with
  | 0 => none
  | x + 1 => some x

/-- Open a bank-row for the coming window, or close it. -/
def setScrubOpen (s : State) (v : Nat) (x : Option Nat) : State :=
  { s with vlt.scrubRow := tabSet 0 v (match x with | none => 0 | some x => x + 1) s.vlt.scrubRow }

/-- SCRUB: one scrub window of vault `v` (R208, R219, R220). The scrubber reads a segment of the row that it opened
in the guard, in a bank that the frame's bundles leave alone, and closes it; without one it skips the window. -/
def execScrub (v : Fin 1024) (s : State) : Host.Outcome State Fault Refusal :=
  let banks := banksNow s v.val
  let row := (scrubOpen s v.val).filter fun x => !banks.contains (x / 0x8000)
  let s := setScrubOpen s v.val none
  .next (match row with
    | some x => scrubSegment s v.val x
    | none => s)

/-! ## Who may read a row (R206, R382) -/

/-- The OUT column that holds a line of context `c`'s slot records: the record's vault offset and column, or
none (R239, R241). -/
def outColumn (s : State) (c v u : Nat) : Option (Nat × Nat) :=
  let h := (ctxImg s c).2
  let base := (ctxRows s v c).1 + hPlanRows h
  let cl := ctxClusters s c
  let col := u / 0x80 % 16
  let row := u / 0x10000
  let p := (row - base) * 32 + u / 0x800 % 32
  match (List.range cl.length).find? fun i => cl[i]? = some v with
  | none => none
  | some i =>
    if row < base || p = 0 || col < 14 || hBatch h ≤ (p - 1) * cl.length + i then none
    else some (u / 0x800 * 0x800, col)

/-- A line of an OUT column, column `col` of the record at `a`, as its ciphertext under the output key `k`; none if
a line of the column fails a check (R217, R382). -/
def outCipher (s : State) (c v u a col : Nat) (k : BitVec 1024) : Option Nat × State :=
  let head := fun (o : Nat) => if (lineKind s v (a + o) c).1 = 0 then lineData s v (a + o) else 0
  let live := liveBank (bitsOf (head 0) 320 32) (bitsOf (head (7 * 0x80)) 320 32)
  let session := bitsOf (head (if live = 0 then 0 else 7 * 0x80)) 352 32
  let x := readLine (countCols s v 1) v (a + col * 0x80) c 1
  let y := readLine x.2.2 v (a + col * 0x80 + 64) c 1
  let d := x.1 + y.1 <<< 512
  let e := xts true (k.extractLsb' 512 512) (session * 2 ^ 32 + d % 2 ^ 32) (natBytes 128 d)
  (if x.2.1 = 0 && y.2.1 = 0 then some (bitsOf (bytesNat e) (512 * (u / 64 % 2)) 512) else none, y.2.2)

/-- A masked read of a line: its ciphertext in an OUT column, else zeros, which the SEC counts (R382). -/
def maskedLine (s : State) (c v u : Nat) : Option Nat × State :=
  match outColumn s c v u, (ctx s c).ioKeys with
  | some (a, col), some k => outCipher s c v u a col k
  | _, _ => (some 0, countMasked s 1)

/-- A line as a host requester reads it; none if the read is refused or a check fails (R217, R382). -/
def hostLine (s : State) (who : Requester) (v u dom : Nat) : Option Nat × State :=
  match rowAccess s dom who false with
  | 2 => (none, s)
  | 1 => maskedLine s dom v u
  | _ =>
    let x := readLine (countCols s v 1) v u dom 1
    (if x.2.1 = 0 then some x.1 else none, x.2.2)

/-- A line as an engine on die `src` reads it (R213, R336); none if it gets an error completion. -/
def engineLine (s : State) (src : Nat) (who : Requester) (a : Nat) : Option Nat × State :=
  match dramMap s a with
  | none => (none, s)
  | some (v, u) =>
    let d := v / 64
    let s := countPath s src d 0x44
    match rowOwner s v (u / 0x10000) with
    | none => (none, countPath s src d 0x48)
    | some dom =>
      if !dieServes s d then (none, countPath s src d 0x48)
      else
        let x := hostLine s who v u dom
        if x.1.isSome then x else (none, countPath x.2 src d 0x48)

/-- Lines read in order, lowest first; none if one of them failed. -/
def engineLines (s : State) (src : Nat) (who : Requester) (a : Nat) : Nat → Option Nat × State
  | 0 => (some 0, s)
  | n + 1 =>
    let x := engineLine s src who a
    let y := engineLines x.2 src who (a + 64) n
    (match x.1, y.1 with
     | some p, some q => some (p + q <<< 512)
     | _, _ => none, y.2)

/-- `n` bytes from any address. -/
def engineBytes (s : State) (src : Nat) (who : Requester) (a n : Nat) : Option (List Byte) × State :=
  let o := a % 64
  let x := engineLines s src who (a - o) ((o + n + 63) / 64)
  (x.1.map fun v => natBytes n (v >>> (8 * o)), x.2)

/-! ## A core's accesses (R18, R441, R456) -/

/-- An error completion of a host request to C-die `d`. -/
def hostError (s : State) (d : Nat) (r : HostReq) : State := emit (countPath s 3 d 0x48) (.errorDone r.tag)

/-! ## Serving an access -/

/-- Serve a host read. -/
def hostRead (s : State) (v u dom : Nat) (r : HostReq) : State :=
  let x := hostLine s r.who v u dom
  match x.1 with
  | none => hostError x.2 (v / 64) r
  | some d => emit x.2 (.readDone r.tag (BitVec.ofNat 512 (bitsOf d (8 * (u % 64)) (8 * r.len.toNat))))

/-- Serve a host write: a whole line, or a read-modify-write (R214, R219, R470). -/
def hostWrite (s : State) (v u dom : Nat) (r : HostReq) : State :=
  if writeRefused s v u dom r.who then hostError s (v / 64) r
  else
    let x := putBytes s v u dom r.len.toNat r.data.toNat r.poison
    if x.1 then emit x.2 (.writeDone r.tag) else hostError x.2 (v / 64) r

/-- Serve a host access at its columns. -/
def serveAccess (s : State) (v u : Nat) (r : HostReq) : State :=
  match rowOwner s v (u / 0x10000) with
  | none => hostError s (v / 64) r
  | some dom => if r.write then hostWrite s v u dom r else hostRead s v u dom r

/-! ## The columns of a commit (R241 to R246, R361) -/

/-- The record that a job writes: its context, slot and vault offset of its record's column 0. -/
def commitHome (s : State) (c slot : Nat) : Option (Nat × Nat) := slotHome s c slot

/-- Column `k` of a record's bank as an image gives it: HEAD is made by the SES (R242). -/
def recordColumn (img seq session k : Nat) : Nat :=
  if k = 0 then headOf img seq session else bitsOf img (1024 * k) 1024

/-- The order in which the columns of a bank are written: INPUT, PT0 to PT4, HEAD (R246). -/
def bankCol (i : Nat) : Nat := (i + 1) % 7

/-- Where the next column of a job goes (R239, R241): its vault offset, or none for a job that has none. -/
def jobColumn (s : State) (v : Nat) : HostJob → Option Nat
  | .access _ u => some u
  | .commit d e k _ col _ =>
    match boundOf s d e with
    | none => none
    | some (c, slot) =>
      match slotHome s c slot with
      | none => none
      | some (_, p) =>
        let b := (nextBank s c v p 0 7 40).1
        some (recOfs s c v p (7 * b + (if k = .release then 0 else bankCol col)))
  | .bucket _ c _ _ => some (recOfs s c v 0 (nextBank s c v 0 0 1 4).1)
  | .replay c r col _ _ =>
    if bitsOf r.toNat 0 8 = 2 then some (recOfs s c v 0 (nextBank s c v 0 0 1 4).1)
    else
      match slotHome s c (byteFld r.toNat 4 2) with
      | none => none
      | some (_, p) =>
        let b := (nextBank s c v p 0 7 40).1
        some (recOfs s c v p (7 * b + (if byteFld r.toNat 6 1 = 3 then 0 else bankCol col)))

/-- Write the next column of a session commit; the job and whether its HEAD is written. -/
def writeCommit (s : State) (v c p session seq : Nat) (release : Bool) (img col u : Nat) : State :=
  let _ := p
  if release then writeCol s c v u (seq <<< 320)
  else writeCol s c v u (recordColumn (imagePlain s c session seq img) seq session (bankCol col))

/-- Write a job's next column at `u`, and the job as it then stands. -/
def jobWrite (s : State) (v u : Nat) : HostJob → State × HostJob
  | .access r a => (serveAccess s v a r, .access r a)
  | .commit d e k reason col _ =>
    match boundOf s d e with
    | none => (s, .commit d e k reason col true)
    | some (c, slot) =>
      let p := ((slotHome s c slot).map (·.2)).getD 0
      let q := nextBank s c v p 0 7 40
      let s' := writeCommit q.2.2 v c p (sessionNo d e) q.2.1 (k = .release) (entImage s d e) col u
      (cntAdd s' (pgSes d + 0x5C) 1, .commit d e k reason (col + 1) (k = .release || col = 6))
  | .bucket d c b _ =>
    let q := nextBank s c v 0 0 1 4
    (cntAdd (writeCol q.2.2 c v u (b.toNat + q.2.1 <<< 32)) (pgSes d + 0x5C) 1, .bucket d c b true)
  | .replay c r col st _ =>
    let w := fun o n => byteFld r.toNat o n
    if w 0 1 = 2 then
      let q := nextBank s c v 0 0 1 4
      (cntAdd (writeCol q.2.2 c v u (w 4 2 + q.2.1 <<< 32)) (pgSes (v / 64) + 0x5C) 1, .replay c r col st true)
    else
      let p := ((slotHome s c (w 4 2)).map (·.2)).getD 0
      let q := nextBank s c v p 0 7 40
      let rel := w 6 1 = 3
      (cntAdd (writeCommit q.2.2 v c p (w 12 4) q.2.1 rel (w 128 896) col u) (pgSes (v / 64) + 0x5C) 1,
       .replay c r (col + 1) st (rel || col = 6))

/-! ## The timing of a burst (R210, R211, R213) -/

/-- A bank that a burst has opened: its row, activation and latest read and write. -/
structure BurstBank where
  bank : Nat
  row  : Nat
  act  : Nat
  rd   : Option Nat
  wr   : Option Nat
deriving DecidableEq, Repr

/-- A burst of the host engine: its activations, newest first, its latest read and write, and its banks. -/
structure Burst where
  acts  : List Nat
  rd    : Option Nat
  wr    : Option Nat
  banks : List BurstBank
deriving DecidableEq, Repr

/-- An instant `n` after another one, 0 if there is none. -/
def afterOpt (x : Option Nat) (n : Nat) : Nat := match x with | none => 0 | some t => t + n

/-- The earliest precharge of a bank. -/
def bankPre (b : BurstBank) : Nat := max (b.act + 28) (max (afterOpt b.rd 2) (afterOpt b.wr 4))

/-- The bank of a column with its row open, and the activations then (R211). -/
def burstOpen (x : Burst) (bank row : Nat) : BurstBank × List Nat :=
  let free := max (afterOpt x.acts.head? 1) (afterOpt (x.acts[7]?) 16)
  match x.banks.find? fun b => b.bank = bank with
  | some b =>
    if b.row = row then (b, x.acts)
    else
      let t := max free (max (bankPre b + 12) (b.act + 40))
      ({ bank := bank, row := row, act := t, rd := none, wr := none }, t :: x.acts)
  | none => ({ bank := bank, row := row, act := free, rd := none, wr := none }, free :: x.acts)

/-- Place a column at the earliest position from `first` that R211 allows; `last` bounds the precharge of its
bank. -/
def burstPlace (x : Burst) (first last bank row : Nat) (write : Bool) : Option Burst :=
  let o := burstOpen x bank row
  let b := o.1
  let any := max (afterOpt x.rd 1) (afterOpt x.wr 1)
  let t := max first (max any (max (b.act + 16)
    (if write then afterOpt x.rd 2 else max (afterOpt x.wr 3) (afterOpt b.wr 8))))
  let b := if write then { b with wr := some t } else { b with rd := some t }
  if bankPre b ≤ last then
    some { acts := o.2, rd := if write then x.rd else some t, wr := if write then some t else x.wr,
           banks := b :: x.banks.filter fun y => y.bank ≠ bank }
  else none

/-- Place what a job's next column takes: a read, a write, or a read and a write of one column (R214). Bank `no` is
the scrubber's, which the host engine never uses (R213). -/
def burstJob (x : Burst) (first last : Nat) (no : Option Nat) (j : HostJob) (u : Nat) : Option Burst :=
  let b := u / 0x800 % 32
  let r := u / 0x10000
  if no = some b then none
  else match j with
  | .access q _ =>
    if !q.write then burstPlace x first last b r false
    else if q.len = 64 then burstPlace x first last b r true
    else (burstPlace x first last b r false).bind fun y => burstPlace y first last b r true
  | _ => burstPlace x first last b r true

/-- The queue after one of its jobs was served: a served access is gone, a commit waits for its completion. -/
def jobNext (l : List HostQ) (old : HostQ) (j : HostJob) : List HostQ :=
  match j with
  | .access _ _ => l.erase old
  | _ => updFirst (fun q => q = old) (fun q => { q with job := j }) l

/-- The next column of an initialisation (R218). -/
def initColumn (i : InitRun) : Nat := (i.first + i.next / 512) * 0x10000 + i.next % 512 * 0x80

/-- Write one column of an initialisation. HOST_COLS does not count it, and a retired bank-row does not refuse it: DESIGN
CHOICEs (log 129), R221 and R223 speak of host accesses alone. -/
def initWrite (s : State) (v : Nat) (i : InitRun) : State :=
  let s := baseCols s v 1
  let u := initColumn i
  setInit (storeLine (storeLine s v u i.dom 0 false) v (u + 64) i.dom 0 false) v
    (some { i with next := i.next + 1 })

/-- A burst of the host engine: the jobs of the queue in order (R246), then the initialisation, as far as
the positions reach. -/
def serveBurst (v first last : Nat) : Nat → Burst → State → State
  | 0, _, s => s
  | n + 1, x, s =>
    match (hostQ s v).find? fun q => !q.aborted && !q.late && !jobDone q.job with
    | some q =>
      (match jobColumn s v q.job with
       | none => serveBurst v first last n x (setHostQ s v ((hostQ s v).erase q))
       | some u =>
         match burstJob x first last ((scrubOpen s v).map (· / 0x8000)) q.job u with
         | none => s
         | some y =>
           let s := countEv s (pgVlt v) none .activation (y.acts.length - x.acts.length)
           let r := jobWrite s v u q.job
           serveBurst v first last n y (setHostQ r.1 v (jobNext (hostQ r.1 v) q r.2)))
    | none =>
      match initOf s v with
      | none => s
      | some i =>
        if i.aborted || i.rows * 512 ≤ i.next then s
        else
          let u := initColumn i
          match (if (scrubOpen s v).map (· / 0x8000) = some (u / 0x800 % 32) then none
            else burstPlace x first last (u / 0x800 % 32) (u / 0x10000) true) with
          | none => s
          | some y =>
            serveBurst v first last n y
              (initWrite (countEv s (pgVlt v) none .activation (y.acts.length - x.acts.length)) v i)

/-- An empty burst. -/
def Burst.init : Burst := { acts := [], rd := none, wr := none, banks := [] }

/-- Whether the present frame is host-open for vault `v` (R213). -/
def hostOpenNow (s : State) (v : Nat) : Bool :=
  match clusterPart s v with
  | none => true
  | some p =>
    let k := (part s p).kind
    k = .none || k = .stopped || k = .idle || (k = .contents && (seqOf s v).nullFrame)

/-- Whether the host engine makes accesses in the present frame at all (R213). -/
def hostServes (s : State) (v : Nat) : Bool :=
  hostOpenNow s v || (match clusterPart s v with
    | none => true
    | some p => (part s p).kind = .contents)

/-- In the guard, at least 16 tick-clock periods before the tick, the scrubber opens its row for the coming scrub
window (R220). -/
def scrubGuard (s : State) (v periods : Nat) : State :=
  setScrubOpen s v (if 16 ≤ periods then scrubPick s v (banksNext s v) else none)

/-- HOST_ENGINE_GUARD: a host-open frame's positions, if the command says that the frame is one and it is,
and the guard of `periods` tick-clock periods, in which the scrubber opens its row (R213, R220, R246, R248). -/
def execHostEngineGuard (v : Fin 1024) (periods : Nat) (hostOpen : Bool) (s : State) :
    Host.Outcome State Fault Refusal :=
  .next (
    if !hostServes s v.val || !dieServes s (v.val / 64) then scrubGuard s v.val periods
    else
      let s := if hostOpen && hostOpenNow s v.val then
          serveBurst v.val (scrubEnd s) (refreshPos s - 1) (frameLen s) Burst.init s else s
      let s := scrubGuard s v.val periods
      if periods < 41 then s else serveBurst v.val 16 (periods - 13) periods Burst.init s)

/-! ## Windows (R206) -/

/-- Whether vault `v` may take a window: inside the bank, clear of the others and of retired rows. -/
def windowOk (s : State) (v : Nat) (w : Nat × Nat) (but : Nat) : Bool :=
  w.1 + w.2 ≤ vaultRows &&
  !(but ≠ domCarve && winMeet w (carveRows s v)) &&
  !((List.range 256).any fun c => c ≠ but && winMeet w (ctxRows s v c)) &&
  !((List.range 16).any fun n =>
    let r := regNat s (pgVlt v + 0x800 + 4 * n)
    bitOf r 31 && inWin w (r % 0x8000))

/-- A write of CTX_ROWS c. -/
def ctxRowsWrite (s : State) (v c : Nat) (w : Word) : State :=
  let x := w &&& 0x7FFF7FFF
  if windowOk s v (winOf x) c && !ctxHolds s c then regSet s (pgVlt v + 0x400 + 4 * c) x else statSet s (pgVlt v) 0

/-- CTX_ROWS_WRITE (R206). -/
def execCtxRowsWrite (v : Fin 1024) (c : Fin 256) (w : BitVec 32) (s : State) : Host.Outcome State Fault Refusal :=
  .next (onServed s (pgVlt v.val) fun s => ctxRowsWrite s v.val c.val w)

/-- A write of CARVE. -/
def carveWrite (s : State) (v : Nat) (w : Word) : State :=
  let x := w &&& 0x7FFF7FFF
  if windowOk s v (winOf x) domCarve then regSet s (pgVlt v + 0x44) x else statSet s (pgVlt v) 0

/-- CARVE_WRITE (R206). -/
def execCarveWrite (v : Fin 1024) (w : BitVec 32) (s : State) : Host.Outcome State Fault Refusal :=
  .next (onServed s (pgVlt v.val) fun s => carveWrite s v.val w)

/-- A write of IMAP on instance 0 of C-die `d`: only while no vault of the die has a window. -/
def imapWrite (s : State) (d : Nat) (w : Word) : State :=
  if (dieVaults d).all fun v => (carveRows s v).2 = 0 && (List.range 256).all fun c => (ctxRows s v c).2 = 0 then
    regSet s (pgVlt (64 * d) + 0x40) (w &&& 3)
  else statSet s (pgVlt (64 * d)) 0

/-- IMAP_WRITE (R206). -/
def execImapWrite (d : Fin 16) (w : BitVec 32) (s : State) : Host.Outcome State Fault Refusal :=
  .next (onServed s (pgVlt (64 * d.val)) fun s => imapWrite s d.val w)

/-! ## Retired rows and initialisation (R218, R221) -/

/-- Add a bank-row to the retired-row table of vault `v`; false if the table refuses it. -/
def retireAdd (s : State) (v row bank : Nat) : State × Bool :=
  let n := regField s (pgVlt v + 0x6C) 0 5
  if vaultRows ≤ row || 16 ≤ n || isRetired s v row bank then (s, false)
  else
    (regPut (regSet s (pgVlt v + 0x800 + 4 * n) (BitVec.ofNat 32 (row + bank * 0x8000 + 0x80000000)))
      (pgVlt v + 0x6C) 0 5 (n + 1), true)

/-- A write of RETIRE. -/
def retireWrite (s : State) (v : Nat) (w : Word) : State :=
  let x := retireAdd s v (wfield w 0 15) (wfield w 15 5)
  regPut x.1 (pgVlt v + 0x6C) 8 1 (b2n (!x.2))

/-- RETIRE (R221). -/
def execRetire (v : Fin 1024) (w : BitVec 32) (s : State) : Host.Outcome State Fault Refusal :=
  .next (onServed s (pgVlt v.val) fun s => retireWrite s v.val w)

/-- A write of INIT_CTRL (R218, R223). -/
def initCtrlWrite (s : State) (v : Nat) (w : Word) : State :=
  let k := pgVlt v + 0x70
  if (initOf s v).isSome then statSet s (pgVlt v) 0
  else
    let s := regPut s k 0 9 (wfield w 0 9)
    if !w.getLsbD 31 then s
    else
      let c := wfield w 0 8
      let carve := w.getLsbD 8
      let win := if carve then carveRows s v else ctxRows s v c
      if win.2 = 0 || (!carve && ctxHolds s c) then regPut s k 30 1 1
      else
        setInit (regPut s k 30 1 0) v (some {
          dom := if carve then domCarve else c, next := 0, rows := win.2, first := win.1, aborted := false })

/-- INIT_CTRL_START (R218). -/
def execInitCtrlStart (v : Fin 1024) (w : BitVec 32) (s : State) : Host.Outcome State Fault Refusal :=
  .next (onServed s (pgVlt v.val) fun s => initCtrlWrite s v.val (wset w 31 1 1))

/-- Write the columns of an initialisation that are left. -/
def initRest (v : Nat) : Nat → State → State
  | 0, s => s
  | n + 1, s =>
    match initOf s v with
    | none => s
    | some i => if i.rows * 512 ≤ i.next then s else initRest v n (initWrite s v i)

/-- INIT_COMPLETE: every line of the window is written (R218). -/
def execInitComplete (v : Fin 1024) (s : State) : Host.Outcome State Fault Refusal :=
  .next (match initOf s v.val with
    | none => s
    | some i =>
      if i.aborted then s
      else
        let s := setInit (initRest v.val (i.rows * 512) s) v.val none
        noteLatched (irq s (pgVlt v.val) 2) (v.val / 64) 3 (v.val % 64))

/-! ## Reads that clear (R138, R223, R235, R455, R476) -/

/-- ERR_LOG_READ (R223). -/
def execErrLogRead (v : Fin 1024) (s : State) : Host.Outcome State Fault Refusal := .next (onServed s (pgVlt v.val) fun s => captRead s (pgVlt v.val + 0x60))

/-- CE_LAST_READ (R223). -/
def execCeLastRead (v : Fin 1024) (s : State) : Host.Outcome State Fault Refusal := .next (onServed s (pgVlt v.val) fun s => captRead s (pgVlt v.val + 0x64))

/-- VCOLL_LAST_READ (R223). -/
def execVcollLastRead (v : Fin 1024) (s : State) : Host.Outcome State Fault Refusal := .next (onServed s (pgVlt v.val) fun s => captRead s (pgVlt v.val + 0x74))

/-- DERR_LAST_READ (R235). -/
def execDerrLastRead (c : Fin 1024) (s : State) : Host.Outcome State Fault Refusal := .next (onServed s (pgPln c.val) fun s => captRead s (pgPln c.val + 0x58))

/-- COLL_LAST_READ (R138). -/
def execCollLastRead (c : Fin 1024) (s : State) : Host.Outcome State Fault Refusal := .next (onServed s (pgClu c.val) fun s => captRead s (pgClu c.val + 0x54))

/-- XCOLL_LAST_READ (R455). -/
def execXcollLastRead (r : Fin 64) (s : State) : Host.Outcome State Fault Refusal := .next (onServed s (pgXbr r.val) fun s => captRead s (pgXbr r.val + 0x40))

/-- AUDIT_LAST_READ (R476). -/
def execAuditLastRead (d : Fin 16) (s : State) : Host.Outcome State Fault Refusal := .next (onServed s (pgDbg d.val) fun s => captRead s (pgDbg d.val + 0x44))

end Sys2Proof.Machine
end

