-- ==== Sys2Proof/Machine/Open.lean ====
section
/-! DEFINITION. Open ports and the management port (R329 to R341, R388, R459 to R461). The engines' accesses
to DRAM happen within the command that makes them (log 25). -/
namespace Sys2Proof.Machine
open Sys2Proof

/-! ## Blocks and interfaces -/

/-- A block's number: 0 to 2 for the edge dies, 3 for the management port. -/
def blkNo : OpenBlk → Nat
  | .edge e => e.val
  | .mgt => 3

/-- The page with a block's queues and steering (R460). -/
def blkPage (b : Nat) : Nat := if b < 3 then pgOpn16 b else pgMgt

/-- Receive and transmit queues of a block, and its steering entries. -/
def blkQueues (b : Nat) : Nat := if b < 3 then 64 else 16
def blkSteers (b : Nat) : Nat := if b < 3 then 256 else 32

/-- An interface's page, block, port within the block's numbering, and number. -/
def ifPage : OpenIf → Nat
  | .port p _ => pgOpn p.val
  | .mgt => pgMgt
def ifBlk : OpenIf → Nat
  | .port p _ => p.val / 16
  | .mgt => 3
def ifPort : OpenIf → Nat
  | .port p _ => p.val
  | .mgt => 0
def ifNo : OpenIf → Nat
  | .port _ i => i.val
  | .mgt => 0

/-- An interface's place in the table of pauses. -/
def ifKey : OpenIf → Nat
  | .port p i => pauseKey p.val + i.val
  | .mgt => pauseKey 48

/-- Interfaces of a port in a mode (R329, R337). -/
def modeIfs (mgt : Bool) (mode : Nat) : Nat :=
  if mode = 3 then 0 else if mgt then 1 else 2 ^ mode

/-- Whether an interface exists and is enabled in its port's mode; the port must be in open mode. -/
def ifOn (s : State) (i : OpenIf) : Bool :=
  let k := ifPage i + 0x40
  let mgt := match i with | .mgt => true | _ => false
  (mgt || portKind s (ifPort i) = 2) && ifNo i < modeIfs mgt (regField s k 0 2) && regBit s k (2 + ifNo i)

/-- Whether an interface is up. -/
def ifUp (s : State) (i : OpenIf) : Bool := ifOn s i && regBit s (ifPage i + 0x44) (ifNo i)

/-- Whether an interface has priority flow control (R330). -/
def ifPfc (s : State) (i : OpenIf) : Bool := regBit s (ifPage i + 0x40) 6

/-- An interface sends XOFF or XON on all eight priorities (R330, R341). -/
def pfcSend (s : State) (i : OpenIf) (on : Bool) : State := emit (cntAdd s (ifPage i + 0xB0) 1) (.pfc i on)

/-- OPEN_IF_UP: an enabled interface comes up; training sets the path delays (R329, R339, R341). With the buffer
above its level it sends XOFF at once (R330). -/
def execOpenIfUp (i : OpenIf) (s : State) : Host.Outcome State Fault Refusal :=
  .next (if ifOn s i then
    let up := regBit s (ifPage i + 0x44) (ifNo i)
    let a := drawFree s 16
    let b := drawFree a.2 16
    let s := regSet (regSet b.2 (ifPage i + 0x48) (a.1.setWidth 32)) (ifPage i + 0x4C) (b.1.setWidth 32)
    let s := orReg s (ifPage i + 0x44) (1 <<< ifNo i)
    if !up && ifPfc s i && tabGet false (ifBlk i) s.opn.xoff then pfcSend s i true else s
  else s)

/-- An interface goes down (R329, R341): what its partner paused is free again. -/
def ifDown (s : State) (i : OpenIf) : State :=
  if regBit s (ifPage i + 0x44) (ifNo i) then
    pauseClear (irq (clrReg s (ifPage i + 0x44) (1 <<< ifNo i)) (ifPage i) 1) (ifKey i) 1
  else s

/-- OPEN_IF_DOWN (R329). -/
def execOpenIfDown (i : OpenIf) (s : State) : Host.Outcome State Fault Refusal := .next (ifDown s i)

/-- The page of a port with an IF_CFG register. -/
def openPortPage : OpenPort → Nat
  | .port p => pgOpn p.val
  | .mgt => pgMgt

/-- A write of IF_CFG (R341). -/
def ifCfgWrite (s : State) (pg : Nat) (w : Word) : State :=
  if regField s (pg + 0x44) 0 4 ≠ 0 then statSet s pg 0 else regSet s (pg + 0x40) (w &&& 0x7F)

/-- IF_CFG_WRITE (R341). -/
def execIfCfgWrite (b : OpenPort) (w : BitVec 32) (s : State) : Host.Outcome State Fault Refusal :=
  .next (ifCfgWrite s (openPortPage b) w)

/-! ## Reading a frame (R330, R332) -/

/-- Bytes `o` to `o + n − 1` of a frame, highest first (network byte order). -/
def frameNat (f : List Byte) (o n : Nat) : Nat := bytesBE ((f.drop o).take n)

/-- A frame with bytes replaced, in network byte order. -/
def framePut (f : List Byte) (o n x : Nat) : List Byte := f.take o ++ natBytesBE n x ++ f.drop (o + n)

/-- Ones' complement sum of the 16-bit words of a list of bytes. -/
def onesSum : List Byte → Nat
  | a :: b :: t => a.toNat * 256 + b.toNat + onesSum t
  | [a] => a.toNat * 256
  | [] => 0

/-- The internet checksum of a sum. -/
def onesFold (x : Nat) : Nat :=
  let y := x % 0x10000 + x / 0x10000
  0xFFFF - (y % 0x10000 + y / 0x10000)

/-- Whether an IEEE 802.1Q tag stands at byte `o` of a frame (log 102). -/
def tagAt (f : List Byte) (o : Nat) : Bool := frameNat f o 2 = 0x8100 || frameNat f o 2 = 0x88A8

/-- IEEE 802.1Q tags of a frame, as far as two. -/
def tagCount (f : List Byte) : Nat := if tagAt f 12 then (if tagAt f 16 then 2 else 1) else 0

/-- Where the network header of a frame begins, past one VLAN tag, and the EtherType before it. -/
def netOffset (f : List Byte) : Nat := if tagAt f 12 then 18 else 14
def netType (f : List Byte) : Nat := frameNat f (netOffset f - 2) 2

/-- IP version of a frame as a steering entry names it: 0 for IPv4, 1 for IPv6, 2 for neither or a header that the
frame cuts off. -/
def ipVersion (f : List Byte) : Nat :=
  let o := netOffset f
  if netType f = 0x800 && 5 ≤ frameNat f o 1 % 16 && o + 4 * (frameNat f o 1 % 16) ≤ f.length then 0
  else if netType f = 0x86DD && o + 40 ≤ f.length then 1
  else 2

/-- Values of Next Header that name an IPv6 extension header (log 102). -/
def extHeaders : List Nat := [0, 43, 44, 50, 51, 60, 135, 139, 140, 253, 254]

/-- Whether a frame is an IPv4 fragment or has IPv6 extension headers (R332). -/
def fragOrExt (f : List Byte) : Bool :=
  let o := netOffset f
  match ipVersion f with
  | 0 => frameNat f (o + 6) 2 % 0x4000 ≠ 0
  | 1 => extHeaders.contains (frameNat f (o + 6) 1)
  | _ => false

/-- Where the UDP header of a frame begins, if it holds one. -/
def udpOffset (f : List Byte) : Option Nat :=
  let o := netOffset f
  let u := if ipVersion f = 0 && frameNat f (o + 9) 1 = 17 then some (o + 4 * (frameNat f o 1 % 16))
    else if ipVersion f = 1 && frameNat f (o + 6) 1 = 17 then some (o + 40)
    else none
  u.filter fun u => u + 8 ≤ f.length

/-- Whether the engine checks a frame's checksums (R332). -/
def checksChecked (f : List Byte) : Bool := ipVersion f ≠ 2 && !fragOrExt f

/-- The header of an IPv4 frame. -/
def ipHeader (f : List Byte) : List Byte := (f.drop (netOffset f)).take (4 * (frameNat f (netOffset f) 1 % 16))

/-- Whether the checksum of an IPv4 header is right. -/
def ipGood (f : List Byte) : Bool := ipVersion f = 0 && onesFold (onesSum (ipHeader f)) = 0

/-- The source and destination addresses of a frame. -/
def ipAddrs (f : List Byte) : List Byte :=
  if ipVersion f = 0 then (f.drop (netOffset f + 12)).take 8 else (f.drop (netOffset f + 8)).take 32

/-- The ones' complement sum that a UDP checksum covers: pseudo header, header and data. -/
def udpSum (f : List Byte) (u : Nat) : Nat :=
  onesSum (ipAddrs f) + 17 + frameNat f (u + 4) 2 + onesSum ((f.drop u).take (frameNat f (u + 4) 2))

/-- Whether a frame's UDP checksum is there and right; a checksum of zeros is not there (log 102). -/
def udpGood (f : List Byte) : Bool :=
  match udpOffset f with
  | none => false
  | some u => frameNat f (u + 6) 2 ≠ 0 && 8 ≤ frameNat f (u + 4) 2 && u + frameNat f (u + 4) 2 ≤ f.length &&
      onesFold (udpSum f u) = 0

/-- The destination IP address of a frame as an IPADDR entry holds it (R459). -/
def dstIp (f : List Byte) : Nat :=
  let o := netOffset f
  if ipVersion f = 0 then 0xFFFF <<< 80 + bytesNat ((f.drop (o + 16)).take 4) <<< 96
  else bytesNat ((f.drop (o + 24)).take 16)

/-- Destination address of a frame. -/
def dstMac (f : List Byte) : Nat := frameNat f 0 6

/-- A priority flow control frame of IEEE 802.1Qbb (log 102). -/
def isPfc (f : List Byte) : Bool :=
  dstMac f = 0x0180C2000001 && frameNat f 12 2 = 0x8808 && frameNat f 14 2 = 0x0101

/-- The UDP port of a frame whose UDP header the engine parsed (R332). -/
def udpParsed (f : List Byte) : Option Nat :=
  if checksChecked f then (udpOffset f).map fun u => frameNat f (u + 2) 2 else none

/-! ## Steering (R333, R461) -/

/-- Steering entry `n` of a block. -/
def steerOf (s : State) (b n : Nat) : Nat := (tabGet 0 (b * 256 + n) s.opn.steer).toNat

/-- A write of STEER_HI stores the entry that STEER_IDX addresses (R461). -/
def steerHiWrite (s : State) (b : Nat) (w : Word) : State :=
  let pg := blkPage b
  let n := regField s (pg + 0xE10) 0 8
  let x := regNat s (pg + 0xE14) + w.toNat * 0x100000000
  let s := regSet s (pg + 0xE18) (w &&& 0xF)
  if bitsOf x 36 28 ≠ 0 || blkQueues b ≤ bitsOf x 18 6 || (b = 3 && bitsOf x 26 4 ≠ 0) || blkSteers b ≤ n then
    statSet s pg 0
  else { s with opn.steer := tabSet 0 (b * 256 + n) (BitVec.ofNat 64 x) s.opn.steer }

/-- STEER_HI_WRITE (R461). -/
def execSteerHiWrite (b : OpenBlk) (w : BitVec 32) (s : State) : Host.Outcome State Fault Refusal :=
  .next (steerHiWrite s (blkNo b) w)

/-- Address `j` of an interface (R459), 0 if unused. -/
def ifAddr (s : State) (i : OpenIf) (j : Nat) : Nat :=
  let k := ifPage i + 0x400 + 0x10 * (8 * ifNo i + j)
  (List.range 4).foldl (fun a w => a + regNat s (k + 4 * w) <<< (32 * w)) 0

/-- Whether a steering entry matches a frame that came by an interface (R333, R461). -/
def steerMatch (s : State) (i : OpenIf) (f : EthFrame) (port x : Nat) : Bool :=
  let v := bitsOf x 16 2
  let a := ifAddr s i (bitsOf x 33 3)
  bitOf x 24 && bitsOf x 0 16 = port && (v = 2 || v = ipVersion f.bytes) &&
  (!bitOf x 25 || (bitsOf x 26 4 = ifPort i % 16 && bitsOf x 30 2 = ifNo i)) &&
  (!bitOf x 32 || (a ≠ 0 && a = dstIp f.bytes))

/-- The receive queue of a frame (R333). -/
def rxQueue (s : State) (i : OpenIf) (f : EthFrame) : Nat :=
  let b := ifBlk i
  let ptp := netType f.bytes = 0x88F7 || udpParsed f.bytes = some 319 || udpParsed f.bytes = some 320
  let hit := match udpParsed f.bytes with
    | none => none
    | some port => ((List.range (blkSteers b)).map (steerOf s b)).find? (steerMatch s i f port)
  match hit with
  | some x => bitsOf x 18 6
  | none => if ptp then 1 else 0

/-! ## Rings (R334, R335, R460) -/

/-- Keys of the registers of receive queue, transmit queue and transmit-completion ring. -/
def rxqKey (b q : Nat) : Nat := blkPage b + 0x600 + 0x10 * q
def txqKey (b q : Nat) : Nat := blkPage b + 0xA00 + 0x10 * q
def txcKey (b : Nat) : Nat := blkPage b + 0xE00

/-- Base, size, HEAD and TAIL of the ring whose registers begin at `k`, and whether it runs. -/
def ringBase (s : State) (k : Nat) : Nat := regPair s k % 2 ^ 48
def ringSize (s : State) (k : Nat) : Nat := regField s (k + 8) 0 16
def ringHead (s : State) (k : Nat) : Nat := regField s (k + 12) 0 16
def ringTail (s : State) (k : Nat) : Nat := regField s (k + 12) 16 16
def ringOn (s : State) (k : Nat) : Bool := regBit s (k + 8) 31

/-- Records in a ring. -/
def ringUsed (s : State) (k : Nat) : Nat :=
  let h := ringHead s k
  let t := ringTail s k
  if h ≤ t then t - h else t + ringSize s k - h

/-- RSIZE of a receive queue in bytes. -/
def rxSize (s : State) (k : Nat) : Nat := if regBit s (k + 8) 16 then 10240 else 2048

/-! ## Receive -/

/-- Count a drop on an interface's page (R341). -/
def openDrop (s : State) (pg o : Nat) : State := irq (cntAdd s (pg + o) 1) pg 0

/-- Bytes that wait in the open-port buffer of a block. -/
def bufLevel (s : State) (b : Nat) : Nat := (s.opn.held.filter fun x => x.blk = b).foldl (fun a x => a + x.len) 0

/-- Bytes of an edge die's open-port buffer (R330). -/
def bufSize : Nat := 0x400000

/-- The interfaces of an edge die. -/
def dieIfs (e : Nat) : List OpenIf :=
  (diePorts e).flatMap fun p => (List.range 4).map fun i => .port (Fin.ofNat 48 p) (Fin.ofNat 4 i)

/-- XOFF or XON on every interface of an edge die that is up and has PFC (R330). -/
def sendPfc (s : State) (e : Nat) (on : Bool) : State :=
  ((dieIfs e).filter fun i => ifUp s i && ifPfc s i).foldl (fun s i => pfcSend s i on)
    { s with opn.xoff := tabSet false e on s.opn.xoff }

/-- The buffer of an edge die crosses its levels: 75 % up, 50 % down (R330). -/
def pfcCheck (s : State) (b : Nat) : State :=
  if 3 ≤ b then s
  else
    let l := bufLevel s b
    let x := tabGet false b s.opn.xoff
    if !x && 3 * bufSize ≤ 4 * l then sendPfc s b true
    else if x && 2 * l < bufSize then sendPfc s b false
    else s

/-- Whether an interface accepts a destination address (R330). -/
def dstAccepted (s : State) (i : OpenIf) (a : Nat) : Bool :=
  let pg := ifPage i
  a = 0xFFFFFFFFFFFF || (!bitOf a 40 && a = regPair s (pg + 0x50 + 8 * ifNo i) % 2 ^ 48) ||
  (List.range 64).any fun m =>
    let hi := regNat s (pg + 0x204 + 8 * m)
    bitOf hi 31 && a = regNat s (pg + 0x200 + 8 * m) + hi % 0x10000 * 0x100000000

/-- FLAGS of a receive record (R334). -/
def rxFlags (f : List Byte) : Nat :=
  b2n (checksChecked f && ipGood f) + 2 * b2n (checksChecked f && udpGood f) + 4 * b2n (!checksChecked f) +
    8 * b2n (tagAt f 12)

/-- A receive record (R334). -/
def rxRecord (s : State) (i : OpenIf) (f : EthFrame) : List Byte :=
  natBytes 16 (taiOf (wallAt s f.tp)).toNat ++ natBytes 8 s.time.tick.toNat ++ natBytes 2 f.bytes.length ++
  natBytes 1 (ifPort i + 64 * ifNo i) ++ natBytes 1 (rxFlags f.bytes) ++
  natBytes 2 (if tagAt f.bytes 12 then frameNat f.bytes 14 2 else 0) ++ List.replicate 34 0 ++ f.bytes

/-- Nanosecond quantum of a pause, 512 bit times, in 1/1,000 of a tick-clock period (R329, R337, log 102). -/
def pauseUnit (s : State) (i : OpenIf) : Nat :=
  let mode := regField s (ifPage i + 0x40) 0 2
  match i with
  | .mgt => 16384 >>> mode
  | .port _ _ => 512 <<< mode

/-- A received priority flow control frame sets the pauses of the priorities that it names (R330). -/
def pfcTake (s : State) (i : OpenIf) (f : EthFrame) : State :=
  (List.range 8).foldl (fun s n =>
    if bitOf (frameNat f.bytes 16 2) n then
      let until_ := 1000 * (s.time.periods + f.tp) + frameNat f.bytes (18 + 2 * n) 2 * pauseUnit s i
      { s with opn.paused := tabSet 0 (8 * ifKey i + n) until_ s.opn.paused }
    else s) s

/-- Whether an interface may not send a frame now: its priority, that of its tag or 0, is paused (R330, log 102). -/
def txPaused (s : State) (i : OpenIf) (f : List Byte) (tp : Nat) : Bool :=
  let n := if tagAt f 12 then frameNat f 14 2 / 0x2000 else 0
  ifPfc s i && 1000 * (s.time.periods + tp) < tabGet 0 (8 * ifKey i + n) s.opn.paused

/-- A frame at an interface (R330 to R334). -/
def openRx (s : State) (i : OpenIf) (f : EthFrame) : State :=
  let pg := ifPage i
  let b := ifBlk i
  let n := f.bytes.length
  if !ifUp s i then s
  else if n < 60 || 9212 < n || 1 < tagCount f.bytes then irq s pg 0
  else if isPfc f.bytes && ifPfc s i then pfcTake s i f
  else if !dstAccepted s i (dstMac f.bytes) then openDrop s pg 0xA0
  else if b = 3 && udpParsed f.bytes = some (regField s (pgMgt + 0x70) 0 16) && udpParsed f.bytes ≠ some 0 then s
  else
    let q := rxQueue s i f
    let k := rxqKey b q
    let wait := (s.opn.held.filter fun x => x.blk = b && x.queue = q).length
    if !ringOn s k then openDrop s pg 0xA8
    else if rxSize s k - 64 < n then openDrop s pg 0xA4
    else if ringSize s k ≤ ringUsed s k + wait + 1 || (b < 3 && bufSize < bufLevel s b + n) then openDrop s pg 0xA8
    else
      let s := { s with opn.held :=
        s.opn.held ++ [{ blk := b, queue := q, rcd := rxRecord s i f, len := n, page := pg }] }
      pfcCheck s b

/-- OPEN_FRAME_RX (R333). -/
def execOpenFrameRx (i : OpenIf) (f : EthFrame) (s : State) : Host.Outcome State Fault Refusal :=
  .next (openRx s i f)

/-- OPEN_RX_DELIVER: the oldest waiting record of a queue goes to its ring (R334), if the queue as it then stands
takes it. -/
def execOpenRxDeliver (b : OpenBlk) (q : BitVec 6) (s : State) : Host.Outcome State Fault Refusal :=
  let n := blkNo b
  let k := rxqKey n q.toNat
  .next (match s.opn.held.find? fun x => x.blk = n && x.queue = q.toNat with
    | none => s
    | some x =>
      let s := pfcCheck { s with opn.held := s.opn.held.erase x } n
      if !ringOn s k || ringFull (ringHead s k) (ringTail s k) (ringSize s k) then openDrop s x.page 0xA8
      else if rxSize s k - 64 < x.len then openDrop s x.page 0xA4
      else
        let t := ringTail s k
        let s := carveWrites s n (ringBase s k + rxSize s k * t) x.rcd.length (bytesNat x.rcd)
        regPut s (k + 12) 16 16 (ringNext t (ringSize s k)))

/-! ## Transmit (R335, R336, R340) -/

/-- Insert the IPv4 header checksum. -/
def putIpSum (f : List Byte) : List Byte :=
  let o := netOffset f
  if ipVersion f = 0 then
    let g := framePut f (o + 10) 2 0
    framePut g (o + 10) 2 (onesFold (onesSum (ipHeader g)))
  else f

/-- Insert the UDP checksum over the pseudo header, the header and the data. -/
def putUdpSum (f : List Byte) : List Byte :=
  match udpOffset f with
  | none => f
  | some u =>
    let g := framePut f (u + 6) 2 0
    let c := onesFold (udpSum g u)
    framePut g (u + 6) 2 (if c = 0 then 0xFFFF else c)

/-- Write a timestamp into originTimestamp of a one-step Sync: 6 bytes of seconds and 4 of nanoseconds at
offset 34 of the message (R340); then the UDP checksum is corrected. -/
def putOrigin (f : List Byte) (t : BitVec 128) : List Byte :=
  let o := match udpOffset f with | some u => u + 8 | none => netOffset f
  let g := framePut (framePut f (o + 34) 6 (t.toNat % 2 ^ 48)) (o + 40) 4 (bitsOf t.toNat 64 32)
  putUdpSum g

/-- Whether a transmit descriptor may be used (R335): reserved fields zero, LEN in range, IF an open
interface of the block. -/
def txGood (s : State) (b x : Nat) : Bool :=
  let len := byteFld x 6 2
  let port := bitsOf x 72 6
  let i := bitsOf x 78 2
  bitsOf x 68 4 = 0 && byteFld x 12 20 = 0 && 60 ≤ len && len ≤ 9212 &&
  (if b = 3 then port = 0 && i = 0 && ifUp s .mgt
   else if h : port < 48 then port / 16 = b && ifUp s (.port ⟨port, h⟩ (Fin.ofNat 4 i)) else false)

/-- The page that counts a bad descriptor of block `b`. -/
def txBadPage (b x : Nat) : Nat := if b = 3 then pgMgt else pgOpn (16 * b + bitsOf x 72 6 % 16)

/-- The frame of a descriptor as it leaves at an instant. -/
def txFrame (flags : Nat) (t : BitVec 128) (f : List Byte) : List Byte :=
  let f := if bitOf flags 0 then putIpSum f else f
  let f := if bitOf flags 1 then putUdpSum f else f
  if bitOf flags 3 then putOrigin f t else f

/-- The completion of a descriptor (R335). -/
def txComplete (s : State) (b : Nat) (t : BitVec 128) (tag : Nat) : State :=
  let k := txcKey b
  let n := ringTail s k
  let x := t.toNat + s.time.tick.toNat <<< 128 + tag <<< 192
  regPut (carveWrites s b (ringBase s k + 32 * n) 32 x) (k + 12) 16 16 (ringNext n (ringSize s k))

/-- Whether a transmit queue has a descriptor to take. -/
def txReady (s : State) (b q : Nat) : Bool :=
  let k := txqKey b q
  ringOn s k && 2 ≤ ringSize s k && ringHead s k ≠ ringTail s k

/-- The next descriptor of a queue, as the engine reads it; none if it gets an error completion. -/
def txNext (s : State) (b q : Nat) : Option (List Byte) × State :=
  let k := txqKey b q
  engineBytes s b .openPort (ringBase s k + 32 * ringHead s k) 32

/-- Whether no completion slot is free (R460). -/
def txcFull (s : State) (b : Nat) : Bool :=
  let c := txcKey b
  !ringOn s c || ringFull (ringHead s c) (ringTail s c) (ringSize s c)

/-- The interface that a descriptor names. -/
def txIf (b x : Nat) : OpenIf :=
  let port := bitsOf x 72 6
  if h : port < 48 then (if b = 3 then .mgt else .port ⟨port, h⟩ (Fin.ofNat 4 (bitsOf x 78 2))) else .mgt

/-- Whether a queue's next descriptor waits: for a completion slot, or for its frame's priority to be free again
(R330, R460). -/
def txWaits (s : State) (b q tp : Nat) : Bool :=
  match (txNext s b q).1 with
  | none => false
  | some l =>
    let x := bytesNat l
    txGood s b x &&
    ((bitOf (byteFld x 8 1) 2 && txcFull s b) ||
     (match (engineBytes s b .openPort (byteFld x 0 6) (byteFld x 6 2)).1 with
      | none => false
      | some f => txPaused s (txIf b x) f tp))

/-- Whether a queue can be served. -/
def txCan (s : State) (b tp q : Nat) : Bool := txReady s b q && !txWaits s b q tp

/-- The queue that is served next: queue 1 before all others, and those in turn after the one served last
(R335). -/
def txTurn (s : State) (b tp : Nat) : Option Nat :=
  let n := blkQueues b
  if txCan s b tp 1 then some 1
  else (((List.range n).map fun j => (tabGet 0 b s.opn.turn + 1 + j) % n).filter (· ≠ 1)).find? (txCan s b tp)

/-- A descriptor's frame leaves: its queue's turn is over unless it is queue 1. -/
def txServed (s : State) (b q : Nat) : State :=
  if q = 1 then s else { s with opn.turn := tabSet 0 b q s.opn.turn }

/-- The engine takes the next descriptor of a queue (R335); one that is bad, or whose frame it cannot read, is
skipped. -/
def openTx (s : State) (b q tp : Nat) : State :=
  let k := txqKey b q
  let d := txNext s b q
  let next := fun (s : State) => regPut s (k + 12) 0 16 (ringNext (ringHead s k) (ringSize s k))
  match d.1 with
  | none => next (openDrop d.2 (txBadPage b 0) 0xAC)
  | some l =>
    let x := bytesNat l
    if !txGood s b x then next (openDrop d.2 (txBadPage b x) 0xAC)
    else
      let f := engineBytes d.2 b .openPort (byteFld x 0 6) (byteFld x 6 2)
      match f.1 with
      | none => next (openDrop f.2 (txBadPage b x) 0xAC)
      | some fr =>
        let flags := byteFld x 8 1
        let t := taiOf (wallAt s tp)
        let s := emit (txServed (next f.2) b q) (.open_ (txIf b x) (txFrame flags t fr))
        if bitOf flags 2 then txComplete s b t (byteFld x 10 2) else s

/-- OPEN_TX: the engine serves a queue, if its turn has come (R335). -/
def execOpenTx (b : OpenBlk) (q : BitVec 6) (tp : Nat) (s : State) : Host.Outcome State Fault Refusal :=
  .next (if txTurn s (blkNo b) tp = some q.toNat then openTx s (blkNo b) q.toNat tp else s)

/-! ## Management commands (R338, R388) -/

/-- The bytes of a command datagram that its tag covers. -/
def mgmtBytes (d : MgmtDatagram) : List Byte :=
  natBytes 8 d.secs.toNat ++ natBytes 8 d.counter.toNat ++ natBytes 22 d.cmd.hdr.toNat ++
    natBytes (cBodyLen d.cmd) d.cmd.body.toNat

/-- Whether the MGT block accepts a command datagram (R388). -/
def mgmtGood (s : State) (d : MgmtDatagram) : Bool :=
  match s.sec.mgmtKey with
  | none => false
  | some key =>
    let now := wallAt s (elapsed s) / secUnits
    gcmTag (natBytes 32 key.toNat) (List.replicate 4 0 ++ natBytes 8 d.counter.toNat) (mgmtBytes d) [] =
      natBytes 16 d.tag.toNat &&
    ((d.secs.toNat : Int) - now).natAbs ≤ 2 &&
    (match s.opn.mgmtCt with | none => true | some c => c < d.counter)

/-- MGMT_COMMAND (R338). -/
def execMgmtCommand (d : MgmtDatagram) (s : State) : Host.Outcome State Fault Refusal :=
  .next (
    if d.port = 0 || d.port.toNat ≠ regField s (pgMgt + 0x70) 0 16 || !ifUp s .mgt then s
    else if mgmtGood s d then commandRx { s with opn.mgmtCt := some d.counter } none d.cmd
    else openDrop s pgMgt 0xB4)

end Sys2Proof.Machine
end

