-- ==== Sys2Proof/Machine/Persist.lean ====
section
/-! DEFINITION. The persistent store (R427 to R433, R437): its writes, and the values that the SEC keeps
in it. -/
namespace Sys2Proof.Machine
open Sys2Proof

/-- Store `n` registers from `i`, the first in the low bits. -/
def pstStoreN (s : State) (i n v : Nat) : State :=
  (List.range n).foldl (fun s k => pstStore s (i + k) (BitVec.ofNat 32 (v >>> (32 * k)))) s

/-- Whether a requester may write register `i` (R428): the retired-page ring's valid entries are never
written again. -/
def pstAllowed (s : State) (who : Requester) (i : Nat) : Bool :=
  (who = .sec || (who = .core && 128 ≤ i)) && !(768 ≤ i && bitOf (regNat s (pstKey i)) 31)

/-- A write arrives at a persistent register (R427, R428). -/
def pstWrite (s : State) (who : Requester) (i : Nat) (v : Word) : State :=
  let pg := pstPage i
  if !pstAllowed s who i then irq (statSet s pg 2) pg 1
  else if regBit s (pg + 0xC) 0 then irq (statSet s pg 1) pg 1
  else
    { orReg s (pg + 0xC) 1 with brd.pstPend := tabIns (i / 256) (i % 256, v) s.brd.pstPend }

/-- PST_WRITE (R427). -/
def execPstWrite (who : Requester) (k : Fin 1024) (w : BitVec 32) (s : State) : Host.Outcome State Fault Refusal :=
  .next (pstWrite s who k.val w)

/-- The write that a page has in progress. -/
def pstPending (s : State) (inst : Nat) : Option (Nat × Word) :=
  (s.brd.pstPend.find? fun e => e.1 = inst).map (·.2)

/-- The write in progress is stored, 2 µs after it arrived (R427). -/
def pstDone (s : State) (inst : Nat) : State :=
  match pstPending s inst with
  | none => s
  | some (i, v) =>
    let s := { s with brd.pstPend := tabErase inst s.brd.pstPend }
    clrReg (pstStore s (256 * inst + i) v) (pgPst inst + 0xC) 1

/-- PST_WRITE_DONE (R427). -/
def execPstWriteDone (inst : Fin 4) (s : State) : Host.Outcome State Fault Refusal := .next (pstDone s inst.val)

/-! ## What the SEC keeps there (R430, R431) -/

/-- Set or remove a banked value (R431): the bank that SELECT does not name, then SELECT, which then names that bank. `lo`
is the first register of bank 0, `b` the BANK bit of SELECT. A removed value leaves zeros in the bank (log 125). -/
def bankStore (s : State) (lo b : Nat) (v : Option (BitVec 512)) : State :=
  let sel := pstNat s 64 1
  let n := 1 - b2n (bitOf sel b)
  pstStore (pstStoreN s (lo + 16 * n) 16 (v.getD 0).toNat) 64
    (BitVec.ofNat 32 (setBits sel b 2 (n + 2 * b2n v.isSome)))

/-- The owner-key hash changes. -/
def ownerStore (s : State) (v : Option (BitVec 512)) : State := bankStore s 0 0 v

/-- The fabric anchor changes. -/
def anchorStore (s : State) (v : Option (BitVec 512)) : State := bankStore s 32 2 v

/-- The minimum SVN of image kind `k`. -/
def minSvn (s : State) (k : Nat) : Nat := pstNat s (65 + k) 1

/-- The seal-history entry that the next event takes (R430): the lowest entry that is zero, or the one
after the entry with the largest time. -/
def sealSlot (s : State) : Nat :=
  let e := fun k => pstNat s (75 + k) 1
  match (List.range 16).find? fun k => e k = 0 with
  | some k => k
  | none =>
    let top := (List.range 16).foldl (fun b k => if e b / 16 < e k / 16 then k else b) 0
    (top + 1) % 16

/-- Seconds of wall time now. -/
def taiSecs (s : State) : Nat := (wallAt s (elapsed s)).toNat / (1000000000 * 2 ^ 56)

/-- The seal state changes, with its history entry: 1 arm, 2 disarm, 3 break, 4 clear (R430). -/
def sealStore (s : State) (state kind : Nat) : State :=
  let k := sealSlot s
  let s := pstStore s 73 (BitVec.ofNat 32 (setBits (pstNat s 73 1) 0 2 state))
  pstStore s (75 + k) (BitVec.ofNat 32 (kind + taiSecs s / 16 % 2 ^ 28 * 16))

end Sys2Proof.Machine
end

