-- ==== Sys2Proof/Machine/Trust.lean ====
section
/-! DEFINITION. The security processor's commands (R364 to R391): certificates, contexts, host sessions,
weight bundles, owner commands, presence and seal. Random numbers are free values (log 7); each row of a command stands for
its completion. -/
namespace Sys2Proof.Machine
open Sys2Proof

/-! ## Results (R391) -/

/-- A command ends: CMD_STAT.RESULT, BUSY 0, and the interrupt. -/
def secDone (s : State) (result : Nat) : State :=
  irq (regPut { s with sec.running := none } (pgSec + 0x44) 8 4 result) pgSec 0

/-- A response goes to the response buffer; one that does not fit ends with BAD_MSG. -/
def secRespond (s : State) (l : List Byte) : State :=
  if regField s (pgSec + 0x5C) 0 20 < l.length then secDone s 2
  else
    let s := (engineWrites s 3 .sec (regPair s (pgSec + 0x54) % 2 ^ 48) l.length (bytesNat l) (l.length / 64 + 2)).2
    secDone { s with sec.rspLen := l.length } 0

/-- Whether the SEC answers BUSY because it reissues the alias certificate (R390). -/
def secBusy (s : State) : Bool := s.sec.reissue

/-- An event asks for a reissue of the alias certificate (R390). -/
def askReissue (s : State) : State :=
  { s with sec.reissue := true, sec.reissueMore := s.sec.reissue }

/-- ALIAS_REISSUE completes (R390, R391): a second event during it is followed by one further reissue. -/
def execAliasReissue (s : State) : Host.Outcome State Fault Refusal :=
  .next (if s.sec.reissue then
    irq (aliasIssue (rawAdd { s with sec.reissue := s.sec.reissueMore, sec.reissueMore := false } (pgSec + 0x80) 1))
      pgSec 2
  else s)

/-! ## Certificates (R368, R369) -/

/-- Certificates 2 to 4, from the root downward. -/
def chainCerts (s : State) : List Byte := Config.deviceCa ++ identityCert s ++ s.sec.aliasCert

/-- CERT_CHAIN (R368). -/
def execCertChain (s : State) : Host.Outcome State Fault Refusal :=
  .next (if secBusy s then secDone s 1 else secRespond s (chainCerts s))

/-- CTX_CERT (R368, R379). -/
def execCtxCert (c : Fin 256) (nonce : BitVec 256) (s : State) : Host.Outcome State Fault Refusal :=
  .next (
    if secBusy s then secDone s 1
    else if (ctx s c.val).state = .free then secDone s 4
    else
      let x := ctxCertOf s c.val (natBytes 32 nonce.toNat)
      secRespond x.2 x.1)

/-! ## Contexts (R379) -/

/-- CTX_CREATE. -/
def ctxCreate (s : State) (c p : Nat) (conf : Bool) : State :=
  if sealState s = 2 || (ctx s c).state ≠ .free then secDone s 3
  else if liveDies s p = 0 then secDone s 2
  else
    let s := (partDies s p).foldl (fun s d => makeKeys s d c) s
    let ck := drawFree s 256
    let x : Ctx := { Ctx.init with
      state := .keyed, conf := conf, access := if conf then 0 else 1, part := p, ck := some ck.1 }
    secDone (setCtx ck.2 c x) 0

/-- CTX_CREATE (R379). -/
def execCtxCreate (c : Fin 256) (part : BitVec 4) (conf : Bool) (s : State) : Host.Outcome State Fault Refusal :=
  .next (ctxCreate s c.val part.toNat conf)

/-- A context's keys on every die are erased. -/
def dropCtxKeys (s : State) (c : Nat) : State :=
  { s with sec.memKey := tabDrop (fun k => k % 257 = c) s.sec.memKey }

/-- CTX_DESTROY. -/
def ctxDestroy (s : State) (c : Nat) : State :=
  if (ctx s c).state = .free then secDone s 4
  else if ctxHolds s c then secDone s 3
  else secDone (setCtx (dropCtxKeys s c) c Ctx.init) 0

/-- CTX_DESTROY (R379). -/
def execCtxDestroy (c : Fin 256) (s : State) : Host.Outcome State Fault Refusal := .next (ctxDestroy s c.val)

/-! ## Host sessions (R371, R372) -/

/-- SESSION_OPEN: message 1 is taken, message 2 goes back. -/
def sessionOpen (s : State) (c : Nat) (nt : BitVec 256) (modulus : List Byte) : State :=
  let x := ctx s c
  let t := sha512 modulus
  if secBusy s then secDone s 1
  else if x.state = .free then secDone s 4
  else if modulus.length ≠ 512 then secDone s 2
  else if x.tenant.isSome && x.tenant ≠ some t then secDone s 3
  else
    let cc := ctxCertOf s c (natBytes 32 nt.toNat)
    let nd := freeBytes cc.2 32
    let sd := freeBytes nd.2 64
    let seed := freeBytes sd.2 64
    let msg1 := natBytes 1 c ++ natBytes 32 nt.toNat ++ modulus
    let msg2 := chainCerts s ++ cc.1 ++ nd.1 ++ oaepSeal modulus [] seed.1 sd.1
    let o : SessOpen := { nt := natBytes 32 nt.toNat, nd := nd.1, sd := sd.1, trans := msg1 ++ msg2, tenant := t }
    secRespond (setCtx seed.2 c { ctx seed.2 c with sessOpen := some o }) msg2

/-- SESSION_OPEN (R371). -/
def execSessionOpen (c : Fin 256) (nt : BitVec 256) (modulus : List (BitVec 8)) (s : State) :
    Host.Outcome State Fault Refusal :=
  .next (sessionOpen s c.val nt modulus)

/-- The session keys of a secret of the tenant and message 3 (R371): tenant to SEC, then SEC to tenant. -/
def sessionKeys (o : SessOpen) (st m : List Byte) : BitVec 512 :=
  BitVec.ofNat 512 (bytesNat (hkdf (st ++ o.sd) (o.nt ++ o.nd) (textBytes "ATB HOST" ++ sha512Bytes (o.trans ++ m)) 64))

/-- SESSION_FINISH: message 3 is verified against the transcript, the session begins, and message 4 goes back. -/
def sessionFinish (s : State) (c : Nat) (m : List Byte) : State :=
  let x := ctx s c
  if x.state = .free then secDone s 4
  else
    match x.sessOpen, x.ck with
    | some o, some ck =>
      if m.length ≠ 1024 then secDone s 2
      else if !pssVerify ((o.trans.drop 33).take 512) (m.drop 512) (sha512Bytes (o.trans ++ m.take 512)) then secDone s 6
      else if x.tenant.isSome && x.tenant ≠ some o.tenant then secDone s 3
      else match oaepOpen (ckOf ck) [] (m.take 512) with
        | none => secDone s 2
        | some st =>
          if st.length ≠ 64 then secDone s 2
          else
            let salt := freeBytes s 64
            secRespond (setCtx salt.2 c { ctx salt.2 c with
              tenant := some o.tenant, session := some (sessionKeys o st m), sessIn := some 0, sessOut := some 0,
              sessOpen := none }) (pssSign (ckOf ck) (sha512Bytes (o.trans ++ m)) salt.1)
    | _, _ => secDone s 2

/-- SESSION_FINISH (R371). -/
def execSessionFinish (c : Fin 256) (m : List (BitVec 8)) (s : State) : Host.Outcome State Fault Refusal :=
  .next (sessionFinish s c.val m)

/-- The result of a sealed message's checks: 0, or the code that refuses it (R371). -/
def sealedCheck (s : State) (c : Nat) (m : SealedMsg) : Nat :=
  let x := ctx s c
  if x.state = .free then 4
  else
    match x.session, x.sessIn with
    | some k, some n =>
      if m.counter ≠ n then 7
      else
        let key := natBytes 32 (k.toNat % 2 ^ 256)
        let nonce := List.replicate 4 0 ++ natBytes 8 m.counter.toNat
        if gcmTag key nonce [] (gcmCrypt key nonce m.body) = natBytes 16 m.tag.toNat then 0 else 2
    | _, _ => 2

/-- The next counter of the session is expected. -/
def sealedNext (s : State) (c : Nat) : State :=
  setCtx s c { ctx s c with sessIn := (ctx s c).sessIn.map (· + 1) }

/-- IO_KEYS (R372): the input pair, then the output pair. -/
def execIoKeys (c : Fin 256) (m : SealedMsg) (s : State) : Host.Outcome State Fault Refusal :=
  .next (
    let r := sealedCheck s c.val m
    if r ≠ 0 then secDone s r
    else
      let s := sealedNext s c.val
      if m.body.length ≠ 128 then secDone s 2
      else secDone (setCtx s c.val { ctx s c.val with ioKeys := some (BitVec.ofNat 1024 (bytesNat m.body)) }) 0)

/-- ACCESS (R372, R382). -/
def execAccess (c : Fin 256) (m : SealedMsg) (s : State) : Host.Outcome State Fault Refusal :=
  .next (
    let r := sealedCheck s c.val m
    if r ≠ 0 then secDone s r
    else
      let s := sealedNext s c.val
      if (ctx s c.val).conf then secDone s 3
      else if m.body.length ≠ 1 then secDone s 2
      else secDone (setCtx s c.val { ctx s c.val with access := BitVec.ofNat 3 (bytesNat m.body) }) 0)

/-- CLOSE (R372). -/
def execHostSessionClose (c : Fin 256) (m : SealedMsg) (s : State) : Host.Outcome State Fault Refusal :=
  .next (
    let r := sealedCheck s c.val m
    if r ≠ 0 then secDone s r
    else secDone (setCtx s c.val { ctx s c.val with session := none, sessIn := none, sessOut := none }) 0)

/-! ## Weight bundles (R373, R374) -/

/-- MAGIC of a bundle. -/
def bundleMagic : Nat := 0x4C444257

/-- The WRAP of the device-set entry that names this device. -/
def bundleWrap (s : State) (set : List Byte) : Option (List Byte) :=
  let me := natBytes 64 (s.sec.bk).toNat
  ((List.range (set.length / 576)).map fun e => (set.drop (576 * e)).take 576).findSome? fun x =>
    if x.take 64 = me then some (x.drop 64) else none

/-- K_w of a WRAP: opened with the binding key, under the hash of the header as its label (R373). -/
def unwrapKey (s : State) (hdr w : List Byte) : Option (List Byte) :=
  (oaepOpen (bkOf s.sec.uds) (sha512Bytes hdr) w).bind fun k => if k.length = 32 then some k else none

/-- The checks of IMPORT_BEGIN: K_w, or the code of the first that fails. -/
def importCheck (s : State) (c : Nat) (hdr set : List Byte) : Except Nat (List Byte) :=
  let h := bytesNat hdr
  let tenant := byteFld h 0x10 64
  if (ctx s c).state = .free then .error 4
  else if sealState s = 2 then .error 3
  else if (ctx s c).importing.isSome || hdr.length ≠ 256 || byteFld h 0 4 ≠ bundleMagic || byteFld h 4 2 ≠ 1 ||
      byteFld h 6 2 = 0 || 4096 < byteFld h 6 2 || byteFld h 0xC 4 = 0 || byteFld h 0x50 176 ≠ 0 ||
      set.length ≠ 576 * byteFld h 6 2 then .error 2
  else
    match bundleWrap s set with
    | none => .error 3
    | some w =>
      if s.sec.svn.getD 0 0 < byteFld h 8 4 then .error 8
      else if tenant ≠ 0 && (ctx s c).tenant ≠ some (BitVec.ofNat 512 tenant) then .error 3
      else match unwrapKey s hdr w with
        | none => .error 2
        | some k => .ok k

/-- IMPORT_BEGIN (R374). -/
def execImportBegin (c : Fin 256) (hdr : List (BitVec 8)) (set : List (BitVec 8)) (s : State) :
    Host.Outcome State Fault Refusal :=
  .next (match importCheck s c.val hdr set with
    | .error r => secDone s r
    | .ok k => secDone (setCtx s c.val { ctx s c.val with importing := some {
        key := BitVec.ofNat 256 (bytesNat k), next := 0, chunks := byteFld (bytesNat hdr) 0xC 4, stream := hdr ++ set } }) 0)

/-- An import ends: K_w is erased (R374). -/
def importStop (s : State) (c : Nat) : State := setCtx s c { ctx s c with importing := none }

/-- Write the lines of a chunk from the start of a row stripe, as host accesses of the SEC (R374). -/
def chunkWrite (s : State) (c v u : Nat) : Nat → Nat → State
  | 0, _ => s
  | n + 1, x =>
    chunkWrite (putBytes (countPath s 3 (v / 64) 0x44) v u c 64 (x % 2 ^ 512) false).2 c v (u + 64) n (x >>> 512)

/-- Where a chunk's data goes: its vault and vault offset, or none if it lies outside the context's rows. -/
def chunkHome (s : State) (c v row len : Nat) : Option (Nat × Nat) :=
  let w := ctxRows s v c
  let rows := (len + 0xFFFF) / 0x10000
  if v < 1024 && clusterPart s v = some (ctx s c).part && row + rows ≤ w.2 then some (v, (w.1 + row) * 0x10000)
  else none

/-- Import one chunk that lies at an address in the carve-out: the state, the bytes it took, and whether
it passed. -/
def importChunk (s : State) (c a : Nat) (x : Import) : State × Nat × Bool :=
  let h := engineBytes s 3 .sec a 16
  match h.1 with
  | none => (h.2, 0, false)
  | some hdr =>
    let n := bytesNat hdr
    let len := byteFld n 8 4
    let s := h.2
    if byteFld n 2 2 ≠ 0 || byteFld n 0xC 4 ≠ 0 || len % 64 ≠ 0 || len = 0 || 65536 < len || x.chunks ≤ x.next then
      (s, 0, false)
    else
      let d := engineBytes s 3 .sec (a + 16) (len + 16)
      match d.1, chunkHome s c (byteFld n 0 2) (byteFld n 4 4) len with
      | some l, some (v, u) =>
        let s := d.2
        let ct := l.take len
        let nonce := List.replicate 4 0 ++ natBytes 8 x.next
        let key := natBytes 32 x.key.toNat
        let bad := (List.range (len / 64)).any fun i =>
          isRetired s v ((u + 64 * i) / 0x10000) ((u + 64 * i) / 0x800 % 32)
        if gcmTag key nonce hdr ct ≠ l.drop len || bad || !dieServes s (v / 64) then (s, 0, false)
        else
          let s := chunkWrite s c v u (len / 64) (bytesNat (gcmCrypt key nonce ct))
          (setCtx s c { ctx s c with importing := some { x with next := x.next + 1, stream := x.stream ++ hdr ++ l } },
           32 + len, true)
      | _, _ => (d.2, 0, false)

/-- Import `n` chunks in stream order; a chunk that fails ends the import (R374). -/
def importChunks (c : Nat) : Nat → Nat → State → State
  | 0, _, s => secDone s 0
  | n + 1, a, s =>
    match (ctx s c).importing with
    | none => secDone s 2
    | some x =>
      let r := importChunk s c a x
      if r.2.2 then importChunks c n (a + r.2.1) r.1 else secDone (importStop r.1 c) 2

/-- IMPORT_CHUNKS (R374). -/
def execImportChunks (c : Fin 256) (addr : BitVec 48) (count : Nat) (s : State) :
    Host.Outcome State Fault Refusal :=
  .next (
    if (ctx s c.val).state = .free then secDone s 4
    else if (ctx s c.val).importing.isNone || !inCarve s addr.toNat then secDone s 2
    else importChunks c.val count addr.toNat s)

/-- IMPORT_END: the digest is that of the whole stream, which its yield section closes (R373, R374). -/
def execImportEnd (e : ImportTail) (s : State) : Host.Outcome State Fault Refusal :=
  let c := e.ctx.val
  .next (
    if (ctx s c).state = .free then secDone s 4
    else
      match (ctx s c).importing with
      | none => secDone s 2
      | some x =>
        if x.next < x.chunks then secDone (importStop s c) 2
        else secDone (setCtx s c { ctx s c with
          importing := none, bundle := some (sha512 (x.stream ++ e.yield)) }) 0)

/-! ## Owner commands (R385, R386) -/

/-- A new NONCE (R385). -/
def renewNonce (s : State) : State :=
  let x := drawFree s 256
  (List.range 8).foldl (fun s i => regSet s (pgSec + 0x60 + 4 * i) (x.1.extractLsb' (32 * i) 32)) x.2

/-- NONCE_RENEWAL: every 10 minutes (R385). -/
def execNonceRenewal (s : State) : Host.Outcome State Fault Refusal := .next (renewNonce s)

/-- SEC.NONCE. -/
def nonceOf (s : State) : Nat := (List.range 8).foldl (fun a i => a + regNat s (pgSec + 0x60 + 4 * i) <<< (32 * i)) 0

/-- Bytes 0x000 to 0x367 of a request. -/
def ownerBytes (cmd : Nat) (r : OwnerReq) : List Byte :=
  natBytes 4 cmd ++ natBytes 4 r.rsv.toNat ++ natBytes 32 r.nonce.toNat ++ r.arg ++ natBytes 64 r.device.toNat ++
    r.modulus

/-- Who signs an owner command. -/
inductive Signer where | new | owner | ownerIfAny
deriving DecidableEq, Repr

/-- Whether the signer of a request may give the command (R386). -/
def signerMay (s : State) (who : Signer) (r : OwnerReq) : Bool :=
  let h := some (sha512 r.modulus)
  match who, ownerHash s with
  | .new, o => o.isNone
  | .owner, o => o = h
  | .ownerIfAny, none => true
  | .ownerIfAny, o => o = h

/-- The first check of an owner command that fails, 0 for none: form, NONCE, DEVICE, signature, signer,
presence. Nobody signs an IDENTITY_DESTROY of a package without an owner. -/
def ownerCheck (s : State) (cmd : Nat) (who : Signer) (pres : Bool) (r : OwnerReq) : Nat :=
  if r.rsv ≠ 0 || r.arg.length ≠ 256 || r.modulus.length ≠ 512 || r.signature.length ≠ 512 then 2
  else if r.nonce.toNat ≠ nonceOf s then 7
  else if r.device ≠ s.sec.dik then 3
  else if !(who = .ownerIfAny && (ownerHash s).isNone) &&
      !pssVerify r.modulus r.signature (sha512Bytes (ownerBytes cmd r)) then 6
  else if !signerMay s who r then 3
  else if pres && !s.sec.presAsserted then 5
  else 0

/-- A presence-gated command completes: its history counts (R386). -/
def presenceCount (s : State) : State := pstStore s 74 (BitVec.ofNat 32 (pstNat s 74 1 + 1))

/-- Run an owner command: its checks, its effect, the presence history, its result, a new NONCE. The
effect answers with its own result. -/
def ownerRun (s : State) (cmd : Nat) (who : Signer) (pres : Bool) (r : OwnerReq)
    (f : State → State × Nat) : State :=
  let e := ownerCheck s cmd who pres r
  if e ≠ 0 then renewNonce (secDone s e)
  else
    let x := f s
    let s := if x.2 = 0 && pres then presenceCount x.1 else x.1
    renewNonce (secDone s x.2)

/-- Bytes `o` to `o + n − 1` of ARG. -/
def argNat (r : OwnerReq) (o n : Nat) : Nat := byteFld (bytesNat r.arg) o n

/-- OWNER_ENROL. -/
def ownerEnrol (s : State) (r : OwnerReq) : State :=
  ownerRun s 1 .new true r fun s => (askReissue (ownerStore s (some (sha512 r.modulus))), 0)

/-- OWNER_ENROL (R386). -/
def execOwnerEnrol (r : OwnerReq) (s : State) : Host.Outcome State Fault Refusal := .next (ownerEnrol s r)

/-- OWNER_TRANSFER: the new owner's hash, and no management key. -/
def ownerTransfer (s : State) (r : OwnerReq) : State :=
  ownerRun s 2 .owner true r fun s =>
    (askReissue { ownerStore s (some (BitVec.ofNat 512 (argNat r 0 64))) with sec.mgmtKey := none }, 0)

/-- OWNER_TRANSFER (R386). -/
def execOwnerTransfer (r : OwnerReq) (s : State) : Host.Outcome State Fault Refusal := .next (ownerTransfer s r)

/-- ROLLBACK: ARG holds the image kind and the new minimum, in words 0 and 1; a minimum that would rise is
refused. -/
def ownerRollback (s : State) (r : OwnerReq) : State :=
  ownerRun s 3 .owner true r fun s =>
    let k := argNat r 0 4
    let v := argNat r 4 4
    if 3 < k || minSvn s k ≤ v then (s, 2) else (pstStore s (65 + k) (BitVec.ofNat 32 v), 0)

/-- ROLLBACK (R386). -/
def execRollback (r : OwnerReq) (s : State) : Host.Outcome State Fault Refusal := .next (ownerRollback s r)

/-- Every context of the package faults for its lost keys (R380, R387). -/
def faultContexts (s : State) : State :=
  ((ctxList s).filter fun c => (ctx s c).state ≠ .free).foldl (fun s c =>
    let s := keysLost (dropCtxKeys s c) c ((partDies s (ctx s c).part).headD 0)
    setCtx s c { ctx s c with ioKeys := none, ck := none }) s

/-- The keys of every link are erased: the ports go down (R304, R365). -/
def dropLinks (s : State) : State :=
  (List.range 48).foldl (fun s p =>
    if (linkOf s p).keys.isEmpty then s else linkDown s p 9 true) s

/-- The keys that the SEC derives from its UDS: what names the device (R365). -/
def deriveKeys (s : State) : State :=
  { s with sec.dik := spkiHash (dikOf s.sec.uds), sec.bk := spkiHash (bkOf s.sec.uds) }

/-- The PKCS #10 request for an identity certificate, signed by the identity key (R386, log 103). -/
def identityRequest (s : State) : List Byte × State :=
  let d := dikOf s.sec.uds
  let salt := freeBytes s 64
  let info := derSeq (derInt 0 ++ certName s 0 ++ spki (modBytes d) ++
    der 0xA0 (Config.requestAttrs (atbIdent (bkOf s.sec.uds))))
  (derSeq (info ++ pssAlg ++ derBits (pssSign d (sha512Bytes info) salt.1)), salt.2)

/-- IDENTITY_DESTROY: every key and context goes, with the owner; a new UDS, and a request for its certificate. -/
def identityDestroy (s : State) (r : OwnerReq) : State :=
  ownerRun s 4 .ownerIfAny true r fun s =>
    let s := dropLinks s
    let s := ((ctxList s).filter fun c => (ctx s c).state ≠ .free).foldl (fun s c =>
      setCtx (if ctxLive s c then faultRaising s c 5 0x15 else s) c Ctx.init) s
    let u := drawFree s 256
    let s := deriveKeys { u.2 with sec.memKey := [], sec.uds := u.1, sec.mgmtKey := none }
    let x := identityRequest (askReissue (ownerStore s none))
    (emit x.2 (.response 11 x.1), 0)

/-- IDENTITY_DESTROY (R386). -/
def execIdentityDestroy (r : OwnerReq) (s : State) : Host.Outcome State Fault Refusal := .next (identityDestroy s r)

/-- SEAL_ARM, from unarmed. -/
def sealArm (s : State) (r : OwnerReq) : State :=
  ownerRun s 5 .owner false r fun s => if sealState s = 0 then (askReissue (sealStore s 1 1), 0) else (s, 3)

/-- SEAL_ARM (R386). -/
def execSealArm (r : OwnerReq) (s : State) : Host.Outcome State Fault Refusal := .next (sealArm s r)

/-- SEAL_DISARM, from armed. -/
def sealDisarm (s : State) (r : OwnerReq) : State :=
  ownerRun s 6 .owner true r fun s => if sealState s = 1 then (askReissue (sealStore s 0 2), 0) else (s, 3)

/-- SEAL_DISARM (R386). -/
def execSealDisarm (r : OwnerReq) (s : State) : Host.Outcome State Fault Refusal := .next (sealDisarm s r)

/-- SEAL_CLEAR, from broken to armed. -/
def sealClear (s : State) (r : OwnerReq) : State :=
  ownerRun s 7 .owner true r fun s => if sealState s = 2 then (askReissue (sealStore s 1 4), 0) else (s, 3)

/-- SEAL_CLEAR (R386). -/
def execSealClear (r : OwnerReq) (s : State) : Host.Outcome State Fault Refusal := .next (sealClear s r)

/-- MGMT_KEY: ARG holds the key. -/
def mgmtKey (s : State) (r : OwnerReq) : State :=
  ownerRun s 8 .owner false r fun s => ({ s with sec.mgmtKey := some (BitVec.ofNat 256 (argNat r 0 32)) }, 0)

/-- MGMT_KEY (R386). -/
def execMgmtKey (r : OwnerReq) (s : State) : Host.Outcome State Fault Refusal := .next (mgmtKey s r)

/-- FABRIC_ANCHOR: ARG holds a hash, or zeros to remove the anchor. -/
def fabricAnchor (s : State) (r : OwnerReq) : State :=
  ownerRun s 9 .owner false r fun s =>
    let h := argNat r 0 64
    (anchorStore s (if h = 0 then none else some (BitVec.ofNat 512 h)), 0)

/-- FABRIC_ANCHOR (R386). -/
def execFabricAnchor (r : OwnerReq) (s : State) : Host.Outcome State Fault Refusal := .next (fabricAnchor s r)

/-- OWNER_CMD as a request of 1,384 bytes (R385). -/
def ownerCommand (s : State) (l : List Byte) : State :=
  let n := bytesNat l
  let r : OwnerReq := {
    rsv := BitVec.ofNat 32 (byteFld n 4 4), nonce := BitVec.ofNat 256 (byteFld n 8 32), arg := (l.drop 0x28).take 256,
    device := BitVec.ofNat 512 (byteFld n 0x128 64), modulus := (l.drop 0x168).take 512,
    signature := (l.drop 0x368).take 512 }
  if l.length ≠ 0x568 then renewNonce (secDone s 2)
  else
    match byteFld n 0 4 with
    | 1 => ownerEnrol s r
    | 2 => ownerTransfer s r
    | 3 => ownerRollback s r
    | 4 => identityDestroy s r
    | 5 => sealArm s r
    | 6 => sealDisarm s r
    | 7 => sealClear s r
    | 8 => mgmtKey s r
    | 9 => fabricAnchor s r
    | _ => renewNonce (secDone s 2)

/-! ## Pins (R386, R387, R479, R481) -/

/-- A command that runs is aborted (R387); the spec gives its RESULT no code (log 61). -/
def secAbort (s : State) : State :=
  if s.sec.running.isNone then s
  else
    let x := drawFree s 4
    regPut { x.2 with sec.running := none } (pgSec + 0x44) 8 4 x.1.toNat

/-- What a seal break does at once (R387). -/
def sealBreakAct (s : State) : State :=
  let s := dropLinks (faultContexts s)
  let s := { s with sec.memKey := [], sec.sealLatch := false }
  askReissue (irq (sealStore (secAbort s) 2 3) pgSec 1)

/-- Whether the SEC runs: from boot step 2 on. -/
def secRuns (s : State) : Bool := 2 ≤ regField s (pgBrd + 0x44) 0 3

/-- SEAL_BREAK: SEAL_N is high for `ns` ns (R387, R479). A break while the SEC does not run is latched; without
VDD_AON none is detected (R481). -/
def execSealBreak (ns : Nat) (s : State) : Host.Outcome State Fault Refusal :=
  .next (
    if s.brd.aonOut then s
    else
      let s := { s with sec.sealPinNs := ns }
      if ns < 10000 || sealState s ≠ 1 then s
      else if secRuns s then sealBreakAct s
      else { s with sec.sealLatch := true })

/-- PRESENCE_ASSERTED: PRESENCE_N has been low for `ms` ms (R386, R479). -/
def execPresenceAsserted (ms : Nat) (s : State) : Host.Outcome State Fault Refusal :=
  .next (if ms = 0 then s else { s with sec.presPin := true, sec.presAsserted := 1000 ≤ ms })

/-- PRESENCE_ABORT: PRESENCE_N is released; the row stands for a release that the 1 ms filter of R479 has passed, so a
shorter one is no command (log 61). A presence-gated command that had not completed ends with PRESENCE, as the next
one in the queue does (R386, log 61). -/
def execPresenceAbort (s : State) : Host.Outcome State Fault Refusal :=
  .next { s with sec.presPin := false, sec.presAsserted := false }

/-- DEBUG_ATTACH (R384). -/
def execDebugAttach (s : State) : Host.Outcome State Fault Refusal :=
  .next { s with sec.debugs := s.sec.debugs + 1 }

/-! ## SEC.CMD (R391) -/

/-- A write of CMD; one while a command runs is ignored. Commands whose request layout the spec does not give run from here
on, until the row that carries their request completes them (log 61). -/
def secCmdWrite (s : State) (w : Word) : State :=
  let c := wfield w 8 8
  let len := regField s (pgSec + 0x50) 0 20
  if s.sec.running.isSome then s
  else match wfield w 0 8 with
  | 1 => if secBusy s then secDone s 1 else secRespond s (chainCerts s)
  | 2 => ctxCreate s c (wfield w 16 4) (w.getLsbD 20)
  | 3 => ctxDestroy s c
  | 11 =>
    let x := engineBytes s 3 .sec (regPair s (pgSec + 0x48) % 2 ^ 48) len
    (match x.1 with
     | some l => ownerCommand x.2 l
     | none => renewNonce (secDone x.2 2))
  | n => if 4 ≤ n && n ≤ 10 then { s with sec.running := some w } else secDone s 2

end Sys2Proof.Machine
end

