-- ==== Sys2Proof/Machine/ResetOps.lean ====
section
/-! DEFINITION. Calibration of crossings (R19, R103 to R107), retired rows at boot (R222), and what a partial
reset takes from a C-die and gives back (R105, R416, R462). -/
namespace Sys2Proof.Machine
open Sys2Proof

/-! ## Links between dies (R15, R107) -/

/-- The far end of link `k` of C-die `d` (0 north, 1 east, 2 south, 3 west): the die and its number for the
link. -/
def farEnd (d k : Nat) : Nat × Nat :=
  match k with
  | 0 => if 4 ≤ d then (d - 4, 2) else (16, d)
  | 1 => if d % 4 < 3 then (d + 1, 3) else (17, d / 4)
  | 2 => if d < 12 then (d + 4, 0) else (18, d - 12)
  | _ => if 0 < d % 4 then (d - 1, 1) else (19, d / 4)

/-- XCAL record `n` of die `d`. -/
def xcalReg (d n : Nat) : Nat := pgDie d + 0x100 + 0x10 * n

/-- Whether die `d` uses XCAL record `n` (R107). -/
def xcalUsed (d n : Nat) : Bool :=
  if d < 16 then !(d % 4 = 0 && n = 3)
  else if d = 16 then n < 4 || n = 5
  else if d = 17 then n < 6
  else d = 18 && n < 5

/-- Whether record `n` of die `d` is that of a link, and not of a region crossing. -/
def xcalLink (d n : Nat) : Bool := 16 ≤ d || n < 4

/-- X and D of a record's crossing (R102). -/
def xcalX (d n : Nat) : Nat := if xcalLink d n then 24 else 6
def xcalD (d n : Nat) : Nat := if xcalLink d n then 48 else 32

/-- The persistent register of a record's seed (R430). -/
def seedReg (d n : Nat) : Nat := if d < 16 then 256 + 16 * d + n else 512 + 6 * (d - 16) + n

/-- LINK_STAT of link `k` of die `d` (R450). S0's page has none. -/
def linkStat (s : State) (d k v : Nat) : State :=
  if d = 19 || regField s (pgDie d + 0x44) (2 * k) 2 = v then s
  else irq (regPut s (pgDie d + 0x44) (2 * k) 2 v) (pgDie d) 0

/-- HSTAT of one end of a link (R456). -/
def hostStat (s : State) (d k : Nat) (up reset : Bool) : State :=
  let pg := pgD2d d k
  let s := if regBit s (pg + 0x40) 0 && !up then irq s pg 0 else s
  regSet s (pg + 0x40) (BitVec.ofNat 32 (b2n up + 2 * b2n reset))

/-- The far end of link `k`, in XCAL numbering, of a C-die or edge die (R107). -/
def linkFar (d k : Nat) : Nat × Nat :=
  if d < 16 then farEnd d k
  else if k = 4 then (d - 1, 5)
  else if k = 5 then (d + 1, 4)
  else match d with
    | 16 => (k, 0)
    | 17 => (4 * k + 3, 1)
    | _ => (12 + k, 2)

/-- Whether a die is a C-die in partial reset, returning from it, or disabled. -/
def dieAway (s : State) (d : Nat) : Bool :=
  let p := presetState s d
  d < 16 && (p = 2 || p = 4 || p = 5)

/-- What LINK_STAT says of link `k` of die `d` (R19, R450): 3 while its partner is away, 2 if either direction failed
its calibration, 1 once both have passed. The west link of a die of column 0 faces S0 and has no calibration. -/
def linkVal (s : State) (d k : Nat) : Nat :=
  let f := linkFar d k
  let state := fun (x : Nat × Nat) => regField s (xcalReg x.1 x.2) 24 2
  if dieAway s f.1 then 3
  else if f.1 = 19 then 1
  else if state (d, k) = 2 || state f = 2 then 2
  else if state (d, k) = 0 || state f = 0 then 0
  else 1

/-- LINK_STAT on one end of a link. A die that is away keeps what it showed, but for a partner that is away or was
(R450, log 69). -/
def linkEnd (s : State) (d k : Nat) : State :=
  if dieAway s d && !dieAway s (linkFar d k).1 && regField s (pgDie d + 0x44) (2 * k) 2 ≠ 3 then s
  else linkStat s d k (linkVal s d k)

/-- LINK_STAT of the link of record `n` of die `d`, at both its ends (R19). -/
def linkByXcal (s : State) (d n : Nat) : State :=
  if !xcalLink d n then s
  else
    let f := linkFar d n
    linkEnd (linkEnd s d n) f.1 f.2

/-- The result of a calibration in a record: STATE 1 if R103 holds, else 2. -/
def xcalResult (d n a : Nat) (seeded : Bool) : Nat :=
  let x := xcalX d n
  let ok := a + 5 ≤ x && x + 16 ≤ xcalD d n + a
  a % 64 + (x + 64 - a) % 64 * 0x100 + (xcalD d n + a - x) % 64 * 0x10000 + (if ok then 1 else 2) * 0x1000000 +
    b2n seeded * 0x10000000

/-- One crossing is calibrated (R103, R104, R107, R433): a VALID seed that passes is accepted, and any other is
replaced by the arrival that the full search finds; the seed is written only when the result differs from it. -/
def calibrate (s : State) (r : XcalResult) : State :=
  let d := r.die.val
  let n := r.rcd.val
  if !xcalUsed d n then s
  else
    let seed := pstNat s (seedReg d n) 1
    let seeded := r.seeded && bitOf seed 31 && seed % 64 + 5 ≤ xcalX d n
    let a := if seeded then seed % 64 else r.arrival.toNat
    let s := regSet s (xcalReg d n) (BitVec.ofNat 32 (xcalResult d n a seeded))
    let s := regSet s (xcalReg d n + 8) 0
    let s := linkByXcal s d n
    if seed = a + 0x80000000 then s else pstStore s (seedReg d n) (BitVec.ofNat 32 (a + 0x80000000))

/-- The pages of die `d`. -/
def diePages (d : Nat) : List Nat :=
  ((List.range 0x200).filter fun k => (pageAt d (k * 0x1000)).isSome).map fun k => pageBase d (k * 0x1000)

/-- The crossings at a die's boundary: the inbound links of C-die `d` and those of its neighbours for it (R104). -/
def dieCrossings (d : Nat) : List (Nat × Nat) :=
  ((List.range 4).map fun n => (d, n)) ++ (List.range 4).map (farEnd d)

/-- Whether the crossing of a record lies between dies that are both there. -/
def crossingLives (s : State) (x : Nat × Nat) : Bool :=
  !dieAway s x.1 && !(xcalLink x.1 x.2 && dieAway s (linkFar x.1 x.2).1)

/-- Calibrate every crossing of a list whose ends are there (R104): by the result that the hardware is said to find, or
by a free one. -/
def calibrateAll (s : State) (l : List (Nat × Nat)) (found : List XcalResult) : State :=
  (l.filter fun x => xcalUsed x.1 x.2 && crossingLives s x).foldl (fun s x =>
    match found.find? fun r => r.die.val = x.1 && r.rcd.val = x.2 with
    | some r => calibrate s r
    | none =>
      let a := drawFree s 7
      calibrate a.2 { die := Fin.ofNat 20 x.1, rcd := Fin.ofNat 16 x.2, arrival := a.1.setWidth 6,
                      seeded := a.1.getLsbD 6 }) s

/-- The links of C-die `d` as its neighbours and it now see them, and the host channels over them (R450, R456). -/
def dieLinks (s : State) (d : Nat) (up : Bool) : State :=
  (List.range 4).foldl (fun s k =>
    let f := farEnd d k
    let s := linkByXcal s d k
    let on := up && !dieAway s f.1
    hostStat (hostStat s f.1 f.2 on (!up)) d k on (dieAway s f.1)) s

/-! ## Retired rows (R222) -/

/-- Load the retired-row tables of C-die `d` from the persistent ring. -/
def retireLoad (s : State) (d : Nat) : State :=
  (List.range 256).foldl (fun s i =>
    let e := pstNat s (768 + i) 1
    if bitOf e 31 && bitsOf e 26 4 = d then
      (retireAdd s (64 * d + bitsOf e 20 6) (bitsOf e 0 15) (bitsOf e 15 5)).1
    else s) s

/-! ## Partial reset (R416) -/

/-- Pages that a partial reset of their die returns to reset values. -/
def presetPage : Blk → Bool
  | .clu | .vlt | .pln | .ses | .rgn | .pwr => true
  | _ => false

/-- Whether the register at key `k` is one that a partial reset of die `d` resets: ENERGY stays (R446), and so
do the calibrated body biases (R410). -/
def presetReg (d k : Nat) : Bool :=
  let a := k % 0x100000000
  let o := a % 0x1000
  a / 0x1000000 = d && o ≠ 0x30 && o ≠ 0x34 &&
  (match pageAt d (a % 0x1000000 - o) with
   | some (b, _) => presetPage b && !(b = .pwr && 0x50 ≤ o && o < 0x60)
   | none => false)

/-- Whether a power block lies on C-die `d`. -/
def blkDie : PowerBlk → Nat
  | .unitM c | .unitV0 c | .unitV1 c | .planer c | .cluster c => c.val / 64
  | .region r => r.val / 4
  | .die d => d.val

/-- The queued host accesses of a die end with error completions (R441). -/
def dropQueue (s : State) (v : Nat) : State :=
  let q := hostQ s v
  q.foldl (fun s x => match x.job with
    | .access r _ => hostError s (v / 64) r
    | _ => s) (setHostQ s v [])

/-- The stack, the session table and the clusters of C-die `d` lose what they hold. -/
def dieWipe (s : State) (d : Nat) : State :=
  let s := (dieVaults d).foldl dropQueue s
  let s := (dieVaults d).foldl clearCluster s
  let s := ((diePages d).filter fun pg => blockState s pg ≠ 0).foldl noteState s
  let mine := fun v : Nat => v / 64 = d
  { s with
    clu.pipe := s.clu.pipe.filter fun e => !(e.unit < 1024 && mine e.unit)
    clu.busy := tabDrop (fun k => k / 512 = d) s.clu.busy
    vlt.mem := memClear s.vlt.mem (64 * d * vaultSize) (64 * vaultSize)
    vlt.side := tabDrop (fun k => k / 0x1800000 / 64 = d) s.vlt.side
    vlt.open_ := tabDrop (fun k => k / 32 / 64 = d) s.vlt.open_
    vlt.cmds := tabDrop mine s.vlt.cmds
    vlt.init := tabDrop mine s.vlt.init
    vlt.refPtr := tabDrop mine s.vlt.refPtr
    vlt.scrubHalf := tabDrop mine s.vlt.scrubHalf
    vlt.revisit := tabDrop mine s.vlt.revisit
    vlt.revHalf := tabDrop mine s.vlt.revHalf
    vlt.scrubRow := tabDrop mine s.vlt.scrubRow
    vlt.patrolAt := tabDrop mine s.vlt.patrolAt
    vlt.fixup := tabDrop mine s.vlt.fixup
    ses.table := memClear s.ses.table (d * 2621440) 2621440
    ses.bound := tabDrop (fun k => k / 2560 = d) s.ses.bound
    ses.fresh := s.ses.fresh.filter fun x => x.1 ≠ d
    regs := tabDrop (presetReg d) s.regs
    latch := tabDrop (fun k => k % 0x100000000 / 0x1000000 = d) s.latch
    pwr.busy := s.pwr.busy.filter fun b => blkDie b.1 ≠ d || b.1 = .die (Fin.ofNat 16 d) }

/-- PRESET_STATE of C-die `d` (R439). -/
def setPreset (s : State) (d v : Nat) : State := regPut s (pgDieS + 0x310 + 4 * d) 0 3 v

/-- C-die `d` enters partial reset (R105, R366, R380, R416). -/
def enterPreset (s : State) (d : Nat) : State :=
  let s := match partOfDie s d with
    | some p => dieKeysLost s p d
    | none => s
  let s := dieLinks (setPreset (dieWipe (eraseStore s d) d) d 2) d false
  let s := (List.range 4).foldl (fun s k =>
    let f := farEnd d k
    if f.1 = 19 then s else regPut s (xcalReg f.1 f.2) 24 2 0) s
  askReissue s

/-- C-die `d` is back from a partial reset (R222, R365, R416): new carve-out keys, calibrated crossings, the
retired-row tables. -/
def leavePreset (s : State) (d : Nat) (xcal : List XcalResult) : State :=
  let s := calibrateAll (setPreset (makeKeys s d domCarve) d 3) (dieCrossings d) xcal
  askReissue (retireLoad (dieLinks s d true) d)

/-- A write of DIE.PRESET on S0 (R416, R439). -/
def presetWrite (s : State) (w : Word) : State :=
  let d := wfield w 0 4
  let st := presetState s d
  match wfield w 4 2 with
  | 1 =>
    let carve := (dieVaults d).any fun v => (carveRows s v).2 ≠ 0
    if d = 0 || st = 2 || st = 4 || st = 5 || (!w.getLsbD 8 && carve) then statSet s pgDieS 0
    else { s with brd.presetPend := s.brd.presetPend.erase d ++ [d] }
  | 2 => if st = 2 && regField s (pgDie d + 0x24) 0 2 ≠ 3 then setPreset s d 5 else s
  | _ => s

/-- PRESET_ENTER (R416). -/
def execPresetEnter (w : BitVec 32) (s : State) : Host.Outcome State Fault Refusal := .next (presetWrite s (wset w 4 2 1))

/-- PRESET_RELEASE (R416). -/
def execPresetRelease (w : BitVec 32) (s : State) : Host.Outcome State Fault Refusal := .next (presetWrite s (wset w 4 2 2))

/-- Whether a die-level power entry is in progress. -/
def dieEntering (s : State) (d : Nat) : Bool :=
  s.pwr.busy.any fun x => x.1 = PowerBlk.die (Fin.ofNat 16 d) && x.2 ≠ 0

/-- A die-level power entry that was in progress is aborted by the partial reset (R407): TARGET reads CURRENT again, and
the die's refusal registers, which the reset does not clear with the PWR page, name the abort. -/
def presetAbort (s : State) (d : Nat) : State :=
  let b : PowerBlk := .die (Fin.ofNat 16 d)
  let s := refusePower s (pgDie d) (pgDie d) 8
  let s := regPut s (pgDie d + 0x24) 4 2 (regField s (pgDie d + 0x24) 0 2)
  { s with pwr.busy := s.pwr.busy.map fun x => if x.1 = b then (b, 0) else x }

/-- PARTIAL_RESET_ENTRY: at the tick after PRESET_ENTER (R416). The faults are acted on at this tick. -/
def execPartialResetEntry (d : Fin 16) (s : State) : Host.Outcome State Fault Refusal :=
  .next (if s.brd.presetPend.contains d.val then
    let t := enterPreset { s with brd.presetPend := s.brd.presetPend.erase d.val } d.val
    actFaults (if dieEntering s d.val then presetAbort t d.val else t)
  else s)

/-- PARTIAL_RESET_RETURN (R416). -/
def execPartialResetReturn (d : Fin 16) (xcal : List XcalResult) (s : State) : Host.Outcome State Fault Refusal :=
  .next (if presetState s d.val = 5 then leavePreset s d.val xcal else s)

end Sys2Proof.Machine
end

