-- ==== Sys2Proof/Machine/Energy.lean ====
section
/-! DEFINITION. The energy ledger (R392 to R400, R409). -/
namespace Sys2Proof.Machine
open Sys2Proof

/-- The base of the page that a PAGE_ID names. -/
def pageOfId (p : PageId) : Option Nat :=
  (((List.range 0x200).map fun k => k * 0x1000).find? fun o =>
    match pageAt p.die.val o with
    | some (b, i) => blkType b = p.type.toNat && i = p.inst.toNat
    | none => false).map fun o => pageBase p.die.val o

/-- The rail group of a page's block (R394): a vault's is its stack's, a port's its lane supply. -/
def railGroup (p : PageId) : Nat :=
  let d := p.die.val
  if d < 16 then (if p.type = 2 then 16 + d else d)
  else if d = 19 then 35
  else if p.type = 8 || p.type = 0xC then 20 + d
  else 16 + d

/-- 2⁻¹⁴ fJ in a µJ. -/
def energyUnit : Nat := 1000000000 * 2 ^ 14

/-- COEF of a class (R393, R409). -/
def coefKey (n : Nat) : Nat := bankKey (pgNrg + 0x68) n

/-- The 64 coefficients, in fJ. -/
def coefs (s : State) : List Nat := (List.range 64).map fun n => regField s (coefKey n) 0 24

/-- An energy of one block in one tick period, in fJ before its correction: the block's page, and the partition that
causes it, none for base energy (R392, R395). -/
structure Amount where
  page : PageId
  part : Option (Fin 16)
  raw  : Nat
deriving DecidableEq, Repr

/-- An amount in 2⁻¹⁴ fJ, corrected by its rail group's factor (R392). -/
def amountEnergy (s : State) (x : Amount) : Nat := x.raw * regField s (pgNrg + 0x200 + 4 * railGroup x.page) 0 16

/-- The energy of an event count (R392). -/
def eventAmount (s : State) (e : EnergyEvents) : Amount :=
  ⟨e.page, e.part, e.count * regField s (coefKey e.cls.toNat) 0 24⟩

/-- Whole µJ of an amount and the fraction carried under `k`; the fraction that is left is carried on. -/
def carryEnergy (s : State) (k x : Nat) : Nat × State :=
  let t := tabGet 0 k s.nrg.frac + x
  (t / energyUnit, { s with nrg.frac := tabSet 0 k (t % energyUnit) s.nrg.frac })

/-- Add to the ENERGY accumulator of a page. -/
def addEnergy (s : State) (pg x : Nat) : State :=
  let y := carryEnergy s pg x
  regPairSet y.2 (pg + 0x30) ((regPair y.2 (pg + 0x30) + y.1) % 2 ^ 64)

/-- The sum of some amounts. -/
def sumEnergy (s : State) (l : List Amount) : Nat := (l.map (amountEnergy s)).sum

/-- PKG_CAP and PART_CAP. -/
def pkgCap (s : State) : Int := regField s (pgNrg + 0x54) 0 24
def partCap (s : State) : Int := regField s (pgNrg + 0x58) 0 24

/-- Whether the latest period of partition `p` ran a raising (R398). -/
def periodRan (s : State) (p : Nat) : Bool :=
  match (part s p).lastKind with
  | .contents | .held | .finish | .switch_ => true
  | _ => false

/-- Partition `p`'s account after a period of energy `e` µJ. -/
def accountAfter (s : State) (p e : Nat) : Int :=
  if periodRan s p then min ((part s p).account + (part s p).lastEnergy - e) (partCap s) else partCap s

/-- The ledger of partition `p` for the amounts of one period. -/
def partLedger (s : State) (l : List Amount) (p : Nat) : State :=
  let x := carryEnergy s (2 ^ 33 + p) (sumEnergy s (l.filter fun e => e.part.map (·.val) = some p))
  let s := x.2
  let s := regPut s (pgNrg + 0x108 + 0x10 * p) 0 24 (satNat 24 x.1)
  setPart s p { part s p with account := accountAfter s p x.1 }

/-- Add a period's uncorrected amounts to their rail groups' windows (R394). -/
def windowAdd (s : State) (l : List Amount) : State :=
  { s with nrg.window := l.foldl (fun t e =>
      let g := railGroup e.page
      tabSet 0 g (tabGet 0 g t + e.raw) t) s.nrg.window }

/-- The number of an event kind's coefficient (R393). -/
def kindCoef : EventKind → BitVec 6
  | .mac8 => 0
  | .mac4 => Config.eventCoef 1 0
  | .mac6 => Config.eventCoef 1 1
  | .mac16 => Config.eventCoef 2 0
  | .mac32 => Config.eventCoef 2 1
  | .lane => 3
  | .lane64 => Config.eventCoef 4 0
  | .laneTrans => Config.eventCoef 4 1
  | .laneInt => Config.eventCoef 4 2
  | .bank => 5
  | .column => 6
  | .activation => 7
  | .decoded => 8
  | .path => Config.eventCoef 9 0
  | .link => Config.eventCoef 9 1
  | .line => 10
  | .refresh => Config.eventCoef 11 0
  | .loose => Config.eventCoef 11 1

/-- The PAGE_ID of a page. -/
def pageIdOf (pg : Nat) : PageId :=
  let d := pg / 0x1000000
  match pageAt d (pg % 0x1000000) with
  | some (b, i) => ⟨Fin.ofNat 20 d, BitVec.ofNat 16 (blkType b), BitVec.ofNat 8 i⟩
  | none => ⟨Fin.ofNat 20 d, 0, 0⟩

/-- The events that the blocks have counted in the tick period that ended last (R392, R395). -/
def countedEvents (s : State) : List EnergyEvents :=
  s.nrg.prev.map fun x => ⟨pageIdOf x.page, x.part.map (Fin.ofNat 16), kindCoef x.kind, x.count⟩

/-- The events of classes that no block's commands count, which the ledger's command brings: a C-die's belong to its
partition or are base, an edge die's and the shepherd's are base (R395, log 66). -/
def otherAmount (s : State) (e : EnergyEvents) : Amount :=
  let own := if e.page.die.val < 16 then partOfDie s e.page.die.val else none
  eventAmount s { e with part := e.part.filter fun p => own = some p.val }

/-- The pages of the package. -/
def allPages : List Nat := (List.range 20).flatMap diePages

/-- Up to which tick-clock period of the period that ended last a block held each of its power states (R408): those that
it left, and the one that it had at the tick. -/
def stateParts (s : State) (pg : Nat) : List StatePart :=
  (s.nrg.ended.filter fun x => x.page = pg) ++
    [{ page := pg, till := s.nrg.length,
       state := match s.nrg.parts.find? fun x => x.page = pg with
         | some x => x.state
         | none => blockState s pg }]

/-- The static energy of a block in that period: each of its power states for the part of the period that it held it, at
the measured temperatures of its die (R392, R408). -/
def staticAmount (s : State) (pg : Nat) : Amount :=
  let id := pageIdOf pg
  let temp := regNat s (pgDie id.die.val + 0x48)
  let x := (stateParts s pg).foldl (fun a p =>
    (a.1 + Config.staticEnergy (coefs s) id.type.toNat p.state temp (p.till - a.2), max a.2 p.till)) (0, 0)
  ⟨id, none, x.1⟩

/-- Every amount of the tick period that ended last (R392, R395). -/
def periodAmounts (s : State) (others : List EnergyEvents) : List Amount :=
  (countedEvents s).map (eventAmount s) ++ others.map (otherAmount s) ++ allPages.map (staticAmount s)

/-- LEDGER_UPDATE: the energies of the tick period that ended last (R392, R394, R395, R398, R408): what the blocks have
counted, the static energy of their power states, and the events that the command brings (log 66). -/
def execLedgerUpdate (others : List EnergyEvents) (s : State) : Host.Outcome State Fault Refusal :=
  let l := periodAmounts s others
  let s := { s with nrg.prev := [], nrg.ended := [], nrg.length := 0 }
  let total := sumEnergy s l
  let pages := l.filterMap fun e => (pageOfId e.page).map fun pg => (pg, amountEnergy s e)
  let s := windowAdd s l
  let s := (pages.filter fun x => x.1 ≠ pgNrg).foldl (fun s x => addEnergy s x.1 x.2) s
  let x := carryEnergy s (2 ^ 33 + 16) total
  let s := x.2
  let s := regPairSet s (pgNrg + 0x30) ((regPair s (pgNrg + 0x30) + x.1) % 2 ^ 64)
  let a := min (s.nrg.account + budgetFrame s - x.1) (pkgCap s)
  let s := { s with nrg.account := a }
  .next ((List.range 16).foldl (fun s p => partLedger s l p) s)

/-- The uncorrected estimate of a rail group over the present window, in fJ (R394). -/
def estimateOf (s : State) (g : Nat) : Nat := tabGet 0 g s.nrg.window

/-- CORR of a rail group after a window (R394): the ratio, and whether it was clamped. A window without an
estimate has no stated ratio. -/
def correction (s : State) (m : GroupMeas) : Nat × Bool × State :=
  let e := estimateOf s m.group.val
  let x := drawFree s 16
  let r := if e = 0 then x.1.toNat else m.measured * 0x4000 / e
  (max 0x3800 (min 0x5000 r), r < 0x3800 || 0x5000 < r, if e = 0 then x.2 else s)

/-- CORRECTION_UPDATE: every 1,024 tick periods, with which the next window begins (R394). -/
def execCorrectionUpdate (meas : List GroupMeas) (s : State) : Host.Outcome State Fault Refusal :=
  let t := meas.foldl (fun s m =>
    let c := correction s m
    let s := regSet c.2.2 (pgNrg + 0x200 + 4 * m.group.val) (BitVec.ofNat 32 c.1)
    if c.2.1 then irq (statSet s pgNrg 1) pgNrg 0 else s) s
  .next { t with nrg.window := [] }

/-- THIN_STUCK: THIN_LIMIT consecutive thinning holds (R400). -/
def execThinStuck (p : Fin 16) (s : State) : Host.Outcome State Fault Refusal :=
  .next (if max 1 (regField s (pgNrg + 0x6C) 0 16) ≤ (part s p.val).thinRun then
    irq (statSet s pgNrg 2) pgNrg 1
  else s)

/-- A write of COEF_IDX, COEF_DATA or COEF_ID (R393). -/
def coefWrite (s : State) (o : Nat) (w : Word) : State :=
  if anyRaising s then statSet s pgNrg 0
  else if o = 0x68 then regSet s (coefKey (regField s (pgNrg + 0x64) 0 6)) (w &&& 0xFFFFFF)
  else if o = 0x64 then regSet s (pgNrg + 0x64) (w &&& 0x3F)
  else regSet s (pgNrg + 0x60) w

end Sys2Proof.Machine
end

