-- ==== Sys2Proof/Machine/Power.lean ====
section
/-! DEFINITION. Power states (R401 to R408, R410). -/
namespace Sys2Proof.Machine
open Sys2Proof

/-! ## Blocks -/

/-- Where a unit's fields begin in UNIT_STATE: M, V0, V1. -/
def unitBit : PowerBlk → Nat
  | .unitV0 _ => 4
  | .unitV1 _ => 8
  | _ => 0

/-- Whether a block's state lies in UNIT_STATE. -/
def isUnit : PowerBlk → Bool
  | .unitM _ | .unitV0 _ | .unitV1 _ => true
  | _ => false

/-- The register that holds a block's state: UNIT_STATE, or PSTATE of its page. -/
def powerKey : PowerBlk → Nat
  | .unitM c | .unitV0 c | .unitV1 c => pgPwr (c.val / 64) + 0x100 + 4 * (c.val % 64)
  | .planer c => pgPln c.val + 0x24
  | .cluster c => pgClu c.val + 0x24
  | .region r => pgRgn r.val + 0x24
  | .die d => pgDie d.val + 0x24

/-- The page on which a change of a block is written, and refused. -/
def powerPage (b : PowerBlk) : Nat := if isUnit b then pgPwr (blkDie b) else powerKey b - 0x24

/-- The current state of a block. -/
def powerCur (s : State) (b : PowerBlk) : Nat :=
  if isUnit b then regField s (powerKey b) (unitBit b + 2) 2 else regField s (powerKey b) 0 2

/-- The page whose energy a block's is (R392): a unit's is its cluster's. -/
def energyPage : PowerBlk → Nat
  | .unitM c | .unitV0 c | .unitV1 c => pgClu c.val
  | b => powerKey b - 0x24

/-- Store the current state; TARGET reads it again. -/
def setPower (s : State) (b : PowerBlk) (v : Nat) : State :=
  let s := noteState s (energyPage b)
  if isUnit b then regPut s (powerKey b) (unitBit b) 4 (v + 4 * v)
  else regPut (regPut s (powerKey b) 0 2 v) (powerKey b) 4 2 v

/-- TARGET of a block. -/
def setTarget (s : State) (b : PowerBlk) (v : Nat) : State :=
  if isUnit b then regPut s (powerKey b) (unitBit b) 2 v else regPut s (powerKey b) 4 2 v

/-- BUSY of a block's register. -/
def busyBit (b : PowerBlk) : Nat := if isUnit b then 15 else 8
def powerBusy (s : State) (b : PowerBlk) : Bool := regBit s (powerKey b) (busyBit b)
def setBusy (s : State) (b : PowerBlk) (v : Bool) : State := regPut s (powerKey b) (busyBit b) 1 (b2n v)

/-- ISO of a unit or planer (R401, R404, R410). -/
def setIso (s : State) (b : PowerBlk) (v : Bool) : State :=
  match b with
  | .unitM _ => regPut s (powerKey b) 12 1 (b2n v)
  | .unitV0 _ => regPut s (powerKey b) 13 1 (b2n v)
  | .unitV1 _ => regPut s (powerKey b) 14 1 (b2n v)
  | .planer _ => regPut s (powerKey b) 9 1 (b2n v)
  | _ => s

/-- The states that R403 lists for a block. -/
def powerListed : PowerBlk → Nat → Bool
  | .cluster _, v => v < 4
  | .region _, v => v = 0 || v = 2
  | .die d, v => v = 0 || v = 2 || (v = 3 && d.val ≠ 0)
  | _, v => v = 0 || v = 2 || v = 3

/-! ## Conditions (R403, R407) -/

/-- Whether a raising in COMMITTED, RUNNING or HELD has package cluster `c` in its cluster map. -/
def clusterHeld (s : State) (c : Nat) : Bool := (ctxList s).any fun x => ctxLive s x && inClusterMap s x c

/-- The clusters of a region or a die. -/
def regionClusters (r : Nat) : List Nat := (List.range 16).map fun i => 16 * r + i

/-- The refuser and cause of a change that R403 does not allow; none if it may begin. -/
def powerCheck (s : State) (b : PowerBlk) : Option (Nat × Nat) :=
  match b with
  | .unitM c | .unitV0 c | .unitV1 c | .planer c | .cluster c =>
    if clusterHeld s c.val then some (pgTim2, 2) else none
  | .region r =>
    let cl := regionClusters r.val
    if cl.any (clusterHeld s) then some (pgTim2, 2)
    else
      (cl.find? fun c => regField s (pgClu c + 0x24) 0 2 < 2).map fun c => (pgClu c, 3)
  | .die d =>
    let vs := dieVaults d.val
    match (List.range 4).find? fun r => regField s (pgRgn (4 * d.val + r) + 0x24) 0 2 ≠ 2 with
    | some r => some (pgRgn (4 * d.val + r), 3)
    | none =>
      if (partOfDie s d.val).isSome then some (pgDie d.val, 4)
      else
        match vs.find? fun v => (carveRows s v).2 ≠ 0 || (initOf s v).isSome with
        | some v => some (pgVlt v, 5)
        | none =>
          if (ctxList s).any fun c => (ctx s c).importing.isSome && bitOf (liveDies s (ctx s c).part) d.val then
            some (pgSec, 5)
          else none

/-! ## Changes (R405, R407) -/

/-- The crossbar of a cluster's region masks it while it is, or goes, where its outputs float (R405). -/
def maskCluster (s : State) (b : PowerBlk) (on : Bool) : State :=
  match b with
  | .cluster c => regPut s (pgRgn (c.val / 16) + 0x60) (c.val % 16) 1 (b2n on)
  | _ => s

/-- Begin an entry or an exit. -/
def powerBegin (s : State) (b : PowerBlk) (v : Nat) : State :=
  let s := setBusy (setTarget s b v) b true
  let s := if 2 ≤ v then maskCluster s b true else s
  { s with pwr.busy := s.pwr.busy ++ [(b, BitVec.ofNat 2 v)] }

/-- A write of a block's TARGET (R407). -/
def targetWrite (s : State) (b : PowerBlk) (v : Nat) : State :=
  let pg := powerPage b
  if v = powerCur s b then s
  else if powerBusy s b then refusePower s pg pg 1
  else if !powerListed b v then refusePower s pg pg 7
  else if v = 0 then powerBegin s b 0
  else
    match powerCheck s b with
    | some (who, cause) => refusePower s pg who cause
    | none => powerBegin s b v

/-- The block with power states whose PSTATE lies on the page at base `pg`. -/
def pageBlock (pg : Nat) : Option PowerBlk :=
  let d := pg / 0x1000000
  match pageAt d (pg % 0x1000000) with
  | some (.pln, i) => some (.planer (Fin.ofNat 1024 (64 * d + i)))
  | some (.clu, i) => some (.cluster (Fin.ofNat 1024 (64 * d + i)))
  | some (.rgn, i) => if d < 16 then some (.region (Fin.ofNat 64 (4 * d + i))) else none
  | some (.die, _) => if d < 16 then some (.die (Fin.ofNat 16 d)) else none
  | _ => none

/-- A refusal on a page whose block has no power states (R401): only C-dies have a PWR page for the
cause. -/
def refuseBare (s : State) (pg : Nat) : State :=
  if pg / 0x1000000 < 16 then refusePower s pg pg 7
  else regSet (rawAdd s (pg + 0x28) 1) (pg + 0x2C) (BitVec.ofNat 32 (pageId pg))

/-- A write of PSTATE (R401, R407). -/
def pstateWrite (s : State) (pg : Nat) (w : Word) : State :=
  let v := wfield w 4 2
  match pageBlock pg with
  | some b => targetWrite s b v
  | none => if v = 0 then s else refuseBare s pg

/-- PSTATE_WRITE (R407). -/
def execPstateWrite (pg : PageId) (w : BitVec 32) (s : State) : Host.Outcome State Fault Refusal :=
  .next (match pageOfId pg with
    | some k => onServed s k fun s => pstateWrite s k w
    | none => emit s (.errorDone 0))

/-- A write of UNIT_STATE (R407, R410): one change at a time runs in it. -/
def unitStateWrite (s : State) (c : Fin 1024) (w : Word) : State :=
  let pg := pgPwr (c.val / 64)
  let us := [(PowerBlk.unitM c, wfield w 0 2), (.unitV0 c, wfield w 4 2), (.unitV1 c, wfield w 8 2)]
  let ch := us.filter fun x => x.2 ≠ powerCur s x.1
  if ch.isEmpty then s
  else if powerBusy s (.unitM c) then refusePower s pg pg 1
  else
    ch.foldl (fun s x =>
      if !powerListed x.1 x.2 then refusePower s pg pg 7
      else if x.2 ≠ 0 && clusterHeld s c.val then refusePower s pg pgTim2 2
      else powerBegin s x.1 x.2) s

/-- UNIT_STATE_WRITE (R410). -/
def execUnitStateWrite (c : Fin 1024) (w : BitVec 32) (s : State) : Host.Outcome State Fault Refusal :=
  .next (onServed s (pgPwr (c.val / 64)) fun s => unitStateWrite s c w)

/-- The change of a block that is in progress. -/
def powerGoal (s : State) (b : PowerBlk) : Option Nat := (s.pwr.busy.find? fun x => x.1 = b).map fun x => x.2.toNat

/-- A block's change is over. -/
def powerEnd (s : State) (b : PowerBlk) : State :=
  let s := { s with pwr.busy := s.pwr.busy.filter fun x => x.1 ≠ b }
  let more := isUnit b && s.pwr.busy.any fun x => isUnit x.1 && powerKey x.1 = powerKey b
  setBusy s b more

/-- Whether a host access is queued on C-die `d`; its entry to RETAIN or OFF waits for it (R403, R407). -/
def accessQueued (s : State) (d : Nat) : Option Nat :=
  (dieVaults d).find? fun v => (hostQ s v).any fun q => match q.job with | .access _ _ => true | _ => false

/-- What a block lost while it was OFF (R402, R404, R405). -/
def unitWipe (s : State) (b : PowerBlk) : State :=
  match b with
  | .unitM c => { s with
      clu.tile := tabDrop (fun k => k / 4 = c.val) s.clu.tile
      clu.run := tabDrop (fun k => k / 4 = c.val) s.clu.run
      clu.wbuf := memClear s.clu.wbuf (c.val * wbufSize) wbufSize }
  | .planer c => emptyTables s c.val
  | .cluster c => clearCluster s c.val
  | _ => s

/-- A crossing is checked again with training transfers (R103, R405); the arrival that it finds is free. -/
def recheck (s : State) (d n : Nat) : State :=
  if !xcalUsed d n || regField s (xcalReg d n) 24 2 ≠ 1 then s
  else
    let a := drawFree s 6
    if xcalX d n < a.1.toNat + 5 then linkByXcal (regPut a.2 (xcalReg d n) 24 2 2) d n else a.2

/-- The records of the crossings of package region `r`: inbound on its die, and at its link's far end. -/
def regionXcal (r : Nat) : List (Nat × Nat) :=
  let d := r / 4
  let q := r % 4
  let link := match q with | 0 => 0 | 1 => 1 | 2 => 3 | _ => 2
  let far := farEnd d link
  (d, link) :: (if far.1 = 19 then [] else [far]) ++
    ((List.range 4).filter (· ≠ q)).flatMap fun o => [(d, xcalRec (4 * d + q) (16 + o)), (d, xcalRec (4 * d + o) (16 + q))]

/-- A region that leaves RETAIN counts stretches again with the others, of which E0 always runs (R99, R405):
it owes what they owe. -/
def rejoin (s : State) (r : Nat) : State := setDomain s r (domainOf s 64)

/-- A block whose change is over is in state `v`. One that leaves OFF, to whatever state, has lost what it held; the
crossbar masks a cluster while it is in RETAIN or OFF, and no longer (R402, R405). -/
def powerTo (s : State) (b : PowerBlk) (v : Nat) : State :=
  let s := if powerCur s b = 3 && v ≠ 3 then unitWipe s b else s
  maskCluster (setPower (powerEnd s b) b v) b (2 ≤ v)

/-- POWER_ENTRY_DONE: a unit holds its outputs isolated; a die that is OFF is in partial reset, and one that leaves OFF
returns from it (R404, R406). A die with host accesses queued does not get there yet (R403). -/
def execPowerEntryDone (b : PowerBlk) (s : State) : Host.Outcome State Fault Refusal :=
  .next (match powerGoal s b with
    | none => s
    | some v =>
      if v = 0 || (match b with | .die d => (accessQueued s d.val).isSome | _ => false) then s
      else
        let was := powerCur s b
        let s := powerTo s b v
        let s := if 2 ≤ v then setIso s b true else s
        match b with
        | .die d =>
          if v = 3 then actFaults (enterPreset s d.val)
          else if was = 3 then leavePreset s d.val [] else s
        | _ => s)

/-- POWER_EXIT_DONE: the block is ON again (R404 to R406). -/
def execPowerExitDone (b : PowerBlk) (s : State) : Host.Outcome State Fault Refusal :=
  .next (match powerGoal s b with
    | none => s
    | some v =>
      if v ≠ 0 then s
      else
        let was := powerCur s b
        let s := powerTo s b 0
        match b with
        | .region r => if was = 2 then rejoin ((regionXcal r.val).foldl (fun s x => recheck s x.1 x.2) s) r.val else s
        | .die d =>
          if was = 3 then leavePreset s d.val [] else s
        | _ => s)

/-- HOST_PENDING: a die entry with host accesses still queued is aborted (R407). -/
def execHostPending (d : Fin 16) (s : State) : Host.Outcome State Fault Refusal :=
  let b : PowerBlk := .die d
  .next (match powerGoal s b, accessQueued s d.val with
    | some g, some v =>
      if g = 0 then s
      else
        let s := setTarget (refusePower s (pgDie d.val) (pgVlt v) 6) b (powerCur s b)
        { s with pwr.busy := s.pwr.busy.map fun x => if x.1 = b then (b, 0) else x }
    | _, _ => s)

/-- A write of PWR.ISO_RELEASE on C-die `d` (R404, R410). -/
def isoWrite (s : State) (d : Nat) (w : Word) : State :=
  let c : Fin 1024 := Fin.ofNat 1024 (64 * d + wfield w 0 6)
  let us := [(8, PowerBlk.unitM c), (9, .unitV0 c), (10, .unitV1 c), (11, .planer c)]
  us.foldl (fun s x => if w.getLsbD x.1 && powerCur s x.2 = 0 then setIso s x.2 false else s) s

/-- ISO_RELEASE (R404). -/
def execIsoRelease (d : Fin 16) (w : BitVec 32) (s : State) : Host.Outcome State Fault Refusal :=
  .next (onServed s (pgPwr d.val) fun s => isoWrite s d.val w)

end Sys2Proof.Machine
end

