-- ==== Sys2Proof/Machine/Board.lean ====
section
/-! DEFINITION. Package and shepherd resets, boot, flash, watchdog, timers, regulators and thermal protection
(R412 to R426, R436, R438, R477 to R492). -/
namespace Sys2Proof.Machine
open Sys2Proof

/-! ## Package reset (R415) -/

/-- Whether the register at key `k` is a persistent register or its wear counter. -/
def pstKeeps (k : Nat) : Bool := pgPst 0 ≤ k && k < pgPst 3 + 0x1000 && 0x400 ≤ k % 0x1000

/-- A package reset: what R415 keeps stays, the levels of the pins too, and every C-die generates new
carve-out keys (R365). A persistent write in progress is stored. -/
def packageReset (s : State) : State :=
  let s := (List.range 4).foldl pstDone s
  let r := State.reset
  { r with
    pending := s.pending
    out := s.out
    free := s.free
    regs := s.regs.filter fun e => pstKeeps e.1
    time := { r.time with captPin := s.time.captPin, ppsPin := s.time.ppsPin }
    sec := { r.sec with
      memKey := (List.range 16).map fun d => (257 * d + 256, s.sec.keyGen + d)
      keyGen := s.sec.keyGen + 16, uds := s.sec.uds, mgmtKey := s.sec.mgmtKey
      sealPinNs := s.sec.sealPinNs, sealLatch := s.sec.sealLatch, presPin := s.sec.presPin
      presAsserted := s.sec.presAsserted }
    brd := { r.brd with flash := s.brd.flash } }

/-- PACKAGE_RESET: PKG_RST_N is low for `ns` ns; at least 10 µs reset the package, less than 1 µs is
ignored, and between them the spec does not say (R479). -/
def execPackageReset (ns : Nat) (s : State) : Host.Outcome State Fault Refusal :=
  .next (
    if 10000 ≤ ns then packageReset s
    else if ns < 1000 then s
    else
      let x := drawFree s 1
      if x.1 = 1 then packageReset x.2 else x.2)

/-- POWER_LOSS: a register being written keeps its old value or takes the new one (R427, R486). Without
VDD_AON a latched seal break is lost (R481). -/
def execPowerLoss (keepNew aon : Bool) (s : State) : Host.Outcome State Fault Refusal :=
  let s := if keepNew then s else { s with brd.pstPend := [] }
  let s := packageReset s
  .next { s with brd.aonOut := aon, sec.sealLatch := s.sec.sealLatch && !aon }

/-! ## Images in flash (R420 to R423) -/

/-- Flash offset of slot `n` of kind `k`. -/
def slotOfs (k n : Nat) : Nat := (2 * k + n) * 0x4000000

/-- The header of a slot. -/
def slotHeader (s : State) (k n : Nat) : Nat := memNat s.brd.flash (slotOfs k n) 0x600

/-- Fields of a header. -/
def imgSvn (h : Nat) : Nat := byteFld h 8 4
def imgFloor (h : Nat) : Nat := byteFld h 0xC 4
def imgLength (h : Nat) : Nat := byteFld h 0x10 8
def imgLoad (h : Nat) : Nat := byteFld h 0x18 8
def imgEntry (h : Nat) : Nat := byteFld h 0x20 8
def imgBodyHash (h : Nat) : BitVec 512 := BitVec.ofNat 512 (byteFld h 0x28 64)
def imgModulus (h : Nat) : List Byte := natBytes 512 (byteFld h 0x100 512)
def imgSignature (h : Nat) : List Byte := natBytes 512 (byteFld h 0x300 512)
def imgGen (h : Nat) : Nat := byteFld h 0x500 4

/-- The largest body. -/
def imgMax : Nat := 0x03FFFA00

/-- The body of a slot. -/
def slotBody (s : State) (k n : Nat) : List Byte :=
  memBytes s.brd.flash (slotOfs k n + 0x600) (min imgMax (imgLength (slotHeader s k n)))

/-- BOOT_POLICY.OWNER_ZENBER (R432). -/
def ownerZenber (s : State) : Bool := bitOf (pstNat s 128 1) 0

/-- Whether R420 allows a signer for kind `k`. -/
def imgSigner (s : State) (k : Nat) (m : BitVec 512) : Bool :=
  m = Config.firmwareKey || (k = 2 && ownerZenber s && ownerHash s = some m)

/-- Whether an image verifies as kind `k` (R422, R426). -/
def imageOk (s : State) (k h : Nat) (body : List Byte) : Bool :=
  byteFld h 0 4 = 0x49425441 && byteFld h 4 1 = k && byteFld h 5 3 = 0 && byteFld h 0x6C 148 = 0 &&
  byteFld h 0x504 252 = 0 && imgLength h ≤ imgMax && body.length = imgLength h && imgFloor h ≤ imgSvn h &&
  imgSigner s k (sha512 (imgModulus h)) &&
  pssVerify (imgModulus h) (imgSignature h) (sha512Bytes (natBytes 0x300 h)) &&
  sha512 body = imgBodyHash h && minSvn s k ≤ imgSvn h &&
  (k ≠ 3 || Config.calDik body = s.sec.dik)

/-- Whether slot `n` of kind `k` verifies. -/
def slotOk (s : State) (k n : Nat) : Bool := imageOk s k (slotHeader s k n) (slotBody s k n)

/-- The slot that the boot runs: the verifying one with the higher GEN, slot 0 on a tie (R422). -/
def slotRun (s : State) (k : Nat) : Option Nat :=
  let hi := if imgGen (slotHeader s k 0) < imgGen (slotHeader s k 1) then 1 else 0
  if slotOk s k hi then some hi else if slotOk s k (1 - hi) then some (1 - hi) else none

/-- The slot that takes a new image: the one with the lower GEN (R424, R425), slot 1 on a tie. -/
def slotLower (s : State) (k : Nat) : Nat :=
  if imgGen (slotHeader s k 0) < imgGen (slotHeader s k 1) then 0 else 1

/-- The minimum that kind `k` takes in step 5 with slot `n` running (R423). -/
def minimumAfter (s : State) (k n : Nat) : Nat :=
  let both := if slotOk s k 0 && slotOk s k 1 then
      min (imgSvn (slotHeader s k 0)) (imgSvn (slotHeader s k 1)) else 0
  max (minSvn s k) (max (imgFloor (slotHeader s k n)) both)

/-! ## Boot (R419) -/

/-- STAGE of BOOT_STAT. -/
def setStage (s : State) (n : Nat) : State := regPut s (pgBrd + 0x44) 0 3 n

/-- Bytes into shepherd SRAM from a package address; bytes outside it go nowhere (R412). -/
def sramPut (s : State) (a : Nat) (l : List Byte) : State :=
  if 0x0FFF01000000 ≤ a && a + l.length ≤ 0x0FFF01400000 then
    { s with brd.sram := memWrite s.brd.sram (a - 0x0FFF01000000) l.length (bytesNat l) }
  else s

/-- Extend a measurement register (R367). -/
def extendMr (s : State) (i : Nat) (data : List Byte) : State :=
  let m := s.sec.mr.getD i 0
  { s with sec.mr := s.sec.mr.set i (sha512 (natBytes 64 m.toNat ++ sha512Bytes data)) }

/-- BOOT_STAT.SLOTS and the SVN of the kind. -/
def noteSlot (s : State) (k n : Nat) : State :=
  let s := regPut s (pgBrd + 0x44) (8 + k) 1 n
  if k < 3 then { s with sec.svn := s.sec.svn.set k (imgSvn (slotHeader s k n)) } else s

/-- Recovery: core 0 is not released, or is stopped (R419, R425). -/
def bootStop (s : State) : State := { setStage s 7 with brd.core0 := false, brd.cores := false }

/-- Self-test of the C-dies, crossings, retired rows, and the host channels of every link (R15, R419 step 4). -/
def bootDies (s : State) (o : BootOutcome) : State :=
  let s := (List.range 16).foldl (fun s d =>
    let ok := bitOf o.selftest.toNat d
    let s := regSet s (pgDie d + 0x4C) (BitVec.ofNat 32 (1 + 2 * b2n ok))
    if ok then s else setPreset s d 4) s
  let s := calibrateAll s ((List.range 19).flatMap fun d => (List.range 16).map fun n => (d, n)) o.xcal
  let s := (List.range 16).foldl (fun s d =>
    if bitOf o.selftest.toNat d then retireLoad (dieLinks s d true) d else dieLinks s d false) s
  [(16, 5), (17, 4), (17, 5), (18, 4)].foldl (fun s x => hostStat s x.1 x.2 true false) s

/-- The carve-out window of a vault is initialised (R218, R419). -/
def bootCarve (s : State) (v : Nat) : State :=
  let w := carveRows s v
  if w.2 = 0 then s
  else
    let s := setInit s v (some { dom := domCarve, next := 0, rows := w.2, first := w.1, aborted := false })
    setInit (initRest v (w.2 * 512) s) v none

/-- What the calibration record gives (R393, R410, R426). -/
def bootRecord (s : State) (cal : List Byte) : State :=
  let s := (List.range 64).foldl (fun s n => regSet s (coefKey n) ((Config.calCoef cal n).setWidth 32)) s
  let s := regSet s (pgNrg + 0x60) (Config.calCoefId cal)
  let s := (List.range 64).foldl (fun s r =>
    regSet s (pgPwr (r / 4) + 0x50 + 4 * (r % 4)) ((Config.calBias cal r).setWidth 32)) { s with sec.serial := Config.calSerial cal }
  let mac := (Config.calMac cal).toNat
  regSet (regSet s (pgMgt + 0x50) (BitVec.ofNat 32 mac)) (pgMgt + 0x54) (BitVec.ofNat 32 (mac / 2 ^ 32))

/-- NODE_ID and the management port (R432). -/
def bootConfig (s : State) : State :=
  let nc := pstNat s 129 1
  let mc := pstNat s 130 1
  let s := if bitOf nc 16 then nodeIdWrite s (BitVec.ofNat 32 (0x80000000 + nc % 0x10000)) else s
  let s := regSet s (pgMgt + 0x40) (BitVec.ofNat 32 (mc % 4 + b2n (bitOf mc 2) * 4))
  regSet s (pgMgt + 0x70) (BitVec.ofNat 32 (mc / 0x10000))

/-- What MR3 is extended with: BOOT_POLICY, the owner-key hash and the seal state (R367). -/
def policyBytes (s : State) : List Byte :=
  natBytes 4 (pstNat s 128 1) ++ natBytes 64 ((ownerHash s).getD 0).toNat ++ natBytes 4 (sealState s)

/-- Raise the minimum of kind `k` (R423). -/
def raiseMinimum (s : State) (k : Nat) : State :=
  let n := regField s (pgBrd + 0x44) (8 + k) 1
  let m := minimumAfter s k n
  if minSvn s k < m then
    regPut (pstStore s (65 + k) (BitVec.ofNat 32 m)) (pgBrd + 0x44) 16 1 1
  else s

/-- Steps 5 and 6 with the Zenber of slot `n` in C0's carve-out. -/
def bootZenber (s : State) (n : Nat) : State :=
  let h := slotHeader s 2 n
  let body := slotBody s 2 n
  let s := setStage s 5
  let s := extendMr (extendMr (noteSlot s 2 n) 2 body) 3 (policyBytes s)
  let s := (List.range 4).foldl raiseMinimum s
  let s := renewNonce (aliasIssue { s with
    brd.cores := true
    brd.zenber := some (imgLoad h, imgLength h, imgEntry h, imgBodyHash h) })
  setStage s 6

/-- Step 4 on core 0, with the calibration record `cal`. -/
def bootFirmware (s : State) (o : BootOutcome) (cal : List Byte) : State :=
  let s := bootDies (setStage s 4) o
  if !bitOf o.selftest.toNat 0 then bootStop (regPut s (pgBrd + 0x44) 17 1 1)
  else
    let s := ([0, 4, 8, 12].filter (bitOf o.selftest.toNat)).foldl (fun s d => (dieVaults d).foldl bootCarve s) s
    let s := bootConfig (bootRecord s cal)
    match slotRun s 2 with
    | none => bootStop s
    | some n =>
      let body := slotBody s 2 n
      bootZenber (engineWrites s 3 .sec (imgLoad (slotHeader s 2 n)) body.length (bytesNat body)
        (body.length / 64 + 2)).2 n

/-- Steps 2 and 3 of the SEC. -/
def bootSec (s : State) (o : BootOutcome) : State :=
  let s := deriveKeys (setStage s 2)
  let s := if s.sec.sealLatch then sealBreakAct s else s
  match slotRun s 0 with
  | none => bootStop s
  | some a =>
    let s := setStage (extendMr (noteSlot s 0 a) 0 (slotBody s 0 a)) 3
    match slotRun s 3, slotRun s 1 with
    | some c, some b =>
      let body := slotBody s 1 b
      let h := slotHeader s 1 b
      let s := extendMr (noteSlot (noteSlot s 3 c) 1 b) 1 body
      let s := sramPut { s with brd.core0 := true, brd.bootHash := imgBodyHash h } (imgLoad h) body
      bootFirmware s o (slotBody s 3 c)
    | _, _ => bootStop s

/-- BOOT: the steps of R419, from the reset package. Without a valid reference input it waits in step 1. -/
def execBoot (o : BootOutcome) (s : State) : Host.Outcome State Fault Refusal :=
  .next (
    if 2 ≤ regField s (pgBrd + 0x44) 0 3 then s
    else if !s.time.pllOn then setStage s 1
    else bootSec s o)

/-- Write bytes into the flash. -/
def flashPut (s : State) (a : Nat) (l : List Byte) : State :=
  { s with brd.flash := memWrite s.brd.flash a l.length (bytesNat l) }

/-- RECOVERY_IMAGE: an image through the recovery mailbox (R425). A C0 failure takes none (R419). -/
def execRecoveryImage (kind : BitVec 2) (img : List (BitVec 8)) (s : State) : Host.Outcome State Fault Refusal :=
  let k := kind.toNat
  .next (
    if regField s (pgBrd + 0x44) 0 3 = 7 && !regBit s (pgBrd + 0x44) 17 && 0x600 ≤ img.length &&
        imageOk s k (bytesNat (img.take 0x600)) (img.drop 0x600) then
      packageReset (flashPut s (slotOfs k (slotLower s k)) img)
    else s)

/-! ## Shepherd reset (R415, R418) -/

/-- Whether the boot firmware in flash and Zenber in the carve-out still have their measured hashes; the
lines of Zenber are read. -/
def shepherdCheck (s : State) : Bool × State :=
  let n := regField s (pgBrd + 0x44) 9 1
  match s.brd.zenber with
  | none => (false, s)
  | some (a, len, _, hash) =>
    let z := engineBytes s 3 .sec a len
    (sha512 (slotBody s 1 n) = s.brd.bootHash && (match z.1 with | some l => sha512 l = hash | none => false), z.2)

/-- A shepherd reset: the shepherd complex alone, or the whole package if a check fails. -/
def shepherdReset (s : State) : State :=
  let s := { s with brd.sram := [], brd.timerCmp := [], brd.timerPend := [] }
  let x := shepherdCheck s
  if x.1 then
    let n := regField x.2 (pgBrd + 0x44) 9 1
    sramPut { x.2 with brd.core0 := true, brd.cores := true } (imgLoad (slotHeader x.2 1 n)) (slotBody x.2 1 n)
  else packageReset x.2

/-- A write of BRD.RESET (R438). -/
def resetWrite (s : State) (w : Word) : State :=
  if wfield w 16 16 ≠ 0xA55A then s
  else
    match wfield w 0 2 with
    | 1 => packageReset s
    | 2 => shepherdReset s
    | _ => s

/-- RESET_PACKAGE (R415). -/
def execResetPackage (w : BitVec 32) (s : State) : Host.Outcome State Fault Refusal := .next (resetWrite s (wset w 0 2 1))

/-- RESET_SHEPHERD (R418). -/
def execResetShepherd (w : BitVec 32) (s : State) : Host.Outcome State Fault Refusal := .next (resetWrite s (wset w 0 2 2))

/-! ## Watchdog and timers (R414, R436) -/

/-- The watchdog counts from now. -/
def wdtRestart (s : State) : State := { s with brd.wdtFrom := nowPeriods s }

/-- WDT_KICK (R436). -/
def execWdtKick (_w : BitVec 32) (s : State) : Host.Outcome State Fault Refusal := .next (wdtRestart s)

/-- A write of WDT_CFG. -/
def wdtCfgWrite (s : State) (w : Word) : State :=
  let k := pgBrd + 0x48
  let s := if w.getLsbD 31 && !regBit s k 31 then wdtRestart s else s
  regSet s k (w &&& 0x8000FFFF)

/-- Tick-clock periods in a millisecond (R65). -/
def msPeriods : Nat := 800000

/-- WATCHDOG_EXPIRY (R436). -/
def execWatchdogExpiry (s : State) : Host.Outcome State Fault Refusal :=
  .next (
    if regBit s (pgBrd + 0x48) 31 &&
        s.brd.wdtFrom + max 1 (regField s (pgBrd + 0x48) 0 16) * msPeriods ≤ nowPeriods s then
      shepherdReset (cntAdd (wdtRestart s) (pgBrd + 0x50) 1)
    else s)

/-- Number of a core's compare register. -/
def timerNo (core : Nat) : TimerCmp → Nat
  | .mtimecmp => 3 * core
  | .stimecmp => 3 * core + 1
  | .vstimecmp => 3 * core + 2

/-- SHEPHERD_TIMER_COMPARE: the core may write a compare register; its timer interrupt is pending while the
time counter, 100 MHz (R83), is at least the compare value. -/
def execShepherdTimerCompare (core : Fin 32) (w : TimerWrite) (s : State) : Host.Outcome State Fault Refusal :=
  let n := timerNo core.val w.cmp
  let s := match w.value with
    | some x => { s with brd.timerCmp := tabSet 0 n x s.brd.timerCmp }
    | none => s
  .next (
    if (tabGet (0 : BitVec 64) n s.brd.timerCmp).toNat ≤ nowPeriods s / 8 then
      { s with brd.timerPend := s.brd.timerPend.erase n ++ [n] }
    else { s with brd.timerPend := s.brd.timerPend.erase n })

/-! ## Flash commands (R438) -/

/-- A write of FLASH_CMD. -/
def flashCmdWrite (s : State) (w : Word) : State :=
  let k := pgBrd + 0x64
  let c := wfield w 0 2
  if regBit s k 8 || c = 0 || c = 3 then s
  else
    { regPut s k 8 1 1 with brd.flashBusy := some (BitVec.ofNat 2 c, regNat s (pgBrd + 0x54),
        regPair s (pgBrd + 0x58) % 2 ^ 48, regField s (pgBrd + 0x60) 0 27) }

/-- FLASH_ERASE (R438). -/
def execFlashErase (w : BitVec 32) (s : State) : Host.Outcome State Fault Refusal := .next (flashCmdWrite s (wset w 0 2 1))

/-- FLASH_PROGRAM (R438). -/
def execFlashProgram (w : BitVec 32) (s : State) : Host.Outcome State Fault Refusal := .next (flashCmdWrite s (wset w 0 2 2))

/-- The size of the flash device (R420). -/
def flashBytes : Nat := 0x20000000 + Config.flashMore

/-- The bytes that a command writes: its range, and the bytes for it if it can have them. -/
def flashJob (s : State) (cmd a src n : Nat) : Nat × Nat × Option (List Byte) × State :=
  if cmd = 1 then
    let lo := a / 0x10000 * 0x10000
    let len := if n = 0 then 0 else (a + n - 1) / 0x10000 * 0x10000 + 0x10000 - lo
    (lo, len, some (List.replicate len 0xFF), s)
  else if inCarve s src then
    let x := engineBytes s 3 .sec src n
    (a, n, x.1, x.2)
  else (a, n, none, s)

/-- FLASH_DONE: the running command ends. One that fails leaves undefined bytes in its range. -/
def execFlashDone (ok : Bool) (s : State) : Host.Outcome State Fault Refusal :=
  .next (match s.brd.flashBusy with
    | none => s
    | some (c, a, src, n) =>
      let j := flashJob s c.toNat a src n
      let fits := j.1 + j.2.1 ≤ flashBytes
      let good := ok && fits && j.2.2.1.isSome
      let s := match j.2.2.1 with
        | some l => if good then flashPut j.2.2.2 j.1 l else j.2.2.2
        | none => j.2.2.2
      let s :=
        if good then s
        else
          let x := freeBytes s (min j.2.1 (flashBytes - j.1))
          flashPut x.2 j.1 x.1
      irq (regPut (regPut { s with brd.flashBusy := none } (pgBrd + 0x64) 8 1 0) (pgBrd + 0x64) 9 1 (b2n (!good)))
        pgBrd 0)

/-! ## Regulators (R487, R492) -/

/-- Device `d` is read if it is valid: VR_STATUS takes its answer, and the interrupt comes if that changes it. A device that
`rs` names no answer of does not acknowledge. -/
def vrTake (rs : List VrReply) (s : State) (d : Nat) : State :=
  let dev := regGet s (pgBrd + 0x80 + 4 * d)
  if !dev.getLsbD 15 then s
  else
    let k := pgBrd + 0xC0 + 4 * d
    let old := regNat s k
    let new := match (rs.find? fun r => r.dev.val = d).bind (·.status) with
      | some w => w.toNat
      | none => setBits old 16 1 1
    let s := emit (regSet s k (BitVec.ofNat 32 new)) (.regulatorRead (dev.setWidth 7))
    if new = old then s else irq s pgBrd 1

/-- Every valid device is read. -/
def vrRead (rs : List VrReply) (s : State) : State := (List.range 16).foldl (vrTake rs) s

/-- The periods between two polls: VR_POLL.PERIOD in ms, 0 as 1 (R492). -/
def vrPeriod (s : State) : Nat := max 1 (regField s (pgBrd + 0x100) 0 8) * msPeriods

/-- VR_POLL: a poll that is due (R487). -/
def execVrPoll (rs : List VrReply) (s : State) : Host.Outcome State Fault Refusal :=
  .next (
    if s.brd.vrFrom + vrPeriod s ≤ nowPeriods s then vrRead rs { s with brd.vrFrom := nowPeriods s } else s)

/-- VR_ALERT: VR_ALERT_N falls, and every valid device is read at once (R487, R492). -/
def execVrAlert (rs : List VrReply) (s : State) : Host.Outcome State Fault Refusal :=
  .next (vrRead rs (irq s pgBrd 1))

/-! ## Thermal protection (R489 to R492) -/

/-- A die's temperatures, in 0.125 °C units. -/
def juncOf (s : State) (d : Nat) : Int := ((regGet s (pgDie d + 0x48)).extractLsb' 0 12).toInt
def stackOf (s : State) (d : Nat) : Int := ((regGet s (pgDie d + 0x48)).extractLsb' 16 12).toInt

/-- Whether a die's reading exceeds a limit of its JUNC or STACK. -/
def overTemp (s : State) (junc stack : Int) (d : Nat) : Bool := junc < juncOf s d || stack < stackOf s d

/-- The trip, critical and clear limits: 105 and 95 °C, 120 and 105 °C, 100 and 90 °C. -/
def tripOver (s : State) (d : Nat) : Bool := overTemp s 840 760 d
def critOver (s : State) (d : Nat) : Bool := overTemp s 960 840 d
def clearOver (s : State) (d : Nat) : Bool := overTemp s 800 720 d

/-- TEMP of a die, with the DIE page's interrupt when either temperature passes its trip level (R450). -/
def tempSet (s : State) (t : TempReading) : State :=
  let d := t.die.val
  let st := if d < 16 then t.stack.toNat else 0
  let u := regSet s (pgDie d + 0x48) (BitVec.ofNat 32 (t.junc.toNat + st * 0x10000))
  let passed := (juncOf s d ≤ 840 && 840 < juncOf u d) || (stackOf s d ≤ 760 && 760 < stackOf u d)
  if d < 19 && passed then irq u (pgDie d) 1 else u

/-- The trip is set by the reading of die `d`. -/
def tripNow (s : State) (d : Nat) : State :=
  let k := pgBrd + 0x104
  let n := regField s k 16 16
  let s := regPut (regPut (regPut s k 0 1 1) k 8 5 d) k 13 1 (b2n (760 < stackOf s d))
  let s := if frozen s pgBrd then s else regPut s k 16 16 (satNat 16 (n + 1))
  irq { s with brd.thermTrip := true, brd.tripNew := true } pgBrd 2

/-- TEMP_UPDATE: the 1 ms update (R450, R489 to R491). -/
def execTempUpdate (ts : List TempReading) (s : State) : Host.Outcome State Fault Refusal :=
  let s := ts.foldl tempSet s
  let dies := List.range 20
  let s :=
    if s.brd.thermTrip then
      if dies.any (clearOver s) then s
      else { regPut s (pgBrd + 0x104) 0 1 0 with brd.thermTrip := false, brd.tripLow := false }
    else match dies.find? (tripOver s) with
      | some d => tripNow s d
      | none => s
  .next (if !s.brd.thermCrit && dies.any (critOver s) then
    irq { regPut s (pgBrd + 0x104) 1 1 1 with brd.thermCrit := true } pgBrd 3
  else s)

/-- The thermal trip meets the raising of context `c` (R354, R489): a live one reports THERMAL, which
FAULT_CAUSE then names, and stops; a
prepared one returns to LOADED with NOT_READY; so does a prepared successor. -/
def tripCtx (s : State) (c : Nat) : State :=
  let s := if ctxLive s c then
      let s := faultReport s c 3 0
      endRaising (setCtx s c { ctx s c with faultCause := 3 }) c .stopped
    else abortAct s c false 9
  match (ctx s c).succ with
  | some q => if q.state = .committed then stopAct s c true 0 else abortAct s c true 9
  | none => s

/-- THERMAL_TRIP: at the first tick after the trip is set THERM_TRIP_N falls, unless the trip has cleared since, and every
raising stops (R479, R489). -/
def execThermalTrip (s : State) : Host.Outcome State Fault Refusal :=
  .next (if s.brd.tripNew then (ctxList s).foldl tripCtx { s with brd.tripNew := false, brd.tripLow := s.brd.thermTrip }
    else s)

end Sys2Proof.Machine
end

