-- ==== Sys2Proof/Machine/Operands.lean ====
section
/-! DEFINITION. Operand forms of the bundle slots: gating and predicates (R113, R127 to R130),
vector elements and formats (R147, R148, R181), store, weight-buffer and bent addresses
(R145, R149, R151, R152). -/
namespace Sys2Proof.Machine
open Sys2Proof

/-! ## Gating -/

/-- Whether an XG value is assigned (R113). -/
def xgOk (xg : BitVec 4) : Bool := xg.toNat ≤ 8

/-- The extent register that an XG value names, as a source (R113, R469). -/
def xgSrc (xg : BitVec 4) : List Dest :=
  if xg = 0 then [] else [.xreg (BitVec.ofNat 3 (xg.toNat - 1))]

/-- Whether element `i` of an operation of cluster `c` is active under its extent (R128):
POS + (i >> SHIFT) lies below LIMIT. -/
def elemOn (s : State) (c : Nat) (xg : BitVec 4) (i : Nat) : Bool :=
  if xg = 0 then true
  else
    let x := (xregOf s c (xg.toNat - 1)).toNat
    bitsOf x 32 24 + i >>> bitsOf x 56 4 < bitsOf x 0 32

/-- The active lines of an access of `n` lines. -/
def linesOn (s : State) (c : Nat) (xg : BitVec 4) (n : Nat) : BitVec n := maskOf n (elemOn s c xg)

/-- The active lanes of a V operation: extent and predicate both allow them (R128, R130). -/
def lanesOn (s : State) (c : Nat) (o : VOp) : BitVec 256 :=
  maskOf 256 fun l => elemOn s c o.xg l && (pregOf s c o.pred.toNat).getLsbD l

/-! ## Vector formats -/

/-- Element width of a vector format (R147, R148). -/
def vw (fmt : Nat) : Nat :=
  match fmt with | 0 => 32 | 1 => 16 | 2 => 16 | 3 => 64 | 4 => 32 | 5 => 16 | _ => 8

/-- Element count of a vector format (R148). -/
def vn (fmt : Nat) : Nat := 8192 / vw fmt

/-- The floating-point layout of a vector format; none for integers (R169). -/
def vfp (fmt : Nat) : Option FFmt :=
  match fmt with | 0 => some fp32 | 1 => some bf16 | 2 => some fp16 | 3 => some fp64 | _ => none

/-- Element `i` of a register under a format, as its code. -/
def velem (v : VecReg) (w i : Nat) : Nat := (elem v w i).toNat

/-- Whether element `i` of width `w` is active: its lane is, and for FP64 both of its lanes are
(R148). -/
def elemActive (m : BitVec 256) (w i : Nat) : Bool :=
  if w = 64 then m.getLsbD (2 * i) && m.getLsbD (2 * i + 1) else m.getLsbD (i * w / 32)

/-- The lanes that a result of elements of width `w` writes. -/
def writeLanes (m : BitVec 256) (w : Nat) : BitVec 256 :=
  if w = 64 then maskOf 256 fun l => m.getLsbD (l / 2 * 2) && m.getLsbD (l / 2 * 2 + 1) else m

/-- The low bits of a scalar that supply an element (R181). -/
def scalarElem (w : Nat) (x : BitVec 64) : Nat := x.toNat % 2 ^ w

/-- The register of `w`-bit elements `f 0, f 1, …`. -/
def vecOf (w : Nat) (f : Nat → Nat) : VecReg := ofElems 8192 w fun i => BitVec.ofNat w (f i)

/-- A code as a two's complement number. -/
def sInt (w x : Nat) : Int := (BitVec.ofNat w x).toInt

/-! ## V-slot timing -/

/-- The latencies of a V operation (R154): FP32, 16-bit, FP64 with its occupancy, integer; the
integer formats listed are FMT 4 to 3 + `ints`; `rm`: RM is honoured; `trans`: an approximated function (R195), for
R393. 0: not listed. -/
structure VLat where
  f32   : Nat
  h     : Nat
  f64   : Nat
  occ64 : Nat
  int   : Nat
  ints  : Nat
  rm    : Bool
  trans : Bool
deriving DecidableEq, Repr

/-- Latency and occupancy for a format; latency 0 where the operation does not list it. -/
def vlat (l : VLat) (fmt : Nat) : Nat × Nat :=
  if fmt = 0 then (l.f32, 1)
  else if fmt ≤ 2 then (l.h, 1)
  else if fmt = 3 then (l.f64, l.occ64)
  else if fmt ≤ 3 + l.ints then (l.int, 1)
  else (0, 1)

/-- The slot of a vector unit (R22). -/
def vslot (u : VUnit) : Nat := match u with | .v0 => 1 | .v1 => 2

/-- The power-state mask of a vector unit (R404). -/
def vunitMask (u : VUnit) : Nat := match u with | .v0 => 2 | .v1 => 4

/-- The event that an active lane of a V operation is, by its format (R393). -/
def vKind (fmt : Nat) (trans : Bool) : EventKind :=
  if fmt = 3 then .lane64 else if 4 ≤ fmt then .laneInt else if trans then .laneTrans else .lane

/-- The active lanes of a V operation, which count as events; a gated lane counts none (R63, R393). -/
def vLanes (s : State) (c : Nat) (o : VOp) : Nat := onesIn (writeLanes (lanesOn s c o) (vw o.fmt.toNat))

/-- A V operation of cluster `c` as it issues: its encoding is good where XG is assigned, the format is listed,
RM is zero unless honoured, and `enc` holds; its result arrives at its latency; its active lanes count as events
of kind `k`. -/
def vInfo (s : State) (c : Nat) (u : VUnit) (o : VOp) (l : Nat × Nat) (k : EventKind) (rm enc : Bool) (srcs : List Dest)
    (res : Act) : OpInfo :=
  { slot := vslot u, enc := xgOk o.xg && l.1 ≠ 0 && (rm || o.rm = 0) && enc, unit := vunitMask u,
    occ := l.2, due := l.1 - 1, srcs := xgSrc o.xg ++ .preg o.pred :: srcs, evs := [(l.1 - 1, res), (0, .count k (vLanes s c o))] }

/-- A V operation that writes a vector register: `f` gives the elements, read at issue (R137). -/
def vecOp (i : Issue) (u : VUnit) (o : VOp) (l : VLat) (enc : Bool) (srcs : List Dest)
    (f : State → Nat → VecReg) (s : State) : State :=
  issueOp s i fun s _ =>
    let c := i.cl.val
    vInfo s c u o (vlat l o.fmt.toNat) (vKind o.fmt.toNat l.trans) l.rm enc srcs
      (.vregWrite o.vd (writeLanes (lanesOn s c o) (vw o.fmt.toNat)) (f s c))

/-- A one-source elementwise operation: VB and VC are reserved. -/
def vUnary (i : Issue) (u : VUnit) (o : VOp) (l : VLat) (f : Nat → Nat → Nat) (s : State) : State :=
  vecOp i u o l (o.vb = 0 && o.vc = 0) [.vreg o.va]
    (fun s c =>
      let a := vregOf s c o.va.toNat
      let w := vw o.fmt.toNat
      vecOf w fun k => f o.fmt.toNat (velem a w k)) s

/-- The second source of an operation: a register, or for the scalar forms a scalar (R147). -/
def vbSource (s : State) (c : Nat) (o : VOp) (scalar : Bool) (k : Nat) : Nat :=
  let w := vw o.fmt.toNat
  if scalar then scalarElem w (sregOf s c (o.vb.toNat % 32))
  else velem (vregOf s c o.vb.toNat) w k

/-- VB as a source for the audit. -/
def vbSrc (o : VOp) (scalar : Bool) : Dest :=
  if scalar then .sreg (o.vb.extractLsb' 0 5) else .vreg o.vb

/-- A two-source elementwise operation, or its scalar form: VC is reserved. -/
def vBinary (i : Issue) (u : VUnit) (o : VOp) (l : VLat) (scalar : Bool) (f : Nat → Nat → Nat → Nat)
    (s : State) : State :=
  vecOp i u o l (o.vc = 0 && (!scalar || !o.vb.getLsbD 5)) [.vreg o.va, vbSrc o scalar]
    (fun s c =>
      let a := vregOf s c o.va.toNat
      let w := vw o.fmt.toNat
      vecOf w fun k => f o.fmt.toNat (velem a w k) (vbSource s c o scalar k)) s

/-- A three-source elementwise operation, or its scalar form. -/
def vTernary (i : Issue) (u : VUnit) (o : VOp) (l : VLat) (scalar : Bool)
    (f : Nat → Nat → Nat → Nat → Nat) (s : State) : State :=
  vecOp i u o l (!scalar || !o.vb.getLsbD 5) [.vreg o.va, vbSrc o scalar, .vreg o.vc]
    (fun s c =>
      let a := vregOf s c o.va.toNat
      let d := vregOf s c o.vc.toNat
      let w := vw o.fmt.toNat
      vecOf w fun k => f o.fmt.toNat (velem a w k) (vbSource s c o scalar k) (velem d w k)) s

/-- The element of lane `l` that sets predicate bit `l` (R148), `sel` choosing within the lane. -/
def cmpElem (w l sel : Nat) : Nat :=
  if w = 64 then l / 2 else if w = 32 then l else if w = 16 then 2 * l + sel else 4 * l + sel

/-- The bits of a predicate register that a test of elements of width `w` gives. -/
def predOf (w sel : Nat) (f : Nat → Bool) : BitVec 256 := maskOf 256 fun l => f (cmpElem w l sel)

/-- A compare (R148, R179): pd is VD[3:0]; VC[0] or VC[1:0] chooses within a lane. -/
def vCompare (i : Issue) (u : VUnit) (o : VOp) (l : VLat) (f : Nat → Nat → Nat → Bool) (s : State) : State :=
  issueOp s i fun s _ =>
    let c := i.cl.val
    let fmt := o.fmt.toNat
    let w := vw fmt
    let sel := o.vc.toNat
    let a := vregOf s c o.va.toNat
    let b := vregOf s c o.vb.toNat
    vInfo s c u o (vlat l fmt) (vKind fmt l.trans) l.rm (o.vd.toNat < 16 && (sel = 0 || (w = 16 && sel < 2) || (w = 8 && sel < 4)))
      [.vreg o.va, .vreg o.vb]
      (.pregWrite (o.vd.extractLsb' 0 4) (writeLanes (lanesOn s c o) w)
        (predOf w sel fun k => f fmt (velem a w k) (velem b w k)))

/-- A V operation that writes a scalar register, sd in VD[4:0]. -/
def vScalarOut (i : Issue) (u : VUnit) (o : VOp) (l : VLat) (enc : Bool) (srcs : List Dest)
    (f : State → Nat → BitVec 256 → Nat → Act) (s : State) : State :=
  issueOp s i fun s _ =>
    let c := i.cl.val
    let m := lanesOn s c o
    vInfo s c u o (vlat l o.fmt.toNat) (vKind o.fmt.toNat l.trans) l.rm (enc && !o.vd.getLsbD 5) srcs (f s c m o.fmt.toNat)

/-! ## Addresses -/

/-- A store address from a scalar and a displacement (R149, R151, R152). -/
def storeAddr (s : State) (c : Nat) (r : BitVec 5) (d : Nat) : BitVec 22 :=
  BitVec.ofNat 22 ((sregOf s c r.toNat).toNat % 0x400000 + d)

/-- The weight-buffer offset of a VRDP (R149). -/
def wbufAddr (s : State) (c : Nat) (r : BitVec 5) (d : Nat) : BitVec 15 :=
  BitVec.ofNat 15 ((sregOf s c r.toNat).toNat % 0x8000 + d)

end Sys2Proof.Machine
end

