-- ==== Sys2Proof/Machine/Control.lean ====
section
/-! DEFINITION. The C slot (R123, R127, R131 to R133, R153, R154), the end of a bent (R124). -/
namespace Sys2Proof.Machine
open Sys2Proof

/-- A C operation as it issues; C operations are never gated (R113). -/
def cInfo (enc : Bool) (due : Nat) (srcs : List Dest) (evs : List (Nat × Act)) : OpInfo :=
  { slot := 6, enc := enc, unit := 0, occ := 1, due := due, srcs := srcs, evs := evs }

/-- A C operation that writes sd with latency 1. -/
def cScalar (i : Issue) (sd : BitVec 5) (srcs : List Dest) (f : State → Nat → BitVec 64) (s : State) : State :=
  issueOp s i fun s _ => cInfo true 0 srcs [(0, .sregWrite sd (f s i.cl.val))]

/-- An R-form operation of latency 1: sd = sa op sb. -/
def cBinary (i : Issue) (sd sa sb : BitVec 5) (f : BitVec 64 → BitVec 64 → BitVec 64) (s : State) : State :=
  cScalar i sd [.sreg sa, .sreg sb] (fun s c => f (sregOf s c sa.toNat) (sregOf s c sb.toNat)) s

/-- CNOP (R111). -/
def execCnop (i : Issue) (s : State) : Host.Outcome State Fault Refusal :=
  .next (advance s (issueCycle s i))

/-- sd = sign-extended imm13. -/
def execSli (i : Issue) (sd : BitVec 5) (imm : BitVec 13) (s : State) : Host.Outcome State Fault Refusal :=
  .next (cScalar i sd [] (fun _ _ => imm.signExtend 64) s)

/-- sd = (sd << 13) | imm13. -/
def execSlis (i : Issue) (sd : BitVec 5) (imm : BitVec 13) (s : State) : Host.Outcome State Fault Refusal :=
  .next (cScalar i sd [.sreg sd] (fun s c => sregOf s c sd.toNat <<< 13 ||| imm.setWidth 64) s)

/-- sd = sd + sign-extended imm13. -/
def execSaddi (i : Issue) (sd : BitVec 5) (imm : BitVec 13) (s : State) : Host.Outcome State Fault Refusal :=
  .next (cScalar i sd [.sreg sd] (fun s c => sregOf s c sd.toNat + imm.signExtend 64) s)

/-- sd = sa + sb. -/
def execSadd (i : Issue) (sd sa sb : BitVec 5) (s : State) : Host.Outcome State Fault Refusal :=
  .next (cBinary i sd sa sb (fun a b => a + b) s)

/-- sd = sa − sb. -/
def execSsub (i : Issue) (sd sa sb : BitVec 5) (s : State) : Host.Outcome State Fault Refusal :=
  .next (cBinary i sd sa sb (fun a b => a - b) s)

/-- sd = sa AND sb. -/
def execSand (i : Issue) (sd sa sb : BitVec 5) (s : State) : Host.Outcome State Fault Refusal :=
  .next (cBinary i sd sa sb (fun a b => a &&& b) s)

/-- sd = sa OR sb. -/
def execSor (i : Issue) (sd sa sb : BitVec 5) (s : State) : Host.Outcome State Fault Refusal :=
  .next (cBinary i sd sa sb (fun a b => a ||| b) s)

/-- sd = sa XOR sb. -/
def execSxor (i : Issue) (sd sa sb : BitVec 5) (s : State) : Host.Outcome State Fault Refusal :=
  .next (cBinary i sd sa sb (fun a b => a ^^^ b) s)

/-- sd = sa shifted left by sb[5:0]. -/
def execSshl (i : Issue) (sd sa sb : BitVec 5) (s : State) : Host.Outcome State Fault Refusal :=
  .next (cBinary i sd sa sb (fun a b => a <<< (b.toNat % 64)) s)

/-- sd = sa shifted right by sb[5:0]. -/
def execSshr (i : Issue) (sd sa sb : BitVec 5) (s : State) : Host.Outcome State Fault Refusal :=
  .next (cBinary i sd sa sb (fun a b => a >>> (b.toNat % 64)) s)

/-- sd = sa shifted right by sb[5:0], sign in. -/
def execSsra (i : Issue) (sd sa sb : BitVec 5) (s : State) : Host.Outcome State Fault Refusal :=
  .next (cBinary i sd sa sb (fun a b => a.sshiftRight (b.toNat % 64)) s)

/-- sd = low 64 bits of sa × sb, with latency 3. -/
def execSmul (i : Issue) (sd sa sb : BitVec 5) (s : State) : Host.Outcome State Fault Refusal :=
  .next (issueOp s i fun s _ =>
    let c := i.cl.val
    cInfo true 2 [.sreg sa, .sreg sb] [(2, .sregWrite sd (sregOf s c sa.toNat * sregOf s c sb.toNat))])

/-- lc = imm16 (R123). -/
def execLset (i : Issue) (lc : BitVec 1) (imm : BitVec 16) (s : State) : Host.Outcome State Fault Refusal :=
  .next (issueOp s i fun _ _ => cInfo true 0 [] [(0, .lcWrite lc imm)])

/-- LOOPB: a nonzero counter decrements and the next cycle issues from the target (R123). -/
def execLoopb (i : Issue) (lc : BitVec 1) (target : BitVec 13) (s : State) : Host.Outcome State Fault Refusal :=
  .next (issueOp s i fun s _ =>
    let k := lcOf s i.cl.val lc.toNat
    cInfo true 0 [.lc lc] (if k = 0 then [] else [(0, .lcWrite lc (k - 1)), (0, .jump target)]))

/-- BSEAL: the idle half's tag from s_a; a LENGTH of 0 or above 8,192 is an encoding fault (R121). -/
def execBseal (i : Issue) (sa : BitVec 5) (s : State) : Host.Outcome State Fault Refusal :=
  .next (issueOp s i fun s _ =>
    let x := sregOf s i.cl.val sa.toNat
    let l := x.extractLsb' 16 14
    cInfo (l ≠ 0 && l.toNat ≤ 8192) 0 [.sreg sa] [(0, .sealHalf (x.extractLsb' 0 16) l)])

/-- BNEXT: NEXT_BENT = s_a[15:0] (R122). -/
def execBnext (i : Issue) (sa : BitVec 5) (s : State) : Host.Outcome State Fault Refusal :=
  .next (issueOp s i fun s _ =>
    cInfo true 0 [.sreg sa] [(0, .nextBent ((sregOf s i.cl.val sa.toNat).extractLsb' 0 16))])

/-- XSET: POS and SHIFT from immediates (R127). -/
def execXset (i : Issue) (x : BitVec 3) (shift : BitVec 4) (xpos : BitVec 11) (s : State) :
    Host.Outcome State Fault Refusal :=
  .next (issueOp s i fun _ _ => cInfo true 0 [] [(0, .xPos x (xpos.setWidth 24)), (0, .xShift x shift)])

/-- XADV: POS += signed imm16, modulo 2^24 (R127). -/
def execXadv (i : Issue) (x : BitVec 3) (imm : BitVec 16) (s : State) : Host.Outcome State Fault Refusal :=
  .next (issueOp s i fun s _ =>
    cInfo true 0 [.xreg x]
      [(0, .xPos x ((xregOf s i.cl.val x.toNat).extractLsb' 32 24 + imm.signExtend 24))])

/-- XMOV: LIMIT = s_a[31:0] (R127). -/
def execXmov (i : Issue) (x : BitVec 3) (sa : BitVec 5) (s : State) : Host.Outcome State Fault Refusal :=
  .next (issueOp s i fun s _ =>
    cInfo true 0 [.sreg sa] [(0, .xLimit x ((sregOf s i.cl.val sa.toNat).extractLsb' 0 32))])

/-- GADD: peg += imm16 (R131). -/
def execGadd (i : Issue) (g : BitVec 4) (imm : BitVec 16) (s : State) : Host.Outcome State Fault Refusal :=
  .next (issueOp s i fun _ _ => cInfo true 0 [] [(0, .pegAdd g imm.toNat)])

/-- GSUB: peg −= 1 (R131, R132). -/
def execGsub (i : Issue) (g : BitVec 4) (s : State) : Host.Outcome State Fault Refusal :=
  .next (issueOp s i fun _ _ => cInfo true 0 [] [(0, .pegAdd g (-1))])

/-- GRD: sd = the peg's value at issue, zero-extended. -/
def execGrd (i : Issue) (g : BitVec 4) (sd : BitVec 5) (s : State) : Host.Outcome State Fault Refusal :=
  .next (cScalar i sd [.peg g] (fun s c => (pegOf s c g.toNat).setWidth 64) s)

/-- GCMP from a scalar: compare = s_a[31:0] (R133). -/
def execGcmps (i : Issue) (g : BitVec 4) (sa : BitVec 5) (s : State) : Host.Outcome State Fault Refusal :=
  .next (issueOp s i fun s _ =>
    cInfo true 0 [.sreg sa] [(0, .pegCmpWrite g ((sregOf s i.cl.val sa.toNat).extractLsb' 0 32))])

/-- GCMP: compare = imm16 (R133). -/
def execGcmp (i : Issue) (g : BitVec 4) (imm : BitVec 16) (s : State) : Host.Outcome State Fault Refusal :=
  .next (issueOp s i fun _ _ => cInfo true 0 [] [(0, .pegCmpWrite g (imm.setWidth 32))])

/-- GTEST: every bit of pd = the peg's signal at issue (R133). -/
def execGtest (i : Issue) (g : BitVec 4) (pd : BitVec 4) (s : State) : Host.Outcome State Fault Refusal :=
  .next (issueOp s i fun s _ =>
    cInfo true 0 [.peg g, .pegCmp g] [(0, .pregWrite pd (BitVec.allOnes 256)
      (if pegSignal s i.cl.val g.toNat then BitVec.allOnes 256 else 0))])

/-- TMARK: a marker for the trace; no other state changes (R474). -/
def execTmark (i : Issue) (imm : BitVec 18) (s : State) : Host.Outcome State Fault Refusal :=
  .next (issueOp s i fun _ _ => cInfo true 0 [] [(0, .mark imm)])

/-- The bundle address has reached the running half's LENGTH: null bundles until the tick (R124). -/
def execBentEnd (i : Issue) (s : State) : Host.Outcome State Fault Refusal :=
  let c := i.cl.val
  let t := issueCycle s i
  let s := advance s t
  .next (if clusterIssues s c && !inBent s c t then setSeq s c { seqOf s c with ended := true } else s)

/-- The code by which PLAN_ERR and the encoding fault name a slot (R464). -/
def slotNo : SlotId → Nat
  | .m => 0 | .v0 => 1 | .v1 => 2 | .l => 3 | .s => 4 | .f => 5 | .c => 6 | .top => 7

end Sys2Proof.Machine
end

