-- ==== Sys2Proof/Machine/Tick.lean ====
section
/-! DEFINITION. FRAME_TICK (R69 to R78, R85, R87, R100, R101), DECISION_POINT (R72, R399), STALL (R78)
and the end of a rotation entry (R453). -/
namespace Sys2Proof.Machine
open Sys2Proof

/-- The partitions that are in use (R30). -/
def usedParts (s : State) : List Nat := (List.range 16).filter fun p => liveDies s p ≠ 0

/-- Whether partition `p` misses a tick at cycle `t` (R71): it has not issued the last bundle of the work
part. -/
def missesTick (s : State) (p t : Nat) : Bool :=
  issues (part s p).kind && t - (part s p).origin < guardPos s

/-! ## The time base at a tick -/

/-- TICK_COUNT after the tick: one more, or the grid index to which STEP moved the tick (R70, R85). -/
def tickCount (s : State) (w : Int) : BitVec 64 :=
  if s.time.stepPend then BitVec.ofInt 64 (gridIndex s w) else s.time.tick + 1

/-- FRAME_MARK_OUT (R87). -/
def frameMark (s : State) : State :=
  let d := regField s (pgTim0 + 0x58) 0 24
  let w := max 1 (regField s (pgTim0 + 0x58) 24 8)
  if d ≠ 0 && s.time.tick.toNat % d = regField s (pgTim0 + 0x5C) 0 24 % d then
    emit { s with brd.markUntil := s.time.periods + w } (.pulse "FRAME_MARK_OUT" w)
  else s

/-- The monitors renew REF_OFFSET_A and REF_OFFSET_B of the inputs that are valid (R92, R96): what they measure
is a free value (log 77). -/
def refMeasure (s : State) : State :=
  [false, true].foldl (fun s b =>
    if refValid s b then
      let x := drawFree s 32
      regSet x.2 (pgTim1 + 0x4C + 4 * b2n b) x.1
    else s) s

/-- The time base at a tick that ends a period of `n` tick-clock periods with `k` stretches (R66, R69,
R70, R71, R82, R85, R88, R100, R101). -/
def timeTick (s : State) (n k : Nat) : State :=
  let w := wallAt s n
  let tick := tickCount s w
  let counted : Int := s.time.tick.toNat * frameLen s + ((n : Int) - k)
  let lost := k + (if n < frameLen s then 1 else 0)
  let s := closeDomains s n (tick.toNat * nextFrameLen s - counted)
  let s := { s with
    clu.tickCyc := s.clu.cyc
    time.periods := s.time.periods + n
    time.wall := w
    time.tick := tick
    time.stepPend := false
    time.starts := (s.time.starts.filter fun x => !(x + 4 ≤ (n : Int))).map fun x => x - n }
  let s := regPut s (pgTim0 + 0x74) 0 16 (satNat 16 lost)
  let s := regSet s (pgTim0 + 0x50) (satInt 32 (phaseOfTick s w))
  let s := taiSet s (pgTim0 + 0xB0) (taiOf w)
  let s := { s with time.frameLog2 := s.time.pendLog2.getD s.time.frameLog2, time.pendLog2 := none }
  frameMark (refMeasure s)

/-! ## Once for the package -/

/-- What belongs to one tick period ends with it: carried units and their bytes, forwards' holds (R257, R258), the audit of the period (R469), the lateness of host jobs (R248). -/
def periodClear (s : State) : State :=
  let s := clearLate s
  { s with
    edge.sent := []
    edge.used := []
    edge.fwdHeld := []
    rai.audit := s.rai.auditNext.getD s.rai.audit
    rai.auditNext := none
    rai.auditHit := 0 }

/-- Drop what is in flight on the edge dies, but for the partitions that still finish a frame (R67, R71). -/
def dropEdges (s : State) (missed : List Nat) : State :=
  let stays := fun (q : Option Nat) => q.any missed.contains
  { s with
    clu.pipe := s.clu.pipe.filter fun e => e.unit < 1024 || stays (edgeActPart s (e.unit - 1024) e.act)
    clu.lanes := s.clu.lanes.filter fun x =>
      x.dst < 64 || 128 ≤ x.dst || stays (edgeLanePart s (x.dst - 64) x.port x.lane) }

/-- A halt or release that waits takes effect (R472). -/
def haltTick (s : State) (p : Nat) : State :=
  let st := part s p
  match st.haltPend with
  | none => s
  | some b =>
    let s := setPart s p { st with halted := b, haltPend := none }
    if b then s
    else ((List.range 16).filter (bitOf (liveDies s p))).foldl (fun s d => regPut s (pgDbg d + 0x64) 0 2 0) s

/-- An apply of the partition map waits for PARTITION_MAP_APPLY (R452). -/
def pmapTick (s : State) : State :=
  match s.rai.pmap with
  | some ⟨none, _⟩ => { s with rai.pmap := some ⟨none, true⟩ }
  | _ => s

/-! ## Each partition -/

/-- Partition `p` at a tick that it misses (R71): it finishes the work part, and the period is a held
frame. -/
def missTick (s : State) (p : Nat) : State :=
  let st := part s p
  let e := periodDecl s p
  let s := setPart s p { st with lastKind := st.kind, lastEnergy := e }
  holdFrame s p .finish (1 + gateBits st)

/-- A partition without a die runs no raising in a period (R398). -/
def partIdle (s : State) (p : Nat) : State :=
  setPart s p { part s p with kind := .none, lastKind := .none, lastEnergy := 0 }

/-- Partition `p` at a tick. -/
def partTick (s : State) (missed : List Nat) (p : Nat) : State :=
  let s := haltTick s p
  if missed.contains p then missTick s p
  else if stopsNow s p then quiet (periodEnd s p) p .stopped
  else choose (periodEnd s p) p

/-- A raising that a fault ended at this tick begins no frame (R466). -/
def faultedParts (s : State) : State :=
  (usedParts s).foldl (fun s p =>
    match (part s p).kind, (part s p).run with
    | .contents, some c =>
      if ctxLive s c then s else quiet s p .stopped
    | _, _ => s) s

/-- The tick that ends a period of `n` tick-clock periods. -/
def frameTick (s : State) (n k : Nat) : State :=
  let t := s.clu.tickCyc + (n - k)
  let s := advance s t
  let late := (usedParts s).filter fun p => missesTick s p t
  let missed := late.filter fun p => !tripsNow s p
  let s := (usedParts s).foldl (fun s p => if missed.contains p then s else dropPartition s p) s
  let s := dropEdges s missed
  let s := if late.isEmpty then s else rawAdd s (pgTim0 + 0x78) 1
  let s := resolveAborts s
  let s := timeTick s n k
  let s := periodClear s
  let s := doneTick s
  let s := actFaults s
  let s := pmapTick s
  let s := (List.range 16).foldl (fun s p => if liveDies s p ≠ 0 then partTick s missed p else partIdle s p) s
  rollEvents (faultedParts (actTick s)) n

/-- FRAME_TICK (R69). While the PLL has not started, the package stays in reset and there is no tick (R95). A
partition that has not finished its work part in two tick periods is beyond the
supply specification (R101). -/
def execFrameTick (s : State) : Host.Outcome State Fault Refusal :=
  let n := tickPeriods s
  let k := stretchCount s n
  let t := s.clu.tickCyc + (n - k)
  if !s.time.pllOn then .next s
  else if (usedParts s).any fun p => (part s p).kind = .finish && missesTick s p t && !tripsNow s p then
    .fault .beyondSupplySpec
  else .next (frameTick s n k)

/-! ## The decision point -/

/-- Whether the ledger orders a thinning hold for partition `p` (R399). -/
def thinDue (s : State) (p : Nat) : Bool :=
  (part s p).account < 0 || (s.nrg.account < 0 && (part s p).lastKind = .contents)

/-- The status that reaches the time base 64 periods before the tick, for partition `p` (R72). -/
def decide1 (s : State) (p : Nat) : State :=
  let ok := fun (f : State → Nat → Bool) => match gateCtx s p with
    | some c => !(raising s c).began || f s c
    | none => true
  setPart s p { part s p with inbound := ok inboundOk, lead := ok leadOk, thin := thinDue s p }

/-- The cycle that runs when the decision point comes, 64 tick-clock periods before the tick (R72, R89). -/
def decisionCycle (s : State) : Nat := s.clu.tickCyc + cyclesBy s.time.starts (tickPeriods s - 64)

/-- DECISION_POINT (R72): what happens before it has happened. -/
def execDecisionPoint (s : State) : Host.Outcome State Fault Refusal :=
  let s := advance s (decisionCycle s)
  .next ((usedParts s).foldl decide1 s)

/-- STALL: HOLD_LIMIT consecutive inbound or lead holds (R78). The fault is acted on at the same tick
(R464). -/
def execStall (p : Fin 16) (s : State) : Host.Outcome State Fault Refusal :=
  let st := part s p.val
  .next (
    if max 16 (regNat s (pgTim0 + 0x54)) ≤ st.holds then
      match st.run with
      | some c =>
        let s := setPart s p.val { st with holds := 0 }
        actFaults (fault s 0x13 pgTim0 0 p.val (some c))
      | none => s
    else s)

/-! ## Rotation -/

/-- ROTATION_ENTRY_END: at a tick at which the entry of partition `p` is over, the partition takes the next
one (R453). -/
def execRotationEntryEnd (p : Fin 16) (s : State) : Host.Outcome State Fault Refusal :=
  let st := part s p.val
  .next (
    if st.began && st.kind = .none && entryOver s p.val then
      let n := max 1 (rotCount s p.val)
      let s := setPart s p.val { st with began := false, entry := (st.entry + 1) % n }
      faultedParts (actTick (
        if rotCount s p.val = 0 then
          (match soleContext s p.val with
           | some c => serve s p.val c
           | none => s)
        else takeEntry s p.val))
    else s)

end Sys2Proof.Machine
end

