-- ==== Sys2Proof/Machine/RaiseTick.lean ====
section
/-! DEFINITION. What raisings do at a tick by rows of their own (R116, R263, R346, R351, R353, R355 to
R357, R452). -/
namespace Sys2Proof.Machine
open Sys2Proof

/-- Whether partition `p` waits for context `c` at the present tick. -/
def waitsFor (s : State) (p c : Nat) : Bool :=
  let st := part s p
  st.run = some c && (st.kind = .none || st.kind = .stopped)

/-- STOP_EFFECT: the raising of context `c` enters STOPPED (R353). -/
def execStopEffect (c : Fin 256) (s : State) : Host.Outcome State Fault Refusal :=
  let r := raising s c.val
  let p := (ctx s c.val).part
  .next (
    if liveState r.state && r.stopAt.isSome &&
        (r.state = .committed || (waitsFor s p c.val && frameDue s c.val r.stopAt)) then
      endRaising s c.val .stopped
    else s)

/-- HOLD_EFFECT: RUNNING to HELD at the tick whose frame the hold takes (R353). -/
def execHoldEffect (c : Fin 256) (s : State) : Host.Outcome State Fault Refusal :=
  let r := raising s c.val
  let st := part s (ctx s c.val).part
  .next (
    if r.state = .running && frameDue s c.val r.holdAt && st.run = some c.val && st.kind = .held then
      setRaising s c.val { r with state := .held, holdAt := none }
    else s)

/-- RESUME_TICK: HELD to RUNNING; the gate decides the tick (R346, R353). -/
def execResumeTick (c : Fin 256) (s : State) : Host.Outcome State Fault Refusal :=
  let r := raising s c.val
  let p := (ctx s c.val).part
  .next (
    if r.state = .held && r.resumeAt.any (fun t => t ≤ s.time.tick) then
      let s := irq (setRaising s c.val { r with state := .running, resumeAt := none }) pgTim2 0
      if waitsFor s p c.val then faultedParts (actTick (serve s p c.val)) else s
    else s)

/-! ## Re-raising -/

/-- The clusters of context `c` as its frame 0 finds them: registers, weight buffer, entry bent and tables
(R116, R125, R227). -/
def freshClusters (s : State) (c : Nat) : State :=
  let h := (ctxImg s c).2
  (ctxClusters s c).foldl (fun s k =>
    loadTables (loadEntry (clearRegs s k) c k false) c k (hFeature h 0) false) s

/-- The predecessor stops and the successor takes its place (R355 to R357, R452). -/
def succeed (s : State) (c : Nat) (q : Raising) : State :=
  let r := raising s c
  let keep := takesOver r q
  let e := edgeEnd s c
  let s := if keep then { e with edge.sets := s.edge.sets, edge.brace := s.edge.brace } else e
  let s := match s.rai.pmap with
    | some ⟨some p, _⟩ => if p = (ctx s c).part then { s with rai.pmap := some ⟨some p, true⟩ } else s
    | _ => s
  let s := { s with rai.trail := s.rai.trail.map fun w => if w.ctx = c then { w with step := 0 } else w }
  let s := promote s c
  let s := if s.rai.pmap = some ⟨some (ctx s c).part, true⟩ then s else freshClusters s c
  let p := (ctx s c).part
  if (part s p).run = some c then quiet s p .none else s

/-- PREDECESSOR_STOP (R355). -/
def execPredecessorStop (c : Fin 256) (s : State) : Host.Outcome State Fault Refusal :=
  let p := (ctx s c.val).part
  .next (match (ctx s c.val).succ with
    | none => s
    | some q =>
      if q.state = .committed &&
          (!ctxLive s c.val || (waitsFor s p c.val && q.stopFrame.toNat ≤ nextFrame s c.val)) then
        succeed s c.val q
      else s)

/-! ## The start (R86, R116, R263, R351, R357, R360) -/

/-- The sets that serve the raising of context `c` begin to run (R263). -/
def startSets (s : State) (c : Nat) : State :=
  let rid := (raising s c).raiseId.toNat
  (hdrPorts (ctxImg s c).2).foldl (fun s n =>
    match setFor s c rid n true with
    | none => s
    | some k => putSet s (n / 16) k { setOf s (n / 16) k with state := .running, ctx := some c }) s

/-- Frame 0 of context `c`'s raising is due at this tick. -/
def startDue (s : State) (c : Nat) : Bool :=
  let r := raising s c
  let p := (ctx s c).part
  let st := part s p
  r.state = .committed && waitsFor s p c && r.stopAt.isNone && s.rai.pmap ≠ some ⟨some p, true⟩ &&
  (if r.armedTrig then triggerDue s else r.startTick ≤ s.time.tick) &&
  (if rotCount s p = 0 then soleContext s p = some c else st.began && !st.idleEnt && st.entryCtx = c)

/-- COMMITTED to RUNNING: frame 0 begins. -/
def startRaising (s : State) (c : Nat) : State :=
  let r := raising s c
  let x := ctx s c
  let s := if r.armedTrig then triggerFire s else s
  let s := startSets s c
  let s := { s with
    edge.brace := tabDrop (fun k => k % 256 = c) s.edge.brace
    edge.lost := tabDrop (fun k => k % 256 = c) s.edge.lost
    edge.partner := tabDrop (fun k => k % 256 = c) s.edge.partner }
  let s := (ctxClusters s c).foldl clearRegs s
  let digests := match planSlot s r.plan with
    | some q => if x.planDigests.contains q.digest then x.planDigests else x.planDigests ++ [q.digest]
    | none => x.planDigests
  let s := setCtx s c { x with
    state := if x.state = .keyed then CtxState.running else x.state
    planDigests := digests
    raising := { r with
      state := .running, startTick := if r.armedTrig then s.time.tick else r.startTick, armedTrig := false,
      brace := none } }
  let s := match r.brace with
    | some b => scheduleBrace s c b.1 b.2
    | none => s
  let s := trailStart (irq s pgTim2 0) c
  serve s x.part c

/-- RAISING_START (R351). -/
def execRaisingStart (c : Fin 256) (s : State) : Host.Outcome State Fault Refusal :=
  .next (if startDue s c.val then faultedParts (actTick (startRaising s c.val)) else s)

end Sys2Proof.Machine
end

