-- ==== Sys2Proof/Machine/Partition.lean ====
section
/-! DEFINITION. The partition map (R34, R451, R452), rotation tables (R451, R453) and the debug halt
(R384, R472). -/
namespace Sys2Proof.Machine
open Sys2Proof

/-! ## The map -/

/-- Whether partition `p` holds a raising in COMMITTED, RUNNING or HELD. -/
def partLive (s : State) (p : Nat) : Bool := (ctxList s).any fun c => (ctx s c).part = p && ctxLive s c

/-- The C-dies of partition `p` in the staged map. -/
def stagedDies (s : State) (p : Nat) : Nat := regNat s (pgDieS + 0x100 + 4 * p) % 0x10000

/-- The ports and shares of the map: staged offset, live offset, count. -/
def mapRows : List (Nat × Nat × Nat) := [(0x140, 0x840, 48), (0x200, 0x900, 16), (0x240, 0x940, 16)]

/-- The partition to which a map register assigns its resource. -/
def mapOwner (s : State) (k : Nat) : Option Nat :=
  let r := regNat s k
  if bitOf r 4 then some (r % 16) else none

/-- Whether partition `p` gains or loses a C-die, a port or a share by the staged map. -/
def mapChanges (s : State) (p : Nat) : Bool :=
  stagedDies s p ≠ liveDies s p ||
  mapRows.any fun m => (List.range m.2.2).any fun n =>
    let a := mapOwner s (pgDieS + m.1 + 4 * n)
    let b := mapOwner s (pgDieS + m.2.1 + 4 * n)
    a ≠ b && (a = some p || b = some p)

/-- Whether a C-die may join a partition (R34, R403). -/
def dieReady (s : State) (d : Nat) : Bool :=
  regField s (pgDie d + 0x24) 0 2 = 0 && !regBit s (pgDie d + 0x24) 8 &&
    (presetState s d = 1 || presetState s d = 3)

/-- The check that an apply fails, 0 for none (R452); `ex` is exempt from RUNNING. -/
def mapCheck (s : State) (ex : Option Nat) : Nat :=
  let ps := List.range 16
  if (List.range 16).any fun d => 1 < (ps.filter fun p => bitOf (stagedDies s p) d).length then 1
  else if ps.any fun p => mapChanges s p && ex ≠ some p && partLive s p then 2
  else if ps.any fun p => (List.range 16).any fun d =>
      bitOf (stagedDies s p) d && !bitOf (liveDies s p) d && !dieReady s d then 3
  else 0

/-- The staged map becomes the live map; dies that leave a partition lose its contexts' keys, dies that
join it generate them (R365, R379, R380). -/
def mapApply (s : State) : State :=
  let moves := (List.range 16).flatMap fun p => (List.range 16).map fun d => (p, d)
  let lost := moves.filter fun x => bitOf (liveDies s x.1) x.2 && !bitOf (stagedDies s x.1) x.2
  let won := moves.filter fun x => !bitOf (liveDies s x.1) x.2 && bitOf (stagedDies s x.1) x.2
  let s := lost.foldl (fun s x => dieKeysLost s x.1 x.2) s
  let s := won.foldl (fun s x => (createdIn s x.1).foldl (fun s c => makeKeys s x.2 c) s) s
  let s := (List.range 16).foldl (fun s p =>
    regSet s (pgDieS + 0x800 + 4 * p) (BitVec.ofNat 32 (stagedDies s p))) s
  mapRows.foldl (fun s m => (List.range m.2.2).foldl (fun s n =>
    regSet s (pgDieS + m.2.1 + 4 * n) (regGet s (pgDieS + m.1 + 4 * n))) s) s

/-- PMAP_STAT. -/
def pmapStat (s : State) (pending : Bool) (result : Nat) : State :=
  regSet s (pgDieS + 0x984) (BitVec.ofNat 32 (b2n pending + 2 * result))

/-- A write of PMAP_CMD (R451, R452). -/
def pmapWrite (s : State) (w : Word) : State :=
  if s.rai.pmap.isSome then statSet s pgDieS 2
  else
    match wfield w 0 2 with
    | 1 => regPut { s with rai.pmap := some ⟨none, false⟩ } (pgDieS + 0x984) 0 1 1
    | 2 =>
      let p := wfield w 4 4
      let r := mapCheck s (some p)
      if r = 0 then regPut { s with rai.pmap := some ⟨some p, false⟩ } (pgDieS + 0x984) 0 1 1
      else pmapStat s false r
    | _ => s

/-- APPLY (R452). -/
def execApply (w : BitVec 32) (s : State) : Host.Outcome State Fault Refusal := .next (pmapWrite s (wset w 0 2 1))

/-- APPLY_AT_RERAISE (R452). -/
def execApplyAtReraise (w : BitVec 32) (s : State) : Host.Outcome State Fault Refusal :=
  .next (pmapWrite s (wset w 0 2 2))

/-- The committed successor that waits in partition `p` for the map. -/
def mapWaiter (s : State) (p : Nat) : Option Nat :=
  (ctxList s).find? fun c => (ctx s c).part = p && (raising s c).state = .committed && (part s p).run = some c

/-- A pending apply at its tick (R452). -/
def mapTick (s : State) (x : PmapPend) : State :=
  let r := mapCheck s x.reraise
  let s := pmapStat { s with rai.pmap := none } false r
  let c := match x.reraise with | some p => mapWaiter s p | none => none
  let s := if r = 0 then mapApply s else s
  match c with
  | none => actFaults s
  | some c =>
    if r = 0 then freshClusters (actFaults s) c
    else actFaults (fault s 0x17 pgDieS 0 r (some c))

/-- PARTITION_MAP_APPLY (R452). -/
def execPartitionMapApply (s : State) : Host.Outcome State Fault Refusal :=
  .next (match s.rai.pmap with
    | some x => if x.due then mapTick s x else s
    | none => s)

/-- A write of the staged map: ignored while an apply is pending (R452). -/
def stagedWrite (s : State) (k : Nat) (v : Word) : State :=
  if s.rai.pmap.isSome then statSet s pgDieS 2 else regSet s k v

/-! ## Rotation tables -/

/-- Whether context `c` holds a COMMITTED successor that spans packages. -/
def succMulti (s : State) (c : Nat) : Bool := (ctx s c).succ.any fun q => q.state = .committed && rMulti s q

/-- A write of ROT_CFG p or ROT p j: refused while partition `p` runs a raising of several packages
(R453). -/
def rotWrite (s : State) (p : Nat) (j : Option Nat) (w : Word) : State :=
  if (ctxList s).any fun c => (ctx s c).part = p && ((ctxLive s c && isMulti s c) || succMulti s c) then
    statSet s pgDieS 1
  else
    match j with
    | none => regSet s (pgDieS + 0x380 + 4 * p) (w &&& 0x1F)
    | some j => regSet s (pgDieS + 0x400 + 0x40 * p + 4 * j) (w &&& 0x1FFFFFF)

/-- ROTATION_WRITE (R453). -/
def execRotationWrite (p : Fin 16) (j : Option (Fin 16)) (w : BitVec 32) (s : State) :
    Host.Outcome State Fault Refusal :=
  .next (rotWrite s p.val (j.map (·.val)) w)

/-! ## Halt (R384, R472) -/

/-- A halt or a release of the partition that holds C-die `d` waits for the next tick. -/
def haltWrite (s : State) (d : Nat) (on : Bool) : State :=
  match partOfDie s d with
  | none => s
  | some p => setPart s p { part s p with haltPend := some on }

/-- HALT (R472). -/
def execHalt (d : Fin 16) (s : State) : Host.Outcome State Fault Refusal := .next (haltWrite s d.val true)

/-- HALT_RELEASE (R472). -/
def execHaltRelease (d : Fin 16) (s : State) : Host.Outcome State Fault Refusal := .next (haltWrite s d.val false)

/-- A halted partition's confidential context faults, if its raising still lives, and its clusters are cleared
whatever the raising does (R381, R384). The fault's ARG names a cluster that the spec does not choose. -/
def haltConf (s : State) (p d c : Nat) : State :=
  let x := drawFree s 6
  let s := if ctxLive s c then actFaults (fault x.2 0x18 (pgDbg d) 0 x.1.toNat (some c)) else s
  (partClusters s p).foldl clearCluster s

/-- HALT_EFFECT: HALT_STAT of C-die `d` once its partition is halted (R472). -/
def execHaltEffect (d : Fin 16) (s : State) : Host.Outcome State Fault Refusal :=
  .next (match partOfDie s d.val with
    | none => s
    | some p =>
      if !(part s p).halted then s
      else
        let s := match (part s p).run with
          | some c => if (ctx s c).conf then haltConf s p d.val c else s
          | none => s
        regPut s (pgDbg d.val + 0x64) 0 2 3)

/-- A write of DBG.HALT (R476). -/
def haltCtlWrite (s : State) (d : Nat) (w : Word) : State :=
  let s := if w.getLsbD 0 then haltWrite s d true else s
  if w.getLsbD 1 then haltWrite s d false else s

end Sys2Proof.Machine
end

