-- ==== Sys2Proof/Machine/Debug.lean ====
section
/-! DEFINITION. Trace, fault policies, audit control and inspection (R465, R469, R473 to R476). -/
namespace Sys2Proof.Machine
open Sys2Proof

/-! ## Trace -/

/-- Key of the registers of the trace ring (R475): base at +0, CFG at +8, PTR at +12. -/
def traceKey : Nat := pgDbgS + 0x70

/-- A trace record goes to the ring on S0, or is lost (R474). A ring that is not enabled takes none. -/
def tracePut (s : State) (r : BitVec 256) : State :=
  if !ringOn s traceKey then s
  else if ringFull (ringHead s traceKey) (ringTail s traceKey) (ringSize s traceKey) then
    irq (cntAdd s (pgDbgS + 0x80) 1) pgDbgS 2
  else
    let t := ringTail s traceKey
    let s := carveWrites s 3 (ringBase s traceKey / 32 * 32 + 32 * t) 32 r.toNat
    regPut s (traceKey + 12) 16 16 (ringNext t (ringSize s traceKey))

/-- TRACE_RECORD: the oldest record that waits (R474). -/
def execTraceRecord (s : State) : Host.Outcome State Fault Refusal :=
  .next (match s.rai.trace with
    | [] => s
    | r :: t => tracePut { s with rai.trace := t } r)

/-! ## Policies and audit -/

/-- A write of FPOLICY c (R465, R475). -/
def fpolicyWrite (s : State) (c : Nat) (w : Word) : State :=
  if ctxLive s c then statSet s pgDbgS 0 else regSet s (pgDbgS + 0x400 + 4 * c) (w &&& 0xFFF)

/-- FPOLICY_WRITE (R465). -/
def execFpolicyWrite (c : Fin 256) (w : BitVec 32) (s : State) : Host.Outcome State Fault Refusal :=
  .next (fpolicyWrite s c.val w)

/-- A write of AUDIT_CTRL: REGIONS act from the next tick (R469, R476). -/
def auditWrite (s : State) (d : Nat) (w : Word) : State :=
  let m := (s.rai.auditNext.getD s.rai.audit).toNat
  { regSet s (pgDbg d + 0x40) (w &&& 0x10F) with
    rai.auditNext := some (BitVec.ofNat 64 (setBits m (4 * d) 4 (wfield w 0 4))) }

/-- AUDIT_CTRL_WRITE (R469). -/
def execAuditCtrlWrite (d : Fin 16) (w : BitVec 32) (s : State) : Host.Outcome State Fault Refusal :=
  .next (auditWrite s d.val w)

/-! ## Inspection (R382, R384, R473) -/

/-- 32-bit word `w` of the `i`-th register of `n` bits. -/
def wordOf {n : Nat} (v : BitVec n) (w : Nat) : Word := v.extractLsb' (32 * w) 32

/-- Word `w` of space `sp` of cluster `c`: registers in rising order, words lowest first; zero outside the
space (R476). -/
def peekCluster (s : State) (c sp w : Nat) : Word :=
  match sp with
  | 0 => if w < 64 * 256 then wordOf (vregOf s c (w / 256)) (w % 256) else 0
  | 1 => if w < 32 * 2 then wordOf (sregOf s c (w / 2)) (w % 2) else 0
  | 2 => if w < 16 * 8 then wordOf (pregOf s c (w / 8)) (w % 8) else 0
  | 3 => if w < 8 * 2 then wordOf (xregOf s c (w / 2)) (w % 2) else 0
  | 4 => if w < 4 * 4096 then wordOf (tileOf s c (w / 4096)) (w % 4096) else 0
  | 5 => if w < storeSize / 4 then BitVec.ofNat 32 (storeNat s c (4 * w) 4) else 0
  | 6 => if w < wbufSize / 4 then BitVec.ofNat 32 (wbufNat s c (4 * w) 4) else 0
  | 7 => if w < 2 * 8192 * 8 then wordOf (bundleOf s c (w / 65536) (w / 8 % 8192)) (w % 8) else 0
  | _ => 0

/-- Whether the landing SRAM page of a byte offset is in an area of a confidential context (R286). -/
def landConf (s : State) (e a : Nat) : Bool :=
  (ctxList s).any fun c => (ctx s c).conf &&
    (winMeet (a / 0x10000, 1) (ringPages s e c) || winMeet (a / 0x10000, 1) (stagePages s e c))

/-- A masked data word: zero, counted (R382). -/
def maskedWord (s : State) (on : Bool) (w : Word) : Word × State := if on then (0, countMasked s 1) else (w, s)

/-- PEEK_DATA of C-die `d`. The spec states no value while READY is 0. -/
def peekDie (s : State) (d : Nat) : Word × State :=
  let r := regGet s (pgDbg d + 0x80)
  let c := 64 * d + wfield r 0 6
  if !regBit s (pgDbg d + 0x64) 1 then drawFree s 32
  else
    let conf := match clusterCtx s c with
      | some x => (ctx s x).conf
      | none => false
    maskedWord s conf (peekCluster s c (wfield r 6 4) (wfield r 10 22))

/-- PEEK_DATA of edge die `e`: CLUSTER carries bits [27:22] of the word index (R476). The spec does not say
how frames lie in the open-port buffer. -/
def peekEdge (s : State) (e : Nat) : Word × State :=
  let r := regGet s (pgDbg (16 + e) + 0x80)
  let w := wfield r 10 22 + wfield r 0 6 * 0x400000
  match wfield r 6 4 with
  | 8 =>
    if w < landSize / 4 then
      maskedWord s (landConf s e (4 * w)) (BitVec.ofNat 32 (memNat s.edge.landing (e * landSize + 4 * w) 4))
    else (0, s)
  | 9 => if w < bufSize / 4 then drawFree s 32 else (0, s)
  | _ => (0, s)

end Sys2Proof.Machine
end

