-- ==== Sys2Proof/Machine/FabricSlot.lean ====
section
/-! DEFINITION. The F slot: sends, receives and forwards on the crossbar (R152, R154 to R157). -/
namespace Sys2Proof.Machine
open Sys2Proof

/-- PORT and LANE as R152 allows them: lane 0 on cluster ports, never the cluster's own region. -/
def portOk (c : Nat) (port : BitVec 5) (lane : BitVec 3) : Bool :=
  port.toNat ≤ 20 && (16 ≤ port.toNat || lane = 0) && port.toNat ≠ 16 + c / 16 % 4

/-- Cycles from an output lane to presence at the receiver: a cluster port has no crossing (R17, R27, R155). -/
def portCross (port : BitVec 5) : Nat := if port.toNat < 16 then 0 else if port.toNat < 20 then 6 else 24

/-- An F operation as it issues. -/
def fInfo (o : FOp) (c : Nat) (enc : Bool) (due : Nat) (srcs : List Dest) (evs : List (Nat × Act)) : OpInfo :=
  { slot := 5, enc := xgOk o.xg && portOk c o.port o.lane && enc, unit := 0, occ := 1, due := due,
    srcs := xgSrc o.xg ++ srcs, evs := evs }

/-- FNOP (R111). -/
def execFnop (i : Issue) (s : State) : Host.Outcome State Fault Refusal :=
  .next (advance s (issueCycle s i))

/-- FSEND: store read in stage 1, output lane in stage 3 (R155); it is complete when its crossing has landed
(R67). -/
def execFsend (i : Issue) (o : FOp) (s : State) : Host.Outcome State Fault Refusal :=
  .next (issueOp s i fun s _ =>
    let c := i.cl.val
    let a := storeAddr s c o.sa (64 * o.off.toNat)
    fInfo o c (o.sel = 0 && a.toNat % 64 = 0) (3 + if elemOn s c o.xg 0 then portCross o.port else 0) [.sreg o.sa]
      [(1, .sendRead a o.port o.lane (elemOn s c o.xg 0))])

/-- FRECV: input lane in stage 0, store write and peg in stage 2 (R155, R157). With the count enable at 0 the peg field may
hold any value: a DESIGN CHOICE (log 128), R152 does not say whether it is then a reserved field. -/
def execFrecv (i : Issue) (o : FOp) (s : State) : Host.Outcome State Fault Refusal :=
  .next (issueOp s i fun s _ =>
    let c := i.cl.val
    let a := storeAddr s c o.sa (64 * o.off.toNat)
    fInfo o c (a.toNat % 64 = 0) 2 [.sreg o.sa]
      [(0, .recvTake o.port o.lane (elemOn s c o.xg 0) a
        (if o.sel.getLsbD 4 then some (o.sel.extractLsb' 0 4) else none))])

/-- FFWD: input (SEL, LANE) in stage 0, output (PORT, LANE) in stage 1 (R155). -/
def execFfwd (i : Issue) (o : FOp) (s : State) : Host.Outcome State Fault Refusal :=
  .next (issueOp s i fun s _ =>
    let c := i.cl.val
    fInfo o c (16 ≤ o.sel.toNat && o.sel.toNat ≤ 20 && o.sel ≠ o.port && o.sel.toNat ≠ 16 + c / 16 % 4 &&
        o.sa = 0 && o.off = 0) (1 + if elemOn s c o.xg 0 then portCross o.port else 0) []
      (if elemOn s c o.xg 0 then [(0, .fwdTake o.sel o.port o.lane)] else []))

end Sys2Proof.Machine
end

