-- ==== Sys2Proof/Machine/Approx.lean ====
section
/-! DEFINITION. The functions of R195 in fixed point, and the bound that R195 puts on their results. A
fixed-point number is an integer in units of 2^−256. -/
namespace Sys2Proof.Machine
open Sys2Proof

/-- The approximated functions, numbered by opcode. -/
inductive Trans where | rcp | rsq | exp | log | sin | cos | tanh | erf
deriving DecidableEq, Repr

/-- The number by which `Config.approx` knows a function: its opcode. -/
def transCode : Trans → Nat
  | .rcp => 0x20 | .rsq => 0x21 | .exp => 0x24 | .log => 0x25
  | .sin => 0x26 | .cos => 0x27 | .tanh => 0x28 | .erf => 0x29

/-- The bound of R195 in FP32, in ulp. -/
def transUlps : Trans → Nat
  | .rcp | .rsq => 1
  | .exp | .log | .sin | .cos | .tanh | .erf => 2

/-! ## Fixed point -/

/-- The number 1. -/
def fixOne : Int := 2 ^ 256

/-- x × 2^k, rounded down. -/
def fixShift (x k : Int) : Int := if 0 ≤ k then x * 2 ^ k.toNat else x / 2 ^ (-k).toNat

/-- Products and quotients. -/
def fixMul (a b : Int) : Int := a * b / fixOne
def fixDiv (a b : Int) : Int := a * fixOne / b

/-- The sum of `n` terms `out i t`, the next `t` being `next i t`. -/
def fixSeries (next out : Nat → Int → Int) : Nat → Nat → Int → Int
  | 0, _, _ => 0
  | n + 1, i, t => out i t + fixSeries next out n (i + 1) (next i t)

/-- atanh z for |z| ≤ 1/3, and ln 2. -/
def atanhFix (z : Int) : Int := fixSeries (fun _ t => fixMul t (fixMul z z)) (fun i t => t / (2 * i + 1)) 90 0 z
def ln2Fix : Int := 2 * atanhFix (fixOne / 3)

/-- atan 1/k and π/2 in units of 2^−448 (Machin). -/
def atanInv (k : Nat) : Int := fixSeries (fun _ t => -t / (k * k)) (fun i t => t / (2 * i + 1)) 110 0 (2 ^ 448 / k)
def halfPi448 : Int := 8 * atanInv 5 - 2 * atanInv 239

/-- e^x; 0 below −200. -/
def expFix (x : Int) : Int :=
  if x < -200 * fixOne then 0
  else
    let n := (x + ln2Fix / 2) / ln2Fix
    let r := x - n * ln2Fix
    fixShift (fixSeries (fun i t => fixMul t r / (i + 1)) (fun _ t => t) 70 0 fixOne) n

/-- ln (m × 2^e). -/
def logFix (m : Nat) (e : Int) : Int :=
  let k := Nat.log2 m
  let f := fixShift m (256 - k)
  let f' := if 3 * fixOne < 2 * f then f / 2 else f
  let k' : Int := if 3 * fixOne < 2 * f then k + 1 else k
  (e + k') * ln2Fix + 2 * atanhFix (fixDiv (f' - fixOne) (f' + fixOne))

/-- sin (x + q × π/2) for the finite number x = (−1)^neg × m × 2^e, reduced exactly (R195). -/
def sinFix (neg : Bool) (m : Nat) (e : Int) (q : Int) : Int :=
  let x := finInt neg m e (-448)
  let n := (x + halfPi448 / 2) / halfPi448
  let r := (x - n * halfPi448) / 2 ^ 192
  let odd := (n + q) % 2 = 1
  let y := fixSeries
    (fun i t => -(fixMul (fixMul t r) r) / (if odd then (2 * i + 1) * (2 * i + 2) else (2 * i + 2) * (2 * i + 3)))
    (fun _ t => t) 40 0 (if odd then fixOne else r)
  if 2 ≤ (n + q) % 4 then -y else y

/-- tanh and erf of a number of at least 0; 1 where they are closer to it than 2^−50. -/
def tanhFix (x : Int) : Int :=
  if 64 * fixOne < x then fixOne
  else
    let y := expFix (2 * x)
    fixDiv (y - fixOne) (y + fixOne)
def erfFix (x : Int) : Int :=
  if 8 * fixOne < x then fixOne
  else
    let q := fixMul x x
    let sqrtPi : Int := isqrtFrom 260 (halfPi448 * 2 ^ 65).toNat 0
    let y := fixSeries (fun i t => 2 * fixMul t q / (2 * i + 3)) (fun _ t => t) 500 0 x
    fixDiv (2 * fixMul y (expFix (-q))) sqrtPi

/-- A magnitude that is closer to `b` than the fixed point shows, and really below it: `b` less one unit. -/
def belowFix (b y : Int) : Int :=
  if (y.natAbs : Int) < b - 2 ^ 60 ∨ b + 2 ^ 60 < y.natAbs then y else if y < 0 then -(b - 1) else b - 1

/-- The side of 1, of x and of 0 on which a function of x ≠ 0 really lies, where the fixed point does not tell:
|sin x|, |tanh x| < |x|; |sin x|, |cos x|, |tanh x|, |erf x| < 1; e^x > 0. -/
def sideFix (t : Trans) (x y : Int) : Int :=
  match t with
  | .sin | .tanh => belowFix fixOne (belowFix x.natAbs y)
  | .cos | .erf => belowFix fixOne y
  | .exp => max 1 y
  | _ => y

/-- The function at (−1)^neg × m × 2^e with m > 0. -/
def transFix (t : Trans) (neg : Bool) (m : Nat) (e : Int) : Int :=
  let x := finInt neg m e (-256)
  let odd := fun (y : Int) => if neg then -y else y
  sideFix t x <| match t with
  | .rcp => odd (2 ^ (512 - 256 - e).toNat / (m : Int))
  | .rsq => isqrtFrom 400 (2 ^ (512 - e).toNat / m) 0
  | .exp => expFix x
  | .log => logFix m e
  | .sin => sinFix neg m e 0
  | .cos => sinFix neg m e 1
  | .tanh => odd (tanhFix x.natAbs)
  | .erf => odd (erfFix x.natAbs)

/-! ## The bound -/

/-- ulp(y) of R195 in FP32, for y ≠ 0. -/
def ulpFix (y : Int) : Int :=
  let g : Int := (Nat.log2 y.natAbs : Nat) - 256
  2 ^ (min (max g (-126)) 127 - 23 + 256).toNat

/-- An FP32 code as a fixed-point number, an infinity as 2^128. -/
def codeFix (z : Nat) : Option Int :=
  match fdecode fp32 z with
  | .nan => none
  | .inf neg => some (finInt neg 1 128 (-256))
  | .fin neg m e => some (finInt neg m e (-256))

/-- Whether an FP32 code lies within the bound of `t` around y (R195). No code lies as close to the bound as
the fixed point errs, because y is no dyadic number there, and `sideFix` holds its side. -/
def inBound (t : Trans) (y : Int) (z : Nat) : Bool :=
  match codeFix z with
  | none => false
  | some v => ((v - y).natAbs : Int) ≤ transUlps t * ulpFix y

/-- The FP32 code nearest to y, which is not exact. -/
def nearestFix (y : Int) : Nat := roundFin fp32 .even (y < 0) y.natAbs (-256) true

end Sys2Proof.Machine
end

