-- ==== Sys2Proof/Machine/Functions.lean ====
section
/-! DEFINITION. What the vector operations compute on element codes (R174 to R197, R253, R493). -/
namespace Sys2Proof.Machine
open Sys2Proof

/-! ## Elementwise arithmetic -/

/-- A floating-point operation of two operands, rounded once (R174). -/
def fop2 (rm : RMode) (f : FFmt) (g : FVal → FVal → FVal) (x y : Nat) : Nat :=
  fencode f rm (g (fdecode f x) (fdecode f y))

/-- A floating-point operation of three operands, rounded once (R174). -/
def fop3 (rm : RMode) (f : FFmt) (g : FVal → FVal → FVal → FVal) (x y z : Nat) : Nat :=
  fencode f rm (g (fdecode f x) (fdecode f y) (fdecode f z))

/-- An integer operation, wrapping in the element width (R180). -/
def iop2 (fmt : Nat) (g : Int → Int → Int) (x y : Nat) : Nat :=
  (wrapInt (vw fmt) (g (sInt (vw fmt) x) (sInt (vw fmt) y))).toNat

/-- A floating-point or integer operation of two operands. -/
def arith2 (rm : RMode) (fmt : Nat) (g : FVal → FVal → FVal) (h : Int → Int → Int) (x y : Nat) : Nat :=
  match vfp fmt with
  | some f => fop2 rm f g x y
  | none => iop2 fmt h x y

/-- Sum. -/
def vAdd (rm : RMode) (fmt x y : Nat) : Nat := arith2 rm fmt (faddV rm) (· + ·) x y
/-- Difference. -/
def vSub (rm : RMode) (fmt x y : Nat) : Nat := arith2 rm fmt (fun a b => faddV rm a (fnegV b)) (· - ·) x y
/-- Product; an integer one keeps the low half. -/
def vMul (rm : RMode) (fmt x y : Nat) : Nat := arith2 rm fmt fmulV (· * ·) x y
/-- Maximum (R178). -/
def vMax (fmt x y : Nat) : Nat := arith2 .even fmt fmaxV max x y
/-- Minimum (R178). -/
def vMin (fmt x y : Nat) : Nat := arith2 .even fmt fminV min x y

/-- a × b + c, rounded once. -/
def vFma (rm : RMode) (fmt x y z : Nat) : Nat :=
  match vfp fmt with | some f => fop3 rm f (ffmaV rm) x y z | none => 0
/-- a × b − c, rounded once. -/
def vFms (rm : RMode) (fmt x y z : Nat) : Nat :=
  match vfp fmt with | some f => fop3 rm f (fun a b c => ffmaV rm a b (fnegV c)) x y z | none => 0

/-- Absolute value: the sign bit is cleared; an integer wraps (R177, R180). -/
def vAbs (fmt x : Nat) : Nat :=
  match vfp fmt with
  | some f => x % 2 ^ (f.w - 1)
  | none => if sInt (vw fmt) x < 0 then (wrapInt (vw fmt) (-sInt (vw fmt) x)).toNat else x

/-- Negation: the sign bit is inverted; an integer wraps (R177, R180). -/
def vNeg (fmt x : Nat) : Nat :=
  match vfp fmt with
  | some f => x ^^^ 2 ^ (f.w - 1)
  | none => (wrapInt (vw fmt) (-sInt (vw fmt) x)).toNat

/-- Quotient (R195). -/
def vDiv (rm : RMode) (fmt x y : Nat) : Nat :=
  match vfp fmt with | some f => fdivCode f rm (fdecode f x) (fdecode f y) | none => 0

/-- Square root (R195). -/
def vSqrt (rm : RMode) (fmt x : Nat) : Nat :=
  match vfp fmt with | some f => fsqrtCode f rm (fdecode f x) | none => 0

/-! ## Compares (R179) -/

/-- Equality. -/
def vEq (fmt x y : Nat) : Bool :=
  match vfp fmt with | some f => feqV (fdecode f x) (fdecode f y) | none => x = y
/-- Less than. -/
def vLt (fmt x y : Nat) : Bool :=
  match vfp fmt with
  | some f => fltV (fdecode f x) (fdecode f y)
  | none => sInt (vw fmt) x < sInt (vw fmt) y
/-- Less than or equal. -/
def vLe (fmt x y : Nat) : Bool := vLt fmt x y || vEq fmt x y

/-! ## Shifts (R180) -/

/-- Shift left by b mod the width. -/
def vShl (fmt x y : Nat) : Nat := (BitVec.ofNat (vw fmt) x <<< (y % vw fmt)).toNat
/-- Shift right, zeros in. -/
def vShr (fmt x y : Nat) : Nat := (BitVec.ofNat (vw fmt) x >>> (y % vw fmt)).toNat
/-- Shift right, sign in. -/
def vSra (fmt x y : Nat) : Nat := ((BitVec.ofNat (vw fmt) x).sshiftRight (y % vw fmt)).toNat

/-! ## Approximated functions (R195 to R197) -/

/-- The FP32 codes of 1 and of the canonical NaN, infinities and zeros. -/
def f32One : Nat := 0x3F800000
def f32Nan : Nat := 0x7FC00000
def f32Inf (neg : Bool) : Nat := signed fp32 neg 0x7F800000
def f32Zero (neg : Bool) : Nat := signed fp32 neg 0

/-- The exponent k of a value 2^k, if it is one. -/
def pow2Of (m : Nat) (e : Int) : Option Int :=
  if m ≠ 0 && 2 ^ Nat.log2 m = m then some (e + Nat.log2 m) else none

/-- The exact and special cases of an approximated function in FP32 (R196); none where only the
bound of R195 holds. e^x overflows from x = 0x42B17218 on. -/
def transExact (t : Trans) (x : Nat) : Option Nat :=
  match t, fdecode fp32 x with
  | _, .nan => some f32Nan
  | .rcp, .inf n => some (f32Zero n)
  | .rcp, .fin n m e =>
    if m = 0 then some (f32Inf n)
    else (match pow2Of m e with
      | some k => if k < -127 then none else some (roundFin fp32 .even n 1 (-k) false)
      | none => none)
  | .rsq, .inf n => some (if n then f32Nan else f32Zero false)
  | .rsq, .fin n m e =>
    if m = 0 then some (f32Inf n)
    else if n then some f32Nan
    else (match pow2Of m e with
      | some k => if k % 2 = 0 then some (roundFin fp32 .even false 1 (-(k / 2)) false) else none
      | none => none)
  | .exp, .inf n => some (if n then f32Zero false else f32Inf false)
  | .exp, .fin n m _ =>
    if m = 0 then some f32One else if !n && 0x42B17218 ≤ x then some (f32Inf false) else none
  | .log, .inf n => some (if n then f32Nan else f32Inf false)
  | .log, .fin n m _ =>
    if m = 0 then some (f32Inf true) else if n then some f32Nan
    else if x = f32One then some (f32Zero false) else none
  | .sin, .inf _ => some f32Nan
  | .sin, .fin n m _ => if m = 0 then some (f32Zero n) else none
  | .cos, .inf _ => some f32Nan
  | .cos, .fin _ m _ => if m = 0 then some f32One else none
  | .tanh, .inf n => some (signed fp32 n f32One)
  | .tanh, .fin n m _ => if m = 0 then some (f32Zero n) else none
  | .erf, .inf n => some (signed fp32 n f32One)
  | .erf, .fin n m _ => if m = 0 then some (f32Zero n) else none

/-- An approximated function in FP32: its exact cases, else bits that only the bound of R195 limits (R197):
those of `Config.approx` if they keep the bound, else the nearest code. -/
def trans32 (t : Trans) (x : Nat) : Nat :=
  match transExact t x, fdecode fp32 x with
  | some y, _ => y
  | none, .fin neg m e =>
    let y := transFix t neg m e
    let z := (Config.approx (transCode t) (BitVec.ofNat 32 x)).toNat
    if inBound t y z then z else nearestFix y
  | none, _ => f32Nan

/-- An approximated function; a 16-bit format widens exactly and rounds once (R195). -/
def vTrans (t : Trans) (fmt x : Nat) : Nat :=
  match vfp fmt with
  | none => 0
  | some f =>
    if fmt = 0 then trans32 t x
    else fencode f .even (fdecode fp32 (trans32 t (fencode fp32 .even (fdecode f x))))

/-! ## Reductions and scans (R191 to R193) -/

/-- One level of the tree: neighbours paired, in element order. -/
def pairUp (g : Nat → Nat → Nat) : List Nat → List Nat
  | a :: b :: t => g a b :: pairUp g t
  | l => l

/-- `k` levels of the tree. -/
def treeUp (g : Nat → Nat → Nat) : Nat → List Nat → List Nat
  | 0, l => l
  | k + 1, l => treeUp g k (pairUp g l)

/-- The format in which a reduction works: 16-bit floating point is widened to FP32 (R191). -/
def redFmt (fmt : Nat) : Nat := if fmt = 1 || fmt = 2 then 0 else fmt

/-- An element as it enters a reduction. -/
def widen (fmt x : Nat) : Nat :=
  match vfp fmt with
  | some f => if fmt = 1 || fmt = 2 then fencode fp32 .even (fdecode f x) else x
  | none => x

/-- A partial result in the operation's own format, rounded once (R191, R193). -/
def narrow (fmt x : Nat) : Nat :=
  match vfp fmt with
  | some f => if fmt = 1 || fmt = 2 then fencode f .even (fdecode fp32 x) else x
  | none => x

/-- The identity of a sum, in the reduction's format: −0, or 0. -/
def sumId (fmt : Nat) : Nat := match vfp (redFmt fmt) with | some f => signed f true 0 | none => 0
/-- The identity of a maximum: −∞, or the most negative value. -/
def maxId (fmt : Nat) : Nat :=
  match vfp (redFmt fmt) with | some f => signed f true (infCode f) | none => 2 ^ (vw fmt - 1)
/-- The identity of a minimum: +∞, or the most positive value. -/
def minId (fmt : Nat) : Nat :=
  match vfp (redFmt fmt) with | some f => infCode f | none => 2 ^ (vw fmt - 1) - 1

/-- The leaves of a reduction: active elements widened, the others the identity. -/
def redLeaves (fmt id : Nat) (m : BitVec 256) (v : VecReg) : List Nat :=
  (List.range (vn fmt)).map fun k =>
    if elemActive m (vw fmt) k then widen fmt (velem v (vw fmt) k) else id

/-- A reduction over every element (R191). -/
def reduceV (fmt id : Nat) (g : Nat → Nat → Nat) (m : BitVec 256) (v : VecReg) : Nat :=
  match treeUp g (clog2 (vn fmt)) (redLeaves fmt id m v) with
  | x :: _ => narrow fmt x
  | [] => 0

/-- The running sums of a scan. -/
def scanFrom (g : Nat → Nat → Nat) : Nat → List Nat → List Nat
  | _, [] => []
  | a, x :: t => let y := g a x; y :: scanFrom g y t

/-- A NaN made canonical (R177); other values keep their bits. -/
def canonV (fmt x : Nat) : Nat :=
  match vfp fmt with
  | some f => match fdecode f x with | .nan => canonNaN f | _ => x
  | none => x

/-- The inclusive prefix sums, rounded where the format is 16-bit; s_0 is a result too, whose NaN is canonical
(R177, R193). -/
def scanV (fmt : Nat) (m : BitVec 256) (v : VecReg) : List Nat :=
  match redLeaves fmt (sumId fmt) m v with
  | [] => []
  | x :: t => (canonV (redFmt fmt) x :: scanFrom (vAdd .even (redFmt fmt)) x t).map (narrow fmt)

/-- The rank of an element in the order of R192: NaN above all, +0 above −0. -/
def argRank (fmt x : Nat) : Int :=
  match vfp fmt with
  | none => sInt (vw fmt) x
  | some f =>
    match fdecode f x with
    | .nan => 2 ^ f.w
    | _ => if bitOf x (f.w - 1) then -(x % 2 ^ (f.w - 1) : Nat) - 1 else x

/-- The index of the largest active element, the lowest on a tie; n when none is active (R192). -/
def argMax (fmt : Nat) (m : BitVec 256) (v : VecReg) : Nat :=
  let l := (List.range (vn fmt)).filter (elemActive m (vw fmt))
  match l with
  | [] => vn fmt
  | a :: t => t.foldl (fun best k =>
      if argRank fmt (velem v (vw fmt) best) < argRank fmt (velem v (vw fmt) k) then k else best) a

/-! ## Conversions (R182 to R185) -/

/-- One element converted (R183). -/
def convElem (rm : RMode) (src dst x : Nat) : Nat :=
  match vfp src, vfp dst with
  | some f, some g => fencode g rm (fdecode f x)
  | some f, none => (fToInt rm (vw dst) (fdecode f x)).toNat
  | none, some g => fencode g rm (intV (sInt (vw src) x))
  | none, none => (satInt (vw dst) (sInt (vw src) x)).toNat

/-- How many parts the larger format has (R182). -/
def convRatio (src dst : Nat) : Nat := max (vn src) (vn dst) / min (vn src) (vn dst)

/-- Whether destination element `k` is written by part `p` (R182). -/
def convWrites (src dst p k : Nat) : Bool :=
  if vn src < vn dst then p * vn src ≤ k && k < (p + 1) * vn src else true

/-- The converted register; elements outside the part read 0 and are not written. -/
def convV (rm : RMode) (src dst p : Nat) (v : VecReg) : VecReg :=
  vecOf (vw dst) fun k =>
    if vn src < vn dst then
      (if convWrites src dst p k then convElem rm src dst (velem v (vw src) (k - p * vn src)) else 0)
    else convElem rm src dst (velem v (vw src) (p * vn dst + k))

/-- The lanes that part `p` of a conversion writes. -/
def convLanes (src dst p : Nat) (m : BitVec 256) : BitVec 256 :=
  maskOf 256 fun l =>
    (writeLanes m (vw dst)).getLsbD l && convWrites src dst p (if vw dst = 64 then l / 2 else l * 32 / vw dst)

/-- The block scale of element `k` (R184): 127 for formats that are not MX. -/
def packScale (fmt : Nat) (sc : VecReg) (k : Nat) : Nat :=
  if matMx fmt then velem sc 32 (k / 32) % 256 else 127

/-- An FP32 element packed into a matrix format (R184). -/
def packElem (rm : RMode) (fmt scale x : Nat) : Nat :=
  let y := if scale = 0xFF then FVal.nan else fscaleV (127 - (scale : Int)) (fdecode fp32 x)
  match matFmt fmt with
  | some f => fencode f rm y
  | none => (fToInt rm (matBits fmt) (if fmt = 3 then fscaleV 6 y else y)).toNat

/-- VPACK (R184). -/
def packV (rm : RMode) (fmt : Nat) (v sc : VecReg) : VecReg :=
  BitVec.ofNat 8192 (packElems (matBits fmt) ((List.range 256).map fun k =>
    BitVec.ofNat (matBits fmt) (packElem rm fmt (packScale fmt sc k) (velem v 32 k))))

/-- VUNPK (R185). -/
def unpackV (rm : RMode) (fmt : Nat) (v sc : VecReg) : VecReg :=
  vecOf 32 fun k => fencode fp32 rm (mxValue fmt (velem v (matBits fmt) k) (packScale fmt sc k))

/-! ## The generator (R253) -/

/-- One round of Philox4x32. -/
def philoxRound (k : Nat × Nat) (c : Nat × Nat × Nat × Nat) : Nat × Nat × Nat × Nat :=
  let p0 := 0xD2511F53 * c.1
  let p1 := 0xCD9E8D57 * c.2.2.1
  (Nat.xor (Nat.xor (p1 / 0x100000000) c.2.1) k.1, p1 % 0x100000000,
   Nat.xor (Nat.xor (p0 / 0x100000000) c.2.2.2) k.2, p0 % 0x100000000)

/-- `n` rounds, the key gaining W₀ and W₁ between them. -/
def philox : Nat → Nat × Nat → Nat × Nat × Nat × Nat → Nat × Nat × Nat × Nat
  | 0, _, c => c
  | n + 1, k, c =>
    philox n ((k.1 + 0x9E3779B9) % 0x100000000, (k.2 + 0xBB67AE85) % 0x100000000) (philoxRound k c)

/-- VRNG: each group of four lanes through ten rounds. -/
def rngV (k : Nat × Nat) (v : VecReg) : VecReg :=
  BitVec.ofNat 8192 (packElems 32 ((List.range 64).flatMap fun j =>
    let x := philox 10 k (velem v 32 (4 * j), velem v 32 (4 * j + 1), velem v 32 (4 * j + 2), velem v 32 (4 * j + 3))
    [BitVec.ofNat 32 x.1, BitVec.ofNat 32 x.2.1, BitVec.ofNat 32 x.2.2.1, BitVec.ofNat 32 x.2.2.2]))

end Sys2Proof.Machine
end

