-- ==== Sys2Proof/Machine/Vector.lean ====
section
/-! DEFINITION. The V slots (R147, R148, R154, R493): one meaning per operation and per
scalar form. Rows of the latency table stand first. -/
namespace Sys2Proof.Machine
open Sys2Proof

/-! ## The latency table's rows -/

/-- VADD, VSUB (R154). -/
def vaddLat : VLat := ⟨4, 4, 6, 2, 2, 2, true, false⟩
/-- VMUL (R154). -/
def vmulLat : VLat := ⟨4, 4, 8, 2, 3, 3, true, false⟩
/-- VFMA, VFMS (R154). -/
def vfmaLat : VLat := ⟨4, 4, 8, 2, 0, 0, true, false⟩
/-- VMAX, VMIN and the compares (R154). -/
def vmaxLat : VLat := ⟨2, 2, 3, 2, 2, 3, false, false⟩
/-- VABS, VNEG (R154). -/
def vabsLat : VLat := ⟨1, 1, 2, 2, 1, 2, false, false⟩
/-- VCLASS (R154). -/
def vclassLat : VLat := ⟨2, 2, 3, 2, 0, 0, false, false⟩
/-- VSEL (R154). -/
def vselLat : VLat := ⟨1, 1, 1, 1, 1, 3, false, false⟩
/-- VAND to VSRA (R154). -/
def vbitLat : VLat := ⟨0, 0, 0, 1, 1, 2, false, false⟩
/-- VPACK, VUNPK (R154). -/
def vpackLat : VLat := ⟨6, 0, 0, 1, 0, 0, true, false⟩
/-- VRCP, VRSQ (R154). -/
def vrcpLat : VLat := ⟨8, 8, 0, 1, 0, 0, false, true⟩
/-- VSQRT (R154). -/
def vsqrtLat : VLat := ⟨12, 12, 28, 8, 0, 0, true, false⟩
/-- VDIV (R154). -/
def vdivLat : VLat := ⟨14, 14, 28, 8, 0, 0, true, false⟩
/-- VEXP, VLOG (R154). -/
def vexpLat : VLat := ⟨10, 10, 0, 1, 0, 0, false, true⟩
/-- VSIN, VCOS, VTANH, VERF (R154). -/
def vsinLat : VLat := ⟨12, 12, 0, 1, 0, 0, false, true⟩
/-- The reductions and VARGMX (R154). -/
def vredLat : VLat := ⟨8, 9, 10, 2, 6, 2, false, false⟩
/-- VSCAN (R154). -/
def vscanLat : VLat := ⟨10, 11, 0, 1, 8, 2, false, false⟩
/-- VPERM (R154). -/
def vpermLat : VLat := ⟨3, 3, 3, 1, 3, 3, false, false⟩
/-- VROT, VEXT, VINS (R154). -/
def vrotLat : VLat := ⟨2, 2, 2, 1, 2, 3, false, false⟩
/-- VBCAST, VIOTA (R154). -/
def vbcastLat : VLat := ⟨1, 1, 1, 1, 1, 2, false, false⟩
/-- VMOV (R154). -/
def vmovLat : VLat := ⟨1, 1, 1, 1, 1, 3, false, false⟩
/-- VRNG: INT32 only (R154). -/
def vrngLat : VLat := ⟨0, 0, 0, 1, 6, 1, false, false⟩

/-- VNOP: nothing but its cycle (R111). -/
def execVnop (i : Issue) (_u : VUnit) (s : State) : Host.Outcome State Fault Refusal :=
  .next (advance s (issueCycle s i))

/-! ## Elementwise operations -/

/-- d = a + b. -/
def execVadd (i : Issue) (u : VUnit) (o : VOp) (s : State) : Host.Outcome State Fault Refusal :=
  .next (vBinary i u o vaddLat false (vAdd (rmOf o.rm.toNat)) s)

/-- d = a − b. -/
def execVsub (i : Issue) (u : VUnit) (o : VOp) (s : State) : Host.Outcome State Fault Refusal :=
  .next (vBinary i u o vaddLat false (vSub (rmOf o.rm.toNat)) s)

/-- d = a × b. -/
def execVmul (i : Issue) (u : VUnit) (o : VOp) (s : State) : Host.Outcome State Fault Refusal :=
  .next (vBinary i u o vmulLat false (vMul (rmOf o.rm.toNat)) s)

/-- d = a × b + c, one rounding. -/
def execVfma (i : Issue) (u : VUnit) (o : VOp) (s : State) : Host.Outcome State Fault Refusal :=
  .next (vTernary i u o vfmaLat false (vFma (rmOf o.rm.toNat)) s)

/-- d = a × b − c, one rounding. -/
def execVfms (i : Issue) (u : VUnit) (o : VOp) (s : State) : Host.Outcome State Fault Refusal :=
  .next (vTernary i u o vfmaLat false (vFms (rmOf o.rm.toNat)) s)

/-- Maximum (R178). -/
def execVmax (i : Issue) (u : VUnit) (o : VOp) (s : State) : Host.Outcome State Fault Refusal :=
  .next (vBinary i u o vmaxLat false vMax s)

/-- Minimum (R178). -/
def execVmin (i : Issue) (u : VUnit) (o : VOp) (s : State) : Host.Outcome State Fault Refusal :=
  .next (vBinary i u o vmaxLat false vMin s)

/-- Absolute value (R177). -/
def execVabs (i : Issue) (u : VUnit) (o : VOp) (s : State) : Host.Outcome State Fault Refusal :=
  .next (vUnary i u o vabsLat vAbs s)

/-- Negation (R177). -/
def execVneg (i : Issue) (u : VUnit) (o : VOp) (s : State) : Host.Outcome State Fault Refusal :=
  .next (vUnary i u o vabsLat vNeg s)

/-- pd = (a = b) (R148, R179). -/
def execVcmpeq (i : Issue) (u : VUnit) (o : VOp) (s : State) : Host.Outcome State Fault Refusal :=
  .next (vCompare i u o vmaxLat vEq s)

/-- pd = (a < b). -/
def execVcmplt (i : Issue) (u : VUnit) (o : VOp) (s : State) : Host.Outcome State Fault Refusal :=
  .next (vCompare i u o vmaxLat vLt s)

/-- pd = (a ≤ b). -/
def execVcmple (i : Issue) (u : VUnit) (o : VOp) (s : State) : Host.Outcome State Fault Refusal :=
  .next (vCompare i u o vmaxLat vLe s)

/-- pd = class of a is in the mask VC:VB (R179). Mask bit 10 chooses the element of a
16-bit format; bit 11, and bit 10 in FP32 and FP64, are reserved. -/
def execVclass (i : Issue) (u : VUnit) (o : VOp) (s : State) : Host.Outcome State Fault Refusal :=
  .next (issueOp s i fun s _ =>
    let c := i.cl.val
    let fmt := o.fmt.toNat
    let w := vw fmt
    let a := vregOf s c o.va.toNat
    let mask := o.vb.toNat + 64 * o.vc.toNat
    let sel := b2n (o.vc.getLsbD 4)
    vInfo s c u o (vlat vclassLat fmt) (vKind fmt false) false (o.vd.toNat < 16 && !o.vc.getLsbD 5 && (sel = 0 || w = 16)) [.vreg o.va]
      (.pregWrite (o.vd.extractLsb' 0 4) (writeLanes (lanesOn s c o) w)
        (predOf w sel fun k => match vfp fmt with
          | some f => bitOf mask (fclass f (velem a w k))
          | none => false)))

/-- d = p_VC[3:0] ? a : b, lane by lane; an FP64 element takes bit 2i (R493). -/
def execVsel (i : Issue) (u : VUnit) (o : VOp) (s : State) : Host.Outcome State Fault Refusal :=
  .next (vecOp i u o vselLat (o.vc.toNat < 16) [.vreg o.va, .vreg o.vb, .preg (o.vc.extractLsb' 0 4)]
    (fun s c =>
      let p := pregOf s c o.vc.toNat
      blend 8192 32 (if o.fmt = 3 then maskOf 256 fun l => p.getLsbD (l / 2 * 2) else p)
        (vregOf s c o.va.toNat) (vregOf s c o.vb.toNat)) s)

/-- Bitwise AND. -/
def execVand (i : Issue) (u : VUnit) (o : VOp) (s : State) : Host.Outcome State Fault Refusal :=
  .next (vBinary i u o vbitLat false (fun _ x y => Nat.land x y) s)

/-- Bitwise OR. -/
def execVor (i : Issue) (u : VUnit) (o : VOp) (s : State) : Host.Outcome State Fault Refusal :=
  .next (vBinary i u o vbitLat false (fun _ x y => Nat.lor x y) s)

/-- Bitwise XOR. -/
def execVxor (i : Issue) (u : VUnit) (o : VOp) (s : State) : Host.Outcome State Fault Refusal :=
  .next (vBinary i u o vbitLat false (fun _ x y => Nat.xor x y) s)

/-- Shift left by b mod the element width (R180). -/
def execVshl (i : Issue) (u : VUnit) (o : VOp) (s : State) : Host.Outcome State Fault Refusal :=
  .next (vBinary i u o vbitLat false vShl s)

/-- Shift right, zeros in (R180). -/
def execVshr (i : Issue) (u : VUnit) (o : VOp) (s : State) : Host.Outcome State Fault Refusal :=
  .next (vBinary i u o vbitLat false vShr s)

/-- Shift right, sign in (R180). -/
def execVsra (i : Issue) (u : VUnit) (o : VOp) (s : State) : Host.Outcome State Fault Refusal :=
  .next (vBinary i u o vbitLat false vSra s)

/-- d in FMT = a in format VC[2:0], part VC[5:3] (R182, R183, R493). -/
def execVcvt (i : Issue) (u : VUnit) (o : VOp) (s : State) : Host.Outcome State Fault Refusal :=
  .next (issueOp s i fun s _ =>
    let c := i.cl.val
    let src := o.vc.toNat % 8
    let dst := o.fmt.toNat
    let l := if src = 3 || dst = 3 then (6, 2) else (4, 1)
    vInfo s c u o l (vKind (if src = 3 then 3 else dst) false) true (dst ≠ 7 && src ≠ 7 && o.vb = 0 && o.vc.toNat / 8 < convRatio src dst) [.vreg o.va]
      (.vregWrite o.vd (convLanes src dst (o.vc.toNat / 8) (lanesOn s c o))
        (convV (rmOf o.rm.toNat) src dst (o.vc.toNat / 8) (vregOf s c o.va.toNat))))

/-- FP32 to matrix format VC[3:0] (R184). -/
def execVpack (i : Issue) (u : VUnit) (o : VOp) (s : State) : Host.Outcome State Fault Refusal :=
  .next (vecOp i u o vpackLat (o.vc.toNat < 16 && (matMx o.vc.toNat || o.vb = 0))
    (if matMx o.vc.toNat then [.vreg o.va, .vreg o.vb] else [.vreg o.va])
    (fun s c => packV (rmOf o.rm.toNat) o.vc.toNat (vregOf s c o.va.toNat) (vregOf s c o.vb.toNat)) s)

/-- Matrix format VC[3:0] to FP32 (R185). -/
def execVunpk (i : Issue) (u : VUnit) (o : VOp) (s : State) : Host.Outcome State Fault Refusal :=
  .next (vecOp i u o vpackLat (o.vc.toNat < 16 && (matMx o.vc.toNat || o.vb = 0))
    (if matMx o.vc.toNat then [.vreg o.va, .vreg o.vb] else [.vreg o.va])
    (fun s c => unpackV (rmOf o.rm.toNat) o.vc.toNat (vregOf s c o.va.toNat) (vregOf s c o.vb.toNat)) s)

/-- Reciprocal (R195, R196). -/
def execVrcp (i : Issue) (u : VUnit) (o : VOp) (s : State) : Host.Outcome State Fault Refusal :=
  .next (vUnary i u o vrcpLat (vTrans .rcp) s)

/-- Reciprocal square root (R195, R196). -/
def execVrsq (i : Issue) (u : VUnit) (o : VOp) (s : State) : Host.Outcome State Fault Refusal :=
  .next (vUnary i u o vrcpLat (vTrans .rsq) s)

/-- Square root, correctly rounded (R195). -/
def execVsqrt (i : Issue) (u : VUnit) (o : VOp) (s : State) : Host.Outcome State Fault Refusal :=
  .next (vUnary i u o vsqrtLat (vSqrt (rmOf o.rm.toNat)) s)

/-- d = a / b, correctly rounded (R195). -/
def execVdiv (i : Issue) (u : VUnit) (o : VOp) (s : State) : Host.Outcome State Fault Refusal :=
  .next (vBinary i u o vdivLat false (vDiv (rmOf o.rm.toNat)) s)

/-- eˣ (R195, R196). -/
def execVexp (i : Issue) (u : VUnit) (o : VOp) (s : State) : Host.Outcome State Fault Refusal :=
  .next (vUnary i u o vexpLat (vTrans .exp) s)

/-- Natural logarithm (R195, R196). -/
def execVlog (i : Issue) (u : VUnit) (o : VOp) (s : State) : Host.Outcome State Fault Refusal :=
  .next (vUnary i u o vexpLat (vTrans .log) s)

/-- Sine (R195, R196). -/
def execVsin (i : Issue) (u : VUnit) (o : VOp) (s : State) : Host.Outcome State Fault Refusal :=
  .next (vUnary i u o vsinLat (vTrans .sin) s)

/-- Cosine (R195, R196). -/
def execVcos (i : Issue) (u : VUnit) (o : VOp) (s : State) : Host.Outcome State Fault Refusal :=
  .next (vUnary i u o vsinLat (vTrans .cos) s)

/-- Hyperbolic tangent (R195, R196). -/
def execVtanh (i : Issue) (u : VUnit) (o : VOp) (s : State) : Host.Outcome State Fault Refusal :=
  .next (vUnary i u o vsinLat (vTrans .tanh) s)

/-- Error function (R195, R196). -/
def execVerf (i : Issue) (u : VUnit) (o : VOp) (s : State) : Host.Outcome State Fault Refusal :=
  .next (vUnary i u o vsinLat (vTrans .erf) s)

/-! ## Reductions and scans -/

/-- sd = sum over every element, by the tree of R191. -/
def execVrsum (i : Issue) (u : VUnit) (o : VOp) (s : State) : Host.Outcome State Fault Refusal :=
  .next (vScalarOut i u o vredLat (o.vb = 0 && o.vc = 0) [.vreg o.va]
    (fun s c m fmt => .sregWrite (o.vd.extractLsb' 0 5)
      (BitVec.ofNat 64 (reduceV fmt (sumId fmt) (vAdd .even (redFmt fmt)) m (vregOf s c o.va.toNat)))) s)

/-- sd = maximum over every element, by the tree of R191. -/
def execVrmax (i : Issue) (u : VUnit) (o : VOp) (s : State) : Host.Outcome State Fault Refusal :=
  .next (vScalarOut i u o vredLat (o.vb = 0 && o.vc = 0) [.vreg o.va]
    (fun s c m fmt => .sregWrite (o.vd.extractLsb' 0 5)
      (BitVec.ofNat 64 (reduceV fmt (maxId fmt) (vMax (redFmt fmt)) m (vregOf s c o.va.toNat)))) s)

/-- sd = minimum over every element, by the tree of R191. -/
def execVrmin (i : Issue) (u : VUnit) (o : VOp) (s : State) : Host.Outcome State Fault Refusal :=
  .next (vScalarOut i u o vredLat (o.vb = 0 && o.vc = 0) [.vreg o.va]
    (fun s c m fmt => .sregWrite (o.vd.extractLsb' 0 5)
      (BitVec.ofNat 64 (reduceV fmt (minId fmt) (vMin (redFmt fmt)) m (vregOf s c o.va.toNat)))) s)

/-- sd = index of the largest active element (R192). -/
def execVargmx (i : Issue) (u : VUnit) (o : VOp) (s : State) : Host.Outcome State Fault Refusal :=
  .next (vScalarOut i u o vredLat (o.vb = 0 && o.vc = 0) [.vreg o.va]
    (fun s c m fmt => .sregWrite (o.vd.extractLsb' 0 5) (BitVec.ofNat 64 (argMax fmt m (vregOf s c o.va.toNat)))) s)

/-- Inclusive prefix sum over the elements (R193). -/
def execVscan (i : Issue) (u : VUnit) (o : VOp) (s : State) : Host.Outcome State Fault Refusal :=
  .next (vecOp i u o vscanLat (o.vb = 0 && o.vc = 0) [.vreg o.va]
    (fun s c => BitVec.ofNat 8192 (packElems (vw o.fmt.toNat)
      ((scanV o.fmt.toNat (lanesOn s c o) (vregOf s c o.va.toNat)).map (BitVec.ofNat (vw o.fmt.toNat))))) s)

/-! ## Moves -/

/-- d[i] = a[b[i] mod n], b[i] as unsigned bits (R493). -/
def execVperm (i : Issue) (u : VUnit) (o : VOp) (s : State) : Host.Outcome State Fault Refusal :=
  .next (vecOp i u o vpermLat (o.vc = 0) [.vreg o.va, .vreg o.vb]
    (fun s c =>
      let w := vw o.fmt.toNat
      let a := vregOf s c o.va.toNat
      let b := vregOf s c o.vb.toNat
      vecOf w fun k => velem a w (velem b w k % vn o.fmt.toNat)) s)

/-- d[i] = a[(i + 64 × VC + VB) mod n] (R493). -/
def execVrot (i : Issue) (u : VUnit) (o : VOp) (s : State) : Host.Outcome State Fault Refusal :=
  .next (vecOp i u o vrotLat true [.vreg o.va]
    (fun s c =>
      let w := vw o.fmt.toNat
      let a := vregOf s c o.va.toNat
      vecOf w fun k => velem a w ((k + 64 * o.vc.toNat + o.vb.toNat) % vn o.fmt.toNat)) s)

/-- d = sa in every element (R181). -/
def execVbcast (i : Issue) (u : VUnit) (o : VOp) (s : State) : Host.Outcome State Fault Refusal :=
  .next (vecOp i u o vbcastLat (!o.va.getLsbD 5 && o.vb = 0 && o.vc = 0) [.sreg (o.va.extractLsb' 0 5)]
    (fun s c =>
      let x := scalarElem (vw o.fmt.toNat) (sregOf s c (o.va.toNat % 32))
      vecOf (vw o.fmt.toNat) fun _ => x) s)

/-- d[i] = i + sa, rounded once to nearest even in a floating-point format (R493). -/
def execViota (i : Issue) (u : VUnit) (o : VOp) (s : State) : Host.Outcome State Fault Refusal :=
  .next (vecOp i u o vbcastLat (!o.va.getLsbD 5 && o.vb = 0 && o.vc = 0) [.sreg (o.va.extractLsb' 0 5)]
    (fun s c =>
      let fmt := o.fmt.toNat
      let x := scalarElem (vw fmt) (sregOf s c (o.va.toNat % 32))
      vecOf (vw fmt) fun k => match vfp fmt with
        | some f => fencode f .even (faddV .even (intV k) (fdecode f x))
        | none => k + x) s)

/-- d = a. -/
def execVmov (i : Issue) (u : VUnit) (o : VOp) (s : State) : Host.Outcome State Fault Refusal :=
  .next (vUnary i u o vmovLat (fun _ x => x) s)

/-- sd = a[sb mod n]; an inactive element leaves sd (R129). -/
def execVext (i : Issue) (u : VUnit) (o : VOp) (s : State) : Host.Outcome State Fault Refusal :=
  .next (vScalarOut i u o vrotLat (!o.vb.getLsbD 5 && o.vc = 0) [.vreg o.va, .sreg (o.vb.extractLsb' 0 5)]
    (fun s c m fmt =>
      let k := (sregOf s c (o.vb.toNat % 32)).toNat % vn fmt
      let sd := o.vd.extractLsb' 0 5
      if elemActive m (vw fmt) k then
        .sregWrite sd (BitVec.ofNat 64 (velem (vregOf s c o.va.toNat) (vw fmt) k))
      else .sregKeep sd) s)

/-- d[sb mod n] = sa, if that element is active. -/
def execVins (i : Issue) (u : VUnit) (o : VOp) (s : State) : Host.Outcome State Fault Refusal :=
  .next (issueOp s i fun s _ =>
    let c := i.cl.val
    let fmt := o.fmt.toNat
    let k := (sregOf s c (o.vb.toNat % 32)).toNat % vn fmt
    vInfo s c u o (vlat vrotLat fmt) (vKind fmt false) false (!o.va.getLsbD 5 && !o.vb.getLsbD 5 && o.vc = 0)
      [.sreg (o.va.extractLsb' 0 5), .sreg (o.vb.extractLsb' 0 5)]
      (.vregElem o.vd (vw fmt) (if elemActive (lanesOn s c o) (vw fmt) k then k else vn fmt)
        (scalarElem (vw fmt) (sregOf s c (o.va.toNat % 32)))))

/-- d = generator(counter a; key sb, sb + 1), sb even (R253). -/
def execVrng (i : Issue) (u : VUnit) (o : VOp) (s : State) : Host.Outcome State Fault Refusal :=
  .next (vecOp i u o vrngLat (!o.vb.getLsbD 5 && !o.vb.getLsbD 0 && o.vc = 0)
    [.vreg o.va, .sreg (o.vb.extractLsb' 0 5), .sreg (o.vb.extractLsb' 0 5 + 1)]
    (fun s c =>
      let k := o.vb.toNat % 32
      rngV ((sregOf s c k).toNat % 0x100000000, (sregOf s c (k + 1)).toNat % 0x100000000)
        (vregOf s c o.va.toNat)) s)

/-! ## Scalar forms, 0x61 to 0x67 (R147) -/

/-- d = a + b with b = sb. -/
def execScalarVadd (i : Issue) (u : VUnit) (o : VOp) (s : State) : Host.Outcome State Fault Refusal :=
  .next (vBinary i u o vaddLat true (vAdd (rmOf o.rm.toNat)) s)

/-- d = a − b with b = sb. -/
def execScalarVsub (i : Issue) (u : VUnit) (o : VOp) (s : State) : Host.Outcome State Fault Refusal :=
  .next (vBinary i u o vaddLat true (vSub (rmOf o.rm.toNat)) s)

/-- d = a × b with b = sb. -/
def execScalarVmul (i : Issue) (u : VUnit) (o : VOp) (s : State) : Host.Outcome State Fault Refusal :=
  .next (vBinary i u o vmulLat true (vMul (rmOf o.rm.toNat)) s)

/-- d = a × b + c with b = sb, one rounding. -/
def execScalarVfma (i : Issue) (u : VUnit) (o : VOp) (s : State) : Host.Outcome State Fault Refusal :=
  .next (vTernary i u o vfmaLat true (vFma (rmOf o.rm.toNat)) s)

/-- d = a × b − c with b = sb, one rounding. -/
def execScalarVfms (i : Issue) (u : VUnit) (o : VOp) (s : State) : Host.Outcome State Fault Refusal :=
  .next (vTernary i u o vfmaLat true (vFms (rmOf o.rm.toNat)) s)

/-- Maximum with b = sb (R178). -/
def execScalarVmax (i : Issue) (u : VUnit) (o : VOp) (s : State) : Host.Outcome State Fault Refusal :=
  .next (vBinary i u o vmaxLat true vMax s)

/-- Minimum with b = sb (R178). -/
def execScalarVmin (i : Issue) (u : VUnit) (o : VOp) (s : State) : Host.Outcome State Fault Refusal :=
  .next (vBinary i u o vmaxLat true vMin s)

end Sys2Proof.Machine
end

