-- ==== Sys2Proof/Machine/Bundle.lean ====
section
/-! DEFINITION. The encodings of a whole bundle, checked without its registers (R110 to R113, R142 to R154,
R493): what the load checker applies to every bundle of a plan image (R463). -/
namespace Sys2Proof.Machine
open Sys2Proof

/-- XG is assigned, at bit `lo` of a slot word (R113). -/
def xgBits (w lo : Nat) : Bool := bitsOf w lo 4 ≤ 8

/-- The M slot (R143). -/
def mSlotOk (w : Nat) : Bool :=
  let rsv := bitsOf w 9 5 = 0 && bitsOf w 26 10 = 0
  w = 0 || (xgBits w 5 && (match bitsOf w 0 5 with
    | 1 => true
    | 2 => rsv && bitsOf w 16 10 = 0
    | 3 | 4 => rsv
    | _ => false))

/-- A V operation's format, rounding and other fields (R147). -/
def vFieldsOk (w : Nat) (l : VLat) (rest : Bool) : Bool :=
  (vlat l (bitsOf w 39 3)).1 ≠ 0 && (l.rm || bitsOf w 42 2 = 0) && rest

/-- The V slots (R147, R154, R493). -/
def vSlotOk (w : Nat) : Bool :=
  let vd := bitsOf w 15 6
  let va := bitsOf w 21 6
  let vb := bitsOf w 27 6
  let vc := bitsOf w 33 6
  let fmt := bitsOf w 39 3
  let none2 := vb = 0 && vc = 0
  let cmp := vd < 16 && (vc = 0 || (vw fmt = 16 && vc < 2) || (vw fmt = 8 && vc < 4))
  let sOut := vd < 32
  let mx := vc < 16 && (matMx vc || vb = 0)
  w = 0 || (xgBits w 7 && (match bitsOf w 0 7 with
    | 0x01 | 0x02 => vFieldsOk w vaddLat (vc = 0)
    | 0x03 => vFieldsOk w vmulLat (vc = 0)
    | 0x04 | 0x05 => vFieldsOk w vfmaLat true
    | 0x06 | 0x07 => vFieldsOk w vmaxLat (vc = 0)
    | 0x08 | 0x09 => vFieldsOk w vabsLat none2
    | 0x0A | 0x0B | 0x0C => vFieldsOk w vmaxLat cmp
    | 0x0D => vFieldsOk w vclassLat (vd < 16 && vc < 32 && (vc < 16 || vw fmt = 16))
    | 0x0E => vFieldsOk w vselLat (vc < 16)
    | 0x10 | 0x11 | 0x12 | 0x13 | 0x14 | 0x15 => vFieldsOk w vbitLat (vc = 0)
    | 0x18 => fmt ≠ 7 && vc % 8 ≠ 7 && vb = 0 && vc / 8 < convRatio (vc % 8) fmt
    | 0x19 | 0x1A => vFieldsOk w vpackLat mx
    | 0x20 | 0x21 => vFieldsOk w vrcpLat none2
    | 0x22 => vFieldsOk w vsqrtLat none2
    | 0x23 => vFieldsOk w vdivLat (vc = 0)
    | 0x24 | 0x25 => vFieldsOk w vexpLat none2
    | 0x26 | 0x27 | 0x28 | 0x29 => vFieldsOk w vsinLat none2
    | 0x30 | 0x31 | 0x32 | 0x33 => vFieldsOk w vredLat (sOut && none2)
    | 0x34 => vFieldsOk w vscanLat none2
    | 0x38 => vFieldsOk w vpermLat (vc = 0)
    | 0x39 => vFieldsOk w vrotLat true
    | 0x3A | 0x3B => vFieldsOk w vbcastLat (va < 32 && none2)
    | 0x3C => vFieldsOk w vmovLat none2
    | 0x3D => vFieldsOk w vrotLat (sOut && vb < 32 && vc = 0)
    | 0x3E => vFieldsOk w vrotLat (va < 32 && vb < 32 && vc = 0)
    | 0x40 => vFieldsOk w vrngLat (vb < 32 && vb % 2 = 0 && vc = 0)
    | 0x61 | 0x62 => vFieldsOk w vaddLat (vb < 32 && vc = 0)
    | 0x63 => vFieldsOk w vmulLat (vb < 32 && vc = 0)
    | 0x64 | 0x65 => vFieldsOk w vfmaLat (vb < 32)
    | 0x66 | 0x67 => vFieldsOk w vmaxLat (vb < 32 && vc = 0)
    | _ => false))

/-- The L slot (R149, R150). -/
def lSlotOk (w : Nat) : Bool :=
  let aen := bitOf w 19
  let ride := if aen then bitsOf w 20 5 ≠ bitsOf w 9 5 else bitsOf w 20 10 = 0
  w = 0 || (xgBits w 5 && (match bitsOf w 0 5 with
    | 1 => aen && bitsOf w 9 10 = 0 && bitsOf w 30 10 = 0
    | 2 | 3 | 4 | 5 => ride
    | 6 => bitsOf w 14 26 = 0
    | _ => false))

/-- The S slot (R151). -/
def sSlotOk (w : Nat) : Bool :=
  w = 0 || (xgBits w 5 && (match bitsOf w 0 5 with
    | 1 | 2 | 3 => true
    | 4 | 5 => !bitOf w 14
    | 6 => bitsOf w 12 3 = 0
    | _ => false))

/-- PORT and LANE of an F word (R152), the cluster's own region apart. -/
def fPortOk (w : Nat) : Bool := bitsOf w 9 5 ≤ 20 && (16 ≤ bitsOf w 9 5 || bitsOf w 14 3 = 0)

/-- The F slot (R152). -/
def fSlotOk (w : Nat) : Bool :=
  let sel := bitsOf w 17 5
  w = 0 || (xgBits w 5 && fPortOk w && (match bitsOf w 0 5 with
    | 1 => sel = 0
    | 2 => true
    | 3 => 16 ≤ sel && sel ≤ 20 && sel ≠ bitsOf w 9 5 && bitsOf w 22 10 = 0
    | _ => false))

/-- The C slot (R153, R154). -/
def cSlotOk (w : Nat) : Bool :=
  w = 0 || (match bitsOf w 0 6 with
    | 0x01 | 0x02 | 0x03 => true
    | 0x04 | 0x05 | 0x06 | 0x07 | 0x08 | 0x09 | 0x0A | 0x0B | 0x0C => bitsOf w 21 3 = 0
    | 0x10 => !bitOf w 23
    | 0x11 => bitsOf w 20 4 = 0
    | 0x12 | 0x13 => bitsOf w 11 13 = 0
    | 0x14 | 0x16 | 0x17 => true
    | 0x18 => bitsOf w 14 10 = 0
    | 0x20 | 0x21 | 0x22 | 0x23 | 0x28 | 0x29 | 0x2A | 0x2B => true
    | 0x24 => bitsOf w 10 14 = 0
    | 0x25 | 0x26 => bitsOf w 15 9 = 0
    | 0x2C => bitsOf w 14 10 = 0
    | 0x30 => true
    | _ => false)

/-- A slot's word, and bundle bits [255:252], break nothing that R112 forbids. -/
def slotWordOk (k : SlotId) (w : Nat) : Bool :=
  match k with
  | .m => mSlotOk w
  | .v0 => vSlotOk w
  | .v1 => vSlotOk w
  | .l => lSlotOk w
  | .s => sSlotOk w
  | .f => fSlotOk w
  | .c => cSlotOk w
  | .top => w = 0

/-- A slot whose word no operation has: a reserved or withdrawn opcode, a nonzero reserved field,
or nonzero bundle bits [255:252]: an encoding fault (R112, R142, R166). A word that an operation has is no
reserved one: its effect is that operation's own command, and here only time passes. -/
def execReservedOpcode (i : Issue) (slot : SlotId) (w : BitVec 44) (s : State) :
    Host.Outcome State Fault Refusal :=
  .next (if slotWordOk slot w.toNat then advance s (issueCycle s i) else issueOp s i fun _ _ =>
    { slot := slotNo slot, enc := false, unit := 0, occ := 1, due := 0, srcs := [], evs := [] })

/-- The F word of a bundle (R110). -/
def bundleF (b : Nat) : Nat := bitsOf b 196 32

/-- Whether a bundle breaks nothing that R112 forbids. -/
def bundleOk (b : Nat) : Bool :=
  slotWordOk .m (bitsOf b 0 36) && slotWordOk .v0 (bitsOf b 36 44) && slotWordOk .v1 (bitsOf b 80 44) &&
  slotWordOk .l (bitsOf b 124 40) && slotWordOk .s (bitsOf b 164 32) && slotWordOk .f (bundleF b) &&
  slotWordOk .c (bitsOf b 228 24) && slotWordOk .top (bitsOf b 252 4)

/-- The crossbar ports that an F word sends to and receives from (R155). -/
def fOuts (w : Nat) : List Nat := match bitsOf w 0 5 with | 1 | 3 => [bitsOf w 9 5] | _ => []
def fIns (w : Nat) : List Nat :=
  match bitsOf w 0 5 with | 2 => [bitsOf w 9 5] | 3 => [bitsOf w 17 5] | _ => []

end Sys2Proof.Machine
end

