-- ==== Sys2Proof/Machine/Load.lean ====
section
/-! DEFINITION. Loading and unloading plans (R38 to R49, R60, R112, R260, R264 to R269, R273, R276, R281,
R345, R375, R463). Each list of offsets holds the failures of one RESULT; the lowest is reported. -/
namespace Sys2Proof.Machine
open Sys2Proof

/-- An image as the checker reads it: where it lies, and its header. -/
structure Img where
  st  : State
  at_ : Nat
  h   : BitVec 2048
deriving DecidableEq, Repr

/-- `n` bytes at image offset `o`. -/
def ig (p : Img) (o n : Nat) : Nat := imgNat p.st p.at_ o n

/-- Bytes of an image with this SIG_OFF (R375, R463). -/
def imgSize (h : BitVec 2048) : Nat := hSigOff h + 1032

/-- A failure at `o` if `c` holds. -/
def bad (c : Bool) (o : Nat) : List Nat := if c then [o] else []

/-- The reserved field of `n` bytes at `o`, if it is not zero (R10). -/
def badBytes (p : Img) (o n : Nat) : List Nat := bad (ig p o n ≠ 0) o

/-- The place of a field of an entry at `o` that begins at bit `b`: the byte that holds that bit (log 75). -/
def fieldAt (o b : Nat) : Nat := o + b / 8

/-- Whether `n` bytes at `o` lie within the image. -/
def within (p : Img) (o n : Nat) : Bool := o + n ≤ imgSize p.h

/-- A list of `n` elements, one failure list each. -/
def each (n : Nat) (f : Nat → List Nat) : List Nat := (List.range n).flatMap f

/-! ## Header (R38, R40) -/

/-- SIG_OFF, which step 2 checks first. -/
def sigOffOk (h : BitVec 2048) : Bool := 0x100 ≤ hSigOff h && hSigOff h + 1032 ≤ 2 ^ 32

/-- Bytes of the bent directory with the records and the table that follow it (R49). -/
def dirBytes (h : BitVec 2048) : Nat :=
  32 * hBents h + 32 * (hdrPorts h).length + 64 * hBraces h + (if 2 ≤ hChips h then 16 + 8 * hChips h else 0)

/-- HEADER. -/
def headerBad (p : Img) : List Nat :=
  let h := p.h
  let range := fun (x lo hi o : Nat) => bad (x < lo || hi < x) o
  bad (hMagic h ≠ 0x4D525457) 0 ++ bad (hFmtMajor h ≠ 2) 5 ++ bad (hTuvor h % 16 ≠ 2) 6 ++
  bad (hFrameLog2 h ≠ p.st.time.frameLog2) 7 ++ range (hChips h) 1 65536 0x10 ++ bad (hDieMask h = 0) 0x14 ++
  range (hBatch h) 1 1024 0x16 ++ range (hBuckets h) 1 16 0x24 ++
  bad (!within p (hMapOff h) (8 * popBelow (hDieMask h) 16)) 0x28 ++
  bad (hBuckets h ≤ 16 && !within p (hBucketOff h) (32 * hBuckets h)) 0x30 ++
  bad (hBents h ≤ 65536 && hChips h ≤ 65536 && !within p (hDirOff h) (dirBytes h)) 0x38 ++
  range (hBents h) 1 65536 0x40 ++ bad (hPlanRows h = 0) 0x90 ++ bad (24576 < hRowDemand h) 0x92 ++
  bad (hPageTokens h = 0) 0x94

/-- FEATURE (R39). -/
def featureBad (p : Img) : List Nat := bad (16 ≤ hReq p.h) 8

/-! ## Where things lie -/

/-- Columns of a frame list: the clusters, then the ports (R48). -/
def imgCols (p : Img) : List Nat × List Nat := (imgClusters p.st p.at_ p.h, hdrPorts p.h)
def imgWidth (p : Img) : Nat := (imgCols p).1.length + (imgCols p).2.length

/-- A field of bucket record `k`, and where entry `j` of its frame list lies. -/
def bkt (p : Img) (k o n : Nat) : Nat := ig p (hBucketOff p.h + 32 * k + o) n
def listAt (p : Img) (k j : Nat) : Nat := bkt p k 8 8 + j * frameEntryBytes (imgWidth p) 0

/-- Whether the frame list of bucket `k` lies within the image. -/
def listOk (p : Img) (k : Nat) : Bool := imgWidth p = 0 || within p (bkt p k 8 8) (bkt p k 4 4 * frameEntryBytes (imgWidth p) 0)

/-- The bent that column `i` names in frame `j` of bucket `k`. -/
def colBent (p : Img) (k j i : Nat) : Nat := ig p (listAt p k j + 2 * i) 2

/-- The bents that column `i` names in any frame of any bucket. -/
def colBents (p : Img) (i : Nat) : List Nat :=
  ((List.range (hBuckets p.h)).flatMap fun k => (List.range (bkt p k 4 4)).map fun j => colBent p k j i).eraseDups

/-- A field of bent record `k`, and its place. -/
def recAt (p : Img) (k : Nat) : Nat := hDirOff p.h + 32 * k
def bent (p : Img) (k o n : Nat) : Nat := ig p (recAt p k + o) n
def bentKind (p : Img) (k : Nat) : Nat := bent p k 0 1
def bentLen (p : Img) (k : Nat) : Nat := bent p k 4 4
def bentAt (p : Img) (k : Nat) : Nat := bent p k 8 8
def bentVault (p : Img) (k : Nat) : Nat := bent p k 0x10 4

/-- The stored cluster bents, and the port bents. -/
def clusterBents (p : Img) : List Nat := (List.range (hBents p.h)).filter fun k => 0 < k && bentKind p k = 0
def portBents (p : Img) : List Nat := (List.range (hBents p.h)).filter fun k => 0 < k && bentKind p k = 1

/-- Slot, lane and gate entries of the port bent `k`: how many, and where entry `i` lies (R266). -/
def pbSlots (p : Img) (k : Nat) : Nat := ig p (bentAt p k) 2
def pbLanes (p : Img) (k : Nat) : Nat := ig p (bentAt p k + 2) 2
def pbGates (p : Img) (k : Nat) : Nat := ig p (bentAt p k + 4) 1 % 32
def slotAt (p : Img) (k i : Nat) : Nat := bentAt p k + 16 + 16 * i
def laneAt (p : Img) (k i : Nat) : Nat := bentAt p k + 16 + 16 * pbSlots p k + 8 * i
def gateAt (p : Img) (k i : Nat) : Nat := bentAt p k + 16 + 16 * pbSlots p k + 8 * pbLanes p k + 8 * i
def slotW (p : Img) (k i : Nat) : Nat := ig p (slotAt p k i) 16
def laneW (p : Img) (k i : Nat) : Nat := ig p (laneAt p k i) 8
def gateW (p : Img) (k i : Nat) : Nat := ig p (gateAt p k i) 8

/-- The fields of a slot entry (R267). -/
def seSlot (w : Nat) : Nat := bitsOf w 0 11
def seDue (w : Nat) : Nat := bitsOf w 11 2
def seShort (w : Nat) : Bool := bitOf w 14
def seDst (w : Nat) : Nat := bitsOf w 32 24
def seStage (w : Nat) : Nat := bitsOf w 64 19

/-- Whether a port bent's lists lie within the bent (R266). -/
def pbSized (p : Img) (k : Nat) : Bool :=
  16 ≤ bentLen p k && bentLen p k = 16 + 16 * pbSlots p k + 8 * pbLanes p k + 8 * pbGates p k &&
  within p (bentAt p k) (bentLen p k)

/-- A field of the port record of the `i`-th port (R265). -/
def prt (p : Img) (i o n : Nat) : Nat := ig p (portRecOff p.h i + o) n

/-- Whether the `i`-th port of PORT_MASK is the first of its die. -/
def firstOfDie (p : Img) (i : Nat) : Bool :=
  let l := hdrPorts p.h
  i = 0 || l.getD (i - 1) 0 / 16 ≠ l.getD i 0 / 16

/-- Forward entry `j` of the `i`-th port: its place and word. -/
def fwdAt (p : Img) (i j : Nat) : Nat := prt p i 0x10 8 + 16 * j
def fwdW (p : Img) (i j : Nat) : Nat := ig p (fwdAt p i j) 16

/-- Combine group `j` of the `i`-th port's record. -/
def groupAt (p : Img) (i j : Nat) : Nat := prt p i 0x18 8 + 16 * j
def groupW (p : Img) (i j : Nat) : Nat := ig p (groupAt p i j) 16

/-- A field of brace record `k`, and its lists. -/
def brc (p : Img) (k o n : Nat) : Nat := ig p (braceRecOff p.h k + o) n
def bmapAt (p : Img) (k i : Nat) : Nat := brc p k 0x20 8 + 8 * i
def bdivAt (p : Img) (k i : Nat) : Nat := brc p k 0x28 8 + 8 * i
def bfwdAt (p : Img) (k i : Nat) : Nat := brc p k 0x30 8 + 24 * i

/-- Units of a port frame by the plan's frame length (R258). -/
def planData (p : Img) : Nat := 25 * 2 ^ hFrameLog2 p.h / 256
def planLoose (p : Img) : Nat := 4 * 2 ^ hFrameLog2 p.h / 256
def planClaims (p : Img) : Nat := if hFrameLog2 p.h = 10 then 8 else planLoose p * 3 / 4

/-! ## LAYOUT -/

/-- Buckets and frame lists (R48, R60). -/
def bucketLayout (p : Img) (k : Nat) : List Nat :=
  let o := hBucketOff p.h + 32 * k
  bad (0 < k && bkt p k 0 4 ≤ bkt p (k - 1) 0 4) o ++ bad (bkt p k 4 4 = 0) (o + 4) ++
  bad (bkt p k 0x14 4 = 0) (o + 0x14) ++
  (if !listOk p k then [o + 8]
   else each (bkt p k 4 4) fun j => each (imgWidth p) fun i =>
     bad (hBents p.h ≤ colBent p k j i) (listAt p k j + 2 * i))

/-- A port bent's lists (R266 to R268). -/
def portBentLayout (p : Img) (k : Nat) : List Nat :=
  if !pbSized p k then [recAt p k + 4]
  else
    let key := fun i => 2048 * b2n (seShort (slotW p k i)) + seSlot (slotW p k i)
    bad (planData p + planClaims p < pbSlots p k || 16384 < pbLanes p k || 16 < pbGates p k) (bentAt p k) ++
    (each (pbSlots p k) fun i =>
      let w := slotW p k i
      bad (0 < i && key i ≤ key (i - 1)) (slotAt p k i) ++
      bad ((if seShort w then planLoose p else planData p) ≤ seSlot w) (slotAt p k i) ++
      bad (!seShort w && seStage w % 16 ≠ 0) (slotAt p k i + 8)) ++
    (each (pbLanes p k) fun i =>
      let w := laneW p k i
      bad (0 < i && bitsOf w 0 14 < bitsOf (laneW p k (i - 1)) 0 14) (laneAt p k i) ++
      bad (bitsOf w 14 3 < 4 && 7 < bitsOf w 17 5) (fieldAt (laneAt p k i) 17))

/-- A bent record (R49). -/
def bentLayout (p : Img) (k : Nat) : List Nat :=
  let o := recAt p k
  if k = 0 then
    bad (bentKind p 0 ≠ 0) o ++ bad (bentLen p 0 ≠ 0) (o + 4) ++ bad (bentAt p 0 ≠ 0) (o + 8)
  else if bentKind p k = 0 then
    bad (bentLen p k = 0 || 8192 < bentLen p k) (o + 4) ++ bad (!within p (bentAt p k) (32 * bentLen p k)) (o + 8) ++
    bad (bentVault p k % 128 ≠ 0) (o + 0x10)
  else if bentKind p k = 1 then
    bad (bentVault p k ≠ 0) (o + 0x10) ++
    (if !within p (bentAt p k) (max 16 (bentLen p k)) then [o + 8] else portBentLayout p k)
  else [o]

/-- A forward entry's ranges (R273), with `groups` combine groups on its die. -/
def fwdRange (p : Img) (groups w o : Nat) : List Nat :=
  match bitsOf w 0 3 with
  | 1 => bad (48 ≤ bitsOf w 3 6) o ++ bad (planData p ≤ bitsOf w 25 11) (fieldAt o 25)
  | 3 => bad (groups ≤ bitsOf w 3 11) o ++ bad (bitsOf w 14 8 = 0) (fieldAt o 14)
  | _ => []

/-- GROUP_COUNT of the die of the `i`-th port. -/
def dieGroups (p : Img) (i : Nat) : Nat :=
  let l := hdrPorts p.h
  match (List.range l.length).find? fun j => l.getD j 0 / 16 = l.getD i 0 / 16 with
  | some j => prt p j 6 2
  | none => 0

/-- A port record and its tables (R265, R273, R276). -/
def portLayout (p : Img) (i : Nat) : List Nat :=
  let o := portRecOff p.h i
  let nf := prt p i 4 2
  let ng := if firstOfDie p i then prt p i 6 2 else 0
  bad (prt p i 0 1 ≠ (hdrPorts p.h).getD i 0) o ++ bad (4096 < nf) (o + 4) ++ bad (2048 < ng) (o + 6) ++
  (if !within p (prt p i 0x10 8) (16 * nf) then [o + 0x10]
   else each nf fun j => fwdRange p (dieGroups p i) (fwdW p i j) (fwdAt p i j)) ++
  (if !within p (prt p i 0x18 8) (16 * ng) then [o + 0x18]
   else each ng fun j => bad (bitsOf (groupW p i j) 19 8 = 0) (fieldAt (groupAt p i j) 19))

/-- Whether the lists of brace record `k` lie within the image. -/
def braceSized (p : Img) (k : Nat) : Bool :=
  within p (brc p k 0x20 8) (8 * brc p k 0x14 2) && within p (brc p k 0x28 8) (8 * brc p k 0x16 2) &&
  within p (brc p k 0x30 8) (24 * brc p k 0x18 2)

/-- A brace record (R281). -/
def braceLayout (p : Img) (k : Nat) : List Nat :=
  let o := braceRecOff p.h k
  let port := fun x => !bitOf (hPorts p.h) x
  bad ((List.range k).any fun j => brc p j 0 2 = brc p k 0 2) o ++ bad (brc p k 2 1 = 0 || 4 < brc p k 2 1) (o + 2) ++
  (if !within p (brc p k 0x20 8) (8 * brc p k 0x14 2) then [o + 0x20]
   else each (brc p k 0x14 2) fun i =>
     let a := bmapAt p k i
     bad (port (ig p a 1)) a ++ bad (hBents p.h ≤ ig p (a + 2) 2) (a + 2) ++ bad (hBents p.h ≤ ig p (a + 4) 2) (a + 4)) ++
  (if !within p (brc p k 0x28 8) (8 * brc p k 0x16 2) then [o + 0x28]
   else each (brc p k 0x16 2) fun i =>
     let a := bdivAt p k i
     bad (port (ig p a 1)) a ++ bad (port (ig p (a + 4) 1)) (a + 4)) ++
  (if !within p (brc p k 0x30 8) (24 * brc p k 0x18 2) then [o + 0x30]
   else each (brc p k 0x18 2) fun i =>
     let a := bfwdAt p k i
     let n := (hdrPorts p.h).idxOf (ig p a 1)
     bad (port (ig p a 1)) a ++ fwdRange p (dieGroups p n) (ig p (a + 8) 16) (a + 8))

/-- LAYOUT. -/
def layoutBad (p : Img) : List Nat :=
  each (hBuckets p.h) (bucketLayout p) ++ each (hBents p.h) (bentLayout p) ++
  each (hdrPorts p.h).length (portLayout p) ++ each (hBraces p.h) (braceLayout p) ++
  bad (ig p (hSigOff p.h) 1 ≠ 1) (hSigOff p.h)

/-! ## ENCODING (R10, R112, R344) -/

/-- The reserved fields of a forward entry (R273). DESIGN CHOICE (log 107): with ACTION 0 the table of R273 gives no
column, so that no other bit is taken as reserved. -/
def fwdEnc (w o : Nat) : List Nat :=
  match bitsOf w 0 3 with
  | 0 => []
  | 1 => bad (bitsOf w 40 88 ≠ 0) (fieldAt o 40)
  | 2 | 3 => bad (bitsOf w 41 87 ≠ 0) (fieldAt o 41)
  | _ => [o]

/-- A port bent (R266 to R269). -/
def portBentEnc (p : Img) (k : Nat) : List Nat :=
  let zero := fun (w o b n : Nat) => bad (bitsOf w b n ≠ 0) (fieldAt o b)
  zero (ig p (bentAt p k) 16) (bentAt p k) 37 91 ++
  (each (pbSlots p k) fun i =>
    let w := slotW p k i
    let o := slotAt p k i
    bad (seDue w = 0) (fieldAt o 11) ++ zero w o 15 1 ++ zero w o 48 8 ++ zero w o 56 8 ++ zero w o 83 45) ++
  (each (pbLanes p k) fun i =>
    let w := laneW p k i
    let o := laneAt p k i
    bad (6 ≤ bitsOf w 14 3) (fieldAt o 14) ++ bad (bitsOf w 23 2 = 3) (fieldAt o 23) ++ zero w o 48 16) ++
  (each (pbGates p k) fun i =>
    let w := gateW p k i
    let o := gateAt p k i
    (if bitOf w 0 then zero w o 16 16 else zero w o 5 10) ++ zero w o 15 1 ++ zero w o 32 32)

/-- Bundle `i` of a cluster bent: its place and bits. -/
def bundleAt (p : Img) (k i : Nat) : Nat := bentAt p k + 32 * i
def bundleW (p : Img) (k i : Nat) : Nat := ig p (bundleAt p k i) 32

/-- Bundles of bent `k` that name the region-pair path of region `q` to itself (R152). -/
def ownPath (p : Img) (k q : Nat) : List Nat :=
  each (bentLen p k) fun i =>
    let w := bundleF (bundleW p k i)
    bad ((fOuts w ++ fIns w).any fun x => x = 16 + q) (bundleAt p k i)

/-- The cluster bents of the column of cluster number `i` of the map. -/
def colCluster (p : Img) (i : Nat) : List Nat := (colBents p i).filter fun k => 0 < k && bentKind p k = 0

/-- ENCODING. -/
def encodingBad (p : Img) : List Nat :=
  let h := p.h
  let cl := (imgCols p).1
  bad (hTuvor h / 16 ≠ 0) 6 ++ badBytes p 0x1E 2 ++ badBytes p 0x25 1 ++ badBytes p 0x98 104 ++
  (each (hBuckets h) fun k =>
    badBytes p (hBucketOff h + 32 * k + 0x18) 8 ++
    (each (bkt p k 4 4) fun j =>
      badBytes p (listAt p k j + 2 * imgWidth p) (frameEntryBytes (imgWidth p) 0 - 2 * imgWidth p))) ++
  (each (hBents h) fun k =>
    badBytes p (recAt p k + 1) 3 ++ badBytes p (recAt p k + 0x14) 12 ++
    (if k = 0 then []
     else if bentKind p k = 0 then each (bentLen p k) fun i => bad (!bundleOk (bundleW p k i)) (bundleAt p k i)
     else portBentEnc p k)) ++
  (each cl.length fun i => (colCluster p i).flatMap fun k => ownPath p k (cl.getD i 0 / 16 % 4)) ++
  (each (hdrPorts h).length fun i =>
    let o := portRecOff h i
    badBytes p (o + 1) 1 ++ bad (2 ^ 19 ≤ prt p i 0xC 4) (fieldAt (o + 0xC) 19) ++
    (if firstOfDie p i then [] else
      badBytes p (o + 6) 2 ++ badBytes p (o + 8) 2 ++ badBytes p (o + 0xA) 2 ++ badBytes p (o + 0xC) 4) ++
    (each (prt p i 4 2) fun j => fwdEnc (fwdW p i j) (fwdAt p i j)) ++
    (each (if firstOfDie p i then prt p i 6 2 else 0) fun j =>
      bad (bitsOf (groupW p i j) 27 2 = 3) (fieldAt (groupAt p i j) 27) ++
      bad (bitsOf (groupW p i j) 64 64 ≠ 0) (fieldAt (groupAt p i j) 64))) ++
  (each (hBraces h) fun k =>
    let o := braceRecOff h k
    badBytes p (o + 3) 1 ++ badBytes p (o + 0x1A) 6 ++ badBytes p (o + 0x38) 8 ++
    (each 4 fun i =>
      if i < brc p k 2 1 then badBytes p (o + 4 + 4 * i + 2) 1 else badBytes p (o + 4 + 4 * i) 4) ++
    (each (brc p k 0x14 2) fun i => badBytes p (bmapAt p k i + 1) 1 ++ badBytes p (bmapAt p k i + 6) 2) ++
    (each (brc p k 0x16 2) fun i => badBytes p (bdivAt p k i + 1) 1 ++ badBytes p (bdivAt p k i + 5) 1) ++
    (each (brc p k 0x18 2) fun i =>
      badBytes p (bfwdAt p k i + 1) 1 ++ badBytes p (bfwdAt p k i + 4) 4 ++
      fwdEnc (ig p (bfwdAt p k i + 8) 16) (bfwdAt p k i + 8))) ++
  (if 2 ≤ hChips h then
    badBytes p (memberOff h + 12) 4 ++ each (hChips h) fun m => badBytes p (memberOff h + 16 + 8 * m + 5) 3
   else []) ++
  badBytes p (hSigOff h + 1) 7

/-! ## PLACEMENT (R19, R32, R49, R105, R152, R264) -/

/-- Whether a scheduled link at domain `x`, by its input `port`, is marked down at either end (R19, R450). -/
def linkMarked (s : State) (x port : Nat) : Bool :=
  let d := dieOfDom x
  let n := xcalRec x port
  let far := if d < 16 then farEnd d n else
    (match linkOfEdge (x - 64) port with
     | some (y, q) => (dieOfDom y, xcalRec y q)
     | none => (d, n))
  regField s (pgDie d + 0x44) (2 * n) 2 = 2 || regField s (pgDie far.1 + 0x44) (2 * far.2) 2 = 2

/-- Whether the crossing by which region domain `x` receives from region `q` of its die is in STATE 2 or 3. -/
def pathDown (s : State) (x q : Nat) : Bool := 2 ≤ regField s (xcalReg (x / 4) (xcalRec x (16 + q))) 24 2

/-- Whether a cluster of region domain `x` may not use crossbar port `q`, as an output or as an input. -/
def portForbidden (p : Img) (x q : Nat) (out : Bool) : Bool :=
  if q = 20 then
    match linkOfRegion x with
    | none => true
    | some (y, _) => (dieOfDom y < 16 && !bitOf (hDieMask p.h) (dieOfDom y)) || linkMarked p.st x 20
  else if 16 ≤ q && q ≠ 16 + x % 4 then
    (if out then pathDown p.st (x / 4 * 4 + (q - 16)) (x % 4) else pathDown p.st x (q - 16))
  else false

/-- The places in bent `k` where a cluster of domain `x` names what it may not use. -/
def fabricBad (p : Img) (x k : Nat) : List Nat :=
  each (bentLen p k) fun i =>
    let w := bundleF (bundleW p k i)
    bad ((fOuts w).any (fun q => portForbidden p x q true) || (fIns w).any fun q => portForbidden p x q false)
      (bundleAt p k i)

/-- Whether the plan has share `sh` of the E–E link between edge dies `e` and `e + 1` (R38). -/
def planShare (p : Img) (e sh : Nat) : Bool := bitOf (hShares p.h) (16 * e + sh)

/-- Lane and gate entries of port bent `k` on edge die `e` (R31, R32, R268, R269). -/
def portBentPlace (p : Img) (k e : Nat) : List Nat :=
  (each (pbLanes p k) fun i =>
    let w := laneW p k i
    let n := bitsOf w 14 3
    let o := laneAt p k i
    match linkOfEdge e n with
    | none => [fieldAt o 14]
    | some (y, _) =>
      bad ((n < 4 && !bitOf (hDieMask p.h) (dieOfDom y)) || linkMarked p.st (64 + e) n) (fieldAt o 14) ++
      bad (4 ≤ n && !planShare p (if n = 4 then e - 1 else e) (bitsOf w 17 5 / 2)) (fieldAt o 17)) ++
  (each (pbGates p k) fun i =>
    let w := gateW p k i
    bad (bitOf w 0 && !bitOf (hDieMask p.h) (bitsOf w 1 14 / 1024)) (gateAt p k i))

/-- Whether a package peg lies in a cluster outside the plan's DIE_MASK (R32). -/
def pegOutside (p : Img) (on : Bool) (peg : Nat) : Bool := on && !bitOf (hDieMask p.h) (peg / 1024)

/-- A forward entry's port, the links between edge dies that it crosses and its share of them, or the peg it sets
(R19, R32, R273, R274). -/
def fwdPlace (p : Img) (port w o : Nat) : List Nat :=
  let a := port / 16
  let b := bitsOf w 3 6 / 16
  let crossed := (List.range 2).filter fun e => min a b ≤ e && e < max a b
  match bitsOf w 0 3 with
  | 1 =>
    bad (!bitOf (hPorts p.h) (bitsOf w 3 6) || crossed.any fun e => linkMarked p.st (64 + e) 5) o ++
    bad (crossed.any fun e => !planShare p e (bitsOf w 36 4)) (fieldAt o 36)
  | 2 => bad (pegOutside p (bitOf w 26) (bitsOf w 27 14)) (fieldAt o 27)
  | _ => []

/-- The edge dies on which port bent `k` may run: by the frame lists and the braces. -/
def bentEdges (p : Img) (k : Nat) : List Nat :=
  let nc := (imgCols p).1.length
  let ports := hdrPorts p.h
  (((List.range ports.length).filter fun i => (colBents p (nc + i)).contains k).map fun i => ports.getD i 0 / 16) ++
  (List.range (hBraces p.h)).flatMap fun b =>
    ((List.range (brc p b 0x14 2)).filter fun i => ig p (bmapAt p b i + 4) 2 = k).map fun i => ig p (bmapAt p b i) 1 / 16

/-- The entry bent: the one that column 0 names in frame 0 (R125). -/
def entryBent (p : Img) : Nat := colBent p 0 0 0

/-- What frame `j` of bucket `k` names (R49, R125, R264). -/
def framePlace (p : Img) (k j : Nat) : List Nat :=
  let nc := (imgCols p).1.length
  each (imgWidth p) fun i =>
    let x := colBent p k j i
    bad ((0 < x && bentKind p x ≠ (if i < nc then 0 else 1)) ||
      (j = 0 && (if i < nc then x ≠ entryBent p || x = 0 else x ≠ colBent p 0 0 i))) (listAt p k j + 2 * i)

/-- A cluster bent's place in the plan area (R49). -/
def vaultPlace (p : Img) (k : Nat) : List Nat :=
  let v := bentVault p k
  let entry := 0 < (imgCols p).1.length && k = entryBent p
  bad (entry && 1024 < bentLen p k) (recAt p k + 4) ++
  bad (hPlanRows p.h * 0x10000 < v + 32 * bentLen p k || (if entry then v ≠ 0x80 else v < 0x9080)) (recAt p k + 0x10)

/-- Whether two bents overlap in a vault. -/
def overlap (p : Img) (a b : Nat) : Bool :=
  bentVault p a < bentVault p b + 32 * bentLen p b && bentVault p b < bentVault p a + 32 * bentLen p a

/-- Rows of the slot records (R239). -/
def recordRows (p : Img) : Nat :=
  let c := (imgCols p).1.length
  if c = 0 then 0 else ((hBatch p.h - 1) / c + 1) / 32 + 1

/-- PLACEMENT. -/
def placementBad (p : Img) : List Nat :=
  let h := p.h
  let cl := (imgCols p).1
  bad (hRowDemand h < hPlanRows h + recordRows p) 0x92 ++
  (each (hBuckets h) fun k => each (bkt p k 4 4) (framePlace p k)) ++ (clusterBents p).flatMap (vaultPlace p) ++
  (each cl.length fun i =>
    let l := colCluster p i
    (l.flatMap fun a => (l.filter fun b => a < b && overlap p a b).map fun b => recAt p b + 0x10) ++
    l.flatMap (fabricBad p (cl.getD i 0 / 16))) ++
  ((portBents p).flatMap fun k => (bentEdges p k).flatMap (portBentPlace p k)) ++
  (each (hdrPorts h).length fun i =>
    (each (prt p i 4 2) fun j => fwdPlace p ((hdrPorts h).getD i 0) (fwdW p i j) (fwdAt p i j)) ++
    (each (if firstOfDie p i then prt p i 6 2 else 0) fun j =>
      bad (pegOutside p (bitOf (groupW p i j) 49) (bitsOf (groupW p i j) 50 14)) (fieldAt (groupAt p i j) 50))) ++
  (each (hBraces h) fun k =>
    (each (brc p k 0x14 2) fun i =>
      let a := bmapAt p k i
      let wrong := fun x => 0 < x && bentKind p x ≠ 1
      bad (wrong (ig p (a + 2) 2)) (a + 2) ++ bad (wrong (ig p (a + 4) 2)) (a + 4)) ++
    (each (brc p k 0x18 2) fun i => fwdPlace p (ig p (bfwdAt p k i) 1) (ig p (bfwdAt p k i + 8) 16) (bfwdAt p k i + 8)))

/-! ## LOOSE_SLOTS, BRACE_MISMATCH, MEMBER_TABLE, SIGNATURE -/

/-- LOOSE_SLOTS (R260). -/
def looseSlotBad (p : Img) : List Nat :=
  (portBents p).flatMap fun k =>
    let short := (List.range (pbSlots p k)).filter fun i => seShort (slotW p k i)
    (short.filter fun i => reservedSlot (hFrameLog2 p.h) (seSlot (slotW p k i))).map (slotAt p k) ++
    (short.drop (planClaims p)).map (slotAt p k)

/-- The flows of a port bent: what each slot entry sends, wherever its slot and route (R281). -/
def bentFlows (p : Img) (k : Nat) : List Nat :=
  if k = 0 then []
  else ((List.range (pbSlots p k)).map fun i =>
    let w := slotW p k i
    seStage w + 2 ^ 19 * (seDue w + 4 * (b2n (seShort w) + 2 * seDst w))).mergeSort (· ≤ ·)

/-- What a forward entry does at its destination: the line and counter it lands at, or the group, step and hold line
it combines with (R281); none for any other action. -/
def landingOf (w : Nat) : Option Nat :=
  match bitsOf w 0 3 with
  | 2 => some (bitsOf w 0 26)
  | 3 => some (bitsOf w 0 41)
  | _ => none

/-- The replacement of brace `k` for the forward entry of a port and route, by its index. -/
def braceEntry (p : Img) (k port route : Nat) : Option Nat :=
  (List.range (brc p k 0x18 2)).find? fun i => ig p (bfwdAt p k i) 1 = port && ig p (bfwdAt p k i + 2) 2 = route

/-- What the forward tables of edge die `e` do at their destination under the primary plan. -/
def landings (p : Img) (e : Nat) : List Nat :=
  (List.range (hdrPorts p.h).length).flatMap fun i =>
    if (hdrPorts p.h).getD i 0 / 16 = e then (List.range (prt p i 4 2)).filterMap fun j => landingOf (fwdW p i j) else []

/-- The same under brace `k`: entries that it does not replace, and its replacements. -/
def braceLandings (p : Img) (k e : Nat) : List Nat :=
  ((List.range (hdrPorts p.h).length).flatMap fun i =>
    let port := (hdrPorts p.h).getD i 0
    if port / 16 = e then
      (List.range (prt p i 4 2)).filterMap fun j =>
        if (braceEntry p k port j).isSome then none else landingOf (fwdW p i j)
    else []) ++
  (List.range (brc p k 0x18 2)).filterMap fun i =>
    if ig p (bfwdAt p k i) 1 / 16 = e then landingOf (ig p (bfwdAt p k i + 8) 16) else none

/-- Whether edge die `e` lands and combines the same under brace `k` as under the primary plan. -/
def sameLandings (p : Img) (k e : Nat) : Bool :=
  let a := landings p e
  let b := braceLandings p k e
  a.all b.contains && b.all a.contains

/-- BRACE_MISMATCH (R281). -/
def braceBad (p : Img) : List Nat :=
  each (hBraces p.h) fun k =>
    (each (brc p k 0x14 2) fun i =>
      let a := bmapAt p k i
      bad (bentFlows p (ig p (a + 2) 2) ≠ bentFlows p (ig p (a + 4) 2)) a) ++
    bad (!(List.range 3).all (sameLandings p k)) (braceRecOff p.h k)

/-- MEMBER_TABLE (R344, R345). -/
def memberBad (p : Img) : List Nat :=
  let o := memberOff p.h
  let node := fun m => ig p (o + 16 + 8 * m) 3
  if hChips p.h < 2 then []
  else
    bad (ig p o 4 ≠ hChips p.h) o ++
    each (hChips p.h) fun m =>
      let a := o + 16 + 8 * m
      let up := ig p (a + 3) 2
      bad (65536 ≤ node m || (List.range m).any fun j => node j = node m) a ++
      bad (if m = 0 then up ≠ 0xFFFF else m ≤ up) (a + 3)

/-- The signer's modulus. -/
def planModulus (p : Img) : List Byte := imgBytes p.st p.at_ (hSigOff p.h + 8) 512

/-- SIGNATURE (R375). -/
def signatureBad (p : Img) : List Nat :=
  bad (!pssVerify (planModulus p) (imgBytes p.st p.at_ (hSigOff p.h + 0x208) 512)
    (sha512Bytes (imgBytes p.st p.at_ 0 (hSigOff p.h)))) (hSigOff p.h)

/-- The first RESULT of the table's order whose check fails, and the lowest offset (R463). -/
def firstFail : List (Nat × List Nat) → Option (Nat × Nat)
  | [] => none
  | (r, l) :: t =>
    match l with
    | [] => firstFail t
    | x :: xs => some (r, xs.foldl min x)

/-- Step 4 of R463. -/
def imageCheck (p : Img) : Option (Nat × Nat) :=
  match firstFail [(1, headerBad p), (2, featureBad p)] with
  | some x => some x
  | none =>
    match firstFail [(13, layoutBad p)] with
    | some x => some x
    | none =>
      firstFail [(3, encodingBad p), (4, placementBad p), (5, looseSlotBad p), (6, braceBad p), (7, memberBad p),
        (8, signatureBad p)]

/-! ## LOAD and UNLOAD (R463, R475) -/

/-- PLAN_STAT. -/
def planStatKey : Nat := pgDbgS + 0x44

/-- A load ends. -/
def loadEnd (s : State) (result err : Nat) : State :=
  let s := regPut (regPut s planStatKey 4 4 result) planStatKey 0 1 0
  irq (regPairSet { s with rai.load := none } (pgDbgS + 0x50) err) pgDbgS 0

/-- Read lines from image offset `o` on: the offset of the first that fails. -/
def loadRead (s : State) (a o : Nat) : Nat → Option Nat × State
  | 0 => (none, s)
  | n + 1 =>
    let x := engineLine s 3 .loader (a + o)
    match x.1 with
    | none => (some o, x.2)
    | some _ => loadRead x.2 a (o + 64) n

/-- Whether `n` bytes at `a` lie wholly within the carve-out. -/
def carveAll (s : State) (a n : Nat) : Bool := (List.range ((n + 63) / 64)).all fun i => inCarve s (a + 64 * i)

/-- The plans that are resident. -/
def planCount (s : State) : Nat := s.rai.plans.length

/-- The plan stays in the slot. -/
def planKeep (p : Img) (s : State) (slot : Nat) : State :=
  let n := imgSize p.h
  let q : PlanSlot := { addr := p.at_, hdr := p.h, size := n, digest := sha512 (imgBytes p.st p.at_ 0 n),
                        signer := sha512 (planModulus p) }
  { s with rai.plans := tabIns slot q s.rai.plans, rai.lastSlot := slot }

/-- Steps 1 to 4. -/
def loadRun (s : State) (slot a : Nat) : State :=
  if (planSlot s slot).isSome || 64 ≤ planCount s then loadEnd s 9 0
  else if a % 64 ≠ 0 || !carveAll s a 256 then loadEnd s 12 0
  else
    let r := loadRead s a 0 4
    match r.1 with
    | some o => loadEnd r.2 11 o
    | none =>
      let s := r.2
      let h := BitVec.ofNat 2048 (dramNat s a 256)
      if !sigOffOk h then loadEnd s 1 0x88
      else if !carveAll s a (imgSize h) then loadEnd s 12 0
      else
        let r := loadRead s a 256 ((imgSize h + 63) / 64 - 4)
        match r.1 with
        | some o => loadEnd r.2 11 o
        | none =>
          let p : Img := { st := r.2, at_ := a, h := h }
          match imageCheck p with
          | some (c, o) => loadEnd r.2 c o
          | none => loadEnd (planKeep p r.2 slot) 0 0

/-- Whether a context holds a raising of the plan in a slot (R44). -/
def planInUse (s : State) (slot : Nat) : Bool :=
  (ctxList s).any fun c =>
    (ctxHolds s c && (raising s c).plan = slot) ||
    (match (ctx s c).succ with | some r => r.plan = slot | none => false)

/-- A write of PLAN_CMD. -/
def planCmdWrite (s : State) (w : Word) : State :=
  let slot := wfield w 8 6
  if regBit s planStatKey 0 then s
  else
    match wfield w 0 2 with
    | 1 =>
      let s := regPut (regPut s planStatKey 0 1 1) planStatKey 8 6 slot
      { s with rai.load := some { slot := slot, addr := regPair s (pgDbgS + 0x48) % 2 ^ 48 } }
    | 2 =>
      let s := regPut s planStatKey 8 6 slot
      let used := planInUse s slot
      let s := regPairSet (regPut s planStatKey 4 4 (if used then 10 else 0)) (pgDbgS + 0x50) 0
      if used then s else { s with rai.plans := tabErase slot s.rai.plans }
    | _ => s

/-- LOAD (R463). -/
def execLoad (slot : BitVec 6) (s : State) : Host.Outcome State Fault Refusal :=
  .next (planCmdWrite s (BitVec.ofNat 32 (1 + slot.toNat * 0x100)))

/-- LOAD_COMPLETE: the load that runs ends (R463). -/
def execLoadComplete (s : State) : Host.Outcome State Fault Refusal :=
  .next (match s.rai.load with
    | none => s
    | some j => loadRun s j.slot j.addr)

/-- UNLOAD (R44, R463). -/
def execUnload (slot : BitVec 6) (s : State) : Host.Outcome State Fault Refusal :=
  .next (planCmdWrite s (BitVec.ofNat 32 (2 + slot.toNat * 0x100)))

end Sys2Proof.Machine
end

