-- ==== Sys2Proof/Machine/RegRead.lean ====
section
/-! DEFINITION. Reading a register (R7, R9, R442, R444, R446, R448, R462): which pages are served, the
registers that show state held elsewhere, latches, captures that a read clears, and masked reads (R382). -/
namespace Sys2Proof.Machine
open Sys2Proof

/-! ## Pages -/

/-- Whether a page lacks the registers of its kind from an offset on: the endpoint's registers exist on E1
only (R328). -/
def offPage (b : Blk) (k : Nat) : Bool := b = .lse && 0x200 ≤ kOff k && kDie k ≠ 17

/-! ## What the registers show -/

/-- A two's complement value in 32 bits, saturating. -/
def satWord (x : Int) : Word := satInt 32 x

/-- The low `n` bits of a number, as a word. -/
def word (n : Nat) : Word := BitVec.ofNat 32 n

/-- Whether cluster `c` issues null bundles now: a null frame, past its bent's end, past the work part after a missed
tick, or in a period that is no frame of contents (R71, R73, R122, R124). -/
def issuesNull (s : State) (c : Nat) : Bool :=
  !clusterIssues s c ||
    (match clusterPart s c with
     | some p => (part s p).kind = .finish && guardPos s ≤ posOf s c s.clu.cyc
     | none => true)

/-- The issue position that cluster `c` shows: in a period that issues no bundle of the bent, the cycle of the
period. -/
def posShown (s : State) (c : Nat) : Nat :=
  match clusterPart s c with
  | some p => if issues (part s p).kind then posOf s c s.clu.cyc else s.clu.cyc - s.clu.tickCyc
  | none => s.clu.cyc - s.clu.tickCyc

/-- CLU registers that show the sequencer, the tags, the pegs and the extents (R138). BUNDLE_ADDR goes on counting
modulo 8,192 past the bent's end and in null frames: a DESIGN CHOICE (log 123), R138 gives no value there. -/
def viewClu (s : State) (c o : Nat) : Option Word :=
  let q := seqOf s c
  if o = 0x40 then some (word (q.runHalf.toNat + 2 * b2n (issuesNull s c) + 4 * (posShown s c % 0x4000) +
    bundleAddr s c s.clu.cyc % 0x2000 * 0x10000))
  else if o = 0x44 || o = 0x48 then
    let t := tagOf s c ((o - 0x44) / 4)
    some (word (t.index.toNat + t.length.toNat * 0x10000 + b2n t.valid * 0x80000000))
  else if o = 0x4C then some (q.nextBent.setWidth 32)
  else if o = 0x50 then some (word (b2n q.ready + 2 * b2n q.descErr + 4 * b2n q.lineErr))
  else if 0x80 ≤ o && o < 0xC0 then some (pegOf s c ((o - 0x80) / 4))
  else if 0xC0 ≤ o && o < 0x100 then some (pegCmpOf s c ((o - 0xC0) / 4))
  else if 0x100 ≤ o && o < 0x140 then some (wordOf (xregOf s c ((o - 0x100) / 8)) ((o - 0x100) / 4 % 2))
  else none

/-- DIE's pending lines (R450). -/
def viewDie (s : State) (d o : Nat) : Option Word :=
  let lines (f : Nat → Nat) (r : Nat) : Word :=
    (maskOf 16 fun c => irqLine s (f (64 * d + 16 * r + c))).setWidth 32
  if 16 ≤ d then none
  else if 0x60 ≤ o && o < 0x70 then some (lines pgClu ((o - 0x60) / 4))
  else if 0x70 ≤ o && o < 0x80 then some (lines pgVlt ((o - 0x70) / 4))
  else if 0x80 ≤ o && o < 0x90 then some (lines pgPln ((o - 0x80) / 4))
  else none

/-- BRACE_STAT of an edge die: the brace of the lowest context that has one, the pending one first (R285). -/
def braceStat (s : State) (e : Nat) : Nat :=
  match (List.range 256).findSome? fun c => braceOf s e c with
  | some b =>
    let id := match b.pending with
      | some x => x.1
      | none => b.active.getD 0
    id.toNat + b2n b.pending.isSome * 0x10000 + b2n b.active.isSome * 0x20000
  | none => 0

/-- State of a table set, in the codes of SET_CTRL. -/
def setCode : SetState → Nat
  | .empty => 0
  | .loaded => 1
  | .running => 2
  | .cached => 3

/-- SLT registers (R285). -/
def viewSlt (s : State) (e o : Nat) : Option Word :=
  if o = 0x58 then some (word (braceStat s e))
  else if 0x100 ≤ o && o < 0x140 then
    let t := setOf s e ((o - 0x100) / 0x10)
    (if o % 0x10 = 4 then some (word (regNat s (pgSlt e + o) / 32 % 2 * 32 + setCode t.state))
     else if o % 0x10 = 8 then
       some (if t.state = .running then word (bitsOf t.tables.ports.toNat (16 * e) 16) else 0)
     else none)
  else none

/-- LND registers of the context that CTX_SEL names (R286). -/
def viewLnd (s : State) (e o : Nat) : Option Word :=
  let c := regField s (pgLnd e + 0x40) 0 8
  if o = 0x44 || o = 0x48 || o = 0x4C || o = 0x50 then some (regGet s (bankKey (pgLnd e + o) c))
  else if 0x80 ≤ o && o < 0xC0 then
    some ((gcOf s e c ((raising s c).frame.toNat + 1) ((o - 0x80) / 4)).setWidth 32)
  else none

/-- LSE registers (R322, R328). -/
def viewLse (s : State) (e o : Nat) : Option Word :=
  if o = 0x44 then some (word (b2n (drainedNow s e) + min 255 (looseHeld s e) * 0x100))
  else if o = 0x400 then
    some (regGet s (pgLse e + o) ||| word (s.loose.outReq.length + s.loose.recvCtx.length * 0x2000))
  else none

/-- A link state in the codes of LSTAT. -/
def linkCode : LinkState → Nat
  | .disabled => 0
  | .phy => 1
  | .hello => 2
  | .key => 3
  | .delay => 4
  | .ready => 5
  | .up => 6
  | .down => 7

/-- PRT registers (R310). -/
def viewPrt (s : State) (p o : Nat) : Option Word :=
  let k := linkOf s p
  if o = 0x44 then some (word (linkCode k.state + k.cause.toNat * 0x10 + b2n k.pcoal * 0x100 +
    b2n k.replaying * 0x200 + k.keyPhase.toNat * 0x400))
  else if o = 0x64 then some (regGet s (pgPrt p + o) ||| word (rbufLines k))
  else if o = 0x68 then
    some (word ((List.range 4).foldl (fun a i => a + (k.credits.getD i 0) <<< (8 * i)) 0))
  else none

/-- The frame number of the context that runs in a partition (R81). -/
def partFrame (s : State) (p : Nat) : BitVec 64 :=
  match (part s p).run with
  | some c => (raising s c).frame
  | none => 0

/-- TIM 0 registers (R70, R82, R83, R88). -/
def viewTim0 (s : State) (o : Nat) : Option Word :=
  if o = 0x44 then some (regGet s (pgTim0 + o) ||| word (b2n (discLocked s) * 8))
  else if o = 0x48 || o = 0x4C then some (wordOf s.time.tick ((o - 0x48) / 4))
  else if 0x80 ≤ o && o < 0x90 then some (wordOf (taiOf (wallAt s (elapsed s))) ((o - 0x80) / 4))
  else if o = 0xC0 then some (regGet s (pgTim0 + o) ||| word s.time.capts.length)
  else if 0xC4 ≤ o && o < 0xD4 then some (wordOf ((s.time.capts.head?.map (·.1)).getD 0) ((o - 0xC4) / 4))
  else if o = 0xD4 || o = 0xD8 then some (wordOf ((s.time.capts.head?.map (·.2)).getD 0) ((o - 0xD4) / 4))
  else if o = 0xE0 || o = 0xE4 then some (wordOf (BitVec.ofNat 64 (nowPeriods s / 8)) ((o - 0xE0) / 4))
  else if 0x100 ≤ o && o < 0x200 && o % 0x10 < 8 then
    some (wordOf (partFrame s ((o - 0x100) / 0x10)) (o % 0x10 / 4))
  else none

/-- A raising state in the codes of RSTAT. -/
def raiseCode : RaiseState → Nat
  | .none => 0
  | .loaded => 1
  | .prepared => 2
  | .committed => 3
  | .running => 4
  | .held => 5
  | .stopped => 6
  | .faulted => 7

/-- Members that phase one has counted OK on the root (R349, R362). -/
def ackedCount (s : State) (c : Nat) : Nat :=
  let r := rOf s c (ctx s c).succ.isSome
  if r.state = .none || r.state = .loaded || !rMulti s r || rMember s r ≠ 0 then 0
  else 1 + r.acks.foldl (fun a x => a + x.count) 0

/-- TIM 2 registers of the context that RSEL names (R362). -/
def viewTim2 (s : State) (o : Nat) : Option Word :=
  let c := regField s (pgTim2 + 0x48) 0 8
  let x := ctx s c
  let r := x.raising
  if o = 0x50 then some (word (raiseCode r.state +
    (match x.succ with | some q => raiseCode q.state | none => 0) * 0x10 + b2n r.replay * 0x100 +
    b2n (r.state ≠ .none && isRoot s c) * 0x200 + x.lastStatus.toNat * 0x1000 + x.faultCause.toNat * 0x10000))
  else if 0x54 ≤ o && o < 0x74 then some (regGet s (rReg c o))
  else if o = 0x74 then some (word (ackedCount s c))
  else if o = 0x78 then some (if r.state = .none then 0 else word (rMember s r))
  else if o = 0x7C then some (r.raiseId.setWidth 32)
  else none

/-- NRG registers (R396, R397, R398, R409). -/
def viewNrg (s : State) (o : Nat) : Option Word :=
  if o = 0x4C then some (word (satNat 24 (baseFrame s)))
  else if o = 0x50 then some (word (satNat 24 (budgetFrame s)))
  else if o = 0x5C then some (satWord s.nrg.account)
  else if o = 0x68 then some (regGet s (coefKey (regField s (pgNrg + 0x64) 0 6)))
  else if 0x100 ≤ o && o < 0x200 && o % 0x10 = 0 then some (word (satNat 24 (partDecl s ((o - 0x100) / 0x10) 0)))
  else if 0x100 ≤ o && o < 0x200 && o % 0x10 = 4 then some (satWord (part s ((o - 0x100) / 0x10)).account)
  else none

/-- CTX_ATTR of a context (R391). -/
def ctxAttr (x : Ctx) : Nat :=
  ctxStateCode x.state + b2n x.conf * 4 + x.access.toNat * 0x10 + x.part % 16 * 0x100 +
    b2n x.tenant.isSome * 0x1000 + b2n x.bundle.isSome * 0x2000

/-- SEC registers (R391). -/
def viewSec (s : State) (o : Nat) : Option Word :=
  if o = 0x84 then some (word (b2n s.sec.presPin + 2 * b2n s.sec.presAsserted))
  else if o = 0x44 then some (regGet s (pgSec + 0x44) ||| word (b2n s.sec.running.isSome))
  else if o = 0x5C then some (word s.sec.rspLen)
  else if o = 0x88 then some (word (sealState s + 4 * b2n (10000 ≤ s.sec.sealPinNs)))
  else if 0x100 ≤ o && o < 0x500 then some (word (ctxAttr (ctx s ((o - 0x100) / 4))))
  else none

/-- ROT_POS of a partition (R451). -/
def rotPos (s : State) (p : Nat) : Nat :=
  let x := part s p
  if x.began then x.entry % 16 + satNat 16 x.done * 0x10000 else 0

/-- The registers that show state held elsewhere, or a bank that another register selects. -/
def viewOf (s : State) (b : Blk) (i k : Nat) : Option Word :=
  let o := kOff k
  let d := kDie k
  if o = 0 then some (word (pageId (k - o)))
  else match b with
  | .clu => viewClu s (64 * d + i) o
  | .pln =>
    if o = 0x40 then
      some (regGet s k ||| word (b2n ((clusterCtx s (64 * d + i)).any (ctxLive s) && planerDecodes s (64 * d + i))))
    else none
  | .vlt =>
    if o = 0x40 then some (regGet s (pgVlt (64 * d) + 0x40))
    else if o = 0x70 then
      some (regGet s k ||| word (b2n (initOf s (64 * d + i)).isSome * 0x80000000))
    else none
  | .rgn =>
    if o = 0x58 || o = 0x5C then
      some (wordOf (BitVec.ofNat 64 (s.time.tick.toNat * frameLen s + (s.clu.cyc - s.clu.tickCyc))) ((o - 0x58) / 4))
    else none
  | .die => viewDie s d o
  | .dieS => if 0x3C0 ≤ o && o < 0x400 then some (word (rotPos s ((o - 0x3C0) / 4))) else none
  | .slt => viewSlt s (d - 16) o
  | .lnd => viewLnd s (d - 16) o
  | .lse => viewLse s (d - 16) o
  | .prt => viewPrt s (16 * (d - 16) + i) o
  | .tim0 => viewTim0 s o
  | .tim1 =>
    if o = 0x54 && refHold s then
      some (word (satNat 32 ((nowPeriods s - s.time.holdFrom) / 800000)))
    else none
  | .tim2 => viewTim2 s o
  | .nrg => viewNrg s o
  | .sec => viewSec s o
  | .trl => if o = 0x54 then some (regGet s k ||| word (2 * b2n (replayWait s))) else none
  | .ses =>
    if o = 0x50 then some (word (pendingCommits s d))
    else if o = 0x4C then
      some (regGet s k ||| word (b2n ((List.range 256).any fun c => bucketPending s c &&
        (match leadVault s c with | some v => v / 64 = d | none => false)) * 0x100))
    else none
  | .dbgS =>
    if o = 0x58 || o = 0x5C then
      some (wordOf (maskOf 64 fun n => (planSlot s n).isSome) ((o - 0x58) / 4))
    else none
  | _ => none

/-- The present value of the register at key `k` of a page of kind `b`, instance `i`. Reserved offsets read
as zero (R9). -/
def regShow (s : State) (b : Blk) (i k : Nat) : Word :=
  if offPage b k || (regRow b (kOff k)).isNone then 0
  else (viewOf s b i k).getD (regGet s k)

/-! ## Side effects of a read -/

/-- Which word of a latched group a register is, counted from the one that loads the latch, and the words
that it loads (R88, R444); none outside such groups. -/
def latchPlace (r : RegRow) (o : Nat) : Option (Nat × Nat) :=
  let j := if r.n = 1 then 0 else (o - r.off) / r.stride
  match r.lat with
  | .no => none
  | .lo => some (0, 1)
  | .hi => some (1, 1)
  | .alt => some (j % 2, 1)
  | .quad => some (j, 3)

/-- Load the latches of `n` words after key `k`. -/
def loadLatch (s : State) (b : Blk) (i k n : Nat) : State :=
  (List.range n).foldl (fun t j =>
    { t with latch := tabSet 0 (k + 4 * (j + 1)) (regShow s b i (k + 4 * (j + 1))) t.latch }) s

/-- The capture registers that a read clears (R138, R223, R235, R285, R286, R455, R476): the key that holds
what the register shows. -/
def clearedBy (s : State) (b : Blk) (k : Nat) : Option Nat :=
  let o := kOff k
  match b with
  | .clu => if o = 0x54 then some k else none
  | .vlt => if o = 0x60 || o = 0x64 || o = 0x74 then some k else none
  | .pln => if o = 0x58 then some k else none
  | .xbr => if o = 0x40 then some k else none
  | .slt => if o = 0x40 then some k else none
  | .lnd => if o = 0x4C then some (bankKey k (regField s (k - 12) 0 8)) else none
  | .dbgC => if o = 0x44 then some k else none
  | _ => none

/-- Whether the register shows data of a confidential context (R382). -/
def maskedReg (s : State) (b : Blk) (i k : Nat) : Bool :=
  let o := kOff k
  match b with
  | .clu => 0x80 ≤ o && o < 0x140 && (match clusterCtx s (64 * kDie k + i) with
    | some c => (ctx s c).conf
    | none => false)
  | .lnd => 0x80 ≤ o && o < 0xC0 && (ctx s (regField s (pgLnd (kDie k - 16) + 0x40) 0 8)).conf
  | _ => false

/-- A read of ERR_CAPT0 (R448): ERR_CAPT1 is latched, VALID and MORE clear. -/
def errCapt0Clear (s : State) (pg : Nat) : State :=
  clrReg { s with latch := tabSet 0 (pg + 0x20) (regGet s (pg + 0x20)) s.latch } (pg + 0x1C) 0xC0000000

/-- PEEK_DATA (R473): what a read of it shows is peeked at the read. -/
def readElse (s : State) (b : Blk) (k : Nat) : Option (Word × State) :=
  let o := kOff k
  match b with
  | .dbgC => if o = 0x84 then some (peekDie s (kDie k)) else none
  | .dbgE => if o = 0x84 then some (peekEdge s (kDie k - 16)) else none
  | _ => none

/-- Read the register at key `k` of a page of kind `b`, instance `i`. -/
def regReadAt (s : State) (b : Blk) (i k : Nat) : Word × State :=
  let o := kOff k
  if o = 0x1C then (regGet s k, errCapt0Clear s (k - o))
  else if o = 0x20 then (tabGet 0 k s.latch, s)
  else match readElse s b k with
  | some x => x
  | none =>
    if maskedReg s b i k then (0, countMasked s 1)
    else match clearedBy s b k with
    | some c => (regShow s b i k, captClear s c)
    | none =>
      match (regRow b o).bind fun r => latchPlace r o with
      | some (0, n) => (regShow s b i k, loadLatch s b i k n)
      | some _ => (if offPage b k then 0 else tabGet 0 k s.latch, s)
      | none => (regShow s b i k, s)

end Sys2Proof.Machine
end

