-- ==== Sys2Proof/Machine/RegOps.lean ====
section
/-! DEFINITION. Writing registers and windows (R7, R237, R440, R442, R444, R446, R447, R457, R458, R460,
R462), and the commands that access them. -/
namespace Sys2Proof.Machine
open Sys2Proof

/-! ## The common registers (R446, R447) -/

/-- The IRQ_STAT bits that the owning chapter of a block defines. -/
def irqDefined : Blk → Nat
  | .clu | .rgn | .dieS | .opn16 | .tim0 | .pwr | .dbgE => 0
  | .vlt => 0x1F
  | .xbr | .d2d | .lnd => 0x1
  | .pln | .die | .opn | .mgt | .pst | .trl | .ses | .dbgC => 0x3
  | .slt | .lse | .tim1 | .tim2 | .nrg | .sec | .dbgS => 0x7
  | .prt | .brd => 0xF

/-- The bits of a register that CNT_CLEAR zeroes. -/
def cntBits (b : Blk) (o : Nat) : Word :=
  match regRow b o with
  | some r => BitVec.ofNat 32 r.cnt
  | none => 0

/-- CNT_CLEAR: every counter of the page is zero, in every bank. -/
def cntZero (s : State) (b : Blk) (pg : Nat) : State :=
  s.regs.foldl (fun t e =>
    if pageOfKey e.1 = pg then regSet t e.1 (e.2 &&& ~~~(cntBits b (kOff e.1))) else t) s

/-- A write of CTRL. -/
def ctrlWrite (s : State) (b : Blk) (pg : Nat) (w : Word) : State :=
  let s := if w.getLsbD 0 then cntZero s b pg else s
  regSet s (pg + 8) (w &&& 2)

/-- A write of IRQ_FORCE. -/
def irqForceWrite (s : State) (b : Blk) (pg : Nat) (w : Word) : State :=
  orReg s (pg + 0x10) (w &&& BitVec.ofNat 32 (irqDefined b)).toNat

/-- A write under the access codes alone (R7, R9): RW bits take the value, W1C bits written 1 clear. -/
def plainWrite (s : State) (r : RegRow) (k : Nat) (w : Word) : State :=
  let rw := BitVec.ofNat 32 r.rw
  let v := (regGet s k &&& ~~~rw) ||| (w &&& rw)
  regSet s k (v &&& ~~~(w &&& BitVec.ofNat 32 r.w1c))

/-! ## Rings (R460) -/

/-- A write of a register of a receive, transmit or completion ring: BASE and the fields of CFG but ENABLE are
ignored while the ring runs, and a base outside the carve-out always. -/
def ringWrite (s : State) (pg : Nat) (r : RegRow) (k : Nat) (w : Word) : State :=
  let h := k % 0x10
  let ring := k - h
  let t := plainWrite s r k w
  if h = 0 || h = 4 then
    (if ringOn s ring || !inCarve s (ringBase t ring) then statSet s pg 0 else t)
  else if h = 8 && ringOn s ring then
    (let kept := regPut s k 31 1 (wfield w 31 1)
     if wfield (regGet t k) 0 31 = wfield (regGet s k) 0 31 then kept else statSet kept pg 0)
  else t

/-! ## Registers whose write does more than store (the owning chapters) -/

/-- Writes on the pages of S0's time base. -/
def timWrite (s : State) (b : Blk) (r : RegRow) (k : Nat) (w : Word) : State :=
  let o := kOff k
  if b = .tim0 then
    (if o = 0x40 then frameCfgWrite s w
     else if o = 0x44 then discCtrlWrite s w
     else if o = 0x70 then startCtrlWrite s w
     else if o = 0xA0 then wallCmdWrite s w
     else if o = 0xA4 then rateAdjWrite s w
     else if o = 0xC0 then captStatWrite s w
     else if o = 0xDC then { s with time.capts := s.time.capts.drop 1 }
     else plainWrite s r k w)
  else if b = .tim1 then (if o = 0x40 then refCtrlWrite s w else plainWrite s r k w)
  else if o = 0x40 then nodeIdWrite s w
  else if o = 0x4C then rcmdWrite s w
  else if 0x54 ≤ o && o < 0x74 then plainWrite s r (rReg (regField s (pgTim2 + 0x48) 0 8) o) w
  else plainWrite s r k w

/-- Writes on S0's DIE page (R439, R451 to R453). -/
def dieSWrite (s : State) (r : RegRow) (k : Nat) (w : Word) : State :=
  let o := kOff k
  if 0x100 ≤ o && o < 0x280 then stagedWrite s k (w &&& BitVec.ofNat 32 r.rw)
  else if o = 0x300 then presetWrite s w
  else if 0x380 ≤ o && o < 0x3C0 then rotWrite s ((o - 0x380) / 4) none w
  else if 0x400 ≤ o && o < 0x800 then rotWrite s ((o - 0x400) / 0x40) (some ((o - 0x400) % 0x40 / 4)) w
  else if o = 0x980 then pmapWrite s w
  else plainWrite s r k w

/-- Writes on a VLT page (R203 to R206, R218, R221). IMAP is RW on instance 0 alone. -/
def vltWrite (s : State) (v i : Nat) (r : RegRow) (k : Nat) (w : Word) : State :=
  let o := kOff k
  if o = 0x40 then (if i = 0 then imapWrite s (v / 64) w else s)
  else if o = 0x44 then carveWrite s v w
  else if o = 0x68 then retireWrite s v w
  else if o = 0x70 then initCtrlWrite s v w
  else if 0x400 ≤ o && o < 0x800 then ctxRowsWrite s v ((o - 0x400) / 4) w
  else plainWrite s r k w

/-- Writes on an SLT page (R285). -/
def sltWrite (s : State) (e : Nat) (r : RegRow) (k : Nat) (w : Word) : State :=
  let o := kOff k
  let n := (o - 0x100) / 0x10
  if 0x100 ≤ o && o < 0x140 then
    (if o % 0x10 = 0 then setCfgWrite s e n w
     else if o % 0x10 = 4 then
       (let s := if w.getLsbD 4 then setCheck s e n else s
        if w.getLsbD 6 then setRelease s e n else s)
     else s)
  else plainWrite s r k w

/-- Writes on an LSE page (R322, R328). -/
def lseWrite (s : State) (e : Nat) (r : RegRow) (k : Nat) (w : Word) : State :=
  let o := kOff k
  if o = 0x48 then deflectMaskWrite s e false w
  else if o = 0x4C then deflectMaskWrite s e true w
  else if o = 0x68 then routeHiWrite s e w
  else if 0x80 ≤ o && o < 0xC0 then portDimWrite s e ((o - 0x80) / 4) w
  else plainWrite s r k w

/-- Writes on an OPN or MGT page (R341, R460, R461). `blk`: the block whose rings the page holds. -/
def opnWrite (s : State) (b : Blk) (blk : Nat) (r : RegRow) (k : Nat) (w : Word) : State :=
  let o := kOff k
  if o = 0x40 then ifCfgWrite s (k - o) w
  else if b = .opn then plainWrite s r k w
  else if 0x600 ≤ o && o < 0xE10 then ringWrite s (k - o) r k w
  else if o = 0xE18 then steerHiWrite s blk w
  else plainWrite s r k w

/-- Writes on the BRD page (R418, R436, R438). -/
def brdWrite (s : State) (r : RegRow) (k : Nat) (w : Word) : State :=
  let o := kOff k
  if o = 0x40 then resetWrite s w
  else if o = 0x48 then wdtCfgWrite s w
  else if o = 0x4C then wdtRestart s
  else if o = 0x64 then flashCmdWrite s w
  else plainWrite s r k w

/-- Writes on a C-die's DBG page (R469 to R472, R476). -/
def dbgWrite (s : State) (d : Nat) (r : RegRow) (k : Nat) (w : Word) : State :=
  let o := kOff k
  if o = 0x40 then auditWrite s d w
  else if o = 0x60 then haltCtlWrite s d w
  else if o = 0x70 then abortWrite s d (wfield w 0 2) (wfield w 4 12)
  else plainWrite s r k w

/-- Writes on the TRL page (R363): the pointer that the mode lets software move. -/
def trlWrite (s : State) (r : RegRow) (k : Nat) (w : Word) : State :=
  let o := kOff k
  if o = 0x40 then trlCfgWrite s w
  else if o = 0x50 then
    (if regBit s (pgTrl + 0x40) 1 then replayRun (regPut s k 16 16 (wfield w 16 16))
     else regPut s k 0 16 (wfield w 0 16))
  else plainWrite s r k w

/-- A write of a block's own register at key `k`, by a requester. -/
def blockWrite (s : State) (who : Requester) (b : Blk) (i : Nat) (r : RegRow) (k : Nat) (w : Word) : State :=
  let o := kOff k
  let d := kDie k
  match b with
  | .tim0 | .tim1 | .tim2 => timWrite s b r k w
  | .dieS => dieSWrite s r k w
  | .vlt => vltWrite s (64 * d + i) i r k w
  | .slt => sltWrite s (d - 16) r k w
  | .lnd =>
    if o = 0x44 then areaWrite s (d - 16) 0x44 4 w
    else if o = 0x48 then areaWrite s (d - 16) 0x48 1 w
    else plainWrite s r k w
  | .lse => lseWrite s (d - 16) r k w
  | .opn => opnWrite s b 0 r k w
  | .opn16 => opnWrite s b (d - 16) r k w
  | .mgt => opnWrite s b 3 r k w
  | .prt =>
    let p := 16 * (d - 16) + i
    if o = 0x40 then portCfgWrite s p w
    else if o = 0x5C || o = 0x60 then portStart (plainWrite s r k w) p
    else plainWrite s r k w
  | .nrg => if o = 0x60 || o = 0x64 || o = 0x68 then coefWrite s o w else plainWrite s r k w
  | .pwr =>
    if o = 0x40 then isoWrite s d w
    else if 0x100 ≤ o && o < 0x200 then unitStateWrite s (Fin.ofNat 1024 (64 * d + (o - 0x100) / 4)) w
    else plainWrite s r k w
  | .sec => if o = 0x40 then secCmdWrite s w else plainWrite s r k w
  | .pst => if 0x400 ≤ o && o < 0x800 then pstWrite s who (256 * i + (o - 0x400) / 4) w else plainWrite s r k w
  | .trl => trlWrite s r k w
  | .ses =>
    if o = 0x40 then commitWrite s d w
    else if o = 0x48 then bucketWrite s d w
    else plainWrite s r k w
  | .dbgC => dbgWrite s d r k w
  | .dbgS =>
    if o = 0x40 then planCmdWrite s w
    else if 0x400 ≤ o && o < 0x800 then fpolicyWrite s ((o - 0x400) / 4) w
    else plainWrite s r k w
  | .brd => brdWrite s r k w
  | .clu | .pln | .rgn | .die | .xbr | .d2d | .dbgE => plainWrite s r k w

/-- A write of the register at key `k` of a page of kind `b`, instance `i`. Reserved offsets ignore it (R9). -/
def regWriteAt (s : State) (who : Requester) (b : Blk) (i k : Nat) (w : Word) : State :=
  let o := kOff k
  let pg := k - o
  match if offPage b k then none else regRow b o with
  | none => s
  | some r =>
    if o = 8 then ctrlWrite s b pg w
    else if o = 0x18 then irqForceWrite s b pg w
    else if o = 0x24 then pstateWrite s pg w
    else if o < 0x40 then plainWrite s r k w
    else blockWrite s who b i r k w

/-! ## Windows (R457, R458) -/

/-- The table set in use that holds slot-table page `p` of edge die `e`. -/
def pageTaken (s : State) (e p : Nat) : Bool :=
  (List.range 4).any fun k => (setOf s e k).state ≠ .empty && inWin (setPages s e k) p

/-- A write of `n` bytes through a slot-table window; none: an error completion (R458). -/
def slotWindowWrite (s : State) (e off n data : Nat) : Option State :=
  if off % n ≠ 0 || slotMemSize < off + n || pageTaken s e (off / 0x10000) then none
  else some { s with edge.slotMem := memWrite s.edge.slotMem (e * slotMemSize + off) n data }

/-- SLOT_TABLE_WINDOW_WRITE (R458). -/
def execSlotTableWindowWrite (e : Fin 3) (off : BitVec 23) (size : AccSize) (data : BitVec 512) (s : State) :
    Host.Outcome State Fault Refusal :=
  .next ((slotWindowWrite s e.val off.toNat (accBytes size) data.toNat).getD (emit s (.errorDone 0)))

/-- The window that holds offset `x` of die `d`'s region, and the offset within it: `true` for the session
entry window (R442). -/
def windowAt (d x : Nat) : Option (Bool × Nat) :=
  if x < 0x800000 then none
  else if d < 16 && x < 0xA80000 then some (true, x - 0x800000)
  else if 16 ≤ d && d < 19 then some (false, x - 0x800000)
  else none

/-! ## The register regions and the S0 range (R412, R440, R442) -/

/-- Base of the register regions, and of the S0 range. -/
def regBase : Nat := 0x0F0000000000
def s0Base : Nat := 0x0FFF00000000

/-- The key of an address in the register regions. -/
def regKey (a : Nat) : Option Nat := if regBase ≤ a && a < regBase + 0x14000000 then some (a - regBase) else none

/-- A write of `n` bytes to the register regions by a requester; none: an error completion (R442, R444). -/
def regionWrite (s : State) (who : Requester) (k n data : Nat) : Option State :=
  match windowAt (kDie k) (k % 0x1000000) with
  | some (ses, off) =>
    if n ≠ 4 && n ≠ 8 && n ≠ 64 then none
    else if ses then entryWindowWrite s (kDie k) off n data
    else slotWindowWrite s (kDie k - 16) off n data
  | none =>
    match pageServed s k with
    | none => none
    | some (b, i) =>
      if n ≠ 4 || k % 4 ≠ 0 then none else some (regWriteAt s who b i k (BitVec.ofNat 32 data))

/-- A read of `n` bytes from the register regions; none: an error completion. -/
def regionRead (s : State) (k n : Nat) : Option (Nat × State) :=
  match windowAt (kDie k) (k % 0x1000000) with
  | some (ses, off) =>
    if (n ≠ 4 && n ≠ 8 && n ≠ 64) || off % n ≠ 0 || (ses && presetState s (kDie k) = 4) then none
    else if ses then some (entNat s (kDie k) (off / 1024) (off % 1024) n, s)
    else some (memNat s.edge.slotMem ((kDie k - 16) * slotMemSize + off) n, s)
  | none =>
    match pageServed s k with
    | none => none
    | some (b, i) =>
      if n ≠ 4 || k % 4 ≠ 0 then none
      else
        let x := regReadAt s b i k
        some (x.1.toNat, x.2)

/-- The S0 range, as an offset from its base: 0 boot ROM, 1 SRAM, 2 flash window (R412). -/
def s0Part (x : Nat) : Option Nat :=
  if x < 0x10000 then some 0
  else if 0x1000000 ≤ x && x < 0x1400000 then some 1
  else if 0x80000000 ≤ x && x < 0x100000000 then some 2
  else none

/-- `n` bytes of the S0 range, of one of its regions; none: an error completion. -/
def s0Read (s : State) (x n : Nat) : Option Nat :=
  if s0Part x = none || s0Part (x + n - 1) ≠ s0Part x then none
  else match s0Part x with
    | some 0 => some (bytesNat ((List.range n).map fun i => Config.bootRom (x + i)))
    | some 1 => some (memNat s.brd.sram (x - 0x1000000) n)
    | _ => some (memNat s.brd.flash (x - 0x80000000) n)

/-- Write `n` bytes of the S0 range: the ROM and the flash window are read-only. -/
def s0Write (s : State) (x n data : Nat) : Option State :=
  if s0Part x = none || s0Part (x + n - 1) ≠ s0Part x then none
  else match s0Part x with
    | some 1 => some { s with brd.sram := memWrite s.brd.sram (x - 0x1000000) n data }
    | _ => some s

/-- A host requester's write of `n` bytes outside DRAM; false: an error completion (R412, R440, R442, R444, R456). -/
def hostPut (s : State) (who : Requester) (a n data : Nat) : Bool × State :=
  match regKey a with
  | some k =>
    let x := regionWrite s who k n data
    (x.isSome, countAccess (x.getD s) (regPath (kDie k)) x.isSome)
  | none =>
    let x := if s0Base ≤ a && a + n ≤ s0Base + 0x100000000 then s0Write s (a - s0Base) n data else none
    (x.isSome, x.getD s)

/-- A host requester's read of `n` bytes outside DRAM; none: an error completion. -/
def hostGet (s : State) (a n : Nat) : Option Nat × State :=
  match regKey a with
  | some k =>
    let x := regionRead s k n
    (x.map (·.1), countAccess ((x.map (·.2)).getD s) (regPath (kDie k)) x.isSome)
  | none =>
    (if s0Base ≤ a && a + n ≤ s0Base + 0x100000000 then s0Read s (a - s0Base) n else none, s)

/-- A host access outside DRAM: the register regions, their windows and the S0 range (R412, R440, R442, R444). -/
def hostElse (s : State) (r : HostReq) : State :=
  let n := r.len.toNat
  if n = 0 then emit s (.errorDone r.tag)
  else if r.write then
    let x := hostPut s r.who r.addr.toNat n r.data.toNat
    emit x.2 (if x.1 then .writeDone r.tag else .errorDone r.tag)
  else
    let x := hostGet s r.addr.toNat n
    emit x.2 (match x.1 with
      | some d => .readDone r.tag (BitVec.ofNat 512 d)
      | none => .errorDone r.tag)

/-- A host access to DRAM: the request reaches its vault's host engine, or is refused (R206, R213, R441). -/
def hostDram (s : State) (r : HostReq) (v u : Nat) : State :=
  let d := v / 64
  let s := countPath s 3 d 0x44
  let line := r.addr.toNat % 64
  if !dieServes s d || r.len = 0 || 64 < line + r.len.toNat || (rowOwner s v (u / 0x10000)).isNone then
    hostError s d r
  else queueJob s v (.access r u)

/-- HOST_ACCESS (R206, R213, R412, R440 to R444). -/
def execHostAccess (r : HostReq) (s : State) : Host.Outcome State Fault Refusal :=
  .next (match dramMap s r.addr.toNat with
    | none => hostElse s r
    | some (v, u) => hostDram s r v u)

/-- REGISTER_WRITE: a 32-bit write of a shepherd core (R7, R440, R442, R444). A DRAM address makes a host
access; elsewhere the address is a multiple of 4. -/
def execRegisterWrite (a : BitVec 48) (w : BitVec 32) (s : State) : Host.Outcome State Fault Refusal :=
  .next (match dramMap s a.toNat with
    | some (v, u) => hostDram s { who := .core, addr := a, write := true, len := 4, data := w.setWidth 512,
                                  poison := false, tag := 0 } v u
    | none =>
      let x := if a.toNat % 4 = 0 then hostPut s .core a.toNat 4 w.toNat else (false, s)
      if x.1 then x.2 else emit x.2 (.errorDone 0))

/-- LATCHED_PAIR_READ: a 32-bit read of a shepherd core (R7, R440, R442, R444). A DRAM address makes a host
access; elsewhere the address is a multiple of 4. -/
def execLatchedPairRead (a : BitVec 48) (s : State) : Host.Outcome State Fault Refusal :=
  .next (match dramMap s a.toNat with
    | some (v, u) => hostDram s { who := .core, addr := a, write := false, len := 4, data := 0, poison := false,
                                  tag := 0 } v u
    | none =>
      let x := if a.toNat % 4 = 0 then hostGet s a.toNat 4 else (none, s)
      emit x.2 (match x.1 with
        | some d => .value (BitVec.ofNat 32 d)
        | none => .errorDone 0))

/-! ## Commands on a page -/

/-- Apply to the page that a PAGE_ID names; an error completion if no die serves it. -/
def onPage (s : State) (pg : PageId) (f : Blk → Nat → Nat → State) : State :=
  match pageOfId pg with
  | none => emit s (.errorDone 0)
  | some k =>
    match pageServed s k with
    | none => emit s (.errorDone 0)
    | some (b, i) => f b i k

/-- ERR_CAPT0_READ (R448). -/
def execErrCapt0Read (pg : PageId) (s : State) : Host.Outcome State Fault Refusal :=
  .next (onPage s pg fun b i k =>
    let x := regReadAt s b i (k + 0x1C)
    emit x.2 (.value x.1))

/-- CNT_CLEAR (R446). -/
def execCntClear (pg : PageId) (s : State) : Host.Outcome State Fault Refusal :=
  .next (onPage s pg fun b _ k => cntZero s b k)

/-- CNT_FREEZE (R446). -/
def execCntFreeze (pg : PageId) (on : Bool) (s : State) : Host.Outcome State Fault Refusal :=
  .next (onPage s pg fun _ _ k => regPut s (k + 8) 1 1 (b2n on))

/-- IRQ_FORCE (R447). -/
def execIrqForce (pg : PageId) (w : BitVec 32) (s : State) : Host.Outcome State Fault Refusal :=
  .next (onPage s pg fun b _ k => irqForceWrite s b k w)

end Sys2Proof.Machine
end

