-- ==== Sys2Proof/Machine/Endpoint.lean ====
section
/-! DEFINITION. The loose endpoint on E1 (R312, R322 to R326, R382, R383): origination, the requests it
performs in order, completions, and the contexts of both sides. -/
namespace Sys2Proof.Machine
open Sys2Proof

/-! ## Completions -/

/-- A header of OP `op` over another packet's: the command's row names the operation. -/
def oWith (r : LooseReq) (op : Nat) : LooseReq := oPut r 48 4 op

/-- The payload of a packet, its LEN bytes alone. -/
def oData (r : LooseReq) : Nat := r.payload.toNat % 2 ^ (8 * oLen r)

/-- A completion for request `r` from here (R311, R325). -/
def endCpl (s : State) (r : LooseReq) (status len data : Nat) : LooseReq :=
  { hdr := looseHdr (oSrc r) (nodeId s) 4 0 2 (oStream r).toNat 0 (oTag r).toNat len status
    payload := BitVec.ofNat 512 data }

/-- Complete a request of another endpoint: its completion waits at E1's router (R325). -/
def complete (s : State) (r : LooseReq) (status len data : Nat) : State :=
  stageLoose s 1 none (endCpl s r status len data)

/-! ## Performing a request (R312, R325, R326, R382, R383, R470) -/

/-- Whether remote accesses may not reach an address of the register regions (R383). -/
def regsDenied (s : State) (k : Nat) : Bool :=
  !regBit s (pgSec + 0x9C) 0 ||
  (match pageAt (kDie k) (kPage k) with
   | some (b, _) => b = .sec || b = .dbgC || b = .dbgE || b = .dbgS
   | none => false)

/-- Whether a loose access may not reach a row of `dom` (R382, R383). -/
def rowDenied (s : State) (dom : Nat) (write : Bool) : Bool :=
  if dom = domCarve then !regBit s (pgSec + 0x9C) 1 else rowAccess s dom .loose write = 2

/-- Read 64 bytes of DRAM for RD: status, data and the state after it. E1 is its requester (R382). -/
def looseRead (s : State) (a : Nat) : Nat × Nat × State :=
  match dramMap s a, dramOwner s a with
  | some (v, u), some dom =>
    let d := v / 64
    let s := countPath s 1 d 0x44
    if a % 64 ≠ 0 || !dieServes s d then (2, 0, countPath s 1 d 0x48)
    else if rowDenied s dom false then (1, 0, countPath s 1 d 0x48)
    else
      let x := hostLine s .loose v u dom
      match x.1 with
      | some y => (0, y, x.2)
      | none => (2, 0, countPath x.2 1 d 0x48)
  | _, _ => (2, 0, s)

/-- Write `n` bytes of one line of DRAM for WR: status and the state after it. -/
def looseWrite (s : State) (a n data : Nat) : Nat × State :=
  match dramMap s a, dramOwner s a with
  | some (v, u), some dom =>
    let d := v / 64
    let s := countPath s 1 d 0x44
    if 64 < a % 64 + n || !dieServes s d then (2, countPath s 1 d 0x48)
    else if rowDenied s dom true then (1, countPath s 1 d 0x48)
    else if isRetired s v (u / 0x10000) (u / 0x800 % 32) then (2, countPath s 1 d 0x48)
    else
      let x := putBytes s v u dom n data false
      if x.1 then (0, x.2) else (2, countPath x.2 1 d 0x48)
  | _, _ => (2, s)

/-- Perform an RD. -/
def performRd (s : State) (r : LooseReq) : State :=
  let a := oAddr r
  match regKey a with
  | some k =>
    if regsDenied s k then complete s r 1 0 0
    else match regionRead s k 64 with
    | some x => complete (countAccess x.2 (remotePath (kDie k)) true) r 0 64 x.1
    | none => complete (countAccess s (remotePath (kDie k)) false) r 2 0 0
  | none =>
    let x := looseRead s a
    if x.1 = 0 then complete x.2.2 r 0 64 x.2.1 else complete x.2.2 r x.1 0 0

/-- Perform a WR. -/
def performWr (s : State) (r : LooseReq) : State :=
  let a := oAddr r
  match regKey a with
  | some k =>
    if regsDenied s k then complete s r 1 0 0
    else match regionWrite s .loose k (oLen r) (oData r) with
    | some t => complete (countAccess t (remotePath (kDie k)) true) r 0 0 0
    | none => complete (countAccess s (remotePath (kDie k)) false) r 2 0 0
  | none =>
    let x := looseWrite s a (oLen r) (oData r)
    complete x.2 r x.1 0 0

/-- Perform a MSG: the mailbox queue takes the record, or is full (R326). -/
def performMsg (s : State) (r : LooseReq) : State :=
  let m := byteFld r.hdr.toNat 16 1
  if 14 < m then complete s r 3 0 0
  else if epFull s (17 + m) then complete s r 5 0 0
  else complete (epDeliver s (17 + m) r.hdr.toNat (oData r)) r 0 0 0

/-- Perform a request in ORD order. -/
def perform (s : State) (r : LooseReq) : State :=
  match oOp r with
  | 1 => performMsg s r
  | 2 => performRd s r
  | 3 => performWr s r
  | _ => complete s r 0 0 0

/-! ## Receive contexts (R323, R324) -/

/-- Whether a receive context is the one of a stream. -/
def isRecv (src : BitVec 16) (stream : BitVec 4) (x : RecvCtx) : Bool := x.src = src && x.stream = stream

/-- The receive context of a stream. -/
def recvOf (s : State) (src : BitVec 16) (stream : BitVec 4) : Option RecvCtx :=
  s.loose.recvCtx.find? (isRecv src stream)

/-- Store a receive context in place of the stream's. -/
def setRecv (s : State) (x : RecvCtx) : State :=
  { s with loose.recvCtx := updFirst (isRecv x.src x.stream) (fun _ => x) s.loose.recvCtx }

/-- Free the receive context of a stream. -/
def freeRecv (s : State) (src : BitVec 16) (stream : BitVec 4) : State :=
  { s with loose.recvCtx := s.loose.recvCtx.filter fun x => !isRecv src stream x }

/-- Perform, in ORD order, what the window of a stream holds from its expected ORD on. A CLOSE closes the
context. -/
def drainWindow (src : BitVec 16) (stream : BitVec 4) : Nat → State → State
  | 0, s => s
  | n + 1, s =>
    match recvOf s src stream with
    | none => s
    | some x =>
      match x.window.find? fun r => oOrd r = x.exp with
      | none => s
      | some r =>
        let done := oOp r = 5
        let x' := { x with exp := x.exp + 1, closed := done,
                           window := if done then [] else x.window.filter fun q => oOrd q ≠ x.exp }
        drainWindow src stream n (perform (setRecv s x') r)

/-- Count a discarded request (R323). -/
def dupDrop (s : State) : State := lseCount s 1 0x404

/-- A request meets the receive context of its stream (R323, R324). -/
def recvTake (s : State) (x : RecvCtx) (r : LooseReq) : State :=
  if x.closed || 64 ≤ (oOrd r - x.exp).toNat || x.window.any (fun q => oOrd q = oOrd r) then dupDrop s
  else drainWindow x.src x.stream 65 (setRecv s { x with window := x.window ++ [r] })

/-- Source node and stream of a request. -/
def reqSrc (r : LooseReq) : BitVec 16 := BitVec.ofNat 16 (oSrc r)

/-- Remove the packet from the router's staging, if it waits there. -/
def unstagePkt (s : State) (r : LooseReq) : State :=
  match s.loose.staged.find? fun x => x.pkt = r with
  | some x => unstage s x
  | none => s

/-- A request arrives at the endpoint (R312, R313, R323, R324). -/
def requestRx (s : State) (r : LooseReq) : State :=
  if looseBad r then lseCount s 1 0x114
  else if oDst r ≠ nodeId s then s
  else
    let s := unstagePkt s r
    match recvOf s (reqSrc r) (oStream r) with
    | some x => recvTake s x r
    | none =>
      if oOp r = 5 then complete s r 0 0 0
      else if 64 ≤ (oOrd r).toNat || 4096 ≤ s.loose.recvCtx.length then complete s r 4 0 0
      else
        let x : RecvCtx := { src := reqSrc r, stream := oStream r, exp := 0, window := [], closed := false }
        recvTake { s with loose.recvCtx := s.loose.recvCtx ++ [x] } x r

/-- MSG (R312). -/
def execMsg (r : LooseReq) (s : State) : Host.Outcome State Fault Refusal := .next (requestRx s (oWith r 1))

/-- RD (R312). -/
def execRd (r : LooseReq) (s : State) : Host.Outcome State Fault Refusal := .next (requestRx s (oWith r 2))

/-- WR (R312). -/
def execWr (r : LooseReq) (s : State) : Host.Outcome State Fault Refusal := .next (requestRx s (oWith r 3))

/-- CLOSE (R324). -/
def execClose (r : LooseReq) (s : State) : Host.Outcome State Fault Refusal := .next (requestRx s (oWith r 5))

/-- REORDER_TIMEOUT: the expected request is skipped while a later one waits (R323). -/
def execReorderTimeout (src : BitVec 16) (stream : BitVec 4) (s : State) : Host.Outcome State Fault Refusal :=
  .next (match recvOf s src stream with
    | none => s
    | some x =>
      if x.closed || x.window.isEmpty then s
      else drainWindow src stream 65 (setRecv (lseCount s 1 0x408) { x with exp := x.exp + 1 }))

/-- CLOSED_CONTEXT_FREE: REQ_TIMEOUT after its CLOSE (R324). -/
def execClosedContextFree (src : BitVec 16) (stream : BitVec 4) (s : State) : Host.Outcome State Fault Refusal :=
  .next (match recvOf s src stream with
    | some x => if x.closed then freeRecv s src stream else s
    | none => s)

/-- RX_IDLE: the backstop (R324). -/
def execRxIdle (src : BitVec 16) (stream : BitVec 4) (s : State) : Host.Outcome State Fault Refusal :=
  .next (match recvOf s src stream with
    | some x => if !x.closed && x.window.isEmpty then freeRecv s src stream else s
    | none => s)

/-! ## Send contexts and tags (R323 to R325) -/

/-- Whether a send context is the one of a stream. -/
def isSend (dst : BitVec 16) (stream : BitVec 4) (x : SendCtx) : Bool := x.dst = dst && x.stream = stream

/-- The send context of a stream. -/
def sendOf (s : State) (dst : BitVec 16) (stream : BitVec 4) : Option SendCtx :=
  s.loose.sendCtx.find? (isSend dst stream)

/-- Store a send context in place of the stream's. -/
def setSend (s : State) (x : SendCtx) : State :=
  { s with loose.sendCtx := updFirst (isSend x.dst x.stream) (fun _ => x) s.loose.sendCtx }

/-- The lowest tag index that is not outstanding (R325). -/
def freeTag (s : State) : Option Nat :=
  (List.range 4096).find? fun i => !(s.loose.outReq.any fun q => q.tag.toNat % 4096 = i)

/-- REQ_TIMEOUT in µs: values at or below REORDER_TIMEOUT act as REORDER_TIMEOUT + 1 (R328). -/
def reqTimeout (s : State) : Nat :=
  let k := pgLse 1 + 0x58
  max (regField s k 16 16) (max 1 (regField s k 8 8) + 1)

/-- RX_IDLE in tick-clock periods (R324). -/
def rxIdlePeriods (s : State) : Nat := tenMs + 2 * reqTimeout s * 800

/-- Whether the endpoint may originate: not paused, and past RX_IDLE since package reset (R322, R324). -/
def mayOriginate (s : State) : Bool := !pausedNow s 1 && rxIdlePeriods s ≤ nowPeriods s

/-- Send a request of a stream: it takes the stream's next ORD and a tag, and waits at E1's router. `flags`:
bit 0 SPRAY. -/
def sendReq (s : State) (x : SendCtx) (i op flags len addr data : Nat) : State :=
  let g := tabGet 0 i s.loose.tagGen
  let tag : BitVec 16 := BitVec.ofNat 16 (i + 4096 * g.toNat)
  let r : LooseReq :=
    { hdr := looseHdr x.dst.toNat (nodeId s) op flags 0 x.stream.toNat x.ord.toNat tag.toNat len addr
      payload := BitVec.ofNat 512 data }
  let s := setSend s { x with ord := x.ord + 1, out := x.out + 1, closing := x.closing || op = 5 }
  let s := { s with loose.tagGen := tabSet 0 i (g + 1) s.loose.tagGen
                    loose.outReq := s.loose.outReq ++ [{ tag := tag, req := r }] }
  stageLoose s 1 none r

/-- The send context that a stream has or takes (R324); none when it must wait. -/
def takeSend (s : State) (dst : BitVec 16) (stream : BitVec 4) : Option (SendCtx × State) :=
  match sendOf s dst stream with
  | some x => if x.closing || x.closed.isSome || x.noCtx || 64 ≤ x.out then none else some (x, s)
  | none =>
    if 4096 ≤ s.loose.sendCtx.length then none
    else
      let x : SendCtx := { dst := dst, stream := stream, ord := 0, out := 0, closing := false, closed := none,
                           noCtx := false }
      some (x, { s with loose.sendCtx := s.loose.sendCtx ++ [x] })

/-- The head of an origination queue moves past a record. -/
def headOn (s : State) (q : Nat) : State :=
  regPut s (pgLse 1 + 0x20C + 0x10 * q) 0 16 (ringNext (epHead s q) (epSize s q))

/-- The request that an origination record asks for: the header with what the endpoint fills itself at zero
(R326); none if the record is malformed, or names CLOSE or CPL. -/
def originReq (x : Nat) : Option LooseReq :=
  let r : LooseReq := { hdr := BitVec.ofNat 176 x, payload := BitVec.ofNat 512 (x >>> 512) }
  let r := oPut (oPut (oPut (oPut (oPut (oPut r 24 24 0) 53 3 0) 56 6 0) 64 8 0) 72 7 0) 88 32 0
  if looseBad r || 3 < oOp r then none else some r

/-- Take the record at the head of queue `q` (R323, R324, R326). -/
def originateLoose (s : State) (q : Nat) : State :=
  let x := engineLines s 1 .dma (epRecord s q (epHead s q)) 2
  match x.1.bind originReq with
  | none => headOn (lseCount x.2 1 0x114) q
  | some r =>
    match takeSend x.2 (BitVec.ofNat 16 (oDst r)) (BitVec.ofNat 4 q), freeTag s with
    | some (c, t), some i =>
      headOn (sendReq t c i (oOp r) (b2n (oSpray r)) (oLen r) (bitsOf r.hdr.toNat 128 48) (oData r)) q
    | _, _ => s

/-- LOOSE_ORIGINATE (R323). -/
def execLooseOriginate (q : Fin 16) (s : State) : Host.Outcome State Fault Refusal :=
  .next (if !mayOriginate s || epSize s q.val < 2 || epHead s q.val = epTail s q.val then s
    else originateLoose s q.val)

/-- SEND_CONTEXT_IDLE: the endpoint closes a stream with nothing outstanding (R324). -/
def execSendContextIdle (dst : BitVec 16) (stream : BitVec 4) (s : State) : Host.Outcome State Fault Refusal :=
  .next (match sendOf s dst stream, freeTag s with
    | some x, some i =>
      if pausedNow s 1 || x.closing || x.closed.isSome || x.out ≠ 0 then s else sendReq s x i 5 0 0 0 0
    | _, _ => s)

/-- SEND_CONTEXT_FREE: after the time that R324 gives for the outcome of its CLOSE. -/
def execSendContextFree (dst : BitVec 16) (stream : BitVec 4) (s : State) : Host.Outcome State Fault Refusal :=
  .next (match sendOf s dst stream with
    | some x =>
      if x.closed.isSome then { s with loose.sendCtx := s.loose.sendCtx.filter fun y => !isSend dst stream y } else s
    | none => s)

/-! ## Completions at the requester (R325) -/

/-- Whether a status is synthetic (R325). -/
def synthetic (status : Nat) : Bool := status = 8 || status = 9 || status = 10

/-- A completion takes its request off: the stream's send context, and queue 16 for all but a CLOSE. -/
def finishReq (s : State) (q : OutReq) (cpl : LooseReq) : State :=
  let status := bitsOf cpl.hdr.toNat 128 4
  let s := { s with loose.outReq := s.loose.outReq.filter fun y => y.tag ≠ q.tag }
  let close := oOp q.req = 5
  let s := match sendOf s (BitVec.ofNat 16 (oDst q.req)) (oStream q.req) with
    | some x => setSend s { x with out := x.out - 1, noCtx := x.noCtx || (!close && status = 4),
                                   closed := if close then some (status = 0) else x.closed }
    | none => s
  let s := if synthetic status then irq s (pgLse 1) 2 else s
  if close then s
  else epDeliver (if synthetic status && !epFull s 16 then lseCount s 1 0x410 else s) 16 cpl.hdr.toNat (oData cpl)

/-- CPL (R325). -/
def execCpl (r : LooseReq) (s : State) : Host.Outcome State Fault Refusal :=
  let r := oWith r 4
  .next (
    if looseBad r then lseCount s 1 0x114
    else if oDst r ≠ nodeId s then s
    else
      let s := unstagePkt s r
      match s.loose.outReq.find? fun q => q.tag = oTag r with
      | some q => finishReq s q r
      | none => lseCount s 1 0x40C)

/-- REQ_TIMEOUT: the endpoint completes a request itself (R325). -/
def execReqTimeout (tag : BitVec 16) (s : State) : Host.Outcome State Fault Refusal :=
  .next (match s.loose.outReq.find? fun q => q.tag = tag with
    | some q => finishReq s q (endCpl s q.req 8 0 0)
    | none => s)

end Sys2Proof.Machine
end

