-- ==== Sys2Proof/Machine/Matrix.lean ====
section
/-! DEFINITION. The M slot (R134 to R136, R143 to R146, R154, R172, R173, R186 to R190). -/
namespace Sys2Proof.Machine
open Sys2Proof

/-- Latency and occupancy of an MMA (R154). -/
def mmaTiming (fmt : Nat) : Nat × Nat :=
  if matBits fmt = 32 then (27, 16) else if matBits fmt = 16 then (15, 4) else (12, 1)

/-- A_op, the activation bytes of an MMA: 64 rows and terms of one element each, doubled for
4-bit and 6-bit formats (R145). -/
def aOp (fmt : Nat) : Nat :=
  if matBits fmt = 4 || matBits fmt = 6 then 16 * matBits fmt else 8 * matBits fmt

/-- A_stride (R145). -/
def aStride (fmt : Nat) : Nat :=
  if matBits fmt ≤ 4 || matBits fmt = 8 then 64 else if matBits fmt = 6 then 128 else aOp fmt

/-- W_op, the weight bytes of an MMA (R145). -/
def wOp (fmt fold : Nat) : Nat := 8 * foldTerms fmt fold * matBits fmt

/-- The store address of the activations (R145). -/
def mmaActAddr (sa : BitVec 64) (o : MmaOp) : Nat :=
  (sa.toNat % 0x400000 + o.step.toNat * aStride o.fmt.toNat) % 0x400000

/-- The weight-buffer offset of the weights (R145). -/
def mmaWgtOff (sa : BitVec 64) (o : MmaOp) : Nat :=
  (bitsOf sa.toNat 32 15 + o.step.toNat * wOp o.fmt.toNat o.fold.toNat) % wbufSize

/-- o / 16 for the block of an MX operation's terms (R173). -/
def mmaBlock (sa : BitVec 64) (o : MmaOp) : Nat :=
  let q := o.step.toNat * foldTerms o.fmt.toNat o.fold.toNat / 32
  (bitsOf sa.toNat 32 15 + q * 256 * matBits o.fmt.toNat) % wbufSize / 16

/-- Alignment of R118 and R173. -/
def mmaAligned (sa : BitVec 64) (o : MmaOp) : Bool :=
  let a := mmaActAddr sa o
  let n := aOp o.fmt.toNat / (mmaTiming o.fmt.toNat).2
  a % 32 = 0 && a % 128 + n ≤ 128 && (!matMx o.fmt.toNat || bitsOf sa.toNat 32 15 % 16 = 0)

/-- What an MMA adds to the open run before its reads: which terms, columns and rows are
active (R128 to R130). -/
def mmaContrib (s : State) (c seq : Nat) (o : MmaOp) : Contrib :=
  let k := foldTerms o.fmt.toNat o.fold.toNat
  { seq := seq, fmt := o.fmt, fold := o.fold,
    terms := maskOf 16 fun j => j < k && (o.gdim = 1 || elemOn s c o.xg j),
    cols := maskOf 64 fun n => o.gdim = 0 || elemOn s c o.xg n,
    rows := (pregOf s c o.pred.toNat).extractLsb' 0 64,
    act := 0, wgt := 0, ascale := 0, wscale := 0 }

/-- The read stages of an MMA (R145, R154): weights in 0 to occ − 1, activations in 1 to occ, in
equal consecutive parts; the block scales with the first part. A wholly gated MMA keeps its bank use and reads
nothing (R63, R128). The scale bytes of a block near the end of the buffer wrap modulo 32,768: a DESIGN CHOICE
(log 122), R173 gives no wrap. -/
def mmaReads (sa : BitVec 64) (o : MmaOp) (seq : Nat) (on : Bool) : List (Nat × Act) :=
  let fmt := o.fmt.toNat
  let occ := (mmaTiming fmt).2
  let na := aOp fmt / occ
  let nw := wOp fmt o.fold.toNat / occ
  let blk := mmaBlock sa o
  let sc := fun (base p : Nat) =>
    if on && matMx fmt && p = 0 then some (BitVec.ofNat 15 (base + blk)) else none
  (List.range occ).flatMap fun p =>
    [(p, .mmaWgt seq p occ (BitVec.ofNat 15 (mmaWgtOff sa o + nw * p)) (if on then nw else 0) (sc 0x7000 p) (sc 0x7800 p)),
     (p + 1, .mmaAct seq p occ (BitVec.ofNat 22 (mmaActAddr sa o + na * p)) na on)]

/-- The run an MMA leaves and the runs it closes (R146). -/
def mmaRuns (r : Run) (k : Nat) (p : Contrib) : Run × List (List Contrib) :=
  let first := if 64 < r.count + k then [r.parts] else []
  let open_ := if 64 < r.count + k then Run.init else r
  let next : Run := { count := open_.count + k, parts := open_.parts ++ [p] }
  if 64 ≤ next.count then (Run.init, first ++ [next.parts]) else (next, first)

/-- The event that a MAC of a matrix format is (R393). -/
def macKind (fmt : Nat) : EventKind :=
  match matBits fmt with
  | 4 => .mac4 | 6 => .mac6 | 8 => .mac8 | 16 => .mac16 | _ => .mac32

/-- The active MACs of an MMA: active rows, columns and terms. A gated element counts none (R63, R393). -/
def macCount (p : Contrib) : Nat :=
  onesIn (p.rows &&& maskOf 64 (· < foldRows p.fold.toNat)) * onesIn p.cols * onesIn p.terms

/-- Whether an MMA is not wholly beyond its extent (R63, R128). -/
def mmaOn (p : Contrib) : Bool := p.terms ≠ 0 && p.cols ≠ 0

/-- An MMA as it issues in cycle `t`. -/
def mmaInfo (s : State) (c t : Nat) (o : MmaOp) : OpInfo :=
  let fmt := o.fmt.toNat
  let lat := mmaTiming fmt
  let seq := t * 65536 + s.clu.pipe.length
  let sa := sregOf s c o.sa.toNat
  let v := tileOf s c o.tile.toNat
  let r := mmaRuns (runOf s c o.tile.toNat) (foldTerms fmt o.fold.toNat) (mmaContrib s c seq o)
  { slot := 0, enc := xgOk o.xg && mmaAligned sa o, unit := 1, occ := lat.2,
    due := if r.2 = [] then lat.2 else lat.1 - 1,
    srcs := xgSrc o.xg ++ [.preg o.pred, .sreg o.sa] ++ (if r.2 = [] then [] else [.tile o.tile]),
    evs := (0, .runSet o.tile r.1) :: (0, .count (macKind fmt) (macCount (mmaContrib s c seq o))) ::
      mmaReads sa o seq (mmaOn (mmaContrib s c seq o)) ++
      r.2.map fun ps => (lat.1 - 1, .tileClose o.tile v ps) }

/-- MMA (R145, R146). -/
def execMma (i : Issue) (o : MmaOp) (s : State) : Host.Outcome State Fault Refusal :=
  .next (issueOp s i fun s t => mmaInfo s i.cl.val t o)

/-- MNOP (R111). -/
def execMnop (i : Issue) (s : State) : Host.Outcome State Fault Refusal :=
  .next (advance s (issueCycle s i))

/-- A tile operation as it issues: latency `l`; `enc` checks the fields it does not use. -/
def tileInfo (o : TileOp) (l : Nat) (enc : Bool) (srcs : List Dest) (evs : List (Nat × Act)) : OpInfo :=
  { slot := 0, enc := xgOk o.xg && o.rsv = 0 && o.rsvHi = 0 && enc, unit := 1, occ := 1, due := l - 1,
    srcs := xgSrc o.xg ++ srcs, evs := evs }

/-- The open run after an MZERO with these active columns (R146). -/
def zeroRun (r : Run) (cols : BitVec 64) : Run :=
  if cols = BitVec.allOnes 64 then Run.init
  else { r with parts := r.parts.map fun p => { p with cols := p.cols &&& ~~~cols } }

/-- MZERO: active columns of the values and of the open runs; the count with them when no column
is gated (R143, R146). -/
def execMzero (i : Issue) (o : TileOp) (s : State) : Host.Outcome State Fault Refusal :=
  .next (issueOp s i fun s _ =>
    let c := i.cl.val
    let cols := linesOn s c o.xg 64
    tileInfo o 1 (o.rowgrp = 0 && o.vreg = 0) []
      [(0, .runSet o.tile (zeroRun (runOf s c o.tile.toNat) cols)), (0, .tileZero o.tile cols)])

/-- MDRAIN: four rows of FP32 values to a vector register (R136, R143). -/
def execMdrain (i : Issue) (o : TileOp) (s : State) : Host.Outcome State Fault Refusal :=
  .next (issueOp s i fun s _ =>
    let c := i.cl.val
    let cols := linesOn s c o.xg 64
    tileInfo o 4 true [.tile o.tile]
      [(3, .vregWrite o.vreg (maskOf 256 fun l => cols.getLsbD (l % 64))
        (elem (tileOf s c o.tile.toNat) 8192 o.rowgrp.toNat))])

/-- MFILL: a vector register into four rows of FP32 values (R136, R143). -/
def execMfill (i : Issue) (o : TileOp) (s : State) : Host.Outcome State Fault Refusal :=
  .next (issueOp s i fun s _ =>
    let c := i.cl.val
    tileInfo o 4 true [.vreg o.vreg]
      [(3, .tileFill o.tile o.rowgrp (linesOn s c o.xg 64) (vregOf s c o.vreg.toNat))])

end Sys2Proof.Machine
end

