-- ==== Sys2Proof/Machine/StoreSlot.lean ====
section
/-! DEFINITION. The S slot: moves between the store, registers and the weight buffer (R151, R154). -/
namespace Sys2Proof.Machine
open Sys2Proof

/-- The store address of an S operation of access size `n` (R151). -/
def sAddr (s : State) (c : Nat) (o : SOp) (n : Nat) : BitVec 22 := storeAddr s c o.sa (n * o.imm.toNat)

/-- An S operation as it issues: accesses of `n` bytes are `n`-aligned (R118, R151). That a misaligned SLD, SST or
XLD is an encoding fault too is DEDUCED (log 101): R118 lists no row for accesses of 8 B and 4 B. -/
def sInfo (s : State) (c : Nat) (o : SOp) (n : Nat) (enc : Bool) (due : Nat) (srcs : List Dest)
    (evs : List (Nat × Act)) : OpInfo :=
  { slot := 4, enc := xgOk o.xg && (sAddr s c o n).toNat % n = 0 && enc, unit := 0, occ := 1, due := due,
    srcs := xgSrc o.xg ++ .sreg o.sa :: srcs, evs := evs }

/-- SNOP (R111). -/
def execSnop (i : Issue) (s : State) : Host.Outcome State Fault Refusal :=
  .next (advance s (issueCycle s i))

/-- SMOVL: v_REG ← 1,024 bytes. -/
def execSmovl (i : Issue) (o : SOp) (s : State) : Host.Outcome State Fault Refusal :=
  .next (issueOp s i fun s _ =>
    let c := i.cl.val
    sInfo s c o 1024 true 2 [] [(1, .loadV o.reg (linesOn s c o.xg 16) (sAddr s c o 1024))])

/-- SMOVS: 1,024 bytes ← v_REG. -/
def execSmovs (i : Issue) (o : SOp) (s : State) : Host.Outcome State Fault Refusal :=
  .next (issueOp s i fun s _ =>
    let c := i.cl.val
    sInfo s c o 1024 true 2 [.vreg o.reg]
      [(2, .storeV (sAddr s c o 1024) (linesOn s c o.xg 16) (vregOf s c o.reg.toNat))])

/-- SWB: weight buffer at 512 × REG ← 512 bytes. -/
def execSwb (i : Issue) (o : SOp) (s : State) : Host.Outcome State Fault Refusal :=
  .next (issueOp s i fun s _ =>
    let c := i.cl.val
    sInfo s c o 512 true 3 []
      [(1, .swbRead (sAddr s c o 512) (BitVec.ofNat 15 (512 * o.reg.toNat)) (linesOn s c o.xg 8))])

/-- SLD: s_REG ← 8 bytes. -/
def execSld (i : Issue) (o : SOp) (s : State) : Host.Outcome State Fault Refusal :=
  .next (issueOp s i fun s _ =>
    let c := i.cl.val
    sInfo s c o 8 (!o.reg.getLsbD 5) 2 []
      [(1, .loadS (o.reg.extractLsb' 0 5) (elemOn s c o.xg 0) (sAddr s c o 8))])

/-- SST: 8 bytes ← s_REG. -/
def execSst (i : Issue) (o : SOp) (s : State) : Host.Outcome State Fault Refusal :=
  .next (issueOp s i fun s _ =>
    let c := i.cl.val
    sInfo s c o 8 (!o.reg.getLsbD 5) 2 [.sreg (o.reg.extractLsb' 0 5)]
      [(2, .storeS (sAddr s c o 8) (elemOn s c o.xg 0) (sregOf s c (o.reg.toNat % 32)))])

/-- XLD: x_REG.LIMIT ← 4 bytes. -/
def execXld (i : Issue) (o : SOp) (s : State) : Host.Outcome State Fault Refusal :=
  .next (issueOp s i fun s _ =>
    let c := i.cl.val
    sInfo s c o 4 (o.reg.toNat < 8) 2 []
      [(1, .loadX (o.reg.extractLsb' 0 3) (elemOn s c o.xg 0) (sAddr s c o 4))])

end Sys2Proof.Machine
end

