-- ==== Sys2Proof/Machine/VaultSlot.lean ====
section
/-! DEFINITION. The L slot: the vault operations of a bundle (R149, R150, R154). -/
namespace Sys2Proof.Machine
open Sys2Proof

/-- An L operation as it issues. -/
def lInfo (o : LOp) (enc : Bool) (unit due : Nat) (srcs : List Dest) (evs : List (Nat × Act)) : OpInfo :=
  { slot := 3, enc := xgOk o.xg && enc, unit := unit, occ := 1, due := due, srcs := srcs, evs := evs }

/-- The fields of a riding activation: ABANK differs from BANK, and both it and ARS are zero
when none rides (R150). -/
def rideOk (o : LOp) : Bool :=
  if o.aen = 1 then o.abank ≠ o.bank else o.abank = 0 && o.ars = 0

/-- The activation that an L operation carries, whatever its gating (R150): its row is s_ARS[14:0]. -/
def rideEvs (s : State) (c : Nat) (o : LOp) : List (Nat × Act) :=
  if o.aen = 1 then [(0, .vaultAct o.abank ((sregOf s c o.ars.toNat).toNat % 0x8000))] else []

/-- The registers a column access reads. -/
def colSrcs (o : LOp) : List Dest :=
  xgSrc o.xg ++ .sreg o.sr :: (if o.aen = 1 then [.sreg o.ars] else [])

/-- A column read into `dst`: activation and column in stage 0 (R154). -/
def colRead (s : State) (c : Nat) (o : LOp) (enc : Bool) (unit due : Nat) (dst : ColDest) : OpInfo :=
  lInfo o (rideOk o && enc) unit due (colSrcs o)
    (rideEvs s c o ++ [(0, .vaultRd o.bank o.col (o.ap = 1) (linesOn s c o.xg 2) dst)])

/-- LNOP (R111). -/
def execLnop (i : Issue) (s : State) : Host.Outcome State Fault Refusal :=
  .next (advance s (issueCycle s i))

/-- VACT: AEN must be 1 and the fields of a column are reserved (R150, R163). ABANK is not held against the reserved
BANK of 0: a DESIGN CHOICE (log 100), since R150 states that comparison for an activation that rides on a column. -/
def execVact (i : Issue) (o : LOp) (s : State) : Host.Outcome State Fault Refusal :=
  .next (issueOp s i fun s _ =>
    lInfo o (o.aen = 1 && o.bank = 0 && o.col = 0 && o.ap = 0 && o.sr = 0 && o.imm = 0) 0 0 [.sreg o.ars]
      (rideEvs s i.cl.val o))

/-- VPRE: every field but BANK is reserved (R150). -/
def execVpre (i : Issue) (o : LOp) (s : State) : Host.Outcome State Fault Refusal :=
  .next (issueOp s i fun _ _ =>
    lInfo o (o.aen = 0 && o.col = 0 && o.ap = 0 && o.abank = 0 && o.ars = 0 && o.sr = 0 && o.imm = 0) 0 0 []
      [(0, .vaultPre o.bank false)])

/-- VRD: a column into 128 bytes of the store, in stage 30. -/
def execVrd (i : Issue) (o : LOp) (s : State) : Host.Outcome State Fault Refusal :=
  .next (issueOp s i fun s _ =>
    let a := storeAddr s i.cl.val o.sr (128 * o.imm.toNat)
    colRead s i.cl.val o (a.toNat % 128 = 0) 0 30 (.store a))

/-- VWR: 128 bytes of the store, read in stage 1, into a column in stage 4. -/
def execVwr (i : Issue) (o : LOp) (s : State) : Host.Outcome State Fault Refusal :=
  .next (issueOp s i fun s _ =>
    let a := storeAddr s i.cl.val o.sr (128 * o.imm.toNat)
    lInfo o (rideOk o && a.toNat % 128 = 0) 0 4 (colSrcs o)
      (rideEvs s i.cl.val o ++ [(1, .vwrRead a o.bank o.col (o.ap = 1) (linesOn s i.cl.val o.xg 2))]))

/-- VRDP: a column through the planer into the weight buffer, in stage 40. -/
def execVrdp (i : Issue) (o : LOp) (s : State) : Host.Outcome State Fault Refusal :=
  .next (issueOp s i fun s _ =>
    colRead s i.cl.val o true 8 40 (.planer (wbufAddr s i.cl.val o.sr (128 * o.imm.toNat))))

/-- BENTLD: a column into four bundles of the idle half, in stage 30. -/
def execBentld (i : Issue) (o : LOp) (s : State) : Host.Outcome State Fault Refusal :=
  .next (issueOp s i fun s _ =>
    let a := (sregOf s i.cl.val o.sr.toNat).toNat % 0x2000 + 4 * o.imm.toNat
    colRead s i.cl.val o (a % 4 = 0 && a < 0x2000) 0 30 (.bent (BitVec.ofNat 13 a)))

end Sys2Proof.Machine
end

