-- ==== Sys2Proof/Machine/Dispatch.lean ====
section
/-! DEFINITION. The dispatcher: one arm per command. -/
namespace Sys2Proof.Machine
open Sys2Proof
def exec (i : Instr) (s : State) : Host.Outcome State Fault Refusal :=
  match i with
  | .frameTick => Sys2Proof.Machine.execFrameTick s
  | .decisionPoint => Sys2Proof.Machine.execDecisionPoint s
  | .stall p => Sys2Proof.Machine.execStall p s
  | .frameCfgWrite v => Sys2Proof.Machine.execFrameCfgWrite v s
  | .wallCmdLoad v => Sys2Proof.Machine.execWallCmdLoad v s
  | .discCtrlStep v => Sys2Proof.Machine.execDiscCtrlStep v s
  | .startCtrlArm v => Sys2Proof.Machine.execStartCtrlArm v s
  | .timeCapture capt pps tp => Sys2Proof.Machine.execTimeCapture capt pps tp s
  | .captPop v => Sys2Proof.Machine.execCaptPop v s
  | .ppsOutPulse tp => Sys2Proof.Machine.execPpsOutPulse tp s
  | .refInputInvalid b => Sys2Proof.Machine.execRefInputInvalid b s
  | .refInputValid b => Sys2Proof.Machine.execRefInputValid b s
  | .refRevert => Sys2Proof.Machine.execRefRevert s
  | .holdoverExpired => Sys2Proof.Machine.execHoldoverExpired s
  | .refSelWrite v => Sys2Proof.Machine.execRefSelWrite v s
  | .pllStart => Sys2Proof.Machine.execPllStart s
  | .droopStretch dom mv periods second tp => Sys2Proof.Machine.execDroopStretch dom mv periods second tp s
  | .stretchEcho x => Sys2Proof.Machine.execStretchEcho x s
  | .bentEnd j => Sys2Proof.Machine.execBentEnd j s
  | .rotationEntryEnd p => Sys2Proof.Machine.execRotationEntryEnd p s
  | .mnop j => Sys2Proof.Machine.execMnop j s
  | .mma j o => Sys2Proof.Machine.execMma j o s
  | .mzero j o => Sys2Proof.Machine.execMzero j o s
  | .mdrain j o => Sys2Proof.Machine.execMdrain j o s
  | .mfill j o => Sys2Proof.Machine.execMfill j o s
  | .vnop j u => Sys2Proof.Machine.execVnop j u s
  | .vadd j u o => Sys2Proof.Machine.execVadd j u o s
  | .vsub j u o => Sys2Proof.Machine.execVsub j u o s
  | .vmul j u o => Sys2Proof.Machine.execVmul j u o s
  | .vfma j u o => Sys2Proof.Machine.execVfma j u o s
  | .vfms j u o => Sys2Proof.Machine.execVfms j u o s
  | .vmax j u o => Sys2Proof.Machine.execVmax j u o s
  | .vmin j u o => Sys2Proof.Machine.execVmin j u o s
  | .vabs j u o => Sys2Proof.Machine.execVabs j u o s
  | .vneg j u o => Sys2Proof.Machine.execVneg j u o s
  | .vcmpeq j u o => Sys2Proof.Machine.execVcmpeq j u o s
  | .vcmplt j u o => Sys2Proof.Machine.execVcmplt j u o s
  | .vcmple j u o => Sys2Proof.Machine.execVcmple j u o s
  | .vclass j u o => Sys2Proof.Machine.execVclass j u o s
  | .vsel j u o => Sys2Proof.Machine.execVsel j u o s
  | .vand j u o => Sys2Proof.Machine.execVand j u o s
  | .vor j u o => Sys2Proof.Machine.execVor j u o s
  | .vxor j u o => Sys2Proof.Machine.execVxor j u o s
  | .vshl j u o => Sys2Proof.Machine.execVshl j u o s
  | .vshr j u o => Sys2Proof.Machine.execVshr j u o s
  | .vsra j u o => Sys2Proof.Machine.execVsra j u o s
  | .vcvt j u o => Sys2Proof.Machine.execVcvt j u o s
  | .vpack j u o => Sys2Proof.Machine.execVpack j u o s
  | .vunpk j u o => Sys2Proof.Machine.execVunpk j u o s
  | .vrcp j u o => Sys2Proof.Machine.execVrcp j u o s
  | .vrsq j u o => Sys2Proof.Machine.execVrsq j u o s
  | .vsqrt j u o => Sys2Proof.Machine.execVsqrt j u o s
  | .vdiv j u o => Sys2Proof.Machine.execVdiv j u o s
  | .vexp j u o => Sys2Proof.Machine.execVexp j u o s
  | .vlog j u o => Sys2Proof.Machine.execVlog j u o s
  | .vsin j u o => Sys2Proof.Machine.execVsin j u o s
  | .vcos j u o => Sys2Proof.Machine.execVcos j u o s
  | .vtanh j u o => Sys2Proof.Machine.execVtanh j u o s
  | .verf j u o => Sys2Proof.Machine.execVerf j u o s
  | .vrsum j u o => Sys2Proof.Machine.execVrsum j u o s
  | .vrmax j u o => Sys2Proof.Machine.execVrmax j u o s
  | .vrmin j u o => Sys2Proof.Machine.execVrmin j u o s
  | .vargmx j u o => Sys2Proof.Machine.execVargmx j u o s
  | .vscan j u o => Sys2Proof.Machine.execVscan j u o s
  | .vperm j u o => Sys2Proof.Machine.execVperm j u o s
  | .vrot j u o => Sys2Proof.Machine.execVrot j u o s
  | .vbcast j u o => Sys2Proof.Machine.execVbcast j u o s
  | .viota j u o => Sys2Proof.Machine.execViota j u o s
  | .vmov j u o => Sys2Proof.Machine.execVmov j u o s
  | .vext j u o => Sys2Proof.Machine.execVext j u o s
  | .vins j u o => Sys2Proof.Machine.execVins j u o s
  | .vrng j u o => Sys2Proof.Machine.execVrng j u o s
  | .scalarVadd j u o => Sys2Proof.Machine.execScalarVadd j u o s
  | .scalarVsub j u o => Sys2Proof.Machine.execScalarVsub j u o s
  | .scalarVmul j u o => Sys2Proof.Machine.execScalarVmul j u o s
  | .scalarVfma j u o => Sys2Proof.Machine.execScalarVfma j u o s
  | .scalarVfms j u o => Sys2Proof.Machine.execScalarVfms j u o s
  | .scalarVmax j u o => Sys2Proof.Machine.execScalarVmax j u o s
  | .scalarVmin j u o => Sys2Proof.Machine.execScalarVmin j u o s
  | .lnop j => Sys2Proof.Machine.execLnop j s
  | .vact j o => Sys2Proof.Machine.execVact j o s
  | .vrd j o => Sys2Proof.Machine.execVrd j o s
  | .vwr j o => Sys2Proof.Machine.execVwr j o s
  | .vrdp j o => Sys2Proof.Machine.execVrdp j o s
  | .bentld j o => Sys2Proof.Machine.execBentld j o s
  | .vpre j o => Sys2Proof.Machine.execVpre j o s
  | .snop j => Sys2Proof.Machine.execSnop j s
  | .smovl j o => Sys2Proof.Machine.execSmovl j o s
  | .smovs j o => Sys2Proof.Machine.execSmovs j o s
  | .swb j o => Sys2Proof.Machine.execSwb j o s
  | .sld j o => Sys2Proof.Machine.execSld j o s
  | .sst j o => Sys2Proof.Machine.execSst j o s
  | .xld j o => Sys2Proof.Machine.execXld j o s
  | .fnop j => Sys2Proof.Machine.execFnop j s
  | .fsend j o => Sys2Proof.Machine.execFsend j o s
  | .frecv j o => Sys2Proof.Machine.execFrecv j o s
  | .ffwd j o => Sys2Proof.Machine.execFfwd j o s
  | .cnop j => Sys2Proof.Machine.execCnop j s
  | .sli j sd imm => Sys2Proof.Machine.execSli j sd imm s
  | .slis j sd imm => Sys2Proof.Machine.execSlis j sd imm s
  | .saddi j sd imm => Sys2Proof.Machine.execSaddi j sd imm s
  | .sadd j sd sa sb => Sys2Proof.Machine.execSadd j sd sa sb s
  | .ssub j sd sa sb => Sys2Proof.Machine.execSsub j sd sa sb s
  | .sand j sd sa sb => Sys2Proof.Machine.execSand j sd sa sb s
  | .sor j sd sa sb => Sys2Proof.Machine.execSor j sd sa sb s
  | .sxor j sd sa sb => Sys2Proof.Machine.execSxor j sd sa sb s
  | .sshl j sd sa sb => Sys2Proof.Machine.execSshl j sd sa sb s
  | .sshr j sd sa sb => Sys2Proof.Machine.execSshr j sd sa sb s
  | .ssra j sd sa sb => Sys2Proof.Machine.execSsra j sd sa sb s
  | .smul j sd sa sb => Sys2Proof.Machine.execSmul j sd sa sb s
  | .lset j lc imm => Sys2Proof.Machine.execLset j lc imm s
  | .loopb j lc target => Sys2Proof.Machine.execLoopb j lc target s
  | .bseal j sa => Sys2Proof.Machine.execBseal j sa s
  | .bnext j sa => Sys2Proof.Machine.execBnext j sa s
  | .xset j x shift xpos => Sys2Proof.Machine.execXset j x shift xpos s
  | .xadv j x imm => Sys2Proof.Machine.execXadv j x imm s
  | .xmov j x sa => Sys2Proof.Machine.execXmov j x sa s
  | .gadd j g imm => Sys2Proof.Machine.execGadd j g imm s
  | .gsub j g => Sys2Proof.Machine.execGsub j g s
  | .grd j g sd => Sys2Proof.Machine.execGrd j g sd s
  | .gcmps j g sa => Sys2Proof.Machine.execGcmps j g sa s
  | .gcmp j g imm => Sys2Proof.Machine.execGcmp j g imm s
  | .gtest j g pd => Sys2Proof.Machine.execGtest j g pd s
  | .tmark j imm => Sys2Proof.Machine.execTmark j imm s
  | .traceRecord => Sys2Proof.Machine.execTraceRecord s
  | .refresh v => Sys2Proof.Machine.execRefresh v s
  | .scrub v => Sys2Proof.Machine.execScrub v s
  | .hostAccess r => Sys2Proof.Machine.execHostAccess r s
  | .hostEngineGuard v periods hostOpen => Sys2Proof.Machine.execHostEngineGuard v periods hostOpen s
  | .ctxRowsWrite v c w => Sys2Proof.Machine.execCtxRowsWrite v c w s
  | .carveWrite v w => Sys2Proof.Machine.execCarveWrite v w s
  | .imapWrite d w => Sys2Proof.Machine.execImapWrite d w s
  | .retire v w => Sys2Proof.Machine.execRetire v w s
  | .initCtrlStart v w => Sys2Proof.Machine.execInitCtrlStart v w s
  | .initComplete v => Sys2Proof.Machine.execInitComplete v s
  | .errLogRead v => Sys2Proof.Machine.execErrLogRead v s
  | .ceLastRead v => Sys2Proof.Machine.execCeLastRead v s
  | .vcollLastRead v => Sys2Proof.Machine.execVcollLastRead v s
  | .derrLastRead c => Sys2Proof.Machine.execDerrLastRead c s
  | .collLastRead c => Sys2Proof.Machine.execCollLastRead c s
  | .bind d w => Sys2Proof.Machine.execBind d w s
  | .update d w => Sys2Proof.Machine.execUpdate d w s
  | .release d w => Sys2Proof.Machine.execRelease d w s
  | .bucketCommit d w => Sys2Proof.Machine.execBucketCommit d w s
  | .commitComplete v => Sys2Proof.Machine.execCommitComplete v s
  | .entryWindowWrite d off size data => Sys2Proof.Machine.execEntryWindowWrite d off size data s
  | .leashedSend p short slot => Sys2Proof.Machine.execLeashedSend p short slot s
  | .deferredSend p => Sys2Proof.Machine.execDeferredSend p s
  | .latePacketSend p => Sys2Proof.Machine.execLatePacketSend p s
  | .laneTake e pos ent => Sys2Proof.Machine.execLaneTake e pos ent s
  | .laneDrive e pos ent => Sys2Proof.Machine.execLaneDrive e pos ent s
  | .seqFrameRx p f => Sys2Proof.Machine.execSeqFrameRx p f s
  | .combineStep e c g due => Sys2Proof.Machine.execCombineStep e c g due s
  | .setCheck e k => Sys2Proof.Machine.execSetCheck e k s
  | .setRelease e k => Sys2Proof.Machine.execSetRelease e k s
  | .setCfgWrite e k w => Sys2Proof.Machine.execSetCfgWrite e k w s
  | .ringCfgWrite e w => Sys2Proof.Machine.execRingCfgWrite e w s
  | .stageCfgWrite e w => Sys2Proof.Machine.execStageCfgWrite e w s
  | .scollLastRead e => Sys2Proof.Machine.execScollLastRead e s
  | .ovwLastRead e => Sys2Proof.Machine.execOvwLastRead e s
  | .linkDown p cause => Sys2Proof.Machine.execLinkDown p cause s
  | .brace f => Sys2Proof.Machine.execBrace f s
  | .portEnable p w => Sys2Proof.Machine.execPortEnable p w s
  | .portDisable p w => Sys2Proof.Machine.execPortDisable p w s
  | .forceDown p w => Sys2Proof.Machine.execForceDown p w s
  | .kindWrite p w => Sys2Proof.Machine.execKindWrite p w s
  | .phyAligned p => Sys2Proof.Machine.execPhyAligned p s
  | .helloSend p => Sys2Proof.Machine.execHelloSend p s
  | .hello p f => Sys2Proof.Machine.execHello p f s
  | .probe p b hold => Sys2Proof.Machine.execProbe p b hold s
  | .echo p b m => Sys2Proof.Machine.execEcho p b m s
  | .readySend p => Sys2Proof.Machine.execReadySend p s
  | .ready p => Sys2Proof.Machine.execReady p s
  | .down p b => Sys2Proof.Machine.execDown p b s
  | .trainTimeout p => Sys2Proof.Machine.execTrainTimeout p s
  | .phyLockLoss x => Sys2Proof.Machine.execPhyLockLoss x s
  | .retrain p => Sys2Proof.Machine.execRetrain p s
  | .nakRx p ack => Sys2Proof.Machine.execNakRx p ack s
  | .replay p => Sys2Proof.Machine.execReplay p s
  | .replayTimeout p => Sys2Proof.Machine.execReplayTimeout p s
  | .ackTimer p => Sys2Proof.Machine.execAckTimer p s
  | .ackRx p ack => Sys2Proof.Machine.execAckRx p ack s
  | .creditRx p vc count => Sys2Proof.Machine.execCreditRx p vc count s
  | .linkRekey p => Sys2Proof.Machine.execLinkRekey p s
  | .keyUpdate m => Sys2Proof.Machine.execKeyUpdate m s
  | .keyCerts p m => Sys2Proof.Machine.execKeyCerts p m s
  | .keySecret p m => Sys2Proof.Machine.execKeySecret p m s
  | .keyFinish p m => Sys2Proof.Machine.execKeyFinish p m s
  | .keyResend p => Sys2Proof.Machine.execKeyResend p s
  | .authHoldoffEnd p => Sys2Proof.Machine.execAuthHoldoffEnd p s
  | .looseForward e units => Sys2Proof.Machine.execLooseForward e units s
  | .looseOriginate q => Sys2Proof.Machine.execLooseOriginate q s
  | .msg r => Sys2Proof.Machine.execMsg r s
  | .rd r => Sys2Proof.Machine.execRd r s
  | .wr r => Sys2Proof.Machine.execWr r s
  | .cpl r => Sys2Proof.Machine.execCpl r s
  | .close r => Sys2Proof.Machine.execClose r s
  | .reorderTimeout src stream => Sys2Proof.Machine.execReorderTimeout src stream s
  | .reqTimeout tag => Sys2Proof.Machine.execReqTimeout tag s
  | .sendContextIdle dst stream => Sys2Proof.Machine.execSendContextIdle dst stream s
  | .sendContextFree dst stream => Sys2Proof.Machine.execSendContextFree dst stream s
  | .closedContextFree src stream => Sys2Proof.Machine.execClosedContextFree src stream s
  | .rxIdle src stream => Sys2Proof.Machine.execRxIdle src stream s
  | .commandRx p f => Sys2Proof.Machine.execCommandRx p f s
  | .cmdRetry seq => Sys2Proof.Machine.execCmdRetry seq s
  | .cack f => Sys2Proof.Machine.execCack f s
  | .routeHiWrite e w => Sys2Proof.Machine.execRouteHiWrite e w s
  | .portDimWrite e k w => Sys2Proof.Machine.execPortDimWrite e k w s
  | .deflectMaskWrite e hi w => Sys2Proof.Machine.execDeflectMaskWrite e hi w s
  | .pause e w => Sys2Proof.Machine.execPause e w s
  | .drained e => Sys2Proof.Machine.execDrained e s
  | .openFrameRx j f => Sys2Proof.Machine.execOpenFrameRx j f s
  | .openRxDeliver b q => Sys2Proof.Machine.execOpenRxDeliver b q s
  | .openTx b q tp => Sys2Proof.Machine.execOpenTx b q tp s
  | .ifCfgWrite b w => Sys2Proof.Machine.execIfCfgWrite b w s
  | .steerHiWrite b w => Sys2Proof.Machine.execSteerHiWrite b w s
  | .openIfDown j => Sys2Proof.Machine.execOpenIfDown j s
  | .mgmtCommand d => Sys2Proof.Machine.execMgmtCommand d s
  | .rcmdArm c raiseId => Sys2Proof.Machine.execRcmdArm c raiseId s
  | .armReplay c raiseId => Sys2Proof.Machine.execArmReplay c raiseId s
  | .rcmdStart c => Sys2Proof.Machine.execRcmdStart c s
  | .rcmdPrepare c => Sys2Proof.Machine.execRcmdPrepare c s
  | .rcmdReRaise c => Sys2Proof.Machine.execRcmdReRaise c s
  | .rcmdStop c => Sys2Proof.Machine.execRcmdStop c s
  | .rcmdHold c => Sys2Proof.Machine.execRcmdHold c s
  | .rcmdResume c => Sys2Proof.Machine.execRcmdResume c s
  | .rcmdDiscard c => Sys2Proof.Machine.execRcmdDiscard c s
  | .prepare f => Sys2Proof.Machine.execPrepare f s
  | .reRaise f => Sys2Proof.Machine.execReRaise f s
  | .prepareAck f => Sys2Proof.Machine.execPrepareAck f s
  | .prepTimeout c => Sys2Proof.Machine.execPrepTimeout c s
  | .commit f => Sys2Proof.Machine.execCommit f s
  | .abort f => Sys2Proof.Machine.execAbort f s
  | .noCommit c => Sys2Proof.Machine.execNoCommit c s
  | .raisingStart c => Sys2Proof.Machine.execRaisingStart c s
  | .stop f => Sys2Proof.Machine.execStop f s
  | .hold f => Sys2Proof.Machine.execHold f s
  | .resume f => Sys2Proof.Machine.execResume f s
  | .stopEffect c => Sys2Proof.Machine.execStopEffect c s
  | .holdEffect c => Sys2Proof.Machine.execHoldEffect c s
  | .resumeTick c => Sys2Proof.Machine.execResumeTick c s
  | .predecessorStop c => Sys2Proof.Machine.execPredecessorStop c s
  | .faultReport f => Sys2Proof.Machine.execFaultReport f s
  | .nodeIdWrite w => Sys2Proof.Machine.execNodeIdWrite w s
  | .trlCfgWrite w => Sys2Proof.Machine.execTrlCfgWrite w s
  | .certChain => Sys2Proof.Machine.execCertChain s
  | .ctxCreate c part conf => Sys2Proof.Machine.execCtxCreate c part conf s
  | .ctxDestroy c => Sys2Proof.Machine.execCtxDestroy c s
  | .ctxCert c nonce => Sys2Proof.Machine.execCtxCert c nonce s
  | .sessionOpen c nt modulus => Sys2Proof.Machine.execSessionOpen c nt modulus s
  | .sessionFinish c m => Sys2Proof.Machine.execSessionFinish c m s
  | .ioKeys c m => Sys2Proof.Machine.execIoKeys c m s
  | .access c m => Sys2Proof.Machine.execAccess c m s
  | .hostSessionClose c m => Sys2Proof.Machine.execHostSessionClose c m s
  | .importBegin c hdr set => Sys2Proof.Machine.execImportBegin c hdr set s
  | .importChunks c addr count => Sys2Proof.Machine.execImportChunks c addr count s
  | .importEnd x => Sys2Proof.Machine.execImportEnd x s
  | .ownerEnrol r => Sys2Proof.Machine.execOwnerEnrol r s
  | .ownerTransfer r => Sys2Proof.Machine.execOwnerTransfer r s
  | .rollback r => Sys2Proof.Machine.execRollback r s
  | .identityDestroy r => Sys2Proof.Machine.execIdentityDestroy r s
  | .sealArm r => Sys2Proof.Machine.execSealArm r s
  | .sealDisarm r => Sys2Proof.Machine.execSealDisarm r s
  | .sealClear r => Sys2Proof.Machine.execSealClear r s
  | .mgmtKey r => Sys2Proof.Machine.execMgmtKey r s
  | .fabricAnchor r => Sys2Proof.Machine.execFabricAnchor r s
  | .nonceRenewal => Sys2Proof.Machine.execNonceRenewal s
  | .sealBreak ns => Sys2Proof.Machine.execSealBreak ns s
  | .presenceAsserted ms => Sys2Proof.Machine.execPresenceAsserted ms s
  | .presenceAbort => Sys2Proof.Machine.execPresenceAbort s
  | .aliasReissue => Sys2Proof.Machine.execAliasReissue s
  | .debugAttach => Sys2Proof.Machine.execDebugAttach s
  | .ledgerUpdate events => Sys2Proof.Machine.execLedgerUpdate events s
  | .correctionUpdate meas => Sys2Proof.Machine.execCorrectionUpdate meas s
  | .thinStuck p => Sys2Proof.Machine.execThinStuck p s
  | .pstateWrite pg w => Sys2Proof.Machine.execPstateWrite pg w s
  | .powerEntryDone pg => Sys2Proof.Machine.execPowerEntryDone pg s
  | .powerExitDone pg => Sys2Proof.Machine.execPowerExitDone pg s
  | .hostPending d => Sys2Proof.Machine.execHostPending d s
  | .unitStateWrite c w => Sys2Proof.Machine.execUnitStateWrite c w s
  | .isoRelease d w => Sys2Proof.Machine.execIsoRelease d w s
  | .packageReset ns => Sys2Proof.Machine.execPackageReset ns s
  | .resetPackage w => Sys2Proof.Machine.execResetPackage w s
  | .resetShepherd w => Sys2Proof.Machine.execResetShepherd w s
  | .watchdogExpiry => Sys2Proof.Machine.execWatchdogExpiry s
  | .wdtKick w => Sys2Proof.Machine.execWdtKick w s
  | .shepherdTimerCompare core w => Sys2Proof.Machine.execShepherdTimerCompare core w s
  | .boot o => Sys2Proof.Machine.execBoot o s
  | .recoveryImage kind img => Sys2Proof.Machine.execRecoveryImage kind img s
  | .presetEnter w => Sys2Proof.Machine.execPresetEnter w s
  | .partialResetEntry d => Sys2Proof.Machine.execPartialResetEntry d s
  | .presetRelease w => Sys2Proof.Machine.execPresetRelease w s
  | .partialResetReturn d xcal => Sys2Proof.Machine.execPartialResetReturn d xcal s
  | .pstWrite who k w => Sys2Proof.Machine.execPstWrite who k w s
  | .pstWriteDone inst => Sys2Proof.Machine.execPstWriteDone inst s
  | .flashErase w => Sys2Proof.Machine.execFlashErase w s
  | .flashProgram w => Sys2Proof.Machine.execFlashProgram w s
  | .flashDone ok => Sys2Proof.Machine.execFlashDone ok s
  | .vrPoll rs => Sys2Proof.Machine.execVrPoll rs s
  | .vrAlert rs => Sys2Proof.Machine.execVrAlert rs s
  | .tempUpdate ts => Sys2Proof.Machine.execTempUpdate ts s
  | .thermalTrip => Sys2Proof.Machine.execThermalTrip s
  | .registerWrite a w => Sys2Proof.Machine.execRegisterWrite a w s
  | .latchedPairRead a => Sys2Proof.Machine.execLatchedPairRead a s
  | .errCapt0Read pg => Sys2Proof.Machine.execErrCapt0Read pg s
  | .cntClear pg => Sys2Proof.Machine.execCntClear pg s
  | .cntFreeze pg on => Sys2Proof.Machine.execCntFreeze pg on s
  | .irqForce pg w => Sys2Proof.Machine.execIrqForce pg w s
  | .xcollLastRead r => Sys2Proof.Machine.execXcollLastRead r s
  | .apply w => Sys2Proof.Machine.execApply w s
  | .applyAtReraise w => Sys2Proof.Machine.execApplyAtReraise w s
  | .partitionMapApply => Sys2Proof.Machine.execPartitionMapApply s
  | .rotationWrite p j w => Sys2Proof.Machine.execRotationWrite p j w s
  | .slotTableWindowWrite e off size data => Sys2Proof.Machine.execSlotTableWindowWrite e off size data s
  | .load slot => Sys2Proof.Machine.execLoad slot s
  | .loadComplete => Sys2Proof.Machine.execLoadComplete s
  | .unload slot => Sys2Proof.Machine.execUnload slot s
  | .fpolicyWrite c w => Sys2Proof.Machine.execFpolicyWrite c w s
  | .auditCtrlWrite d w => Sys2Proof.Machine.execAuditCtrlWrite d w s
  | .auditLastRead d => Sys2Proof.Machine.execAuditLastRead d s
  | .halt d => Sys2Proof.Machine.execHalt d s
  | .haltEffect d => Sys2Proof.Machine.execHaltEffect d s
  | .haltRelease d => Sys2Proof.Machine.execHaltRelease d s
  | .abortSessionCommit d target => Sys2Proof.Machine.execAbortSessionCommit d target s
  | .abortBucketCommit d target => Sys2Proof.Machine.execAbortBucketCommit d target s
  | .abortInitCtrl d target => Sys2Proof.Machine.execAbortInitCtrl d target s
  | .raisingPreparation c => Sys2Proof.Machine.execRaisingPreparation c s
  | .reservedOpcode j slot w => Sys2Proof.Machine.execReservedOpcode j slot w s
  | .openIfUp j => Sys2Proof.Machine.execOpenIfUp j s
  | .powerLoss keepNew aon => Sys2Proof.Machine.execPowerLoss keepNew aon s

end Sys2Proof.Machine
end

