-- ==== Sys2Proof/WellFormed.lean ====
section
/-! DEFINITION. What the outside must respect when it sends a command: bounds that the
operands' types do not carry. The meanings are total and do not rely on it. -/
namespace Sys2Proof

/-- A slot issues at a position that some frame length has (R66, R123). -/
def Issue.ok (i : Issue) : Bool := i.pos < 16384

/-- A host access moves 1 to 64 bytes of one line (R213). -/
def HostReq.ok (r : HostReq) : Bool :=
  1 ≤ r.len.toNat && r.len.toNat ≤ 64 && r.addr.toNat % 64 + r.len.toNat ≤ 64

/-- Something arrived, and its first bit came in the longest tick period, L + 1 (R85, R290). -/
def RxFrame.ok (f : RxFrame) : Bool := !f.bytes.isEmpty && f.start < 16385

/-- The unit exists at the longest frame: 25L/256 data slots and 4L/256 loose slots (R258). -/
def UnitStart.ok (u : UnitStart) : Bool :=
  match u.unit with
  | .data k => k.toNat < 1600
  | .loose _ => true
  | .allowance => true

/-- A request to the owner carries an RSA-4096 modulus and signature of 512 bytes (R385). -/
def OwnerReq.ok (r : OwnerReq) : Bool := r.modulus.length = 512 && r.signature.length = 512

/-- A frame at an open interface is at least one Ethernet header (R332). -/
def EthFrame.ok (f : EthFrame) : Bool := 14 ≤ f.bytes.length

/-- A slot's word fits its width (R110); bundle bits [255:252] are in question only when nonzero. -/
def reservedWordOk (k : SlotId) (w : BitVec 44) : Bool :=
  match k with
  | .m => w.toNat < 2 ^ 36
  | .v0 => true
  | .v1 => true
  | .l => w.toNat < 2 ^ 40
  | .s => w.toNat < 2 ^ 32
  | .f => w.toNat < 2 ^ 32
  | .c => w.toNat < 2 ^ 24
  | .top => 0 < w.toNat && w.toNat < 16

/-- What a sender must respect, command by command. -/
def Instr.wellFormed : Instr → Bool
  | .frameTick => true
  | .decisionPoint => true
  | .stall _ => true
  | .frameCfgWrite _ => true
  | .wallCmdLoad _ => true
  | .discCtrlStep _ => true
  | .startCtrlArm _ => true
  | .timeCapture _ _ _ => true
  | .captPop _ => true
  | .ppsOutPulse _ => true
  | .refInputInvalid _ => true
  | .refInputValid _ => true
  | .refRevert => true
  | .holdoverExpired => true
  | .refSelWrite _ => true
  | .pllStart => true
  | .droopStretch _ _ _ _ _ => true
  | .stretchEcho _ => true
  | .bentEnd i => i.ok
  | .rotationEntryEnd _ => true
  | .mnop i => i.ok
  | .mma i _ => i.ok
  | .mzero i _ => i.ok
  | .mdrain i _ => i.ok
  | .mfill i _ => i.ok
  | .vnop i _ => i.ok
  | .vadd i _ _ => i.ok
  | .vsub i _ _ => i.ok
  | .vmul i _ _ => i.ok
  | .vfma i _ _ => i.ok
  | .vfms i _ _ => i.ok
  | .vmax i _ _ => i.ok
  | .vmin i _ _ => i.ok
  | .vabs i _ _ => i.ok
  | .vneg i _ _ => i.ok
  | .vcmpeq i _ _ => i.ok
  | .vcmplt i _ _ => i.ok
  | .vcmple i _ _ => i.ok
  | .vclass i _ _ => i.ok
  | .vsel i _ _ => i.ok
  | .vand i _ _ => i.ok
  | .vor i _ _ => i.ok
  | .vxor i _ _ => i.ok
  | .vshl i _ _ => i.ok
  | .vshr i _ _ => i.ok
  | .vsra i _ _ => i.ok
  | .vcvt i _ _ => i.ok
  | .vpack i _ _ => i.ok
  | .vunpk i _ _ => i.ok
  | .vrcp i _ _ => i.ok
  | .vrsq i _ _ => i.ok
  | .vsqrt i _ _ => i.ok
  | .vdiv i _ _ => i.ok
  | .vexp i _ _ => i.ok
  | .vlog i _ _ => i.ok
  | .vsin i _ _ => i.ok
  | .vcos i _ _ => i.ok
  | .vtanh i _ _ => i.ok
  | .verf i _ _ => i.ok
  | .vrsum i _ _ => i.ok
  | .vrmax i _ _ => i.ok
  | .vrmin i _ _ => i.ok
  | .vargmx i _ _ => i.ok
  | .vscan i _ _ => i.ok
  | .vperm i _ _ => i.ok
  | .vrot i _ _ => i.ok
  | .vbcast i _ _ => i.ok
  | .viota i _ _ => i.ok
  | .vmov i _ _ => i.ok
  | .vext i _ _ => i.ok
  | .vins i _ _ => i.ok
  | .vrng i _ _ => i.ok
  | .scalarVadd i _ _ => i.ok
  | .scalarVsub i _ _ => i.ok
  | .scalarVmul i _ _ => i.ok
  | .scalarVfma i _ _ => i.ok
  | .scalarVfms i _ _ => i.ok
  | .scalarVmax i _ _ => i.ok
  | .scalarVmin i _ _ => i.ok
  | .lnop i => i.ok
  | .vact i _ => i.ok
  | .vrd i _ => i.ok
  | .vwr i _ => i.ok
  | .vrdp i _ => i.ok
  | .bentld i _ => i.ok
  | .vpre i _ => i.ok
  | .snop i => i.ok
  | .smovl i _ => i.ok
  | .smovs i _ => i.ok
  | .swb i _ => i.ok
  | .sld i _ => i.ok
  | .sst i _ => i.ok
  | .xld i _ => i.ok
  | .fnop i => i.ok
  | .fsend i _ => i.ok
  | .frecv i _ => i.ok
  | .ffwd i _ => i.ok
  | .cnop i => i.ok
  | .sli i _ _ => i.ok
  | .slis i _ _ => i.ok
  | .saddi i _ _ => i.ok
  | .sadd i _ _ _ => i.ok
  | .ssub i _ _ _ => i.ok
  | .sand i _ _ _ => i.ok
  | .sor i _ _ _ => i.ok
  | .sxor i _ _ _ => i.ok
  | .sshl i _ _ _ => i.ok
  | .sshr i _ _ _ => i.ok
  | .ssra i _ _ _ => i.ok
  | .smul i _ _ _ => i.ok
  | .lset i _ _ => i.ok
  | .loopb i _ _ => i.ok
  | .bseal i _ => i.ok
  | .bnext i _ => i.ok
  | .xset i _ _ _ => i.ok
  | .xadv i _ _ => i.ok
  | .xmov i _ _ => i.ok
  | .gadd i _ _ => i.ok
  | .gsub i _ => i.ok
  | .grd i _ _ => i.ok
  | .gcmps i _ _ => i.ok
  | .gcmp i _ _ => i.ok
  | .gtest i _ _ => i.ok
  | .tmark i _ => i.ok
  | .traceRecord => true
  | .refresh _ => true
  | .scrub _ => true
  | .hostAccess r => r.ok
  | .hostEngineGuard _ _ _ => true
  | .ctxRowsWrite _ _ _ => true
  | .carveWrite _ _ => true
  | .imapWrite _ _ => true
  | .retire _ _ => true
  | .initCtrlStart _ _ => true
  | .initComplete _ => true
  | .errLogRead _ => true
  | .ceLastRead _ => true
  | .vcollLastRead _ => true
  | .derrLastRead _ => true
  | .collLastRead _ => true
  | .bind _ _ => true
  | .update _ _ => true
  | .release _ _ => true
  | .bucketCommit _ _ => true
  | .commitComplete _ => true
  | .entryWindowWrite _ _ _ _ => true
  | .leashedSend _ _ _ => true
  | .deferredSend _ => true
  | .latePacketSend u => UnitStart.ok u
  | .laneTake _ _ _ => true
  | .laneDrive _ _ _ => true
  | .seqFrameRx _ f => f.ok
  | .combineStep _ _ _ _ => true
  | .setCheck _ _ => true
  | .setRelease _ _ => true
  | .setCfgWrite _ _ _ => true
  | .ringCfgWrite _ _ => true
  | .stageCfgWrite _ _ => true
  | .scollLastRead _ => true
  | .ovwLastRead _ => true
  | .linkDown _ _ => true
  | .brace _ => true
  | .portEnable _ _ => true
  | .portDisable _ _ => true
  | .forceDown _ _ => true
  | .kindWrite _ _ => true
  | .phyAligned _ => true
  | .helloSend _ => true
  | .hello _ _ => true
  | .probe _ _ _ => true
  | .echo _ _ _ => true
  | .readySend _ => true
  | .ready _ => true
  | .down _ _ => true
  | .trainTimeout _ => true
  | .phyLockLoss _ => true
  | .retrain _ => true
  | .nakRx _ _ => true
  | .replay _ => true
  | .replayTimeout _ => true
  | .ackTimer _ => true
  | .ackRx _ _ => true
  | .creditRx _ _ _ => true
  | .linkRekey _ => true
  | .keyUpdate _ => true
  | .keyCerts _ m => m.length ≤ 4096
  | .keySecret _ m => m.length = 512
  | .keyFinish _ _ => true
  | .keyResend _ => true
  | .authHoldoffEnd _ => true
  | .looseForward _ units => units.all UnitStart.ok
  | .looseOriginate _ => true
  | .msg _ => true
  | .rd _ => true
  | .wr _ => true
  | .cpl _ => true
  | .close _ => true
  | .reorderTimeout _ _ => true
  | .reqTimeout _ => true
  | .sendContextIdle _ _ => true
  | .sendContextFree _ _ => true
  | .closedContextFree _ _ => true
  | .rxIdle _ _ => true
  | .commandRx _ _ => true
  | .cmdRetry _ => true
  | .cack _ => true
  | .routeHiWrite _ _ => true
  | .portDimWrite _ _ _ => true
  | .deflectMaskWrite _ _ _ => true
  | .pause _ _ => true
  | .drained _ => true
  | .openFrameRx _ f => f.ok
  | .openRxDeliver _ _ => true
  | .openTx _ _ _ => true
  | .ifCfgWrite _ _ => true
  | .steerHiWrite _ _ => true
  | .openIfDown _ => true
  | .mgmtCommand _ => true
  | .rcmdArm _ _ => true
  | .armReplay _ _ => true
  | .rcmdStart _ => true
  | .rcmdPrepare _ => true
  | .rcmdReRaise _ => true
  | .rcmdStop _ => true
  | .rcmdHold _ => true
  | .rcmdResume _ => true
  | .rcmdDiscard _ => true
  | .prepare _ => true
  | .reRaise _ => true
  | .prepareAck _ => true
  | .prepTimeout _ => true
  | .commit _ => true
  | .abort _ => true
  | .noCommit _ => true
  | .raisingStart _ => true
  | .stop _ => true
  | .hold _ => true
  | .resume _ => true
  | .stopEffect _ => true
  | .holdEffect _ => true
  | .resumeTick _ => true
  | .predecessorStop _ => true
  | .faultReport _ => true
  | .nodeIdWrite _ => true
  | .trlCfgWrite _ => true
  | .certChain => true
  | .ctxCreate _ _ _ => true
  | .ctxDestroy _ => true
  | .ctxCert _ _ => true
  | .sessionOpen _ _ _ => true
  | .sessionFinish _ _ => true
  | .ioKeys _ _ => true
  | .access _ _ => true
  | .hostSessionClose _ _ => true
  | .importBegin _ _ _ => true
  | .importChunks _ _ _ => true
  | .importEnd _ => true
  | .ownerEnrol r => r.ok
  | .ownerTransfer r => r.ok
  | .rollback r => r.ok
  | .identityDestroy r => r.ok
  | .sealArm r => r.ok
  | .sealDisarm r => r.ok
  | .sealClear r => r.ok
  | .mgmtKey r => r.ok
  | .fabricAnchor r => r.ok
  | .nonceRenewal => true
  | .sealBreak _ => true
  | .presenceAsserted _ => true
  | .presenceAbort => true
  | .aliasReissue => true
  | .debugAttach => true
  | .ledgerUpdate _ => true
  | .correctionUpdate _ => true
  | .thinStuck _ => true
  | .pstateWrite _ _ => true
  | .powerEntryDone _ => true
  | .powerExitDone _ => true
  | .hostPending _ => true
  | .unitStateWrite _ _ => true
  | .isoRelease _ _ => true
  | .packageReset _ => true
  | .resetPackage _ => true
  | .resetShepherd _ => true
  | .watchdogExpiry => true
  | .wdtKick _ => true
  | .shepherdTimerCompare _ _ => true
  | .boot _ => true
  | .recoveryImage _ _ => true
  | .presetEnter _ => true
  | .partialResetEntry _ => true
  | .presetRelease _ => true
  | .partialResetReturn _ _ => true
  | .pstWrite _ _ _ => true
  | .pstWriteDone _ => true
  | .flashErase _ => true
  | .flashProgram _ => true
  | .flashDone _ => true
  | .vrPoll _ => true
  | .vrAlert _ => true
  | .tempUpdate _ => true
  | .thermalTrip => true
  | .registerWrite _ _ => true
  | .latchedPairRead _ => true
  | .errCapt0Read _ => true
  | .cntClear _ => true
  | .cntFreeze _ _ => true
  | .irqForce _ _ => true
  | .xcollLastRead _ => true
  | .apply _ => true
  | .applyAtReraise _ => true
  | .partitionMapApply => true
  | .rotationWrite _ _ _ => true
  | .slotTableWindowWrite _ _ _ _ => true
  | .load _ => true
  | .loadComplete => true
  | .unload _ => true
  | .fpolicyWrite _ _ => true
  | .auditCtrlWrite _ _ => true
  | .auditLastRead _ => true
  | .halt _ => true
  | .haltEffect _ => true
  | .haltRelease _ => true
  | .abortSessionCommit _ _ => true
  | .abortBucketCommit _ _ => true
  | .abortInitCtrl _ _ => true
  | .raisingPreparation _ => true
  | .reservedOpcode i slot w => i.ok && reservedWordOk slot w
  | .openIfUp _ => true
  | .powerLoss _ _ => true

end Sys2Proof
end

