-- ==== Sys2Proof/Safety.lean ====
section
/-! DEFINITION. What statements call well-kept state, a safe command, a change of some registers only, and an
operation that issues cleanly. -/
namespace Sys2Proof.Safety
open Sys2Proof Sys2Proof.Machine

/-- Every memory and the registers are in canonical form. -/
def canonical (s : State) : Bool :=
  regsWf s.regs && Memory.wf s.vlt.mem && Memory.wf s.clu.store && Memory.wf s.clu.wbuf &&
  Memory.wf s.edge.landing && Memory.wf s.edge.slotMem && Memory.wf s.ses.table &&
  Memory.wf s.brd.flash && Memory.wf s.brd.sram

/-- The frame length in force, and one that waits for its tick, are lengths the package can have (R66). -/
def legalFrame (s : State) : Bool :=
  10 ≤ s.time.frameLog2 && s.time.frameLog2 ≤ 14 &&
  (match s.time.pendLog2 with | none => true | some n => 10 ≤ n && n ≤ 14)

/-- Every waiting command is well formed. -/
def queueFormed (s : State) : Bool := s.pending.all Instr.wellFormed

/-- The step answers a next state. -/
def goesOn (s : State) : Bool := match step s with | .next _ => true | _ => false

/-- `t` differs from `s` at most in the registers whose keys `ks` lists. -/
def onlyRegs (s t : State) (ks : List Nat) : Prop :=
  t = { s with regs := t.regs } ∧ ∀ k, k ∉ ks → regGet t k = regGet s k

/-- The same registers but those that `ks` lists. -/
def regsBut (s t : State) (ks : List Nat) : Prop := ∀ k, k ∉ ks → regGet t k = regGet s k

/-- The cycle in which position `i.pos` of a cluster's frame issues. -/
def slotCycle (s : State) (i : Issue) : Nat := originOf s i.cl.val + i.pos

/-- The package has come to that cycle: it does not lie in the past, and nothing in flight lies before it. -/
def reached (s : State) (i : Issue) : Prop :=
  s.clu.cyc ≤ slotCycle s i ∧ ∀ e ∈ s.clu.pipe, slotCycle s i ≤ e.stage

/-- An operation of slot `k`, which needs the units of mask `u` and ends `due` cycles after it issues, issues
cleanly: its bundle runs, its units are on, its unit is free (R140, R404), it ends before the guard
(R67), and no audit of the cluster runs (R469). -/
def issuesCleanly (s : State) (i : Issue) (k u due : Nat) : Prop :=
  reached s i ∧ slotRuns s i.cl.val (slotCycle s i) = true ∧ unitOff s i.cl.val u = 0 ∧
  tabGet 0 (i.cl.val * 8 + k) s.clu.busy ≤ slotCycle s i ∧
  posOf s i.cl.val (slotCycle s i + due) < guardPos s ∧ audited s i.cl.val = false

/-- `s` in that cycle, with stages of slot `k` under way: each is given by its distance from issue. Nothing
else has changed. -/
def launched (s : State) (i : Issue) (k : Nat) (evs : List (Nat × Act)) : State :=
  { s with
    clu.cyc := slotCycle s i
    clu.pipe := s.clu.pipe ++ evs.map fun x => ⟨i.cl.val, k, slotCycle s i, slotCycle s i + x.1, x.2⟩ }

/-- One stage of cluster `c` is alone in flight, with no transfer on its way and no audit of the cluster. -/
def alone (s : State) (c k n t : Nat) (a : Act) : Prop :=
  c < 1024 ∧ s.clu.pipe = [⟨c, k, n, t, a⟩] ∧ s.clu.lanes = [] ∧ s.clu.cyc ≤ t ∧ audited s c = false

/-- `s` after cycle `t`, with the stages `es` under way. Nothing else has changed. -/
def after (s : State) (t : Nat) (es : List Ev) : State := { s with clu.pipe := es, clu.cyc := t + 1 }

/-- From `m` to `m'` a domain has taken by period `tp`, oldest first, what it owed by then of the stretches that begin 4
periods before `lim`, one in two periods; the one that it owes next is not due yet, or not free to be taken (R98,
R100). -/
def tookDue (x : Nat) (tp lim : Int) (m m' : Domain) : Prop :=
  ∃ k ≤ m.owed.length, m'.owed = m.owed.drop k ∧ m'.taken = m.taken + k ∧ m.next + 2 * k ≤ m'.next ∧
    (k = 0 → m'.next = m.next) ∧ (∀ y ∈ m.owed.take k, y.2 + 4 ≤ lim ∧ owedFrom x y ≤ tp) ∧
    ∀ y ∈ m'.owed.head?, y.2 + 4 ≤ lim → tp < max m'.next (owedFrom x y)

/-- Two states that differ at most in the events that the ledger has counted in this tick period (R392). -/
def sameButEvents (x y : State) : Prop := x = { y with nrg.now := x.nrg.now }

/-- A V operation under way: its result arrives at the latency of its row of R154, its active lanes are events of
kind `k` (R393), and a row with an occupancy above 1 keeps its unit. -/
def vLaunched (s : State) (i : Issue) (u : VUnit) (o : VOp) (k : EventKind) (l : Nat × Nat) (res : Act) : State :=
  launched s i (vslot u) ((l.1 - 1, res) :: (0, .count k (vLanes s i.cl.val o)) ::
    (if 1 < l.2 then [(0, Act.busyTo (vslot u) (slotCycle s i + l.2))] else []))

/-- A V operation of the latency row `l` issues cleanly: XG is assigned (R113), the row lists the format
(R154), and RM is zero unless `rm` says that it is honoured (R147). -/
def vIssues (s : State) (i : Issue) (u : VUnit) (o : VOp) (l : Nat × Nat) (rm : Bool) : Prop :=
  issuesCleanly s i (vslot u) (vunitMask u) (l.1 - 1) ∧ o.xg.toNat ≤ 8 ∧ l.1 ≠ 0 ∧ (rm = true ∨ o.rm = 0)

end Sys2Proof.Safety
end

