-- ==== Sys2Proof/Certificates/Slice0/Obligations.lean ====
section
/-! DEFINITION. The statements about the model, for the provers. -/
open Sys2Proof Sys2Proof.Machine Sys2Proof.Safety

/-! ## The queue -/

/-- A step runs the command at the front of the queue on the state with the rest of the queue; on an empty
queue the package idles (the model's choice, log 1). -/
def Obligations.StepRunsFrontCommand : Prop :=
  (∀ (s : State) (c : Instr) (rest : List Instr), s.pending = c :: rest →
    step s = exec c { s with pending := rest }) ∧
  (∀ s : State, s.pending = [] → step s = .next s)

/-- No command refuses, and only FRAME_TICK and DROOP_STRETCH can fault. That a droop of more than 100 mV faults, and a
partition that has not finished its work part in two tick periods, is the model's choice (log 16): R101 and R483 leave
the behaviour beyond the supply specification undefined. -/
def Obligations.OnlyTwoCommandsCanFault : Prop :=
  (∀ (c : Instr) (s : State), c ≠ .frameTick → (∀ d mv n b tp, c ≠ .droopStretch d mv n b tp) →
    ∃ t, exec c s = .next t) ∧
  (∀ s : State, (∃ t, exec .frameTick s = .next t) ∨
    (exec .frameTick s = .fault .beyondSupplySpec ∧ s.time.pllOn = true ∧ ∃ p < 16, (part s p).kind = .finish)) ∧
  (∀ (s : State) (d : Fin 67) (mv n : Nat) (b : Bool) (tp : Nat),
    (100 < mv → exec (.droopStretch d mv n b tp) s = .fault .beyondSupplySpec) ∧
    (mv ≤ 100 → ∃ t, exec (.droopStretch d mv n b tp) s = .next t))

/-- The queue is first in, first out: a step takes its front command, and no command adds, drops or
reorders one; well-formed commands stay well formed. -/
def Obligations.QueueIsFirstInFirstOut : Prop :=
  ∀ s t : State, queueFormed s = true → step s = .next t → queueFormed t = true ∧ t.pending = s.pending.tail

/-- Every step keeps the memories and the registers in canonical form. -/
def Obligations.CanonicalFormIsKept : Prop :=
  ∀ s t : State, canonical s = true → step s = .next t → canonical t = true

/-- Every step keeps the frame length among the lengths of R66. -/
def Obligations.FrameLengthStaysLegal : Prop :=
  ∀ s t : State, legalFrame s = true → step s = .next t → legalFrame t = true

/-- The state after reset has an empty queue, canonical form and a legal frame length; the frame length is
2,048 cycles and no tick has happened. -/
def Obligations.ResetMeetsTheInvariants : Prop :=
  queueFormed State.reset = true ∧ State.reset.pending = [] ∧ canonical State.reset = true ∧
  legalFrame State.reset = true ∧ frameLen State.reset = 2048 ∧ State.reset.time.tick = 0

/-! ## Bundle slots -/

/-- The null operations only let time pass to their position; the other operations of the C slot that write no
scalar register: loop counters, seal and next bent, extents, pegs, markers (R111, R121 to R123, R126, R127, R131,
R133, R142, R474). -/
def Obligations.ControlOperationResults : Prop :=
  (∀ (s : State) (i : Issue) (u : VUnit), reached s i →
    ∀ c ∈ [Instr.mnop i, .vnop i u, .lnop i, .snop i, .fnop i, .cnop i],
      exec c s = .next { s with clu.cyc := slotCycle s i }) ∧
  (∀ (s : State) (i : Issue) (k : BitVec 1) (imm16 : BitVec 16) (tgt : BitVec 13) (a : BitVec 5) (x : BitVec 3)
    (sh : BitVec 4) (xp : BitVec 11) (g pd : BitVec 4) (m : BitVec 18), issuesCleanly s i 6 0 0 →
    let A := sregOf s i.cl.val a.toNat
    let n := lcOf s i.cl.val k.toNat
    exec (.lset i k imm16) s = .next (launched s i 6 [(0, .lcWrite k imm16)]) ∧
    (n = 0 → exec (.loopb i k tgt) s = .next (launched s i 6 [])) ∧
    (n ≠ 0 → exec (.loopb i k tgt) s = .next (launched s i 6 [(0, .lcWrite k (n - 1)), (0, .jump tgt)])) ∧
    (1 ≤ (A.extractLsb' 16 14).toNat → (A.extractLsb' 16 14).toNat ≤ 8192 →
      exec (.bseal i a) s = .next (launched s i 6 [(0, .sealHalf (A.extractLsb' 0 16) (A.extractLsb' 16 14))])) ∧
    exec (.bnext i a) s = .next (launched s i 6 [(0, .nextBent (A.extractLsb' 0 16))]) ∧
    exec (.xset i x sh xp) s = .next (launched s i 6 [(0, .xPos x (xp.setWidth 24)), (0, .xShift x sh)]) ∧
    exec (.xadv i x imm16) s = .next (launched s i 6
      [(0, .xPos x ((xregOf s i.cl.val x.toNat).extractLsb' 32 24 + imm16.signExtend 24))]) ∧
    exec (.xmov i x a) s = .next (launched s i 6 [(0, .xLimit x (A.extractLsb' 0 32))]) ∧
    exec (.gadd i g imm16) s = .next (launched s i 6 [(0, .pegAdd g imm16.toNat)]) ∧
    exec (.gsub i g) s = .next (launched s i 6 [(0, .pegAdd g (-1))]) ∧
    exec (.gcmps i g a) s = .next (launched s i 6 [(0, .pegCmpWrite g (A.extractLsb' 0 32))]) ∧
    exec (.gcmp i g imm16) s = .next (launched s i 6 [(0, .pegCmpWrite g (imm16.setWidth 32))]) ∧
    exec (.gtest i g pd) s = .next (launched s i 6 [(0, .pregWrite pd (BitVec.allOnes 256)
      (if pegSignal s i.cl.val g.toNat then BitVec.allOnes 256 else 0))]) ∧
    exec (.tmark i m) s = .next (launched s i 6 [(0, .mark m)]))

/-- The scalar operations of the C slot: the value that is on its way to sd, and its latency (R154). -/
def Obligations.ScalarOperationResults : Prop :=
  ∀ (s : State) (i : Issue) (d a b : BitVec 5) (imm : BitVec 13) (g : BitVec 4),
    let A := sregOf s i.cl.val a.toNat
    let B := sregOf s i.cl.val b.toNat
    let D := sregOf s i.cl.val d.toNat
    (issuesCleanly s i 6 0 0 →
      ∀ x ∈ ([(.sli i d imm, imm.signExtend 64), (.slis i d imm, D <<< 13 ||| imm.setWidth 64),
              (.saddi i d imm, D + imm.signExtend 64), (.sadd i d a b, A + B), (.ssub i d a b, A - B),
              (.sand i d a b, A &&& B), (.sor i d a b, A ||| B), (.sxor i d a b, A ^^^ B),
              (.sshl i d a b, A <<< (B.toNat % 64)), (.sshr i d a b, A >>> (B.toNat % 64)),
              (.ssra i d a b, A.sshiftRight (B.toNat % 64)),
              (.grd i g d, (pegOf s i.cl.val g.toNat).setWidth 64)] : List (Instr × BitVec 64)),
        exec x.1 s = .next (launched s i 6 [(0, .sregWrite d x.2)])) ∧
    (issuesCleanly s i 6 0 2 →
      exec (.smul i d a b) s = .next (launched s i 6 [(2, .sregWrite d (A * B))]))

/-- The elementwise operations of one, two and three sources, and the scalar forms: each element of the
result is the operation's value of the same element of its sources, read at issue; only active lanes
will be written (R147, R148, R174 to R181, R195, R196). Which result an approximated function gives within its bound is
the model's free choice (log 11).
Compares and VCLASS: bit l of pd will be the test of the element that R148 assigns to lane l. -/
def Obligations.ElementwiseVectorResults : Prop :=
  (∀ (s : State) (i : Issue) (u : VUnit) (o : VOp),
    let c := i.cl.val
    let f := o.fmt.toNat
    let w := vw f
    let rm := rmOf o.rm.toNat
    let lanes := writeLanes (lanesOn s c o) w
    let a := velem (vregOf s c o.va.toNat) w
    let b := velem (vregOf s c o.vb.toNat) w
    let d := velem (vregOf s c o.vc.toNat) w
    let sb := (sregOf s c (o.vb.toNat % 32)).toNat % 2 ^ w
    (o.vb = 0 → o.vc = 0 →
      ∀ x ∈ ([(.vabs i u o, vabsLat, vAbs), (.vneg i u o, vabsLat, vNeg), (.vrcp i u o, vrcpLat, vTrans .rcp),
              (.vrsq i u o, vrcpLat, vTrans .rsq), (.vsqrt i u o, vsqrtLat, vSqrt rm),
              (.vexp i u o, vexpLat, vTrans .exp), (.vlog i u o, vexpLat, vTrans .log),
              (.vsin i u o, vsinLat, vTrans .sin), (.vcos i u o, vsinLat, vTrans .cos),
              (.vtanh i u o, vsinLat, vTrans .tanh), (.verf i u o, vsinLat, vTrans .erf),
              (.vmov i u o, vmovLat, fun _ x => x)] : List (Instr × VLat × (Nat → Nat → Nat))),
        vIssues s i u o (vlat x.2.1 f) x.2.1.rm →
        exec x.1 s = .next (vLaunched s i u o (vKind f x.2.1.trans) (vlat x.2.1 f)
          (.vregWrite o.vd lanes (vecOf w fun k => x.2.2 f (a k))))) ∧
    (o.vc = 0 →
      ∀ x ∈ ([(.vadd i u o, vaddLat, vAdd rm), (.vsub i u o, vaddLat, vSub rm), (.vmul i u o, vmulLat, vMul rm),
              (.vmax i u o, vmaxLat, vMax), (.vmin i u o, vmaxLat, vMin), (.vdiv i u o, vdivLat, vDiv rm),
              (.vand i u o, vbitLat, fun _ x y => x &&& y), (.vor i u o, vbitLat, fun _ x y => x ||| y),
              (.vxor i u o, vbitLat, fun _ x y => x ^^^ y), (.vshl i u o, vbitLat, vShl),
              (.vshr i u o, vbitLat, vShr), (.vsra i u o, vbitLat, vSra)] :
              List (Instr × VLat × (Nat → Nat → Nat → Nat))),
        vIssues s i u o (vlat x.2.1 f) x.2.1.rm →
        exec x.1 s = .next (vLaunched s i u o (vKind f x.2.1.trans) (vlat x.2.1 f)
          (.vregWrite o.vd lanes (vecOf w fun k => x.2.2 f (a k) (b k))))) ∧
    (o.vc = 0 → o.vb.toNat < 32 →
      ∀ x ∈ ([(.scalarVadd i u o, vaddLat, vAdd rm), (.scalarVsub i u o, vaddLat, vSub rm),
              (.scalarVmul i u o, vmulLat, vMul rm), (.scalarVmax i u o, vmaxLat, vMax),
              (.scalarVmin i u o, vmaxLat, vMin)] : List (Instr × VLat × (Nat → Nat → Nat → Nat))),
        vIssues s i u o (vlat x.2.1 f) x.2.1.rm →
        exec x.1 s = .next (vLaunched s i u o (vKind f x.2.1.trans) (vlat x.2.1 f)
          (.vregWrite o.vd lanes (vecOf w fun k => x.2.2 f (a k) sb)))) ∧
    (vIssues s i u o (vlat vfmaLat f) true →
      (∀ x ∈ ([(.vfma i u o, vFma rm), (.vfms i u o, vFms rm)] : List (Instr × (Nat → Nat → Nat → Nat → Nat))),
        exec x.1 s = .next (vLaunched s i u o (vKind f vfmaLat.trans) (vlat vfmaLat f)
          (.vregWrite o.vd lanes (vecOf w fun k => x.2 f (a k) (b k) (d k))))) ∧
      (o.vb.toNat < 32 →
        ∀ x ∈ ([(.scalarVfma i u o, vFma rm), (.scalarVfms i u o, vFms rm)] :
                List (Instr × (Nat → Nat → Nat → Nat → Nat))),
          exec x.1 s = .next (vLaunched s i u o (vKind f vfmaLat.trans) (vlat vfmaLat f)
            (.vregWrite o.vd lanes (vecOf w fun k => x.2 f (a k) sb (d k))))))) ∧
  (∀ (s : State) (i : Issue) (u : VUnit) (o : VOp),
    let c := i.cl.val
    let f := o.fmt.toNat
    let w := vw f
    let lanes := writeLanes (lanesOn s c o) w
    let a := velem (vregOf s c o.va.toNat) w
    let b := velem (vregOf s c o.vb.toNat) w
    (vIssues s i u o (vlat vmaxLat f) false → o.vd.toNat < 16 →
      (o.vc = 0 ∨ w = 16 ∧ o.vc.toNat < 2 ∨ w = 8 ∧ o.vc.toNat < 4) →
      ∀ x ∈ ([(.vcmpeq i u o, vEq), (.vcmplt i u o, vLt), (.vcmple i u o, vLe)] :
              List (Instr × (Nat → Nat → Nat → Bool))),
        exec x.1 s = .next (vLaunched s i u o (vKind f vmaxLat.trans) (vlat vmaxLat f)
          (.pregWrite (o.vd.extractLsb' 0 4) lanes (predOf w o.vc.toNat fun k => x.2 f (a k) (b k))))) ∧
    (vIssues s i u o (vlat vclassLat f) false → o.vd.toNat < 16 → o.vc.getLsbD 5 = false →
      (o.vc.getLsbD 4 = false ∨ w = 16) →
      ∃ p : BitVec 256, exec (.vclass i u o) s = .next (vLaunched s i u o (vKind f vclassLat.trans) (vlat vclassLat f)
          (.pregWrite (o.vd.extractLsb' 0 4) lanes p)) ∧
        ∀ l < 256, p.getLsbD l = (match vfp f with
          | some g => bitOf (o.vb.toNat + 64 * o.vc.toNat) (fclass g (a (cmpElem w l (b2n (o.vc.getLsbD 4)))))
          | none => false)))

/-- Selections and moves: VSEL, VPERM, VROT, VBCAST, VIOTA, VEXT, VINS, VRNG.
Conversions: VCVT within one element width, VPACK and VUNPK. -/
def Obligations.MoveAndConversionResults : Prop :=
  (∀ (s : State) (i : Issue) (u : VUnit) (o : VOp),
    let c := i.cl.val
    let f := o.fmt.toNat
    let w := vw f
    let lanes := writeLanes (lanesOn s c o) w
    let A := vregOf s c o.va.toNat
    let B := vregOf s c o.vb.toNat
    let sa := (sregOf s c (o.va.toNat % 32)).toNat % 2 ^ w
    let k := (sregOf s c (o.vb.toNat % 32)).toNat % vn f
    (vIssues s i u o (vlat vselLat f) false → o.vc.toNat < 16 → f ≠ 3 →
      exec (.vsel i u o) s = .next (vLaunched s i u o (vKind f vselLat.trans) (vlat vselLat f)
        (.vregWrite o.vd lanes (blend 8192 32 (pregOf s c o.vc.toNat) A B)))) ∧
    (vIssues s i u o (vlat vpermLat f) false → o.vc = 0 →
      exec (.vperm i u o) s = .next (vLaunched s i u o (vKind f vpermLat.trans) (vlat vpermLat f)
        (.vregWrite o.vd lanes (vecOf w fun j => velem A w (velem B w j % vn f))))) ∧
    (vIssues s i u o (vlat vrotLat f) false →
      exec (.vrot i u o) s = .next (vLaunched s i u o (vKind f vrotLat.trans) (vlat vrotLat f)
        (.vregWrite o.vd lanes (vecOf w fun j => velem A w ((j + 64 * o.vc.toNat + o.vb.toNat) % vn f))))) ∧
    (vIssues s i u o (vlat vbcastLat f) false → o.va.toNat < 32 → o.vb = 0 → o.vc = 0 →
      exec (.vbcast i u o) s = .next (vLaunched s i u o (vKind f vbcastLat.trans) (vlat vbcastLat f)
        (.vregWrite o.vd lanes (vecOf w fun _ => sa))) ∧
      (vfp f = none → exec (.viota i u o) s = .next (vLaunched s i u o (vKind f vbcastLat.trans) (vlat vbcastLat f)
        (.vregWrite o.vd lanes (vecOf w fun j => j + sa))))) ∧
    (vIssues s i u o (vlat vrotLat f) false → o.vb.toNat < 32 → o.vc = 0 →
      (o.vd.toNat < 32 →
        exec (.vext i u o) s = .next (vLaunched s i u o (vKind f vrotLat.trans) (vlat vrotLat f)
          (if elemActive (lanesOn s c o) w k then .sregWrite (o.vd.extractLsb' 0 5) (BitVec.ofNat 64 (velem A w k))
           else .sregKeep (o.vd.extractLsb' 0 5)))) ∧
      (o.va.toNat < 32 →
        exec (.vins i u o) s = .next (vLaunched s i u o (vKind f vrotLat.trans) (vlat vrotLat f)
          (.vregElem o.vd w (if elemActive (lanesOn s c o) w k then k else vn f) sa)))) ∧
    (vIssues s i u o (vlat vrngLat f) false → o.vb.toNat < 32 → o.vb.toNat % 2 = 0 → o.vc = 0 →
      exec (.vrng i u o) s = .next (vLaunched s i u o (vKind f vrngLat.trans) (vlat vrngLat f)
        (.vregWrite o.vd lanes (rngV ((sregOf s c (o.vb.toNat % 32)).toNat % 2 ^ 32,
          (sregOf s c (o.vb.toNat % 32 + 1)).toNat % 2 ^ 32) A))))) ∧
  (∀ (s : State) (i : Issue) (u : VUnit) (o : VOp),
    let c := i.cl.val
    let f := o.fmt.toNat
    let rm := rmOf o.rm.toNat
    let src := o.vc.toNat % 8
    let p := o.vc.toNat / 8
    let l : Nat × Nat := if src = 3 ∨ f = 3 then (6, 2) else (4, 1)
    let A := vregOf s c o.va.toNat
    let B := vregOf s c o.vb.toNat
    (vIssues s i u o l true → o.vb = 0 → f ≠ 7 → src ≠ 7 → p < convRatio src f →
      exec (.vcvt i u o) s = .next (vLaunched s i u o (vKind (if src = 3 then 3 else f) false) l
        (.vregWrite o.vd (convLanes src f p (lanesOn s c o)) (convV rm src f p A)))) ∧
    (vIssues s i u o (vlat vpackLat f) true → o.vc.toNat < 16 → (o.vb = 0 ∨ matMx o.vc.toNat = true) →
      ∀ x ∈ ([(.vpack i u o, packV rm o.vc.toNat A B), (.vunpk i u o, unpackV rm o.vc.toNat A B)] :
              List (Instr × VecReg)),
        exec x.1 s = .next (vLaunched s i u o (vKind f vpackLat.trans) (vlat vpackLat f)
          (.vregWrite o.vd (writeLanes (lanesOn s c o) (vw f)) x.2))))

/-- Reductions, VARGMX and VSCAN: the value of the fixed tree over the active elements (R191 to R193). -/
def Obligations.ReductionResults : Prop :=
  ∀ (s : State) (i : Issue) (u : VUnit) (o : VOp),
    let c := i.cl.val
    let f := o.fmt.toNat
    let m := lanesOn s c o
    let A := vregOf s c o.va.toNat
    o.vb = 0 → o.vc = 0 →
    (vIssues s i u o (vlat vredLat f) false → o.vd.toNat < 32 →
      ∀ x ∈ ([(.vrsum i u o, reduceV f (sumId f) (vAdd .even (redFmt f)) m A),
              (.vrmax i u o, reduceV f (maxId f) (vMax (redFmt f)) m A),
              (.vrmin i u o, reduceV f (minId f) (vMin (redFmt f)) m A),
              (.vargmx i u o, argMax f m A)] : List (Instr × Nat)),
        exec x.1 s = .next (vLaunched s i u o (vKind f vredLat.trans) (vlat vredLat f)
          (.sregWrite (o.vd.extractLsb' 0 5) (BitVec.ofNat 64 x.2)))) ∧
    (vIssues s i u o (vlat vscanLat f) false →
      exec (.vscan i u o) s = .next (vLaunched s i u o (vKind f vscanLat.trans) (vlat vscanLat f)
        (.vregWrite o.vd (writeLanes m (vw f))
          (BitVec.ofNat 8192 (packElems (vw f) ((scanV f m A).map (BitVec.ofNat (vw f))))))))

/-- Tile operations: MZERO, MDRAIN and MFILL. -/
def Obligations.TileOperationResults : Prop :=
  ∀ (s : State) (i : Issue) (o : TileOp), o.xg.toNat ≤ 8 → o.rsv = 0 → o.rsvHi = 0 →
    let c := i.cl.val
    let cols := linesOn s c o.xg 64
    (issuesCleanly s i 0 1 0 → o.rowgrp = 0 → o.vreg = 0 →
      exec (.mzero i o) s = .next (launched s i 0
        [(0, .runSet o.tile (zeroRun (runOf s c o.tile.toNat) cols)), (0, .tileZero o.tile cols)])) ∧
    (issuesCleanly s i 0 1 3 →
      exec (.mdrain i o) s = .next (launched s i 0
        [(3, .vregWrite o.vreg (maskOf 256 fun l => cols.getLsbD (l % 64))
          (elem (tileOf s c o.tile.toNat) 8192 o.rowgrp.toNat))]) ∧
      exec (.mfill i o) s = .next (launched s i 0
        [(3, .tileFill o.tile o.rowgrp cols (vregOf s c o.vreg.toNat))]))

/-- MMA, aligned and on a free unit, answers the state in which its reads, its new open run and the closings of runs
are under way (R145, R146, R154): it adds its active products to the open run, whose count grows by k, and writes FP32
values exactly when the count passes or reaches 64. -/
def Obligations.MmaRunsAndCloses : Prop :=
  ∀ (s : State) (i : Issue) (o : MmaOp), o.xg.toNat ≤ 8 →
    let c := i.cl.val
    let lat := mmaTiming o.fmt.toNat
    let k := foldTerms o.fmt.toNat o.fold.toNat
    let sa := sregOf s c o.sa.toNat
    let seq := slotCycle s i * 65536 + s.clu.pipe.length
    let run := runOf s c o.tile.toNat
    let q := mmaRuns run k (mmaContrib s c seq o)
    mmaAligned sa o = true →
    issuesCleanly s i 0 1 (if q.2 = [] then lat.2 else lat.1 - 1) →
    exec (.mma i o) s = .next (launched s i 0 ((0, .runSet o.tile q.1) ::
      (0, .count (macKind o.fmt.toNat) (macCount (mmaContrib s c seq o))) :: mmaReads sa o seq (mmaOn (mmaContrib s c seq o)) ++
      q.2.map (fun ps => (lat.1 - 1, Act.tileClose o.tile (tileOf s c o.tile.toNat) ps)) ++
      (if 1 < lat.2 then [(0, Act.busyTo 0 (slotCycle s i + lat.2))] else []))) ∧
    (run.count + k < 64 → q.2 = [] ∧ q.1.count = run.count + k ∧ q.1.parts = run.parts ++ [mmaContrib s c seq o]) ∧
    (run.count + k = 64 → q.2 = [run.parts ++ [mmaContrib s c seq o]] ∧ q.1 = Run.init) ∧
    (64 < run.count + k → k < 64 → q.2 = [run.parts] ∧ q.1 = { count := k, parts := [mmaContrib s c seq o] })

/-- S-slot operations: moves between the store, registers and the weight buffer (R151, R154). -/
def Obligations.StoreSlotOperations : Prop :=
  ∀ (s : State) (i : Issue) (o : SOp), o.xg.toNat ≤ 8 →
    let c := i.cl.val
    let a := fun n => storeAddr s c o.sa (n * o.imm.toNat)
    (issuesCleanly s i 4 0 2 →
      ((a 1024).toNat % 1024 = 0 →
        exec (.smovl i o) s = .next (launched s i 4 [(1, .loadV o.reg (linesOn s c o.xg 16) (a 1024))]) ∧
        exec (.smovs i o) s = .next (launched s i 4
          [(2, .storeV (a 1024) (linesOn s c o.xg 16) (vregOf s c o.reg.toNat))])) ∧
      ((a 8).toNat % 8 = 0 → o.reg.toNat < 32 →
        exec (.sld i o) s = .next (launched s i 4
          [(1, .loadS (o.reg.extractLsb' 0 5) (elemOn s c o.xg 0) (a 8))]) ∧
        exec (.sst i o) s = .next (launched s i 4
          [(2, .storeS (a 8) (elemOn s c o.xg 0) (sregOf s c o.reg.toNat))])) ∧
      ((a 4).toNat % 4 = 0 → o.reg.toNat < 8 →
        exec (.xld i o) s = .next (launched s i 4
          [(1, .loadX (o.reg.extractLsb' 0 3) (elemOn s c o.xg 0) (a 4))]))) ∧
    (issuesCleanly s i 4 0 3 → (a 512).toNat % 512 = 0 →
      exec (.swb i o) s = .next (launched s i 4
        [(1, .swbRead (a 512) (BitVec.ofNat 15 (512 * o.reg.toNat)) (linesOn s c o.xg 8))]))

/-- L-slot operations: activations, columns and precharges of the cluster's own vault (R149, R150, R154). -/
def Obligations.VaultSlotOperations : Prop :=
  ∀ (s : State) (i : Issue) (o : LOp), o.xg.toNat ≤ 8 →
    let c := i.cl.val
    let row := (sregOf s c o.ars.toNat).toNat % 0x8000
    let ride : List (Nat × Act) := if o.aen = 1 then [(0, .vaultAct o.abank row)] else []
    let st := storeAddr s c o.sr (128 * o.imm.toNat)
    let wb := wbufAddr s c o.sr (128 * o.imm.toNat)
    let bu := (sregOf s c o.sr.toNat).toNat % 0x2000 + 4 * o.imm.toNat
    let read := fun dst => ride ++ [(0, Act.vaultRd o.bank o.col (o.ap = 1) (linesOn s c o.xg 2) dst)]
    (issuesCleanly s i 3 0 0 →
      (o.aen = 1 → o.bank = 0 → o.col = 0 → o.ap = 0 → o.sr = 0 → o.imm = 0 →
        exec (.vact i o) s = .next (launched s i 3 [(0, .vaultAct o.abank row)])) ∧
      (o.aen = 0 → o.col = 0 → o.ap = 0 → o.abank = 0 → o.ars = 0 → o.sr = 0 → o.imm = 0 →
        exec (.vpre i o) s = .next (launched s i 3 [(0, .vaultPre o.bank false)]))) ∧
    ((o.aen = 1 → o.abank ≠ o.bank) → (o.aen = 0 → o.abank = 0 ∧ o.ars = 0) →
      (issuesCleanly s i 3 0 30 → st.toNat % 128 = 0 →
        exec (.vrd i o) s = .next (launched s i 3 (read (.store st)))) ∧
      (issuesCleanly s i 3 0 4 → st.toNat % 128 = 0 →
        exec (.vwr i o) s = .next (launched s i 3 (ride ++
          [(1, .vwrRead st o.bank o.col (o.ap = 1) (linesOn s c o.xg 2))]))) ∧
      (issuesCleanly s i 3 8 40 →
        exec (.vrdp i o) s = .next (launched s i 3 (read (.planer wb)))) ∧
      (issuesCleanly s i 3 0 30 → bu % 4 = 0 → bu < 0x2000 →
        exec (.bentld i o) s = .next (launched s i 3 (read (.bent (BitVec.ofNat 13 bu))))))

/-- F-slot operations: sends, receives and forwards (R152, R155). -/
def Obligations.FabricSlotOperations : Prop :=
  ∀ (s : State) (i : Issue) (o : FOp), o.xg.toNat ≤ 8 →
    let c := i.cl.val
    let a := storeAddr s c o.sa (64 * o.off.toNat)
    let on := elemOn s c o.xg 0
    o.port.toNat ≤ 20 → (16 ≤ o.port.toNat ∨ o.lane = 0) → o.port.toNat ≠ 16 + c / 16 % 4 →
    (issuesCleanly s i 5 0 3 → o.sel = 0 → a.toNat % 64 = 0 →
      exec (.fsend i o) s = .next (launched s i 5 [(1, .sendRead a o.port o.lane on)])) ∧
    (issuesCleanly s i 5 0 2 → a.toNat % 64 = 0 →
      exec (.frecv i o) s = .next (launched s i 5 [(0, .recvTake o.port o.lane on a
        (if o.sel.getLsbD 4 then some (o.sel.extractLsb' 0 4) else none))])) ∧
    (issuesCleanly s i 5 0 1 → 16 ≤ o.sel.toNat → o.sel.toNat ≤ 20 → o.sel ≠ o.port →
      o.sel.toNat ≠ 16 + c / 16 % 4 → o.sa = 0 → o.off = 0 → on = true →
      exec (.ffwd i o) s = .next (launched s i 5 [(0, .fwdTake o.sel o.port o.lane)]))

/-- A slot word that no operation has is an encoding fault: the null bundle issues in place of the whole
bundle, and the fault names the slot and the running bent (R112, R464). That a word which an operation has is no
reserved one, so that the command only lets time pass, is the model's reading (log 91).
When the bundle address reaches LENGTH, the cluster issues null bundles until the tick (R124). -/
def Obligations.NullBundlesIssue : Prop :=
  (∀ (s : State) (i : Issue) (k : SlotId) (w : BitVec 44), reached s i →
    let c := i.cl.val
    (slotWordOk k w.toNat = true →
      exec (.reservedOpcode i k w) s = .next { s with clu.cyc := slotCycle s i }) ∧
    (slotWordOk k w.toNat = false → slotRuns s c (slotCycle s i) = true →
    ∃ t, exec (.reservedOpcode i k w) s = .next t ∧
      (seqOf t c).nullPos = some (slotCycle s i) ∧ slotRuns t c (slotCycle s i) = false ∧
      (∀ e ∈ t.clu.pipe, e.unit = c → e.issue = slotCycle s i → ∃ page arg, e.act = Act.fault 1 page arg) ∧
      (∃ e ∈ t.clu.pipe, e.unit = c ∧ e.stage = slotCycle s i ∧ e.act = Act.fault 1 (pgClu c)
        (BitVec.ofNat 32 (slotNo k +
          (tagOf s c (seqOf s c).runHalf.toNat).index.toNat * 0x10000))) ∧
      t.regs = s.regs ∧ t.vlt = s.vlt ∧ t.clu.sreg = s.clu.sreg ∧ t.clu.vreg = s.clu.vreg ∧
      t.clu.store = s.clu.store)) ∧
  (∀ (s : State) (i : Issue), reached s i → clusterIssues s i.cl.val = true →
    inBent s i.cl.val (slotCycle s i) = false →
    ∃ t, exec (.bentEnd i) s = .next t ∧ clusterIssues t i.cl.val = false ∧
      (∀ u, slotRuns t i.cl.val u = false) ∧ t.regs = s.regs ∧ t.clu.pipe = s.clu.pipe ∧ t.vlt = s.vlt ∧
      ∀ c, c ≠ i.cl.val → seqOf t c = seqOf s c)

/-- A result in flight reaches its register in its cycle, and only that register changes (R21, R154): scalar,
vector, predicate and extent registers, loop counters, the next bundle address, tiles and their open runs, pegs and
their compare values.
Accesses of the cluster store and of the weight buffer in their cycle (R118, R151, R154): a store writes its active
lines and nothing else, a load or a send puts what it reads under way, and a value or a decoded column reaches the weight
buffer. The bank events apart (R393), nothing else changes.
What a write leaves in the cluster store and the weight buffer: its own bytes, and every other byte of every cluster
as it was; the weight buffer is addressed modulo 32,768 (R117, R135).
The bent store in its cycle (R120 to R122): BENTLD's column writes its bundles into the idle half and unseals it;
BSEAL seals the idle half; BNEXT names the next bent.
The vault commands of a cluster in their cycle (R204, R208, R210 to R212, R217): an activation opens its row of the
context's window; a column's lines are sampled with what their checks find, or written under the owner's keys; a
precharge closes its bank; a command that breaks R211, and an activation outside the window, leave the vault as it is.
Lines that pass their checks go on to where the operation wants them.
Transfers in their cycle (R155, R157, R268): a line leaves an unmasked cluster's output onto its lane; a receive
takes the line that is present on its input and counts at its peg, and an absent one writes nothing; a forward sends it
on. That a line forwarded to a cluster is present on the input which the forwarding cluster's number names is the
model's reading (log 121). The lane entries of an edge die take a line into the landing SRAM or read one for their link. -/
def Obligations.ResultsLandInTheirCycle : Prop :=
  (∀ (s : State) (c k n t : Nat) (a : Act), alone s c k n t a →
    let T := advance s (t + 1)
    let u := after s t []
    (∀ r v, a = .sregWrite r v → T = setSreg u c r.toNat v) ∧
    (∀ r, a = .sregKeep r → T = u) ∧
    (∀ r m v, a = .vregWrite r m v → T = setVreg u c r.toNat (blend 8192 32 m v (vregOf s c r.toNat))) ∧
    (∀ r w i v, a = .vregElem r w i v →
      T = setVreg u c r.toNat (ofElems 8192 w fun j =>
        if j = i then BitVec.ofNat w v else elem (vregOf s c r.toNat) w j)) ∧
    (∀ r m v, a = .pregWrite r m v → T = setPreg u c r.toNat ((v &&& m) ||| (pregOf s c r.toNat &&& ~~~m))) ∧
    (∀ r v, a = .xLimit r v →
      T = setXreg u c r.toNat (BitVec.ofNat 64 (setBits (xregOf s c r.toNat).toNat 0 32 v.toNat))) ∧
    (∀ r v, a = .xPos r v →
      T = setXreg u c r.toNat (BitVec.ofNat 64 (setBits (xregOf s c r.toNat).toNat 32 24 v.toNat))) ∧
    (∀ r v, a = .xShift r v →
      T = setXreg u c r.toNat (BitVec.ofNat 64 (setBits (xregOf s c r.toNat).toNat 56 4 v.toNat))) ∧
    (∀ j v, a = .lcWrite j v → T = setLc u c j.toNat v) ∧
    (∀ x, a = .jump x → T = setSeq u c { seqOf s c with pos0 := posOf s c t + 1, addr0 := x.toNat }) ∧
    (∀ q cols, a = .tileZero q cols →
      T = setTile u c q.toNat (ofElems 131072 32 fun i =>
        if cols.getLsbD (i % 64) then 0 else elem (tileOf s c q.toNat) 32 i)) ∧
    (∀ q g cols v, a = .tileFill q g cols v →
      T = setTile u c q.toNat (ofElems 131072 32 fun i =>
        if i / 256 = g.toNat ∧ cols.getLsbD (i % 64) = true then elem v 32 (i % 256)
        else elem (tileOf s c q.toNat) 32 i)) ∧
    (∀ q v ps, a = .tileClose q v ps →
      T = setTile u c q.toNat (ofElems 131072 32 fun i =>
        if (elemRun ps (i / 64) (i % 64)).any then closeRun (elem v 32 i) (elemRun ps (i / 64) (i % 64))
        else elem (tileOf s c q.toNat) 32 i)) ∧
    (∀ q r, a = .runSet q r → T = setRun u c q.toNat r) ∧
    (∀ g v, a = .pegCmpWrite g v → T = setPegCmp u c g.toNat v) ∧
    (∀ g d, a = .pegAdd g d → 0 ≤ (pegOf s c g.toNat).toNat + d →
      T = setPeg u c g.toNat (BitVec.ofInt 32 ((pegOf s c g.toNat).toNat + d))) ∧
    (∀ g d, a = .pegAdd g d → (pegOf s c g.toNat).toNat + d < 0 →
      pegOf T c g.toNat = 0 ∧ ∀ h : BitVec 4, h ≠ g → pegOf T c h.toNat = pegOf s c h.toNat)) ∧
  (∀ (s : State) (c k n t : Nat) (a : Act), alone s c k n t a →
    let T := advance s (t + 1)
    let u := after s t []
    let goes := fun (d : Nat) (b : Act) => after s t [⟨c, k, n, t + d, b⟩]
    (∀ x lines v, a = .storeV x lines v → sameButEvents T (storeLines u c x.toNat 16 lines.getLsbD v.toNat)) ∧
    (∀ x lines v, a = .storeCol x lines v → sameButEvents T (storeLines u c x.toNat 2 lines.getLsbD v.toNat)) ∧
    (∀ x on v, a = .storeS x on v → sameButEvents T (if on then setStore u c x.toNat 8 v.toNat else u)) ∧
    (∀ x v, a = .recvWrite x (some v) → sameButEvents T (setStore u c x.toNat 64 v.toNat)) ∧
    (∀ x, a = .recvWrite x none → sameButEvents T u) ∧
    (∀ r lines x, a = .loadV r lines x →
      sameButEvents T (goes 1 (.vregWrite r (linesToLanes lines) (BitVec.ofNat 8192 (storeNat s c x.toNat 1024))))) ∧
    (∀ r on x, a = .loadS r on x →
      sameButEvents T (if on then goes 1 (.sregWrite r (BitVec.ofNat 64 (storeNat s c x.toNat 8))) else u)) ∧
    (∀ r on x, a = .loadX r on x →
      sameButEvents T (if on then goes 1 (.xLimit r (BitVec.ofNat 32 (storeNat s c x.toNat 4))) else u)) ∧
    (∀ x o lines, a = .swbRead x o lines →
      sameButEvents T (goes 2 (.wbufWrite o lines (BitVec.ofNat 4096 (storeNat s c x.toNat 512))))) ∧
    (∀ x b col ap lines, a = .vwrRead x b col ap lines →
      sameButEvents T (goes 3 (.vaultWr b col ap lines (BitVec.ofNat 1024 (storeNat s c x.toNat 128))))) ∧
    (∀ x port lane on, a = .sendRead x port lane on →
      sameButEvents T (if on then goes 2 (.laneOut port lane (BitVec.ofNat 512 (storeNat s c x.toNat 64))) else u)) ∧
    (∀ o lines v, a = .wbufWrite o lines v →
      sameButEvents T ((List.range 8).foldl (fun w i =>
        if lines.getLsbD i then setWbuf w c (o.toNat + 64 * i) 64 (v.toNat >>> (512 * i)) else w) u)) ∧
    (∀ o v, a = .wbufBytes o v →
      sameButEvents T (if v.isEmpty then u else setWbuf u c o.toNat v.length (bytesNat v))) ∧
    (∀ q p ps x m on, a = .mmaAct q p ps x m on →
      sameButEvents T (if on then fillContrib u c q fun d =>
        { d with act := d.act ||| BitVec.ofNat 8192 (storeNat s c x.toNat m <<< (8 * m * p)) } else u)) ∧
    (∀ q p ps o m, a = .mmaWgt q p ps o m none none →
      T = fillContrib u c q fun d =>
        { d with wgt := d.wgt ||| BitVec.ofNat 16384 (wbufNat s c o.toNat m <<< (8 * m * p)) })) ∧
  (∀ (s : State) (c d a b n x : Nat),
    (a + n ≤ storeSize → b < storeSize →
      storeNat (setStore s c a n x) d b 1 =
        if d = c ∧ a ≤ b ∧ b < a + n then (byteOf x (b - a)).toNat else storeNat s d b 1) ∧
    (a < wbufSize → n ≤ wbufSize → b < wbufSize →
      wbufNat (setWbuf s c a n x) d b 1 =
        if d = c ∧ (b + wbufSize - a) % wbufSize < n then (byteOf x ((b + wbufSize - a) % wbufSize)).toNat
        else wbufNat s d b 1)) ∧
  (∀ (s : State) (c k n t : Nat) (a : Act), alone s c k n t a →
    let T := advance s (t + 1)
    let h := idleHalf s c
    (∀ x lines v, a = .bentCol x lines v →
      (∀ d, d < 8192 → bundleOf T c h d =
        if lines.getLsbD ((d - x.toNat) / 2) = true ∧ x.toNat ≤ d ∧ d < x.toNat + 4 then elem v 256 (d - x.toNat)
        else bundleOf s c h d) ∧
      (∀ e g d, e * 2 + g ≠ c * 2 + h → g < 2 → d < 8192 → x.toNat + 4 ≤ 8192 → bundleOf T e g d = bundleOf s e g d) ∧
      tagOf T c h = (if (tagOf s c h).sealed then { tagOf s c h with valid := false, sealed := false } else tagOf s c h) ∧
      (h = 0 → (seqOf T c).ready = false) ∧ T.regs = s.regs ∧ T.vlt = s.vlt ∧ T.clu.store = s.clu.store ∧
      T.clu.sreg = s.clu.sreg ∧ T.clu.vreg = s.clu.vreg) ∧
    (∀ x l, a = .sealHalf x l →
      tagOf T c h = { valid := true, index := x, length := l, sealed := true } ∧
      tagOf T c (1 - h) = tagOf s c (1 - h) ∧ (h = 0 → (seqOf T c).ready = false) ∧
      (h = 1 → seqOf T c = seqOf s c) ∧ T.clu.bent = s.clu.bent ∧ T.regs = s.regs ∧ T.vlt = s.vlt) ∧
    (∀ x, a = .nextBent x → T = setSeq (after s t []) c { seqOf s c with nextBent := x })) ∧
  (∀ (s : State) (c k n t : Nat) (a : Act), alone s c k n t a →
    let T := advance s (t + 1)
    let p := posOf s c t
    (∀ b row x, a = .vaultAct b row → clusterCtx s c = some x → row < vaultRows → row < (ctxRows s c x).2 →
      (judgeCmd s c .act b.toNat t p false = 0 →
        sameButEvents T (setOpenRow (noteCmd (after s t []) c .act b.toNat t) c b.toNat
          (some ((ctxRows s c x).1 + row)))) ∧
      (judgeCmd s c .act b.toNat t p false ≠ 0 → T.vlt = s.vlt)) ∧
    (∀ b row x, a = .vaultAct b row → clusterCtx s c = some x → (vaultRows ≤ row ∨ (ctxRows s c x).2 ≤ row) →
      T.vlt = s.vlt) ∧
    (∀ b auto, a = .vaultPre b auto →
      (judgeCmd s c .pre b.toNat t p auto = 0 → (openRow s c b.toNat).isSome = true →
        T = setOpenRow (noteCmd (after s t []) c .pre b.toNat t) c b.toNat none) ∧
      ((openRow s c b.toNat).isSome = false → T = after s t []) ∧
      (judgeCmd s c .pre b.toNat t p auto ≠ 0 → T.vlt = s.vlt)) ∧
    (∀ b col ap lines dst x r, a = .vaultRd b col ap lines dst → clusterCtx s c = some x →
      judgeCmd s c .rd b.toNat t p false = 0 → openRow s c b.toNat = some r →
      let w := noteCmd s c .rd b.toNat t
      let u := vaultOfs r b.toNat col.toNat 0
      let g := fun i => if lines.getLsbD i = true ∧ (lineKind s c (u + 64 * i) x).1 = 0 then lineData s c (u + 64 * i) else 0
      sameButEvents T (after w t
        ((if ap then [⟨c, k, n, impliedPre w c b.toNat, .vaultPre b true⟩] else []) ++
          [⟨c, k, n, t + 29, .colCheck u lines (lineKind s c u x) (lineKind s c (u + 64) x) dst
            (BitVec.ofNat 1024 (g 0 + g 1 <<< 512))⟩]))) ∧
    (∀ b col ap lines v x r, a = .vaultWr b col ap lines v → clusterCtx s c = some x →
      judgeCmd s c .wr b.toNat t p false = 0 → openRow s c b.toNat = some r →
      let w := noteCmd s c .wr b.toNat t
      sameButEvents T ((List.range 2).foldl (fun q i =>
          if lines.getLsbD i then storeLine q c (vaultOfs r b.toNat col.toNat i) x (bitsOf v.toNat (512 * i) 512) false
          else q)
        (after w t (if ap then [⟨c, k, n, impliedPre w c b.toNat, .vaultPre b true⟩] else [])))) ∧
    (∀ b col ap lines v, a = .vaultWr b col ap lines v → judgeCmd s c .wr b.toNat t p false ≠ 0 → T.vlt = s.vlt) ∧
    (∀ u lines dst v, a = .colCheck u lines (0, false) (0, false) dst v →
      (∀ x, dst = .store x → T = after s t [⟨c, k, n, t + 1, .storeCol x lines v⟩]) ∧
      (∀ x, dst = .bent x → lines ≠ 0 → T = after s t [⟨c, k, n, t + 1, .bentCol x lines v⟩]) ∧
      (∀ o, dst = .planer o → lines ≠ 0 → (planerDecodes s c = true → lines = 3) →
        T = after s t [⟨c, k, n, t + 10, .planeIn o lines v⟩])) ∧
    (∀ o lines v, a = .planeIn o lines v → planerDecodes s c = false →
      T.clu = (after s t [⟨c, k, n, t + 1, .wbufBytes o (natBytes (if lines = 3 then 128 else 64) v.toNat)⟩]).clu ∧
      T.vlt = s.vlt)) ∧
  (∀ (s : State) (k n t : Nat), s.clu.cyc ≤ t →
    let T := advance s (t + 1)
    (∀ (c : Nat) (a : Act), c < 1024 → audited s c = false → s.clu.pipe = [⟨c, k, n, t, a⟩] →
      (∀ port lane v, a = .laneOut port lane v → s.clu.lanes = [] → clusterMasked s c = false → port.toNat < 16 →
        let x : LaneXfer := ⟨128 + (16 * (c / 16) + port.toNat), c % 16, lane.toNat, t, 64 * (c / 16) + port.toNat, some v⟩
        T.clu = { (after s t []).clu with lanes := [x] } ∧ T.vlt = s.vlt) ∧
      (∀ port lane v, a = .laneOut port lane v → s.clu.lanes = [] → clusterMasked s c = false →
        regionMasked s (c / 16) = false → 16 ≤ port.toNat → port.toNat < 20 →
        let x : LaneXfer := ⟨c / 64 * 4 + (port.toNat - 16), 16 + c / 16 % 4, lane.toNat, t + 6, 64 * (c / 16) + port.toNat,
          some v⟩
        T.clu = { (after s t []).clu with lanes := [x] } ∧ T.vlt = s.vlt) ∧
      (∀ port lane v, a = .laneOut port lane v → s.clu.lanes = [] → clusterMasked s c = true →
        T.clu = (after s t []).clu ∧ T.vlt = s.vlt) ∧
      (∀ port lane on x peg, a = .recvTake port lane on x peg → s.clu.lanes = [] → port.toNat < 16 →
        T.clu = (after s t [⟨c, k, n, t + 2, .recvWrite x none⟩]).clu ∧ T.vlt = s.vlt) ∧
      (∀ port lane x peg y l, a = .recvTake port lane true x peg → s.clu.lanes = [y] →
        y.dst = (inputOf c port.toNat).1 → y.port = (inputOf c port.toNat).2 → y.lane = lane.toNat → y.pos = t →
        y.v = some l → ((inputOf c port.toNat).1 < 128 →
          crossingSlips s (inputOf c port.toNat).1 (inputOf c port.toNat).2 = false) →
        T.clu = (after s t (⟨c, k, n, t + 2, .recvWrite x (some l)⟩ ::
          (match peg with | some g => [⟨c, k, n, t + 2, .pegAdd g 1⟩] | none => []))).clu ∧ T.vlt = s.vlt) ∧
      (∀ sel port lane y l, a = .fwdTake sel port lane → s.clu.lanes = [y] →
        y.dst = (inputOf c sel.toNat).1 → y.port = (inputOf c sel.toNat).2 → y.lane = lane.toNat → y.pos = t →
        y.v = some l → ((inputOf c sel.toNat).1 < 128 →
          crossingSlips s (inputOf c sel.toNat).1 (inputOf c sel.toNat).2 = false) →
        T.clu = (after s t [⟨c, k, n, t + 1, .laneOut port lane l⟩]).clu ∧ T.vlt = s.vlt)) ∧
    (∀ (e : Nat) (a : Act), e < 3 → s.clu.pipe = [⟨1024 + e, k, n, t, a⟩] →
      (∀ link lane area line y l, a = .edgeTake link lane area line → s.clu.lanes = [y] →
        y.dst = 64 + e → y.port = link.toNat → y.lane = lane.toNat → y.pos = t → y.v = some l →
        crossingSlips s (64 + e) link.toNat = false →
        T.clu = (after s t [⟨1024 + e, k, n, t + 1,
          .edgeWrite (edgeLanePart s e link.toNat lane.toNat) area line l⟩]).clu ∧ T.edge = s.edge) ∧
      (∀ q area line l, a = .edgeWrite q area line l → s.clu.lanes = [] →
        T.clu = (after s t []).clu ∧
        T.edge.landing = memWrite s.edge.landing (landAddr area line) 64 l.toNat ∧
        T.edge.staged = s.edge.staged ++ [(landAddr area line, t)] ∧
        T.regs = s.regs ∧ T.vlt = s.vlt ∧ T.rai = s.rai) ∧
      (∀ link lane area line, a = .edgeRead link lane area line → s.clu.lanes = [] →
        T = after s t [⟨1024 + e, k, n, t + 1,
          .edgeOut link lane (BitVec.ofNat 512 (memNat s.edge.landing (landAddr area line) 64))⟩]) ∧
      (∀ link lane v d p, a = .edgeOut link lane v → s.clu.lanes = [] → linkOfEdge e link.toNat = some (d, p) →
        T.clu = { (after s t []).clu with
          lanes := [⟨d, p, lane.toNat, t + 24, 64 * (64 + e) + link.toNat, some v⟩] } ∧ T.edge = s.edge)))

/-- Predicate register p0 reads as 256 one bits and keeps them: writes to it are discarded. Every other register of a
cluster, of R114's kinds, reads as what was written to it last (R115). -/
def Obligations.PredicateZeroIsHardWired : Prop :=
  ∀ (s : State) (c r : Nat) (v : BitVec 256) (x : BitVec 64) (y : VecReg) (n : BitVec 16) (w : BitVec 131072)
    (g m : BitVec 32),
    (pregOf s c 0 = BitVec.allOnes 256 ∧ setPreg s c 0 v = s ∧ pregOf (setPreg s c 0 v) c 0 = BitVec.allOnes 256) ∧
    (0 < r → r < 16 → pregOf (setPreg s c r v) c r = v) ∧
    (r < 32 → sregOf (setSreg s c r x) c r = x) ∧
    (r < 64 → vregOf (setVreg s c r y) c r = y) ∧
    (r < 8 → xregOf (setXreg s c r x) c r = x) ∧
    (r < 2 → lcOf (setLc s c r n) c r = n) ∧
    (r < 4 → tileOf (setTile s c r w) c r = w) ∧
    (r < 16 → pegOf (setPeg s c r g) c r = g) ∧
    (r < 16 → pegCmpOf (setPegCmp s c r m) c r = m)

/-! ## Time -/

/-- Writes to the time base: FRAME_CFG (R66), WALL_CMD.LOAD (R82), DISC_CTRL.STEP (R85), START_CTRL.ARM (R86).
Captures and the pulse per second (R87, R88, R480): a selected edge of the combined pins appends the
wall time of its period and TICK_COUNT, unless 16 captures wait; a pop drops the oldest one.
The reference inputs: loss, return, reversion, holdover, selection and start (R92 to R96). -/
def Obligations.TimeBaseIsWrittenAndFollowed : Prop :=
  (∀ (s : State) (v : Word),
    (anyRaising s = false → 10 ≤ wfield v 0 4 → wfield v 0 4 ≤ 14 →
      ∃ t, exec (.frameCfgWrite v) s = .next t ∧
        t = { s with regs := t.regs, time.pendLog2 := some (wfield v 0 4) } ∧
        regsBut s t [pgTim0 + 0x40] ∧ regField t (pgTim0 + 0x40) 0 4 = wfield v 0 4) ∧
    (anyRaising s = true ∨ wfield v 0 4 < 10 ∨ 14 < wfield v 0 4 →
      ∃ t, exec (.frameCfgWrite v) s = .next t ∧ onlyRegs s t [pgTim0 + 0xC] ∧ regBit t (pgTim0 + 0xC) 0 = true) ∧
    (v.getLsbD 0 = true → ∃ t, exec (.wallCmdLoad v) s = .next t ∧
      t = { s with time.wall := t.time.wall, time.wallFrom := s.time.periods + elapsed s + 1 } ∧
      wallAt t (elapsed t + 1) = wallOf (taiRegs s (pgTim0 + 0x90))) ∧
    (v.getLsbD 2 = true → anyRaising s = false → ∃ t, exec (.discCtrlStep v) s = .next t ∧
      t = { s with regs := t.regs, time.stepPend := true } ∧ regsBut s t [pgTim0 + 0x44] ∧
      regField t (pgTim0 + 0x44) 0 2 = wfield v 0 2) ∧
    (v.getLsbD 2 = true → anyRaising s = true → ∃ t, exec (.discCtrlStep v) s = .next t ∧
      onlyRegs s t [pgTim0 + 0x44, pgTim0 + 0xC] ∧ regBit t (pgTim0 + 0xC) 0 = true ∧
      regField t (pgTim0 + 0x44) 0 2 = wfield v 0 2) ∧
    (v.getLsbD 0 = true → v.getLsbD 9 = false → regBit s (pgTim0 + 0x70) 0 = false →
      ∃ t, exec (.startCtrlArm v) s = .next t ∧ onlyRegs s t [pgTim0 + 0x70] ∧
        regBit t (pgTim0 + 0x70) 0 = true ∧ regBit t (pgTim0 + 0x70) 8 = false ∧
        regField t (pgTim0 + 0x70) 4 4 = wfield v 4 4 ∧ regBit t (pgTim0 + 0x70) 9 = regBit s (pgTim0 + 0x70) 9) ∧
    (v.getLsbD 0 = true → v.getLsbD 9 = false → regBit s (pgTim0 + 0x70) 0 = true →
      ∃ t, exec (.startCtrlArm v) s = .next t ∧ onlyRegs s t [pgTim0 + 0xC] ∧ regBit t (pgTim0 + 0xC) 0 = true)) ∧
  (∀ (s : State) (a b : Bool) (tp : Nat) (v : Word),
    (regBit s (pgTim0 + 0xC0) 10 = true →
      (regBit s (pgTim0 + 0xC0) 9 = false ∧ s.time.prevLevel = false ∧ (a = true ∨ b = true)) ∨
      (regBit s (pgTim0 + 0xC0) 9 = true ∧ s.time.prevLevel = true ∧ (a = false ∨ b = false)) →
      (s.time.capts.length < 16 → exec (.timeCapture a b tp) s = .next { s with
        time.captPin := a
        time.ppsPin := b
        time.prevLevel := !s.time.prevLevel
        time.capts := s.time.capts ++ [(taiOf (wallAt s tp), s.time.tick)] }) ∧
      (16 ≤ s.time.capts.length → ∃ t, exec (.timeCapture a b tp) s = .next t ∧
        regBit t (pgTim0 + 0xC0) 8 = true ∧ t.time.capts = s.time.capts ∧ regsBut s t [pgTim0 + 0xC0])) ∧
    (∀ x l, s.time.capts = x :: l → exec (.captPop v) s = .next { s with time.capts := l }) ∧
    (0 < tp → s.time.wallFrom < s.time.periods + tp →
      wallAt s (tp - 1) / (1000000000 * 2 ^ 56) < wallAt s tp / (1000000000 * 2 ^ 56) →
      exec (.ppsOutPulse tp) s = .next { s with
        brd.ppsUntil := s.time.periods + tp + 80000000
        out := s.out ++ [.pulse "PPS_OUT" 80000000] })) ∧
  (∀ (s : State) (b : Bool) (v : Word),
    let st := pgTim1 + 0x44
    let n := pgTim1 + 0x48
    (s.time.pllOn = true → refHold s = false → refActive s = b →
      (refSelects s (!b) = true → refValid s (!b) = true → ∃ t, exec (.refInputInvalid b) s = .next t ∧
        onlyRegs s t [st, n, pgTim1 + 0x10] ∧ refValid t b = false ∧ refActive t = !b ∧ refHold t = false ∧
        regGet t n = regGet s n + 1 ∧ regBit t (pgTim1 + 0x10) 0 = true ∧ regBit t (pgTim1 + 0x10) 1 = true) ∧
      (refSelects s (!b) = false ∨ refValid s (!b) = false → ∃ t, exec (.refInputInvalid b) s = .next t ∧
        t = { s with regs := t.regs, time.holdFrom := s.time.periods + elapsed s } ∧
        regsBut s t [st, pgTim1 + 0x10] ∧ refValid t b = false ∧ refHold t = true ∧
        regBit t (pgTim1 + 0x10) 1 = true ∧ regBit t (pgTim1 + 0x10) 2 = true)) ∧
    (s.time.pllOn = true → refHold s = true → refSelects s b = true → ∃ t, exec (.refInputValid b) s = .next t ∧
      onlyRegs s t [st, n, pgTim1 + 0x10, pgTim1 + 0x54] ∧ refValid t b = true ∧ refActive t = b ∧
      refHold t = false) ∧
    (s.time.pllOn = true → refAuto s = true → regBit s (pgTim1 + 0x40) 2 = true → refValid s (refPrefers s) = true →
      refHold s = false → refActive s ≠ refPrefers s → ∃ t, exec .refRevert s = .next t ∧
      onlyRegs s t [st, n, pgTim1 + 0x10] ∧ refActive t = refPrefers s ∧ regGet t n = regGet s n + 1) ∧
    (refHold s = true → ∃ t, exec .holdoverExpired s = .next t ∧ onlyRegs s t [st] ∧
      regGet t st = regGet s st ||| 0x10) ∧
    (s.time.pllOn = true → wfield v 0 2 = b2n b → refValid s b = true → ∃ t, exec (.refSelWrite v) s = .next t ∧
      onlyRegs s t [pgTim1 + 0x40, st, n, pgTim1 + 0x10, pgTim1 + 0x54] ∧
      regField t (pgTim1 + 0x40) 0 3 = wfield v 0 3 ∧ refActive t = b ∧ refHold t = false) ∧
    (s.time.pllOn = false → refSelects s (refPrefers s) = true → refValid s (refPrefers s) = true →
      ∃ t, exec .pllStart s = .next t ∧ t = { s with regs := t.regs, time.pllOn := true } ∧ regsBut s t [st] ∧
        refActive t = refPrefers s))

/-- Droop stretches (R97 to R100): a droop beyond the threshold stretches its domain, which originates one stretch in
every second period of it; every domain comes to owe each of them once, in order of arrival, and takes what it owes
oldest first, each as soon as it is due and the domain is free. An echo makes its domain take the oldest one that it
still owes, not before its origin, unless it counts toward the next tick period. How long within the 4 cycles of R98 an
echo travels is open: that it is owed 4 periods after its origin at the latest is the model's reading (log 33). -/
def Obligations.DroopStretchesAreShared : Prop :=
  ∀ (s : State) (d : Fin 67) (mv n : Nat) (second : Bool) (tp : Nat), mv ≤ 100 →
    let counters := (List.range 67).flatMap fun x => [pgRgn x + 0x48, pgRgn x + 0x4C]
    let st := droopStarts n second tp
    let s1 := { s with time.starts := s.time.starts ++ st }
    let counted := fun (t : State) (m : Domain) (x : Nat) =>
      (frozen s (pgRgn x) = false →
        regGet t (pgRgn x + 0x48) = regGet s (pgRgn x + 0x48) + BitVec.ofNat 32 ((domainOf t x).taken - m.taken)) ∧
      regNat t (pgRgn x + 0x4C) ≤ max 4 (regNat s (pgRgn x + 0x4C))
    (mv ≤ 5 * max 2 (regField s (pgRgn d.val + 0x40) 0 5) ∨ domainIdle s d.val = true →
      exec (.droopStretch d mv n second tp) s = .next s) ∧
    (5 * max 2 (regField s (pgRgn d.val + 0x40) 0 5) < mv → domainIdle s d.val = false →
      ∃ t, exec (.droopStretch d mv n second tp) s = .next t ∧
        t = { s1 with regs := t.regs, time.domains := t.time.domains, free := t.free } ∧
        regsBut s t ((pgRgn d.val + 0x44) :: counters) ∧
        (frozen s (pgRgn d.val) = false →
          regGet t (pgRgn d.val + 0x44) = regGet s (pgRgn d.val + 0x44) + BitVec.ofNat 32 (droopCount n second)) ∧
        ∀ x < 67,
          (domainIdle s x = true → domainOf t x = domainOf s x) ∧
          (domainIdle s x = false →
            tookDue x (st.getLastD tp) (tickPeriods s1)
              { domainOf s x with owed := st.foldl (fun l p => owe x (d.val, p) l) (domainOf s x).owed } (domainOf t x) ∧
            counted t (domainOf s x) x)) ∧
    ∃ t, exec (.stretchEcho ⟨d, tp⟩) s = .next t ∧
      t = { s with regs := t.regs, time.domains := t.time.domains, free := t.free } ∧ regsBut s t counters ∧
      ∀ x < 67,
        (domainIdle s x = true → domainOf t x = domainOf s x) ∧
        (domainIdle s x = false →
          counted t (domainOf s x) x ∧
          ∃ m, tookDue x tp (tickPeriods s) (domainOf s x) m ∧
            (x ≠ d.val → domainOf t x = m) ∧
            (x = d.val → m.owed = [] → domainOf t x = m) ∧
            (∀ o l, x = d.val → m.owed = o :: l →
              ((tp : Int) < o.2 ∨ (tickPeriods s : Int) < o.2 + 4 → domainOf t x = m) ∧
              (o.2 ≤ (tp : Int) → o.2 + 4 ≤ (tickPeriods s : Int) →
                domainOf t x = { owed := l, taken := m.taken + 1, next := max m.next tp + 2 })))

/-- FRAME_TICK moves the time base: one tick more, the periods of the tick period that ends, wall time
carried on at its rate, a new frame length in force (R66, R69, R70, R82). Before the PLL has started there is no
tick (R95).
What FRAME_TICK decides for each partition, by the conditions latched when everything before the tick has happened
(R71 to R73, R77, R78): a frame of contents begins only where the tick is not missed, no latched condition fails and the
partition is not halted; a missed tick makes the period a held frame that finishes the work part, with every cause; any
other held frame records the thinning hold in PART_GATE, and the other conditions where they decide; a partition
without a die runs nothing. -/
def Obligations.FrameTickMovesTimeOn : Prop :=
  (∀ s : State,
    (s.time.pllOn = false → exec .frameTick s = .next s) ∧
    (s.time.pllOn = true → (∀ p < 16, (part s p).kind ≠ .finish) → s.time.stepPend = false →
      s.clu.cyc ≤ s.clu.tickCyc + (tickPeriods s - stretchCount s (tickPeriods s)) →
      ∃ t, exec .frameTick s = .next t ∧ t.time.tick = s.time.tick + 1 ∧
        t.time.periods = s.time.periods + tickPeriods s ∧ t.time.wall = wallAt s (tickPeriods s) ∧
        t.time.frameLog2 = s.time.pendLog2.getD s.time.frameLog2 ∧ t.time.pendLog2 = none ∧
        t.clu.tickCyc = s.clu.tickCyc + (tickPeriods s - stretchCount s (tickPeriods s)) ∧ t.clu.cyc = t.clu.tickCyc)) ∧
  (∀ s t : State, s.time.pllOn = true → exec .frameTick s = .next t →
    let n := tickPeriods s
    let c0 := s.clu.tickCyc + (n - stretchCount s n)
    let u := advance s c0
    ∀ p < 16,
      let st := part u p
      let gate := pgTim0 + 0x108 + 0x10 * p
      (liveDies u p = 0 → (part t p).kind = .none) ∧
      ((part t p).kind = .contents →
        missesTick u p c0 = false ∧ st.inbound = true ∧ st.lead = true ∧ st.thin = false ∧ (part t p).halted = false ∧
          ∃ c, (part t p).run = some c ∧ ctxLive t c = true) ∧
      ((part t p).kind = .finish →
        missesTick u p c0 = true ∧ regField t gate 0 5 = 17 + gateBits st) ∧
      ((part t p).kind = .held →
        regBit t gate 4 = true ∧ regBit t gate 0 = false ∧ regBit t gate 3 = st.thin ∧
          (regField t gate 1 2 = 0 ∨ regField t gate 1 3 = gateBits st / 2)))

/-- The decision point latches the gate conditions of every partition in use, as they stand once everything before it
has happened, and changes nothing else: whether the packets and the counters of its gates have arrived, whether it would
lead a partner too far, and whether the ledger orders a thinning hold (R72, R399).
STALL after HOLD_LIMIT held frames is fault 13H, logged against the partition's context, and the count begins
again; a fixed fault, it ends a raising that lives, with cause 1 (R78, R464, R466, R468). Before, or where the
partition runs nothing, nothing happens.
ROTATION_ENTRY_END at a tick at which the entry of a partition's rotation table is over: the partition takes the
next entry that can run, and idles through an IDLE one, or begins a switch frame to the context of one that runs
another; at any other tick nothing happens (R453). No other partition changes, where no fault waits to be acted on and
no other frame has lost its raising. -/
def Obligations.ConditionsStallsAndRotation : Prop :=
  (∀ s0 : State, let s := advance s0 (decisionCycle s0)
    ∃ t, exec .decisionPoint s0 = .next t ∧ t = { s with rai.part := t.rai.part } ∧
    ∀ p < 16,
      (liveDies s p = 0 → part t p = part s p) ∧
      (liveDies s p ≠ 0 →
        let thin := decide ((part s p).account < 0 ∨ (s.nrg.account < 0 ∧ (part s p).lastKind = .contents))
        (∀ c, gateCtx s p = some c → (raising s c).began = true →
          part t p = { part s p with inbound := inboundOk s c, lead := leadOk s c, thin := thin }) ∧
        (gateCtx s p = none ∨ (∃ c, gateCtx s p = some c ∧ (raising s c).began = false) →
          part t p = { part s p with inbound := true, lead := true, thin := thin }))) ∧
  (∀ (s : State) (p : Fin 16),
    let due := max 16 (regNat s (pgTim0 + 0x54)) ≤ (part s p.val).holds
    (¬due ∨ (part s p.val).run = none → exec (.stall p) s = .next s) ∧
    (∀ c, due → (part s p.val).run = some c → s.rai.faults = [] →
      let log := pgDbgS + 0x800 + 0x10 * regField s (pgDbgS + 0x60) 0 6
      ∃ t, exec (.stall p) s = .next t ∧ (part t p.val).holds = 0 ∧ t.rai.faults = [] ∧
        regBit t (pgTim0 + 0x1C) 31 = true ∧ wfield (regGet t log) 0 24 = 0x13 + 0x10000 * (c % 256) ∧
        (ctxLive s c = false → t.clu = s.clu ∧ t.vlt = s.vlt ∧ t.rai.ctx = s.rai.ctx) ∧
        (ctxLive s c = true → (raising t c).state = .faulted ∧ (ctx t c).faultCause = 1))) ∧
  (∀ (s : State) (p : Fin 16),
    let st := part s p.val
    let n := rotCount s p.val
    let done := st.began = true ∧ st.kind = .none ∧ entryOver s p.val = true
    let ends := done ∧ s.rai.faults = [] ∧
      ∀ q < 16, ∀ c, (part s q).kind = .contents → (part s q).run = some c → ctxLive s c = true
    (¬done → exec (.rotationEntryEnd p) s = .next s) ∧
    (∀ j, ends → n ≠ 0 → j < n → (rotEntry s p.val j).2.2 = true → j = (st.entry + 1) % n →
      ∃ t, exec (.rotationEntryEnd p) s = .next t ∧ (part t p.val).kind = .idle ∧ (part t p.val).entry = j ∧
        (part t p.val).done = 0 ∧ (part t p.val).began = true ∧ regsBut s t [pgTim0 + 0x108 + 0x10 * p.val] ∧
        t.clu = s.clu ∧ t.vlt = s.vlt ∧ ∀ q, q ≠ p.val → part t q = part s q) ∧
    (∀ j, ends → n ≠ 0 → j < n → (rotEntry s p.val j).2.2 = false → j = (st.entry + 1) % n →
      runnable s p.val (rotEntry s p.val j).2.1 = true → st.run ≠ some (rotEntry s p.val j).2.1 →
      ∃ t, exec (.rotationEntryEnd p) s = .next t ∧ (part t p.val).kind = .switch_ ∧ (part t p.val).entry = j ∧
        (part t p.val).switchTo = some (rotEntry s p.val j).2.1 ∧ (part t p.val).done = 0 ∧
        (part t p.val).began = true ∧ ∀ q, q ≠ p.val → part t q = part s q) ∧
    (ends → (∀ j < n, (rotEntry s p.val j).2.2 = false ∧ runnable s p.val (rotEntry s p.val j).2.1 = false) → n ≠ 0 →
      ∃ t, exec (.rotationEntryEnd p) s = .next t ∧ (part t p.val).kind = .none ∧ (part t p.val).began = false ∧
        t.clu = s.clu ∧ t.vlt = s.vlt ∧ ∀ q, q ≠ p.val → part t q = part s q))

/-! ## Stacked memory -/

/-- The windows of a vault (R206): a write that keeps the rules is taken, any other leaves the windows and
sets STAT bit 0; a host access to a row of no window is answered with an error. Which channel pages count that access
is the model's path (log 24). -/
def Obligations.WindowsStayApart : Prop :=
  ∀ (s : State) (v : Fin 1024) (c : Fin 256) (d : Fin 16) (w : Word),
    presetState s (v.val / 64) ≠ 4 → presetState s d.val ≠ 4 →
    let x := w &&& 0x7FFF7FFF
    let ctxKey := pgVlt v.val + 0x400 + 4 * c.val
    let stat := pgVlt v.val + 0xC
    (windowOk s v.val (winOf x) c.val = true ∧ ctxHolds s c.val = false →
      ∃ t, exec (.ctxRowsWrite v c w) s = .next t ∧ onlyRegs s t [ctxKey] ∧ ctxRows t v.val c.val = winOf w) ∧
    (windowOk s v.val (winOf x) c.val = false ∨ ctxHolds s c.val = true →
      ∃ t, exec (.ctxRowsWrite v c w) s = .next t ∧ onlyRegs s t [stat] ∧ regBit t stat 0 = true) ∧
    (windowOk s v.val (winOf x) domCarve = true →
      ∃ t, exec (.carveWrite v w) s = .next t ∧ onlyRegs s t [pgVlt v.val + 0x44] ∧ carveRows t v.val = winOf w) ∧
    (windowOk s v.val (winOf x) domCarve = false →
      ∃ t, exec (.carveWrite v w) s = .next t ∧ onlyRegs s t [stat] ∧ regBit t stat 0 = true) ∧
    ((∀ i < 64, (carveRows s (64 * d.val + i)).2 = 0 ∧ ∀ k < 256, (ctxRows s (64 * d.val + i) k).2 = 0) →
      ∃ t, exec (.imapWrite d w) s = .next t ∧ onlyRegs s t [pgVlt (64 * d.val) + 0x40] ∧
        regGet t (pgVlt (64 * d.val) + 0x40) = (w &&& 3)) ∧
    ((∃ i < 64, (carveRows s (64 * d.val + i)).2 ≠ 0 ∨ ∃ k < 256, (ctxRows s (64 * d.val + i) k).2 ≠ 0) →
      ∃ t, exec (.imapWrite d w) s = .next t ∧ onlyRegs s t [pgVlt (64 * d.val) + 0xC] ∧
        regBit t (pgVlt (64 * d.val) + 0xC) 0 = true) ∧
    (∀ (r : HostReq) (u : Nat), dramMap s r.addr.toNat = some (v.val, u) →
      (∀ x ∈ [carveRows s v.val] ++ (List.range 256).map (ctxRows s v.val), u / 0x10000 < x.1 ∨ x.1 + x.2 ≤ u / 0x10000) →
      ∃ t, exec (.hostAccess r) s = .next t ∧ t = { s with regs := t.regs, out := s.out ++ [.errorDone r.tag] } ∧
        regsBut s t ((hostPath 3 (v.val / 64)).flatMap fun p => [p + 0x44, p + 0x48]))

/-- Retired bank-rows and window initialisation (R218, R221, R223, R471). That an ABORT which names no run, and none that
completed in this tick period, reads NONE at once is log 39; that INIT_COMPLETE writes the columns which are left is
log 52.
Refresh and scrub (R208, R209, R220): refresh moves the pointer of refreshed rows on by L/1,024 and, in a vault with
every bank closed, nothing else but the ledger's events. In the guard, 16 periods or more before the tick, the scrubber
opens a row for the coming window. It reads the patrol's bank-row if it opened that and the frame's bundles leave its bank
alone, and moves SCRUB_POS on; with no row open, or one whose bank they touch, it leaves the window unused. -/
def Obligations.VaultsAreMaintained : Prop :=
  (∀ (s : State) (v : Fin 1024) (w : Word) (d : Fin 16),
    let n := regField s (pgVlt v.val + 0x6C) 0 5
    let row := wfield w 0 15
    let bank := wfield w 15 5
    let init := pgVlt v.val + 0x70
    presetState s (v.val / 64) ≠ 4 →
    (row < vaultRows → n < 16 → isRetired s v.val row bank = false →
      ∃ t, exec (.retire v w) s = .next t ∧ onlyRegs s t [pgVlt v.val + 0x800 + 4 * n, pgVlt v.val + 0x6C] ∧
        isRetired t v.val row bank = true ∧ regField t (pgVlt v.val + 0x6C) 0 5 = n + 1 ∧
        regBit t (pgVlt v.val + 0x6C) 8 = false) ∧
    (vaultRows ≤ row ∨ 16 ≤ n ∨ isRetired s v.val row bank = true → ∃ t, exec (.retire v w) s = .next t ∧ onlyRegs s t [pgVlt v.val + 0x6C] ∧
        regBit t (pgVlt v.val + 0x6C) 8 = true ∧ regField t (pgVlt v.val + 0x6C) 0 5 = n) ∧
    (initOf s v.val = none → w.getLsbD 8 = false → (ctxRows s v.val (wfield w 0 8)).2 ≠ 0 →
      ctxHolds s (wfield w 0 8) = false →
      ∃ t, exec (.initCtrlStart v w) s = .next t ∧
        t = { s with regs := t.regs, vlt.init := t.vlt.init } ∧ regsBut s t [init] ∧ regBit t init 30 = false ∧
        initOf t v.val = some { dom := wfield w 0 8, next := 0, rows := (ctxRows s v.val (wfield w 0 8)).2,
                                first := (ctxRows s v.val (wfield w 0 8)).1, aborted := false }) ∧
    (∀ i, initOf s v.val = some i → i.rows = 0 ∨ i.next = 512 * i.rows → i.aborted = false →
      ∃ t, exec (.initComplete v) s = .next t ∧
        t = { s with regs := t.regs, vlt.init := t.vlt.init,
                     rai.latched := s.rai.latched ++ [⟨v.val / 64, 3, v.val % 64⟩] } ∧
        initOf t v.val = none ∧ regsBut s t [pgVlt v.val + 0x10] ∧ regBit t (pgVlt v.val + 0x10) 2 = true) ∧
    (∀ i, initOf s v.val = some i → i.next + 1 = 512 * i.rows → i.aborted = false →
      ∃ t, exec (.initComplete v) s = .next t ∧ initOf t v.val = none ∧ t.clu = s.clu ∧ t.ses = s.ses ∧
        regsBut s t [pgVlt v.val + 0x10] ∧ regBit t (pgVlt v.val + 0x10) 2 = true ∧
        ∀ u ∈ [initColumn i, initColumn i + 64], lineData t v.val u = 0 ∧
          sideOf t v.val u = { dom := i.dom, keyGen := keyGenOf s (v.val / 64) i.dom, poison := false, bad := 0 }) ∧
    (∀ a : BitVec 12, a.toNat < 64 →
      (∀ i, initOf s (64 * d.val + a.toNat) = some i → ∃ t, exec (.abortInitCtrl d a) s = .next t ∧
        t = { s with vlt.init := t.vlt.init, rai.aborts := s.rai.aborts ++ [⟨d.val, 3, a.toNat⟩] } ∧
        initOf t (64 * d.val + a.toNat) = some { i with aborted := true }) ∧
      (initOf s (64 * d.val + a.toNat) = none → (⟨d.val, 3, a.toNat⟩ : AbortReq) ∈ s.rai.latched →
        exec (.abortInitCtrl d a) s = .next { s with rai.aborts := s.rai.aborts ++ [⟨d.val, 3, a.toNat⟩] }) ∧
      (initOf s (64 * d.val + a.toNat) = none → (⟨d.val, 3, a.toNat⟩ : AbortReq) ∉ s.rai.latched →
        ∃ t, exec (.abortInitCtrl d a) s = .next t ∧
        onlyRegs s t [pgDbg d.val + 0x74, pgDbg d.val + 0x10] ∧ regField t (pgDbg d.val + 0x74) 0 2 = 0 ∧
        regBit t (pgDbg d.val + 0x10) 1 = true))) ∧
  (∀ (s : State) (v : Fin 1024),
    (s.clu.pipe = [] → s.clu.lanes = [] → (∀ b < 32, openRow s v.val b = none) →
      ∃ t, exec (.refresh v) s = .next t ∧ sameButEvents t { s with
        clu.cyc := max s.clu.cyc (originOf s v.val + refreshPos s)
        vlt.refPtr := tabSet 0 v.val ((tabGet 0 v.val s.vlt.refPtr + frameLen s / 1024) % 24576) s.vlt.refPtr }) ∧
    (∀ n, hostServes s v.val = false → ∃ t, exec (.hostEngineGuard v n false) s = .next t ∧
      t = { s with vlt.scrubRow := t.vlt.scrubRow } ∧
      scrubOpen t v.val = if 16 ≤ n then scrubPick s v.val (banksNext s v.val) else none) ∧
    (scrubOpen s v.val = none ∨ (∃ x, scrubOpen s v.val = some x ∧ x / 0x8000 ∈ banksNow s v.val) →
      ∃ t, exec (.scrub v) s = .next t ∧ t = { s with vlt.scrubRow := t.vlt.scrubRow } ∧ scrubOpen t v.val = none) ∧
    (∀ x, regField s (pgVlt v.val + 0x4C) 0 20 = x → scrubOpen s v.val = some x →
      x / 0x8000 ∉ banksNow s v.val → tabGet [] v.val s.vlt.revisit = [] → 2048 ≤ frameLen s →
      (carveRows s v.val).2 = 0 → (∀ c < 256, (ctxRows s v.val c).2 = 0) → x % 0x8000 < 24575 →
      ∃ t, exec (.scrub v) s = .next t ∧
        sameButEvents t { s with regs := t.regs, vlt.scrubHalf := t.vlt.scrubHalf, vlt.scrubRow := t.vlt.scrubRow,
                                 vlt.patrolAt := t.vlt.patrolAt } ∧
        regsBut s t [pgVlt v.val + 0x4C] ∧ regNat t (pgVlt v.val + 0x4C) = x + 1 ∧ scrubOpen t v.val = none))

/-- Host accesses (R213, R214, R217, R382, R412, R440, R441, R444): a good request waits at its vault; one of a C-die
that is reset, disabled or powered down, and an address that nothing serves, is answered with an error; shepherd SRAM is
read and written; a 4-byte access to a served page does what a core's register access does, one of another length or
alignment errs, and the session entry window is read. The counters of the path are the model's reading (log 24), and so
is the service in the guard (log 52); a single read or whole-line write of a context's open row, in another bank than
the scrubber's, is served in a guard of 41 periods or more. -/
def Obligations.HostAccessesAreServed : Prop :=
  ∀ (s : State) (r : HostReq),
    let a := r.addr.toNat
    (dramMap s a = none → regKey a = none →
      r.len = 0 ∨ a < s0Base ∨ s0Base + 0x100000000 < a + r.len.toNat ∨ s0Part (a - s0Base) = none →
      exec (.hostAccess r) s = .next { s with out := s.out ++ [.errorDone r.tag] }) ∧
    (dramMap s a = none → regKey a = none → r.len ≠ 0 → s0Base + 0x1000000 ≤ a →
      a + r.len.toNat ≤ s0Base + 0x1400000 →
      (r.write = true → exec (.hostAccess r) s = .next { s with
        brd.sram := memWrite s.brd.sram (a - s0Base - 0x1000000) r.len.toNat r.data.toNat
        out := s.out ++ [.writeDone r.tag] }) ∧
      (r.write = false → exec (.hostAccess r) s = .next { s with
        out := s.out ++ [.readDone r.tag
          (BitVec.ofNat 512 (memNat s.brd.sram (a - s0Base - 0x1000000) r.len.toNat))] })) ∧
    (∀ k, dramMap s a = none → regKey a = some k → r.len ≠ 0 →
      let path := regPath (kDie k)
      (windowAt (kDie k) (k % 0x1000000) = none →
        (r.len.toNat ≠ 4 ∨ k % 4 ≠ 0 ∨ pageServed s k = none →
          exec (.hostAccess r) s = .next (emit (countAccess s path false) (.errorDone r.tag))) ∧
        ((pageServed s k).isSome = true → k % 4 = 0 → r.len.toNat = 4 → r.who = .core →
          (r.write = true → ∃ t, exec (.registerWrite r.addr (r.data.setWidth 32)) s = .next t ∧
            exec (.hostAccess r) s = .next (emit t (.writeDone r.tag))) ∧
          (r.write = false → ∃ t x, exec (.latchedPairRead r.addr) s = .next (emit t (.value x)) ∧
            exec (.hostAccess r) s = .next (emit t (.readDone r.tag (x.setWidth 512)))))) ∧
      (∀ off, windowAt (kDie k) (k % 0x1000000) = some (true, off) → r.write = false → r.len.toNat ∈ [4, 8, 64] →
        off % r.len.toNat = 0 → presetState s (kDie k) ≠ 4 →
        exec (.hostAccess r) s = .next (emit (countAccess s path true) (.readDone r.tag
          (BitVec.ofNat 512 (entNat s (kDie k) (off / 1024) (off % 1024) r.len.toNat)))))) ∧
    (∀ v u, dramMap s r.addr.toNat = some (v, u) → presetState s (v / 64) ∈ [2, 4, 5] ∨
        regField s (pgDie (v / 64) + 0x24) 0 2 ∈ [2, 3] →
      ∃ t, exec (.hostAccess r) s = .next t ∧ t = { s with regs := t.regs, out := s.out ++ [.errorDone r.tag] } ∧
        regsBut s t ((hostPath 3 (v / 64)).flatMap fun p => [p + 0x44, p + 0x48])) ∧
    (∀ v u c, dramMap s r.addr.toNat = some (v, u) → dieServes s (v / 64) = true → r.len ≠ 0 →
      r.addr.toNat % 64 + r.len.toNat ≤ 64 → rowOwner s v (u / 0x10000) = some c →
      ∃ t, exec (.hostAccess r) s = .next t ∧ t = { s with regs := t.regs, vlt.hostq := t.vlt.hostq } ∧
        (hostQ t v).map (·.job) = (hostQ s v).map (·.job) ++ [.access r u] ∧
        (∀ x, x ≠ v → hostQ t x = hostQ s x) ∧ regsBut s t ((hostPath 3 (v / 64)).map (· + 0x44))) ∧
    (∀ (v : Fin 1024) (u c n : Nat), hostQ s v.val = [⟨.access r u, false, false⟩] → initOf s v.val = none →
      hostServes s v.val = true → dieServes s (v.val / 64) = true → 41 ≤ n →
      rowOwner s v.val (u / 0x10000) = some c → c < 256 → (ctx s c).conf = false →
      (ctx s c).access.getLsbD (accessBit r.who) = true →
      (scrubPick s v.val (banksNext s v.val)).map (· / 0x8000) ≠ some (u / 0x800 % 32) →
      (r.write = false → lineKind s v.val u c = (0, false) →
        ∃ t, exec (.hostEngineGuard v n false) s = .next t ∧
          sameButEvents t { s with regs := t.regs, vlt.hostq := t.vlt.hostq, vlt.scrubRow := t.vlt.scrubRow,
                                   out := t.out } ∧ hostQ t v.val = [] ∧
          t.out = s.out ++ [.readDone r.tag
            (BitVec.ofNat 512 (bitsOf (lineData s v.val u) (8 * (u % 64)) (8 * r.len.toNat)))] ∧
          regsBut s t [pgVlt v.val + 0x78]) ∧
      (r.write = true → r.len = 64 → isRetired s v.val (u / 0x10000) (u / 0x800 % 32) = false →
        ∃ t, exec (.hostEngineGuard v n false) s = .next t ∧ hostQ t v.val = [] ∧
          t.out = s.out ++ [.writeDone r.tag] ∧ lineData t v.val u = r.data.toNat ∧
          (sideOf t v.val u).poison = r.poison ∧ (sideOf t v.val u).dom = c ∧ t.ses = s.ses ∧ t.clu = s.clu ∧
          regsBut s t [pgVlt v.val + 0x78] ∧
          ∀ x y, x < 1024 → y < vaultSize → (x, y / 64) ≠ (v.val, u / 64) → u < vaultSize →
            memByte t.vlt.mem (x * vaultSize + y) = memByte s.vlt.mem (x * vaultSize + y)))

/-- A read of a first-since-read capture register returns its value and clears VALID and MORE, and
nothing else changes (R138, R223, R235, R285, R286, R455, R476).
Register access by a shepherd core (R7, R9, R412, R440, R442, R444, R446 to R448): access codes, reserved
offsets, pages that no die serves, latched pairs, captures that a read clears, and the commands on a page. The channel
pages that a register access is counted on (R456) are the model's path (log 24); that a 4-byte access of a DRAM address is
a host access (log 79), and what IRQ_FORCE and CNT_CLEAR do to undefined bits and to banks (log 77), are its reading. -/
def Obligations.RegistersFollowTheirAccessCodes : Prop :=
  (∀ (s : State) (v : Fin 1024) (e : Fin 3) (r : Fin 64) (d : Fin 16),
    ∀ x ∈ ([(.errLogRead v, pgVlt v.val + 0x60, v.val / 64), (.ceLastRead v, pgVlt v.val + 0x64, v.val / 64),
            (.vcollLastRead v, pgVlt v.val + 0x74, v.val / 64), (.derrLastRead v, pgPln v.val + 0x58, v.val / 64),
            (.collLastRead v, pgClu v.val + 0x54, v.val / 64), (.scollLastRead e, pgSlt e.val + 0x40, 16),
            (.ovwLastRead e, bankKey (pgLnd e.val + 0x4C) (regField s (pgLnd e.val + 0x40) 0 8), 16),
            (.xcollLastRead r, pgXbr r.val + 0x40, r.val / 4), (.auditLastRead d, pgDbg d.val + 0x44, 16)] :
            List (Instr × Nat × Nat)),
      x.2.2 = 16 ∨ presetState s x.2.2 ≠ 4 →
      ∃ t, exec x.1 s = .next t ∧ t = { s with regs := t.regs, out := s.out ++ [.value (regGet s x.2.1)] } ∧
        regsBut s t [x.2.1] ∧ regGet t x.2.1 = (regGet s x.2.1 &&& 0x3FFFFFFF)) ∧
  (∀ (s : State) (a : BitVec 48) (w : Word),
    (dramMap s a.toNat ≠ none →
      exec (.registerWrite a w) s = exec (.hostAccess ⟨.core, a, true, 4, w.setWidth 512, false, 0⟩) s ∧
      exec (.latchedPairRead a) s = exec (.hostAccess ⟨.core, a, false, 4, 0, false, 0⟩) s) ∧
    (∀ k, regKey a.toNat = some k → windowAt (kDie k) (k % 0x1000000) = none →
      let path := regPath (kDie k)
      let counters := path.flatMap fun pg => [pg + 0x44, pg + 0x48]
      (k % 4 ≠ 0 → exec (.registerWrite a w) s = .next (emit s (.errorDone 0)) ∧
        exec (.latchedPairRead a) s = .next (emit s (.errorDone 0))) ∧
      (pageServed s k = none → k % 4 = 0 →
        exec (.registerWrite a w) s = .next (emit (countAccess s path false) (.errorDone 0)) ∧
        exec (.latchedPairRead a) s = .next (emit (countAccess s path false) (.errorDone 0))) ∧
      (∀ b i, pageServed s k = some (b, i) → k % 4 = 0 →
        (offPage b k = true ∨ regRow b (kOff k) = none → exec (.registerWrite a w) s = .next (countAccess s path true)) ∧
        (regRow b (kOff k) = none →
          exec (.latchedPairRead a) s = .next (emit (countAccess s path true) (.value 0))) ∧
        (kOff k = 0x14 → (∃ t, exec (.registerWrite a w) s = .next t ∧ onlyRegs s t (k :: counters) ∧
            regGet t k = (regGet s k &&& 0xFFFF0000) ||| (w &&& 0xFFFF)) ∧
          exec (.latchedPairRead a) s = .next (emit (countAccess s path true) (.value (regGet s k)))) ∧
        (kOff k = 0x10 → ∃ t, exec (.registerWrite a w) s = .next t ∧ onlyRegs s t (k :: counters) ∧
          regGet t k = regGet s k &&& ~~~(w &&& 0xFFFF)) ∧
        (kOff k = 0x30 → ∃ t, exec (.latchedPairRead a) s = .next t ∧
          t = { countAccess s path true with latch := t.latch, out := s.out ++ [.value (regGet s k)] } ∧
          exec (.latchedPairRead (a + 4)) t = .next (emit (countAccess t path true) (.value (regGet s (k + 4))))))) ∧
    (0x0FFF01000000 ≤ a.toNat → a.toNat < 0x0FFF01400000 → a.toNat % 4 = 0 →
      (∃ t, exec (.registerWrite a w) s = .next t ∧ t = { s with brd.sram := t.brd.sram } ∧
        memNat t.brd.sram (a.toNat - 0x0FFF01000000) 4 = w.toNat ∧
        ∀ x, x < a.toNat - 0x0FFF01000000 ∨ a.toNat - 0x0FFF01000000 + 4 ≤ x →
          memNat t.brd.sram x 1 = memNat s.brd.sram x 1) ∧
      exec (.latchedPairRead a) s =
        .next (emit s (.value (BitVec.ofNat 32 (memNat s.brd.sram (a.toNat - 0x0FFF01000000) 4))))) ∧
    (∀ pg : PageId, ∀ on : Bool,
      ((∀ k, pageOfId pg = some k → pageServed s k = none) →
        ∀ i ∈ [Instr.errCapt0Read pg, .cntClear pg, .cntFreeze pg on, .irqForce pg w],
          exec i s = .next (emit s (.errorDone 0))) ∧
      (∀ k b i, pageOfId pg = some k → pageServed s k = some (b, i) →
        (∃ t, exec (.errCapt0Read pg) s = .next t ∧
          t = { s with regs := t.regs, latch := t.latch, out := s.out ++ [.value (regGet s (k + 0x1C))] } ∧
          regsBut s t [k + 0x1C] ∧ regGet t (k + 0x1C) = regGet s (k + 0x1C) &&& 0x3FFFFFFF ∧
          tabGet 0 (k + 0x20) t.latch = regGet s (k + 0x20)) ∧
        (regsWf s.regs = true → ∃ t, exec (.cntClear pg) s = .next t ∧ t = { s with regs := t.regs } ∧
          ∀ j, regGet t j = if pageOfKey j = k then regGet s j &&& ~~~(cntBits b (kOff j)) else regGet s j) ∧
        (∃ t, exec (.cntFreeze pg on) s = .next t ∧ onlyRegs s t [k + 8] ∧ frozen t k = on) ∧
        (∃ t, exec (.irqForce pg w) s = .next t ∧ onlyRegs s t [k + 0x10] ∧
          regGet t (k + 0x10) = regGet s (k + 0x10) ||| (w &&& BitVec.ofNat 32 (irqDefined b))))))

/-! ## Sessions -/

/-- Session commits (R245, R494): a COMMIT or BUCKET_COMMIT that a check fails leaves the entries and
queues, with its RESULT and interrupt 1; one that passes puts its job at the end of its vault's queue
and, for a session, moves the entry's STATE.
A completed release empties its entry with the REASON of its COMMIT and frees the slot; a commit's and
a bucket commit's completion is counted, interrupts and leaves the queue (R245, R247, R255). -/
def Obligations.CommitsAreCheckedAndComplete : Prop :=
  (∀ (s : State) (d : Fin 16) (w : Word), presetState s d.val ≠ 4 →
    (∀ x ∈ [(Instr.bind d w, 1), (.update d w, 2), (.release d w, 3)],
      let r := commitCheck s d.val (wset w 12 2 x.2).toNat
      let e := wfield w 0 12
      (r ≠ 0 → ∃ t, exec x.1 s = .next t ∧ onlyRegs s t [pgSes d.val + 0x44, pgSes d.val + 0x10] ∧
        regField t (pgSes d.val + 0x44) 0 3 = r % 8 ∧ regBit t (pgSes d.val + 0x10) 1 = true) ∧
      (∀ c slot v p, r = 0 → slotHome s c slot = some (v, p) →
        (if x.2 = 1 then (entNat s d.val e 1 1, entSlot s d.val e) = (c, slot) else boundOf s d.val e = some (c, slot)) →
        ∃ t k, exec x.1 s = .next t ∧
          t = { s with regs := t.regs, ses.table := t.ses.table, ses.bound := t.ses.bound, vlt.hostq := t.vlt.hostq } ∧
          regsBut s t [pgSes d.val + 0x44] ∧ regField t (pgSes d.val + 0x44) 0 3 = 0 ∧
          boundOf t d.val e = some (c, slot) ∧ entState t d.val e = [0, 1, 3, 4].getD x.2 0 ∧
          (hostQ t v).map (·.job) = (hostQ s v).map (·.job) ++ [.commit d.val e k (w.extractLsb' 16 8) 0 false] ∧
          (k = .bind ↔ x.2 = 1) ∧ (k = .release ↔ x.2 = 3))) ∧
    (let r := bucketCheck s d.val w.toNat;
      (r ≠ 0 → ∃ t, exec (.bucketCommit d w) s = .next t ∧ onlyRegs s t [pgSes d.val + 0x4C, pgSes d.val + 0x10] ∧
        regField t (pgSes d.val + 0x4C) 0 3 = r % 8 ∧ regBit t (pgSes d.val + 0x10) 1 = true) ∧
      (∀ v, r = 0 → leadVault s (wfield w 0 8) = some v → ∃ t, exec (.bucketCommit d w) s = .next t ∧
        t = { s with regs := t.regs, vlt.hostq := t.vlt.hostq } ∧
        (hostQ t v).map (·.job) = (hostQ s v).map (·.job) ++
          [.bucket d.val (wfield w 0 8) (w.extractLsb' 8 4) false]))) ∧
  (∀ (s : State) (v : Fin 1024) (d e c slot : Nat) (reason : BitVec 8) (b : BitVec 4), d < 16 → e < 2560 →
    frozen s (pgSes d) = false →
    (hostQ s v.val = [⟨.commit d e .release reason 1 true, false, false⟩] → boundOf s d e = some (c, slot) →
      ∃ t, exec (.commitComplete v) s = .next t ∧ hostQ t v.val = [] ∧ boundOf t d e = none ∧
        entState t d e = 0 ∧ entNat t d e 5 1 = reason.toNat ∧ regBit t (pgSes d + 0x10) 0 = true ∧
        regGet t (pgSes d + 0x54) = regGet s (pgSes d + 0x54) + 1 ∧
        regNat t (pgSes d + 0x58) = e + 0x80000000 ∧ t.vlt.mem = s.vlt.mem ∧ t.clu = s.clu ∧
        regsBut s t [pgSes d + 0x10, pgSes d + 0x54, pgSes d + 0x58] ∧
        ∀ x y, (x, y) ≠ (d, e) → boundOf t x y = boundOf s x y ∨ 2560 ≤ y) ∧
    (∀ k, k ≠ CommitKind.release → hostQ s v.val = [⟨.commit d e k reason 7 true, false, false⟩] →
      boundOf s d e = some (c, slot) →
      ∃ t, exec (.commitComplete v) s = .next t ∧ hostQ t v.val = [] ∧ t.ses.bound = s.ses.bound ∧
        entState t d e = 2 ∧ regBit t (pgSes d + 0x10) 0 = true ∧
        regGet t (pgSes d + 0x54) = regGet s (pgSes d + 0x54) + 1 ∧
        regNat t (pgSes d + 0x58) = e + 0x80000000 ∧ t.vlt.mem = s.vlt.mem ∧ t.clu = s.clu ∧
        regsBut s t [pgSes d + 0x10, pgSes d + 0x54, pgSes d + 0x58]) ∧
    (hostQ s v.val = [⟨.bucket d c b true, false, false⟩] →
      ∃ t, exec (.commitComplete v) s = .next t ∧ hostQ t v.val = [] ∧ regBit t (pgSes d + 0x10) 0 = true ∧
        regGet t (pgSes d + 0x54) = regGet s (pgSes d + 0x54) + 1 ∧ t.ses = s.ses ∧ t.vlt.mem = s.vlt.mem ∧
        regsBut s t [pgSes d + 0x10, pgSes d + 0x54]))

/-- The entry window writes the RW bytes of an empty or bound entry; of an entry with a commit under way it
writes none and sets STAT bit 0 (R237).
Aborts of session and bucket commits (R471): a pending job is marked, and the abort waits for its tick, as one does
whose job has completed in this tick period; one that names neither reads NONE at once (log 39). -/
def Obligations.EntryWindowAndAborts : Prop :=
  (∀ (s : State) (d : Fin 16) (off : BitVec 22) (z : AccSize) (x : BitVec 512),
    let e := off.toNat / 1024
    let o := off.toNat % 1024
    let n := accBytes z
    e < 2560 → o % n = 0 → presetState s d.val ≠ 4 →
    (entState s d.val e = 0 ∨ entState s d.val e = 2 → ∃ t, exec (.entryWindowWrite d off z x) s = .next t ∧
      t = { s with ses.table := t.ses.table } ∧
      (∀ i < n, entryRw (o + i) = true → entNat t d.val e (o + i) 1 = bitsOf x.toNat (8 * i) (if o + i = 3 then 2 else 8)) ∧
      ∀ a, (∀ i < n, entryRw (o + i) = true → a ≠ entKey d.val e (o + i)) →
        memByte t.ses.table a = memByte s.ses.table a) ∧
    (entState s d.val e ≠ 0 → entState s d.val e ≠ 2 → ∃ t, exec (.entryWindowWrite d off z x) s = .next t ∧
      onlyRegs s t [pgSes d.val + 0xC] ∧ ((∃ i < n, entryRw (o + i) = true) → regBit t (pgSes d.val + 0xC) 0 = true))) ∧
  (∀ (s : State) (d : Fin 16) (a : BitVec 12),
    ∀ x ∈ [(Instr.abortSessionCommit d a, (1 : BitVec 2)), (.abortBucketCommit d a, 2)],
      let r : AbortReq := ⟨d.val, x.2, a.toNat⟩
      (abortPending s r = true → ∃ t, exec x.1 s = .next t ∧
        t = { s with vlt.hostq := t.vlt.hostq, rai.aborts := s.rai.aborts ++ [r] } ∧
        ∀ v ∈ dieVaults d.val, (hostQ t v) = (hostQ s v).map fun q =>
          if abortNames r false q.job then { q with aborted := true } else q) ∧
      (abortPending s r = false → abortLate s r = true →
        exec x.1 s = .next { s with rai.aborts := s.rai.aborts ++ [r] }) ∧
      (abortPending s r = false → abortLate s r = false → ∃ t, exec x.1 s = .next t ∧
        onlyRegs s t [pgDbg d.val + 0x74, pgDbg d.val + 0x10] ∧ regField t (pgDbg d.val + 0x74) 0 2 = 0 ∧
        regBit t (pgDbg d.val + 0x10) 1 = true))

/-! ## Leashed traffic -/

/-- Sends (R261, R271, R290, R298, R300): a slot entry whose buffer no TAKE of the frame writes goes out at once in its
unit under the next SEQ and stays in the replay buffer; a complete deferred send becomes a late packet; the first late
packet goes out in order, in a unit that nothing else takes. What is left of a unit below 64 bytes is fill. -/
def Obligations.LeashedPacketsAreSent : Prop :=
  ∀ (s : State) (p : Fin 48),
    let e := p.val / 16
    let k := linkOf s p.val
    let sent := fun (u : PortUnit) (y : Leashed) =>
      let n := unitRoom s p.val u - packetBytes (lShort y.hdr)
      Out.frame p.val (wireFrame k (linkHeader s p.val (lKind y) k.nextSeq.toNat false) (BitVec.ofNat 176 y.hdr.toNat)
        (lBody y) false) :: (if n = 0 ∨ 64 ≤ n then [] else [Out.fill p.val n])
    let kept := fun (t : State) (y : Leashed) =>
      (linkOf t p.val).nextSeq = k.nextSeq + 1 ∧ (linkOf t p.val).txc = k.txc + 1 ∧
      (linkOf t p.val).rbuf = k.rbuf ++ [⟨k.nextSeq, BitVec.ofNat 4 (lKind y), BitVec.ofNat 176 y.hdr.toNat,
          lBody y, entryLines (lKind y), 0⟩] ∧ ∀ q, q ≠ p.val → linkOf t q = linkOf s q
    (∀ (short : Bool) (slot : BitVec 11) (c : Nat) (ts : TableSet) (b : PortBent) (x : SlotEntry), s.clu.pipe = [] →
      s.clu.lanes = [] → servedBent s p.val = some (c, ts, b) → slotEntry b short slot = some x →
      (p.val, short, slot.toNat) ∉ s.edge.sent → leashUp s p.val c = true →
      seqFits s p.val (if short then 2 else 1) = true →
      packetBytes short ≤ unitRoom s p.val (slotUnit short slot.toNat) →
      (∀ i < packetLines short, takeWrites s ts e c (x.stage.toNat + i) = false) →
      let y := originate s e c x (raising s c).frame
      ∃ t, exec (.leashedSend p short slot) s = .next t ∧
        t = { s with
          regs := t.regs
          link := t.link
          out := s.out ++ sent (slotUnit short slot.toNat) y
          clu.cyc := t.clu.cyc
          edge.sent := s.edge.sent ++ [(p.val, short, slot.toNat)]
          edge.used := t.edge.used } ∧
        lShort y.hdr = short ∧ lDst y.hdr = x.dst.toNat ∧ kept t y ∧
        regsBut s t [pgPrt p.val + 0x64, pgPrt p.val + 0x94]) ∧
    (∀ d, (tabGet [] p.val s.edge.deferred).find? (deferredReady s) = some d → leashUp s p.val d.ctx = true →
      (tabGet [] p.val s.edge.late).length < 256 →
      ∃ t, exec (.deferredSend p) s = .next t ∧
        t = { s with regs := t.regs, edge.deferred := t.edge.deferred, edge.late := t.edge.late } ∧
        tabGet [] p.val t.edge.deferred = (tabGet [] p.val s.edge.deferred).erase d ∧
        originate s e d.ctx d.ent d.frame ∈ tabGet [] p.val t.edge.late ∧
        (tabGet [] p.val t.edge.late).length = (tabGet [] p.val s.edge.late).length + 1 ∧
        regsBut s t [pgSlt e + 0x50]) ∧
    (∀ u y l, tabGet [] p.val s.edge.late = y :: l → tabGet [] p.val s.loose.cmdq = [] →
      unitClass s p.val u = .empty → fitsUnit s p.val u y = true → frozen s (pgSlt e) = false →
      ∃ t, exec (.latePacketSend ⟨p, u⟩) s = .next t ∧
        t = { s with
          regs := t.regs
          link := t.link
          out := s.out ++ sent u y
          edge.late := t.edge.late
          edge.used := t.edge.used
          loose.cmdq := t.loose.cmdq } ∧
        tabGet [] p.val t.edge.late = l ∧ (∀ q, tabGet [] q t.loose.cmdq = tabGet [] q s.loose.cmdq) ∧ kept t y ∧
        regGet t (pgSlt e + 0x48) = regGet s (pgSlt e + 0x48) + 1 ∧
        regsBut s t [pgSlt e + 0x48, pgPrt p.val + 0x64, pgPrt p.val + 0x94])

/-- Lane entries of a frame that issues move one line in each cycle of their run (R268). -/
def Obligations.LaneEntriesMoveLines : Prop :=
  ∀ (s : State) (e : Fin 3) (pos : BitVec 14) (x : BitVec 64) (q c : Nat), s.clu.pipe = [] → s.clu.lanes = [] →
    edgeLanePart s e.val (laneLink x) (laneNo x) = some q → (part s q).run = some c → issues (part s q).kind = true →
    laneGood e.val x = true → lanePos x ≤ pos.toNat → pos.toNat ≤ lanePos x + laneRun x →
    let n := max s.clu.cyc ((part s q).origin + pos.toNat)
    let line := laneLine x + (pos.toNat - lanePos x)
    let go : Act → Host.Outcome State Fault Refusal := fun act => .next { s with
      clu.cyc := n
      clu.pipe := [{ unit := 1024 + e.val, slot := laneGroup s e.val c x, issue := n, stage := n, act := act }] }
    let link := BitVec.ofNat 3 (laneLink x)
    let lane := BitVec.ofNat 5 (laneNo x)
    (laneDir x = false → exec (.laneTake e pos x) s = go (.edgeTake link lane (laneArea s e.val c x) line) ∧
      exec (.laneDrive e pos x) s = .next s) ∧
    (laneDir x = true → exec (.laneDrive e pos x) s = go (.edgeRead link lane (laneArea s e.val c x) line) ∧
      exec (.laneTake e pos x) s = .next s)

/-- Landings and combines (R263, R273, R275, R276, R290, R298): an expected frame that passes its check and names a
landing entry writes its payload to its ring entry and counts at the gate; a frame whose raising no running set serves is
discarded; a combine step adds its hold to its target. -/
def Obligations.LandingsAndCombines : Prop :=
  ∀ (s : State),
    (∀ (p : Fin 48) (f : RxFrame) (bytes : List Byte) (ts : TableSet) (c w : Nat),
      let e := p.val / 16
      let v := rxRead (linkOf s p.val) f bytes
      let h : BitVec 160 := v.ext.setWidth 160
      let d := (raising s c).frame.toNat + dueAhead s c (lDue h)
      let n := bitsOf w 22 4
      let a := landAddr (ringAddr s e c (lDue h).toNat) (bitsOf w 3 19)
      let m := 64 * packetLines (lShort h)
      (linkOf s p.val).state = .up → rxFind (linkOf s p.val) f.bytes = some bytes → framePasses v = true →
      rKind v = 1 ∨ rKind v = 2 → rSeq v = (linkOf s p.val).expect → setForRaise s p.val (lRaise h) = some (ts, c) →
      lReserved h = false → lDiverted h = false → forwardEntry s ts p.val c (lRoute h) = w → bitsOf w 0 3 = 2 →
      tabGet false (edgeKey e c) s.edge.dupWin = false → 1 ≤ dueAhead s c (lDue h) → dueAhead s c (lDue h) ≤ 3 →
      (∀ x, expectOf s ts e c d n = some x → (gcOf s e c d n).toNat + 1 ≤ x) →
      ∃ t, exec (.seqFrameRx p f) s = .next t ∧
        memNat t.edge.landing a m = (BitVec.ofNat 8192 (bytesNat v.plain)).toNat % 2 ^ (8 * m) ∧
        (∀ x, x < a ∨ a + m ≤ x → memByte t.edge.landing x = memByte s.edge.landing x) ∧
        gcOf t e c d n = gcOf s e c d n + 1 ∧ (linkOf t p.val).expect = (linkOf s p.val).expect + 1 ∧
        regsBut s t [pgPrt p.val + 0x80, pgPrt p.val + 0x84] ∧ t.out = s.out ∧ t.clu = s.clu ∧
        t.edge.sets = s.edge.sets) ∧
    (∀ (p : Fin 48) (f : RxFrame) (bytes : List Byte),
      let v := rxRead (linkOf s p.val) f bytes
      (linkOf s p.val).state = .up → rxFind (linkOf s p.val) f.bytes = some bytes → framePasses v = true →
      rKind v = 1 ∨ rKind v = 2 → rSeq v = (linkOf s p.val).expect →
      setForRaise s p.val (lRaise (v.ext.setWidth 160)) = none → frozen s (pgSlt (p.val / 16)) = false →
      ∃ t, exec (.seqFrameRx p f) s = .next t ∧ (linkOf t p.val).expect = (linkOf s p.val).expect + 1 ∧
        regGet t (pgSlt (p.val / 16) + 0x44) = regGet s (pgSlt (p.val / 16) + 0x44) + 1 ∧
        regsBut s t [pgSlt (p.val / 16) + 0x44, pgPrt p.val + 0x80, pgPrt p.val + 0x84] ∧
        t.edge.landing = s.edge.landing ∧ t.edge.gc = s.edge.gc) ∧
    (∀ (e : Fin 3) (c : Fin 256) (i : BitVec 11) (due : BitVec 32) (ts : TableSet) (g : Group) (w : Nat × Nat),
      let st := tabGet { waiting := [], ended := 0 } (combKey e.val c.val due.toNat i.toNat) s.edge.comb
      let m := 64 * packetLines g.short
      let ring := ringAddr s e.val c.val due.toNat
      let a := landAddr ring g.target.toNat
      let hold := memNat s.edge.landing (landAddr ring w.2) m
      ctxSet s e.val c.val = some ts → ts.groups[i.toNat]? = some g → stepReady s c.val g due.toNat st = true →
      (st.waiting.find? fun x => x.1 = st.ended + 1) = some w →
      ∃ t, exec (.combineStep e c i due) s = .next t ∧
        memNat t.edge.landing a m = (if w.1 = 1 ∧ g.seed = false then hold
          else combineBytes g.fmt.toNat m (memNat s.edge.landing a m) hold) % 2 ^ (8 * m) ∧
        (∀ x, x < a ∨ a + m ≤ x → memByte t.edge.landing x = memByte s.edge.landing x) ∧
        tabGet { waiting := [], ended := 0 } (combKey e.val c.val due.toNat i.toNat) t.edge.comb =
          { waiting := st.waiting.erase w, ended := w.1 } ∧
        (w.1 ≠ g.steps.toNat → t.edge.gc = s.edge.gc) ∧
        (w.1 = g.steps.toNat → gcOf t e.val c.val due.toNat g.counter.toNat =
          gcOf s e.val c.val due.toNat g.counter.toNat + 1) ∧
        t.clu = s.clu ∧ t.out = s.out ∧ regsBut s t [bankKey (pgLnd e.val + 0x50) c.val])

/-- Table sets and landing areas (R262, R263, R285, R286, R458): CHECK, RELEASE, the writes that place
them, and the slot-table window; a write that would break a rule sets STAT bit 0 alone. -/
def Obligations.TableSetsAndAreas : Prop :=
  ∀ (s : State) (e : Fin 3) (k : Fin 4) (w : Word),
    let set := setOf s e.val k.val
    let new := Config.decodeSet (setBytes s e.val k.val)
    let good := (setPages s e.val k.val).1 + (setPages s e.val k.val).2 ≤ 128 ∧
      setGood s e.val (regField s (setCfgKey e.val k.val) 16 16) new = true
    (set.state ≠ .running → ∃ t, exec (.setCheck e k) s = .next t ∧
      (good → t = { s with regs := t.regs, edge.sets := t.edge.sets } ∧ regsBut s t [setCtrlKey e.val k.val] ∧
        regBit t (setCtrlKey e.val k.val) 5 = false ∧
        setOf t e.val k.val = { state := .loaded, tables := new, ctx := none }) ∧
      (¬good → onlyRegs s t [setCtrlKey e.val k.val, pgSlt e.val + 0x10] ∧
        regBit t (setCtrlKey e.val k.val) 5 = true ∧ regBit t (pgSlt e.val + 0x10) 2 = true)) ∧
    (set.state = .loaded ∨ set.state = .cached → ∃ t, exec (.setRelease e k) s = .next t ∧
      t = { s with edge.sets := t.edge.sets } ∧ setOf t e.val k.val = SetSt.init ∧
      ∀ x y, y < 4 → (x, y) ≠ (e.val, k.val) → setOf t x y = setOf s x y) ∧
    (set.state ≠ .running → (∀ j < 4, j ≠ k.val →
        winMeet (wfield w 0 7, wfield w 8 7) (setPages s e.val j) = false) →
      ∃ t, exec (.setCfgWrite e k w) s = .next t ∧ onlyRegs s t [setCfgKey e.val k.val] ∧
        setPages t e.val k.val = (wfield w 0 7, wfield w 8 7) ∧
        regField t (setCfgKey e.val k.val) 16 16 = wfield w 16 16) ∧
    (set.state = .running ∨ (∃ j < 4, j ≠ k.val ∧ winMeet (wfield w 0 7, wfield w 8 7) (setPages s e.val j) = true) →
      ∃ t, exec (.setCfgWrite e k w) s = .next t ∧ onlyRegs s t [pgSlt e.val + 0xC] ∧
        regBit t (pgSlt e.val + 0xC) 0 = true) ∧
    (let c := regField s (pgLnd e.val + 0x40) 0 8;
      ∀ x ∈ [(Instr.ringCfgWrite e w, 0x44, 4), (.stageCfgWrite e w, 0x48, 1)],
        (areaRefused s e.val c (wfield w 0 9, x.2.2 * wfield w 16 9) = false →
          ∃ t, exec x.1 s = .next t ∧ onlyRegs s t [bankKey (pgLnd e.val + x.2.1) c] ∧
            regGet t (bankKey (pgLnd e.val + x.2.1) c) = (w &&& 0x1FF01FF)) ∧
        (areaRefused s e.val c (wfield w 0 9, x.2.2 * wfield w 16 9) = true →
          ∃ t, exec x.1 s = .next t ∧ onlyRegs s t [pgLnd e.val + 0xC] ∧ regBit t (pgLnd e.val + 0xC) 0 = true)) ∧
    (∀ (off : BitVec 23) (z : AccSize) (x : BitVec 512), off.toNat % accBytes z = 0 →
      (pageTaken s e.val (off.toNat / 0x10000) = false → ∃ t, exec (.slotTableWindowWrite e off z x) s = .next t ∧
        t = { s with edge.slotMem := t.edge.slotMem } ∧
        memNat t.edge.slotMem (e.val * 0x800000 + off.toNat) (accBytes z) = x.toNat % 2 ^ (8 * accBytes z) ∧
        ∀ a, a < e.val * 0x800000 + off.toNat ∨ e.val * 0x800000 + off.toNat + accBytes z ≤ a →
          memByte t.edge.slotMem a = memByte s.edge.slotMem a) ∧
      (pageTaken s e.val (off.toNat / 0x10000) = true → exec (.slotTableWindowWrite e off z x) s =
        .next { s with out := s.out ++ [.errorDone 0] }))

/-! ## Links -/

/-- The configuration of a port and its going down (R287, R295, R303, R304). A port that leaves KIND 2 takes its open
interfaces down (R341). -/
def Obligations.PortsAreConfigured : Prop :=
  ∀ (s : State) (p : Fin 48) (w : Word),
    let k := linkOf s p.val
    let cfg := pgPrt p.val + 0x40
    let quiet := fun (t : State) => regField s (pgOpn p.val + 0x44) 0 4 = 0 ∨ wfield w 0 2 = 2 →
      t.opn = s.opn ∧ regsBut s t [cfg]
    let opnRegs := [cfg, pgOpn p.val + 0x44, pgOpn p.val + 0x10]
    (k.state = .disabled → portNamed s p.val = false → wfield w 0 2 = 1 → macGood s p.val = true →
      w.getLsbD 5 = false →
      ∃ t, exec (.portEnable p w) s = .next t ∧
        t = { s with regs := t.regs, link := t.link, opn := t.opn, nrg.parts := t.nrg.parts } ∧
        regsBut s t opnRegs ∧ quiet t ∧
        (linkOf t p.val).state = .phy ∧ (linkOf t p.val).mac = BitVec.ofNat 48 (portMac s p.val) ∧
        portKind t p.val = 1 ∧ regBit t cfg 2 = true ∧ ∀ q, q ≠ p.val → linkOf t q = linkOf s q) ∧
    (k.state ≠ .disabled → wfield w 0 2 = portKind s p.val → ∃ t, exec (.portDisable p w) s = .next t ∧
      (linkOf t p.val).state = .disabled ∧ (linkOf t p.val).cause = 9 ∧ regBit t cfg 2 = false ∧
      (k.state = .down → t = { s with regs := t.regs, link := t.link, opn := t.opn, nrg.parts := t.nrg.parts } ∧ regsBut s t opnRegs ∧ quiet t)) ∧
    (k.state ≠ .disabled → w.getLsbD 2 = true → wfield w 0 2 = portKind s p.val →
      ∃ t, exec (.forceDown p w) s = .next t ∧ (linkOf t p.val).state = .down ∧ (linkOf t p.val).cause = 9) ∧
    (k.state = .disabled → portNamed s p.val = false → w.getLsbD 2 = true → wfield w 0 2 = 1 →
      ∃ t, exec (.forceDown p w) s = .next t ∧ (linkOf t p.val).state = .down ∧ (linkOf t p.val).cause = 9 ∧
        regBit t (pgPrt p.val + 0x10) 1 = true) ∧
    (k.state = .disabled → portNamed s p.val = false → w.getLsbD 2 = false →
      ∃ t, exec (.kindWrite p w) s = .next t ∧ t = { s with regs := t.regs, opn := t.opn } ∧ regsBut s t opnRegs ∧
        quiet t ∧ portKind t p.val = wfield w 0 2 ∧ (wfield w 0 2 ≠ 2 → regField t (pgOpn p.val + 0x44) 0 4 = 0)) ∧
    (wfield w 0 2 ≠ portKind s p.val → k.state ≠ .disabled ∨ portNamed s p.val = true →
      ∃ t, exec (.kindWrite p w) s = .next t ∧ onlyRegs s t [pgPrt p.val + 0xC] ∧ regBit t (pgPrt p.val + 0xC) 0 = true) ∧
    (∀ cause : DownCause, k.state ≠ .disabled → k.state ≠ .down → frozen s (pgPrt p.val) = false →
      ∃ t, exec (.linkDown p cause) s = .next t ∧
        (linkOf t p.val).state = .down ∧ (linkOf t p.val).cause = BitVec.ofNat 4 (downCode cause) ∧
        (linkOf t p.val).keys = [] ∧ (linkOf t p.val).rbuf = [] ∧ (linkOf t p.val).credits = [0, 0, 0, 0] ∧
        regGet t (pgPrt p.val + 0xA4) = regGet s (pgPrt p.val + 0xA4) + 1 ∧ regBit t (pgPrt p.val + 0x10) 1 = true ∧
        (∀ c ∈ runningOn s p.val, portLost t p.val c = true) ∧
        t.clu = s.clu ∧ t.ses = s.ses ∧ (runningOn s p.val = [] → t.vlt = s.vlt))

/-- Training, from PHY to UP and back (R295 to R297, R303, R378, R433). HELLO under a holdoff, and the agreement that an
ECHO carries, are the model's reading (log 83); the lane seeds' values are free (log 126); where a TRAIN frame goes is
log 124.
Keys of a port (R308, R376 to R378): the messages of an exchange in order, the keys that the last one installs, and the
refusal of a partner that does not verify. Which end of a link is the low one (log 83) and where a KEY frame goes (log
124) are the model's reading. -/
def Obligations.LinksTrainAndExchangeKeys : Prop :=
  (∀ (s : State) (p : Fin 48) (b : BitVec 112),
    let k := linkOf s p.val
    let only := fun (t : State) (l : Link) => t = { s with link := t.link } ∧ linkOf t p.val = l ∧
      ∀ q, q ≠ p.val → linkOf t q = linkOf s q
    let train := fun (t : State) (n : Nat) => (linkOf t p.val).state = k.state ∧
      ∃ fs : List Out, (fs = [] ∨ ∃ m, 0 < m ∧ m < 64 ∧ fs = [.fill p.val m]) ∧
      t = { s with regs := t.regs, link := t.link, edge.used := t.edge.used, out := s.out ++
          (.frame p.val (wireFrame k (linkHeader s p.val 6 14 false) 0 (natBytes 14 n) false) :: fs) }
    let seeds := (List.range 4).map fun j => 530 + 4 * p.val + j
    (k.state = .phy → ∃ t, exec (.phyAligned p) s = .next t ∧
      t = { s with regs := t.regs, link := t.link, free := t.free } ∧
      linkOf t p.val = { k with
        state := .hello, lanesUp := true, ownHello := BitVec.ofNat 112 (helloBody s p.val) } ∧
      (∀ q, q ≠ p.val → linkOf t q = linkOf s q) ∧
      regsBut s t (seeds.flatMap fun i =>
        [pstKey i, pstPage i + 0x800 + 4 * (i % 256), pstPage i + 0xC, pstPage i + 0x10]) ∧
      ∀ i ∈ seeds, bitOf (pstNat t i 1) 31 = true) ∧
    (k.state = .hello → ∃ t, exec (.helloSend p) s = .next t ∧ train t k.ownHello.toNat) ∧
    (∀ src, (k.state = .hello → 2 ≤ byteFld b.toNat 3 1 → k.holdoff ≠ 0 → ∃ t, exec (.hello p ⟨src, b⟩) s = .next t ∧
        t = { s with regs := t.regs, link := t.link } ∧
        regsBut s t [pgPrt p.val + 0x48, pgPrt p.val + 0x50, pgPrt p.val + 0x54] ∧
        regNat t (pgPrt p.val + 0x48) = byteFld b.toNat 8 4 ∧ regNat t (pgPrt p.val + 0x50) = 0x200 ∧
        linkOf t p.val = { k with peer := some src, hello := b }) ∧
      (k.state = .hello → 2 ≤ byteFld b.toNat 3 1 → k.holdoff = 0 → ∃ t, exec (.hello p ⟨src, b⟩) s = .next t ∧
        t = { s with regs := t.regs, link := t.link, out := t.out, edge.used := t.edge.used } ∧
        regNat t (pgPrt p.val + 0x48) = byteFld b.toNat 8 4 ∧ (linkOf t p.val).state = .key ∧
        (linkOf t p.val).peer = some src ∧ (linkOf t p.val).hello = b ∧
        (linkOf t p.val).kx = { KeyEx.init with sent := deviceCerts s } ∧ s.out.length < t.out.length) ∧
      (k.state = .hello → byteFld b.toNat 3 1 < 2 → ∃ t, exec (.hello p ⟨src, b⟩) s = .next t ∧
        (linkOf t p.val).state = .down ∧ (linkOf t p.val).cause = 4) ∧
      (k.state = .key ∨ k.state = .delay ∨ k.state = .ready ∨ k.state = .up → ∃ t, exec (.hello p ⟨src, b⟩) s = .next t ∧
        onlyRegs s t [pgPrt p.val + 0x48] ∧ regNat t (pgPrt p.val + 0x48) = byteFld b.toNat 8 4)) ∧
    (∀ hold, k.state = .key ∨ k.state = .delay ∨ k.state = .ready ∨ k.state = .up →
      ∃ t, exec (.probe p b hold) s = .next t ∧ train t (3 + (byteFld b.toNat 2 2) <<< 16 + hold.toNat <<< 32)) ∧
    (∀ trip agree, let id := byteFld b.toNat 2 2
      let n := k.echoes + 2 ^ id
      let two := max k.delayMax (echoDelay b trip)
      let ns := (two + 1999) / 2000
      (k.state ≠ .delay ∨ 16 ≤ id ∨ bitOf k.echoes id = true → exec (.echo p b ⟨trip, agree⟩) s = .next s) ∧
      (k.state = .delay → id < 16 → bitOf k.echoes id = false →
        (n ≠ 0xFFFF → ∃ t, exec (.echo p b ⟨trip, agree⟩) s = .next t ∧
          only t { k with echoes := n, delayMax := two, agree := k.agree && agree }) ∧
        (n = 0xFFFF → ns ≤ 520 → ∃ t, exec (.echo p b ⟨trip, agree⟩) s = .next t ∧
          t = { s with regs := t.regs, link := t.link } ∧ regsBut s t [pgPrt p.val + 0x4C] ∧
          regNat t (pgPrt p.val + 0x4C) = ns ∧ (linkOf t p.val).state = .ready ∧
          (linkOf t p.val).credits = [16, 16, 16, 16] ∧
          ((linkOf t p.val).pcoal = true ↔ ns ≤ 30 ∧ regBit s (pgPrt p.val + 0x54) 0 = true ∧
            regBit s (pgPrt p.val + 0x40) 3 = false ∧ k.agree = true ∧ agree = true)) ∧
        (n = 0xFFFF → 520 < ns → ∃ t, exec (.echo p b ⟨trip, agree⟩) s = .next t ∧
          (linkOf t p.val).state = .down ∧ (linkOf t p.val).cause = 5))) ∧
    (k.state = .ready → ∃ t, exec (.readySend p) s = .next t ∧ train t 4) ∧
    (k.state = .ready → ∃ t, exec (.ready p) s = .next t ∧ t = { s with regs := t.regs, link := t.link } ∧
      linkOf t p.val = { k with state := .up, expect := 0, ackSent := 0xFFFF, nextSeq := 0, ackRx := 0xFFFF,
                                rbuf := [], timeouts := 0, nakUntil := 0 } ∧
      regsBut s t [pgPrt p.val + 0x10] ∧ regBit t (pgPrt p.val + 0x10) 0 = true) ∧
    (k.state ≠ .disabled → k.state ≠ .phy → k.state ≠ .down → ∃ t, exec (.down p b) s = .next t ∧
      (linkOf t p.val).state = .down ∧
      (linkOf t p.val).cause = (if k.state = .hello ∧ byteFld b.toNat 2 1 = 4 then 4 else 3)) ∧
    (k.state = .hello ∨ k.state = .key ∨ k.state = .delay ∨ k.state = .ready →
      ∃ t, exec (.trainTimeout p) s = .next t ∧ (linkOf t p.val).state = .down ∧ (linkOf t p.val).cause = 8) ∧
    (∀ markers, k.state ≠ .disabled → ∃ t, exec (.phyLockLoss ⟨p, markers⟩) s = .next t ∧
      (linkOf t p.val).state = .down ∧ (linkOf t p.val).cause = 2 ∧ (linkOf t p.val).lanesUp = false ∧
      (frozen s (pgPrt p.val) = false →
        regGet t (pgPrt p.val + 0x84) = regGet s (pgPrt p.val + 0x84) + BitVec.ofNat 32 markers)) ∧
    (k.state = .down → regBit s (pgPrt p.val + 0x40) 4 = true → regBit s (pgPrt p.val + 0x40) 2 = true →
      ∃ t, exec (.retrain p) s = .next t ∧ only t { Link.init with
        state := .phy, cause := k.cause, holdoff := k.holdoff, holdLen := k.holdLen, authAt := k.authAt,
        mac := BitVec.ofNat 48 (portMac s p.val) })) ∧
  (∀ (s : State) (p : Fin 48) (m secret : List Byte),
    let k := linkOf s p.val
    let sends := fun (t : State) => t = { s with regs := t.regs, link := t.link, out := t.out, free := t.free, edge.used := t.edge.used } ∧
      s.out.length < t.out.length ∧ (linkOf t p.val).state = k.state ∧ (linkOf t p.val).keys = k.keys ∧
      ∀ q, q ≠ p.val → linkOf t q = linkOf s q
    let refused := fun (t : State) => (linkOf t p.val).state = .down ∧ (linkOf t p.val).cause = 6 ∧
      (linkOf t p.val).holdoff = holdoffAfter s k
    let installed := fun (t : State) (phase : Nat) (keys : BitVec 288 × BitVec 288) =>
      (linkOf t p.val).keyPhase.toNat = phase ∧
      linkKey (linkOf t p.val) phase false = some (if lowEnd k then keys.1 else keys.2) ∧
      linkKey (linkOf t p.val) phase true = some (if lowEnd k then keys.2 else keys.1) ∧
      linkKey (linkOf t p.val) (1 - phase) false = none ∧
      linkKey (linkOf t p.val) (1 - phase) true = linkKey k (1 - phase) true ∧
      ∀ q, q ≠ p.val → linkOf t q = linkOf s q
    (updates s p.val = true →
      (regField s (pgSec + 0x94) 0 16 ≠ 0 → ∃ t, exec (.linkRekey p) s = .next t ∧
        (k.kx.certs.bind chainKey ≠ none → sends t ∧ (linkOf t p.val).kx.update = true ∧
          (linkOf t p.val).kx.own ≠ none)) ∧
      (∀ o c, k.kx.update = true → k.kx.certs = some c → k.kx.own = some o →
        let k' := { k with kx.secret := some secret }
        ∃ t, exec (.keyUpdate ⟨p, secret, m⟩) s = .next t ∧
          (∀ keys, linkKeys s k' m = some keys → k.keyPhase.toNat < 2 →
            t = { s with regs := t.regs, link := t.link, out := t.out, free := t.free, edge.used := t.edge.used } ∧
            installed t (1 - k.keyPhase.toNat) keys ∧ (linkOf t p.val).txc = 0 ∧
            (linkOf t p.val).kx.update = false ∧ (linkOf t p.val).state = .up) ∧
          (linkKeys s k' m = none → refused t))) ∧
    (updates s p.val = false → exec (.linkRekey p) s = .next s ∧ exec (.keyUpdate ⟨p, secret, m⟩) s = .next s) ∧
    (regField s (pgSec + 0x94) 0 16 = 0 → exec (.linkRekey p) s = .next s) ∧
    (k.state = .key → k.kx.certs = none → ∃ t, exec (.keyCerts p m) s = .next t ∧
      (chainKey m ≠ none → sends t ∧ (linkOf t p.val).kx.certs = some m ∧ (linkOf t p.val).kx.own ≠ none) ∧
      (chainKey m = none → refused t)) ∧
    (k.state = .key → k.kx.certs ≠ none → k.kx.own ≠ none → k.kx.secret = none →
      ∃ t, exec (.keySecret p m) s = .next t ∧ sends t ∧ (linkOf t p.val).kx.secret = some m ∧
        (linkOf t p.val).kx.finish ≠ none) ∧
    (k.state = .key → k.kx.finish ≠ none → ∃ t, exec (.keyFinish p m) s = .next t ∧
      (∀ keys, linkKeys s k m = some keys →
        t = { s with regs := t.regs, link := t.link, out := t.out, edge.used := t.edge.used } ∧ installed t 0 keys ∧
        (linkOf t p.val).state = .delay ∧ (linkOf t p.val).echoes = 0 ∧ s.out.length + 16 ≤ t.out.length) ∧
      (linkKeys s k m = none → refused t)) ∧
    (k.state = .key → ∃ t, exec (.keyResend p) s = .next t ∧ sends t ∧ (linkOf t p.val).kx = k.kx) ∧
    (∃ t, exec (.authHoldoffEnd p) s = .next t ∧ t = { s with link := t.link } ∧
      linkOf t p.val = { k with holdoff := 0 } ∧ ∀ q, q ≠ p.val → linkOf t q = linkOf s q))

/-- Acknowledgement, replay and credits of an UP port (R298 to R302). A replay goes out unit by unit, as far as the tick
period's units can take its next entries; what is left goes on in the next period (log 124). -/
def Obligations.AcknowledgementAndReplay : Prop :=
  ∀ (s : State) (p : Fin 48) (ack : BitVec 16) (vc : BitVec 2) (n : BitVec 5),
    let k := linkOf s p.val
    let left := k.rbuf.filter fun x => 0x8000 ≤ (ack - x.seq).toNat
    let only := fun (t : State) (l : Link) => t = { s with link := t.link } ∧ linkOf t p.val = l ∧
      ∀ q, q ≠ p.val → linkOf t q = linkOf s q
    k.state = .up →
    (left.length < k.rbuf.length → ∃ t, exec (.ackRx p ack) s = .next t ∧
      only t { k with
        rbuf := left, ackRx := ack, timeouts := 0, replaying := k.replaying && !left.isEmpty,
        replayPos := k.replayPos - (k.rbuf.length - left.length) }) ∧
    (left.length = k.rbuf.length → exec (.ackRx p ack) s = .next s) ∧
    (∃ t, exec (.nakRx p ack) s = .next t ∧ t = { s with regs := t.regs, link := t.link } ∧
      regsBut s t [pgPrt p.val + 0x98] ∧ (linkOf t p.val).rbuf = left ∧
      (linkOf t p.val).replaying = !left.isEmpty ∧ (linkOf t p.val).replayPos = 0) ∧
    (portUp s p.val = true → k.replaying = true → k.replayPos < k.rbuf.length →
      ∃ (t : State) (fs : List Out) (m : Nat), exec (.replay p) s = .next t ∧
      t = { s with regs := t.regs, link := t.link, out := s.out ++ fs, edge.used := t.edge.used } ∧
      (linkOf t p.val).rbuf = k.rbuf ∧ k.replayPos + m ≤ k.rbuf.length ∧
      (linkOf t p.val).replaying = decide (k.replayPos + m < k.rbuf.length) ∧
      (k.replayPos + m < k.rbuf.length → (linkOf t p.val).replayPos = k.replayPos + m) ∧
      ((fs.filter fun o => match o with | .fill _ _ => false | _ => true).length = m) ∧
      (∀ (i : Nat) (x : ReplayEnt), i < m → k.rbuf[k.replayPos + i]? = some x → ∃ h : BitVec 128,
        (fs.filter fun o => match o with | .fill _ _ => false | _ => true)[i]? =
          some (Out.frame p.val (wireFrame k h x.ext x.body false)) ∧
        h.extractLsb' 16 16 = x.seq ∧ h.getLsbD 9 = true) ∧
      ((∀ u, unitUsed s p.val u ≤ unitSize s u) → ∀ u, unitUsed t p.val u ≤ unitSize s u) ∧
      (∀ x, k.rbuf[k.replayPos]? = some x → (∃ u ∈ frameUnits s,
        unitOpen s p.val (periodPos s (p.val / 16)) (entBytes x) u = true ∧ unitClass s p.val u ≠ .reserved) → 0 < m)) ∧
    (k.timeouts < 2 → ∃ t, exec (.replayTimeout p) s = .next t ∧ t = { s with regs := t.regs, link := t.link } ∧
      linkOf t p.val = { k with timeouts := k.timeouts + 1, replaying := !k.rbuf.isEmpty, replayPos := 0 } ∧
      regsBut s t [pgPrt p.val + 0xA0, pgPrt p.val + 0x10] ∧ regBit t (pgPrt p.val + 0x10) 2 = true) ∧
    (2 ≤ k.timeouts → ∃ t, exec (.replayTimeout p) s = .next t ∧ (linkOf t p.val).state = .down ∧
      (linkOf t p.val).cause = 1) ∧
    (k.pcoal = true → ∃ t, exec (.ackTimer p) s = .next t ∧ only t { k with ackSent := k.expect - 1 }) ∧
    (∀ m, k.credits[vc.toNat]? = some m → (m + n.toNat ≤ 16 → ∃ t, exec (.creditRx p vc n) s = .next t ∧
        only t { k with credits := k.credits.set vc.toNat (m + n.toNat) }) ∧
      (16 < m + n.toNat → ∃ t, exec (.creditRx p vc n) s = .next t ∧ (linkOf t p.val).state = .down ∧
        (linkOf t p.val).cause = 7))

/-! ## Loose traffic and commands -/

/-- A loose packet that has come through leaves in a unit of a usable preferred port (R302, R311, R316, R318 to R320): one
hop more, on the VC of R319, with a credit and a SEQ spent; nothing waits any more.
Routing tables change only while their edge die is paused and drained (R322); otherwise the write
sets STAT bit 0 alone. -/
def Obligations.LoosePacketsFollowRoutes : Prop :=
  (∀ (s : State) (e : Fin 3) (x : Staged) (u : UnitStart),
    let o := u.port.val
    let k := linkOf s o
    s.loose.staged = [x] → x.die = e.val → o / 16 = e.val → x.escape = false → oDst x.pkt ≠ nodeId s →
    oHops x.pkt < 63 → o ∈ preferred s x → looseUsable s x o = true → x.inPort ≠ some o →
    tabGet [] o s.loose.cmdq = [] → (unitClass s o u.unit = .unclaimed ∨ unitClass s o u.unit = .empty) →
    lateFits s o u.unit = false → fitsLoose s o u.unit (unitNext s o u.unit) x = true →
    frozen s (pgLse e.val) = false →
    ∃ t h r rest, exec (.looseForward e [u]) s = .next t ∧
      t = { s with regs := t.regs, link := t.link, out := t.out, loose.staged := [],
                   loose.cmdq := tabSet [] o [] s.loose.cmdq, edge.used := t.edge.used } ∧
      t.out = s.out ++ .frame o (wireFrame k h r.hdr (oBody r) false) :: rest ∧ h.extractLsb' 16 16 = k.nextSeq ∧
      oDst r = oDst x.pkt ∧ oTag r = oTag x.pkt ∧ oHops r = oHops x.pkt + 1 ∧ oVc r = outVc s x o ∧
      oAge r = min 255 (ageAt s x (unitNext s o u.unit) + 1) ∧ r.payload = x.pkt.payload ∧
      (linkOf t o).nextSeq = k.nextSeq + 1 ∧
      (linkOf t o).credits = k.credits.set (outVc s x o) (k.credits.getD (outVc s x o) 0 - 1) ∧
      (∀ q, x.inPort = some q → (linkOf t q).owed.getD x.inVc.toNat 0 =
        if x.inVc.toNat < (linkOf s q).owed.length then (linkOf s q).owed.getD x.inVc.toNat 0 + 1 else 0) ∧
      regGet t (pgLse e.val + 0x100) = regGet s (pgLse e.val + 0x100) + 1) ∧
  (∀ (s : State) (e : Fin 3) (k : Fin 16) (hi : Bool) (w : Word),
    let pg := pgLse e.val
    (tablesOpen s e.val = true →
      (∃ t, exec (.routeHiWrite e w) s = .next t ∧ t = { s with regs := t.regs, loose.route := t.loose.route } ∧
        regsBut s t [pg + 0x68] ∧
        routeOf t e.val (regField s (pg + 0x60) 0 16) = regNat s (pg + 0x64) + wfield w 0 3 * 0x100000000 ∧
        ∀ d, d < 65536 → d ≠ regField s (pg + 0x60) 0 16 → routeOf t e.val d = routeOf s e.val d) ∧
      (∃ t, exec (.portDimWrite e k w) s = .next t ∧ onlyRegs s t [pg + 0x80 + 4 * k.val] ∧
        regGet t (pg + 0x80 + 4 * k.val) = (w &&& 0x1F)) ∧
      (∃ t, exec (.deflectMaskWrite e hi w) s = .next t ∧ onlyRegs s t [pg + (if hi then 0x4C else 0x48)] ∧
        regGet t (pg + (if hi then 0x4C else 0x48)) = (if hi then w &&& 0xFFFF else w))) ∧
    (tablesOpen s e.val = false →
      ∀ c ∈ [Instr.routeHiWrite e w, .portDimWrite e k w, .deflectMaskWrite e hi w],
        ∃ t, exec c s = .next t ∧ onlyRegs s t [pg + 0xC] ∧ regBit t (pg + 0xC) 0 = true) ∧
    (∃ t, exec (.pause e w) s = .next t ∧ onlyRegs s t [pg + 0x40] ∧ pausedNow t e.val = w.getLsbD 0) ∧
    (drainedNow s e.val = true → ∃ t, exec (.drained e) s = .next t ∧ onlyRegs s t [pg + 0x10] ∧
      regBit t (pg + 0x10) 0 = true))

/-- The endpoint originates the record at the head of its queue (R323 to R326): once the record is read (in the state
`y.2`) it has the stream's next ORD, a free tag, its packet at E1's router, and HEAD moved on; an idle stream is closed
in the same way. -/
def Obligations.EndpointOriginates : Prop :=
  ∀ (s : State),
    (∀ (q : Fin 16) (i : Nat) (r : LooseReq) (c : SendCtx) (v : State), mayOriginate s = true → 2 ≤ epSize s q.val →
      epHead s q.val ≠ epTail s q.val →
      let y := engineLines s 1 .dma (epRecord s q.val (epHead s q.val)) 2
      y.1.bind originReq = some r →
      takeSend y.2 (BitVec.ofNat 16 (oDst r)) (BitVec.ofNat 4 q.val) = some (c, v) → freeTag s = some i →
      ∃ t p, exec (.looseOriginate q) s = .next t ∧ sameButEvents t { y.2 with regs := t.regs, loose := t.loose } ∧
        epHead t q.val = ringNext (epHead y.2 q.val) (epSize y.2 q.val) % 65536 ∧
        regsBut y.2 t [pgLse 1 + 0x20C + 0x10 * q.val] ∧
        t.loose.outReq = y.2.loose.outReq ++ [p] ∧ p.tag.toNat % 4096 = i ∧ oOp p.req = oOp r ∧
        oOrd p.req = c.ord ∧ oTag p.req = p.tag ∧ oDst p.req = c.dst.toNat ∧
        t.loose.staged.map (·.pkt) = y.2.loose.staged.map (·.pkt) ++ [p.req]) ∧
    (∀ (dst : BitVec 16) (st : BitVec 4) (c : SendCtx) (i : Nat), sendOf s dst st = some c → freeTag s = some i →
      pausedNow s 1 = false → c.closing = false → c.closed = none → c.out = 0 →
      ∃ t p, exec (.sendContextIdle dst st) s = .next t ∧ sameButEvents t { s with loose := t.loose } ∧
        t.loose.outReq = s.loose.outReq ++ [p] ∧ oOp p.req = 5 ∧ oOrd p.req = c.ord ∧
        (sendOf t dst st).map (·.closing) = some true ∧
        t.loose.staged.map (·.pkt) = s.loose.staged.map (·.pkt) ++ [p.req])

/-- Requests are performed in ORD order, and complete (R312, R323 to R326, R382, R383): for the request
that its stream expects, the context moves on, the access happens and one completion with its TAG waits
at E1's router; a register that remote accesses may not reach is left, with a completion that says so.
Completions and the timers of streams (R323 to R325). -/
def Obligations.RequestsAndStreamsEnd : Prop :=
  (∀ (s : State) (r : LooseReq) (x : RecvCtx) (op : Nat),
    let q := oWith r op
    s.loose.staged = [] → looseBad q = false → oDst q = nodeId s → x.window = [] → x.closed = false → oOrd q = x.exp →
    x.src = reqSrc q → x.stream = oStream q →
    recvOf s x.src x.stream = some x ∨ (recvOf s x.src x.stream = none ∧ x.exp = 0 ∧ s.loose.recvCtx.length < 4096 ∧ op ≠ 5) →
    let done := fun (t : State) (status len data : Nat) =>
      sameButEvents t { s with regs := t.regs, loose := t.loose, vlt := t.vlt } ∧
      recvOf t x.src x.stream = some { x with exp := x.exp + 1, closed := decide (op = 5) } ∧
      ∃ y, t.loose.staged = [y] ∧ y.die = 1 ∧ oOp y.pkt = 4 ∧ oTag y.pkt = oTag q ∧ oDst y.pkt = oSrc q ∧
        bitsOf y.pkt.hdr.toNat 128 4 = status ∧ oLen y.pkt = len ∧ y.pkt.payload = BitVec.ofNat 512 data
    let m := byteFld q.hdr.toNat 16 1
    (op = 1 → (m ≤ 14 → epFull s (17 + m) = false → ∃ t, exec (.msg r) s = .next t ∧ done t 0 0 0 ∧
        epTail t (17 + m) = ringNext (epTail s (17 + m)) (epSize s (17 + m)) % 65536) ∧
      (14 < m → ∃ t, exec (.msg r) s = .next t ∧ done t 3 0 0 ∧ t.vlt = s.vlt ∧ t.regs = s.regs)) ∧
    (∀ v u c, dramMap s (oAddr q) = some (v, u) → dramOwner s (oAddr q) = some c → regKey (oAddr q) = none →
      dieServes s (v / 64) = true → c < 256 → (ctx s c).conf = false → (ctx s c).access.getLsbD 2 = true →
      oAddr q % 64 = 0 →
      (op = 2 → lineKind s v u c = (0, false) → ∃ t, exec (.rd r) s = .next t ∧ done t 0 64 (lineData s v u) ∧
        t.vlt = s.vlt) ∧
      (op = 3 → oLen q = 64 → isRetired s v (u / 0x10000) (u / 0x800 % 32) = false →
        ∃ t, exec (.wr r) s = .next t ∧ done t 0 0 0 ∧ lineData t v u = r.payload.toNat)) ∧
    (∀ k, regKey (oAddr q) = some k → regsDenied s k = true →
      (op = 2 → ∃ t, exec (.rd r) s = .next t ∧ done t 1 0 0 ∧ t.vlt = s.vlt ∧ t.regs = s.regs) ∧
      (op = 3 → ∃ t, exec (.wr r) s = .next t ∧ done t 1 0 0 ∧ t.vlt = s.vlt ∧ t.regs = s.regs)) ∧
    (op = 5 → ∃ t, exec (.close r) s = .next t ∧ done t 0 0 0 ∧ t.vlt = s.vlt ∧ t.regs = s.regs)) ∧
  (∀ (s : State) (src : BitVec 16) (st : BitVec 4),
    (∀ (r : LooseReq) (q : OutReq), looseBad (oWith r 4) = false → oDst (oWith r 4) = nodeId s → s.loose.staged = [] →
      (s.loose.outReq.find? fun y => y.tag = oTag (oWith r 4)) = some q →
      ∃ t, exec (.cpl r) s = .next t ∧ t.loose.outReq = s.loose.outReq.filter (fun y => y.tag ≠ q.tag) ∧
        t.loose.recvCtx = s.loose.recvCtx ∧ t.clu = s.clu ∧
        (oOp q.req = 5 → t = { s with regs := t.regs, loose := t.loose } ∧ regsBut s t [pgLse 1 + 0x10])) ∧
    (∀ (r : LooseReq), looseBad (oWith r 4) = false → oDst (oWith r 4) = nodeId s → s.loose.staged = [] →
      (s.loose.outReq.find? fun y => y.tag = oTag (oWith r 4)) = none → frozen s (pgLse 1) = false →
      ∃ t, exec (.cpl r) s = .next t ∧ onlyRegs s t [pgLse 1 + 0x40C] ∧
        regGet t (pgLse 1 + 0x40C) = regGet s (pgLse 1 + 0x40C) + 1) ∧
    (∀ q, s.loose.outReq.find? (fun y => y.tag = src) = some q → ∃ t, exec (.reqTimeout src) s = .next t ∧
      t.loose.outReq = s.loose.outReq.filter (fun y => y.tag ≠ src) ∧ regBit t (pgLse 1 + 0x10) 2 = true ∧
      t.clu = s.clu ∧ t.loose.staged = s.loose.staged) ∧
    (∀ x, recvOf s src st = some x → x.closed = false → x.window ≠ [] → (∀ q ∈ x.window, oOrd q ≠ x.exp + 1) →
      ∃ t, exec (.reorderTimeout src st) s = .next t ∧
        t = { s with regs := t.regs, loose.recvCtx := t.loose.recvCtx } ∧ regsBut s t [pgLse 1 + 0x408] ∧
        recvOf t src st = some { x with exp := x.exp + 1 }) ∧
    (∀ x, recvOf s src st = some x → (x.closed = true → exec (.closedContextFree src st) s =
        .next { s with loose.recvCtx := s.loose.recvCtx.filter fun y => !isRecv src st y }) ∧
      (x.closed = false → x.window = [] → exec (.rxIdle src st) s =
        .next { s with loose.recvCtx := s.loose.recvCtx.filter fun y => !isRecv src st y })) ∧
    (∀ x, sendOf s src st = some x → x.closed ≠ none → exec (.sendContextFree src st) s =
      .next { s with loose.sendCtx := s.loose.sendCtx.filter fun y => !isSend src st y }))

/-- Command frames travel and are answered (R314, R315): a malformed frame and a second copy are only
counted, a directed one goes on with one hop more, a CACK ends its wait, and after 8 resends the command
has failed.
Management commands (R338, R388): an accepted datagram is a command frame of no port and moves the
counter on; any other datagram of the port is counted. -/
def Obligations.CommandFramesTravel : Prop :=
  (∀ (s : State) (p : Option (Fin 48)) (f : CmdFrame) (n : BitVec 32),
    let e := match p with | some p => p.val / 16 | none => 1
    (cReserved f = true → ∃ t, exec (.commandRx p f) s = .next t ∧ onlyRegs s t [pgLse e + 0x118]) ∧
    (cReserved f = false → cmdSeen s f = true → frozen s (pgLse e) = false → ∃ t, exec (.commandRx p f) s = .next t ∧
      onlyRegs s t [pgLse e + 0x118, pgLse e + 0x11C] ∧
      regGet t (pgLse e + 0x11C) = regGet s (pgLse e + 0x11C) + 1) ∧
    (∀ q, cReserved f = false → cmdSeen s f = false → cFlood f = false → cDst f ≠ nodeId s → cHops f < 63 →
      cmdPort s e (cDst f) = some q → (tabGet [] q s.loose.cmdq).length < 64 →
      ∃ t, exec (.commandRx p f) s = .next t ∧
        t = { s with regs := t.regs, loose.cmdq := t.loose.cmdq, loose.seen := t.loose.seen } ∧
        tabGet [] q t.loose.cmdq = tabGet [] q s.loose.cmdq ++ [(cHop f, 2)] ∧ cmdSeen t f = true ∧
        regsBut s t [pgLse e + 0x118, pgLse e + 0x120]) ∧
    exec (.cack f) s = .next { s with
      loose.waits := s.loose.waits.filter fun w => (cSeq w.cmd).toNat ≠ cBody f 0 4 } ∧
    (∀ w, (s.loose.waits.find? fun w => cSeq w.cmd = n) = some w →
      (8 ≤ w.resends → ∃ t, exec (.cmdRetry n) s = .next t ∧
        t = { s with regs := t.regs, loose.waits := s.loose.waits.erase w } ∧
        regsBut s t [pgLse 1 + 0x400, pgLse 1 + 0x10] ∧ regBit t (pgLse 1 + 0x400) 31 = true ∧
        regBit t (pgLse 1 + 0x10) 1 = true) ∧
      (∀ q, w.resends < 8 → cmdPort s 1 (cDst w.cmd) = some q → (tabGet [] q s.loose.cmdq).length < 64 →
        ∃ t, exec (.cmdRetry n) s = .next t ∧
          t = { s with loose.cmdq := t.loose.cmdq, loose.waits := t.loose.waits } ∧
          tabGet [] q t.loose.cmdq = tabGet [] q s.loose.cmdq ++ [(w.cmd, 2)] ∧
          (t.loose.waits.find? fun w => cSeq w.cmd = n) = some { w with resends := w.resends + 1 }))) ∧
  (∀ (s : State) (d : MgmtDatagram), d.port ≠ 0 → d.port.toNat = regField s (pgMgt + 0x70) 0 16 → ifUp s .mgt = true →
    (mgmtGood s d = true → ∃ t, exec (.mgmtCommand d) s = .next t ∧
      exec (.commandRx none d.cmd) { s with opn.mgmtCt := some d.counter } = .next t) ∧
    (mgmtGood s d = false → frozen s pgMgt = false → ∃ t, exec (.mgmtCommand d) s = .next t ∧
      onlyRegs s t [pgMgt + 0xB4, pgMgt + 0x10] ∧ regGet t (pgMgt + 0xB4) = regGet s (pgMgt + 0xB4) + 1) ∧
    (mgmtGood s d = true → ∃ k, s.sec.mgmtKey = some k ∧ ∀ c, s.opn.mgmtCt = some c → c < d.counter))

/-! ## Open ports -/

/-- Open interfaces and their steering (R329, R330, R333, R341, R461): one that comes up under a full buffer sends XOFF;
one that goes down forgets its partner's pauses. Its measured delays are free (log 54).
Frames of open interfaces (R330 to R336): a pause frame pauses the priorities that it names; a frame for another
address is dropped and counted; one for a queue with room waits with its record, and then stands in its ring; the
descriptor whose turn it is has its frame sent, and no other. Whose turn it is, and that a queue out of its turn does
nothing and a pause frame is not delivered, is the model's reading (log 54); the form of a pause frame and the length of
a pause are those of the Ethernet standards (log 102). -/
def Obligations.OpenInterfacesCarryFrames : Prop :=
  (∀ (s : State) (i : OpenIf) (b : OpenPort) (k : OpenBlk) (w : Word),
    let pg := ifPage i
    (ifOn s i = true →
      let xoff := ifUp s i = false ∧ ifPfc s i = true ∧ tabGet false (ifBlk i) s.opn.xoff = true
      ∃ t, exec (.openIfUp i) s = .next t ∧ t = { s with regs := t.regs, free := s.free + 2, out := t.out } ∧
        regsBut s t [pg + 0x44, pg + 0x48, pg + 0x4C, pg + 0xB0] ∧ ifUp t i = true ∧
        (xoff → t.out = s.out ++ [.pfc i true]) ∧
        (¬xoff → t.out = s.out ∧ regGet t (pg + 0xB0) = regGet s (pg + 0xB0))) ∧
    (regBit s (pg + 0x44) (ifNo i) = true → ∃ t, exec (.openIfDown i) s = .next t ∧
      t = { s with regs := t.regs, opn.paused := t.opn.paused } ∧ regsBut s t [pg + 0x44, pg + 0x10] ∧
      ifUp t i = false ∧ regBit t (pg + 0x10) 1 = true ∧
      ∀ n, n < 8 → tabGet 0 (8 * ifKey i + n) t.opn.paused = 0) ∧
    (regField s (openPortPage b + 0x44) 0 4 = 0 → ∃ t, exec (.ifCfgWrite b w) s = .next t ∧
      onlyRegs s t [openPortPage b + 0x40] ∧ regGet t (openPortPage b + 0x40) = (w &&& 0x7F)) ∧
    (regField s (openPortPage b + 0x44) 0 4 ≠ 0 → ∃ t, exec (.ifCfgWrite b w) s = .next t ∧
      onlyRegs s t [openPortPage b + 0xC] ∧ regBit t (openPortPage b + 0xC) 0 = true) ∧
    (let n := regField s (blkPage (blkNo k) + 0xE10) 0 8
     let x := regNat s (blkPage (blkNo k) + 0xE14) + w.toNat * 0x100000000;
      bitsOf x 36 28 = 0 → bitsOf x 18 6 < blkQueues (blkNo k) → (blkNo k = 3 → bitsOf x 26 4 = 0) →
      n < blkSteers (blkNo k) → ∃ t, exec (.steerHiWrite k w) s = .next t ∧
        t = { s with regs := t.regs, opn.steer := t.opn.steer } ∧ steerOf t (blkNo k) n = x ∧
        regsBut s t [blkPage (blkNo k) + 0xE18])) ∧
  (∀ (s : State) (i : OpenIf) (f : EthFrame) (b : OpenBlk) (q : BitVec 6) (tp : Nat),
    (ifUp s i = true → 60 ≤ f.bytes.length → f.bytes.length ≤ 9212 → tagCount f.bytes ≤ 1 →
      (isPfc f.bytes = true → ifPfc s i = true → ∃ t, exec (.openFrameRx i f) s = .next t ∧
        t = { s with opn.paused := t.opn.paused } ∧
        ∀ n, n < 8 → tabGet 0 (8 * ifKey i + n) t.opn.paused =
          if bitOf (frameNat f.bytes 16 2) n
          then 1000 * (s.time.periods + f.tp) + frameNat f.bytes (18 + 2 * n) 2 * pauseUnit s i
          else tabGet 0 (8 * ifKey i + n) s.opn.paused) ∧
      ((isPfc f.bytes && ifPfc s i) = false →
        (dstAccepted s i (dstMac f.bytes) = false → frozen s (ifPage i) = false →
          ∃ t, exec (.openFrameRx i f) s = .next t ∧ onlyRegs s t [ifPage i + 0xA0, ifPage i + 0x10] ∧
            regGet t (ifPage i + 0xA0) = regGet s (ifPage i + 0xA0) + 1) ∧
        (let k := rxqKey (ifBlk i) (rxQueue s i f);
          dstAccepted s i (dstMac f.bytes) = true →
          (i = .mgt → udpParsed f.bytes ≠ some (regField s (pgMgt + 0x70) 0 16)) → ringOn s k = true →
          f.bytes.length + 64 ≤ rxSize s k →
          ringUsed s k + (s.opn.held.filter fun x => x.blk = ifBlk i && x.queue = rxQueue s i f).length + 1 < ringSize s k →
          (i ≠ .mgt → bufLevel s (ifBlk i) + f.bytes.length ≤ bufSize) →
          ∃ t, exec (.openFrameRx i f) s = .next t ∧
            t = { s with regs := t.regs, out := t.out, opn.held := t.opn.held, opn.xoff := t.opn.xoff } ∧
            t.opn.held = s.opn.held ++ [⟨ifBlk i, rxQueue s i f, rxRecord s i f, f.bytes.length, ifPage i⟩] ∧
            (i = .mgt → t.regs = s.regs ∧ t.out = s.out)))) ∧
    (let k := rxqKey (blkNo b) q.toNat;
      ∀ x, (s.opn.held.find? fun y => y.blk = blkNo b && y.queue = q.toNat) = some x → ringOn s k = true →
        ringFull (ringHead s k) (ringTail s k) (ringSize s k) = false → x.len + 64 ≤ rxSize s k →
        ∃ t, exec (.openRxDeliver b q) s = .next t ∧ t.opn.held = s.opn.held.erase x ∧
          ringTail t k = ringNext (ringTail s k) (ringSize s k) % 65536 ∧ t.clu = s.clu ∧ t.ses = s.ses) ∧
    (let k := txqKey (blkNo b) q.toNat
     let d := txNext s (blkNo b) q.toNat;
      ∀ l fr, txTurn s (blkNo b) tp = some q.toNat → d.1 = some l → txGood s (blkNo b) (bytesNat l) = true →
        bitOf (byteFld (bytesNat l) 8 1) 2 = false →
        (engineBytes d.2 (blkNo b) .openPort (byteFld (bytesNat l) 0 6) (byteFld (bytesNat l) 6 2)).1 = some fr →
        ∃ t, exec (.openTx b q tp) s = .next t ∧
          sameButEvents t { s with regs := t.regs, vlt := t.vlt, out := t.out, opn.turn := t.opn.turn } ∧
          t.vlt.mem = s.vlt.mem ∧
          t.out = s.out ++ [.open_ (txIf (blkNo b) (bytesNat l))
            (txFrame (byteFld (bytesNat l) 8 1) (taiOf (wallAt s tp)) fr)] ∧
          ifUp s (txIf (blkNo b) (bytesNat l)) = true ∧
          ringHead t k = ringNext (ringHead s k) (ringSize s k) % 65536 ∧
          (q ≠ 1 → tabGet 0 (blkNo b) t.opn.turn = q.toNat)) ∧
    (txTurn s (blkNo b) tp ≠ some q.toNat → exec (.openTx b q tp) s = .next s))

/-! ## Raisings -/

/-- ARM (R346, R347, R355, R361): a raising that every check passes is LOADED from the plan loaded last (log 105); one
that fails, or that finds no plan, keeps what the context held, with the code; a context in the wrong state refuses. That
RUNNING or HELD with a free successor loads a successor (log 43), and that an ARM drops a successor left over by a raising
that has ended (log 42), is the model's reading. -/
def Obligations.ArmLoadsARaising : Prop :=
  ∀ (s : State) (c : Fin 256) (rid : BitVec 16),
    let key := rReg c.val 0x54
    let v := regSet s key (rid.setWidth 32)
    ∀ x ∈ [(Instr.rcmdArm c rid, false), (.armReplay c rid, regBit s (pgTrl + 0x40) 1)],
      (∀ q, (raising s c.val).state = .none ∨ (raising s c.val).state = .stopped ∨ (raising s c.val).state = .faulted →
        planSlot s s.rai.lastSlot = some q → ∃ t, exec x.1 s = .next t ∧
          (armCheck v c.val rid.toNat q false = 0 →
            sameButEvents t { s with regs := t.regs, vlt := t.vlt, rai.ctx := t.rai.ctx } ∧
            (regField s (pgTrl + 0x40) 0 2 ≠ 3 → t.vlt = s.vlt ∧ regsBut s t [key]) ∧
            raising t c.val = { Raising.init with
              state := .loaded
              plan := s.rai.lastSlot
              raiseId := rid
              digest := raiseDigest v q.addr q.hdr
              replay := x.2 && memberIndex v q.addr q.hdr = 0 } ∧
            (ctx t c.val).lastStatus = 0 ∧ (ctx t c.val).succ = none ∧ ∀ d, d ≠ c.val → ctx t d = ctx s d)) ∧
      (∀ q, (raising s c.val).state = .running ∨ (raising s c.val).state = .held → (ctx s c.val).succ = none →
        planSlot s s.rai.lastSlot = some q →
        let keep := (raising s c.val).raiseId = rid ∧ (raising s c.val).digest = raiseDigest v q.addr q.hdr
        ∃ t, exec x.1 s = .next t ∧ raising t c.val = raising s c.val ∧
          sameButEvents t { s with regs := t.regs, vlt := t.vlt, rai.ctx := t.rai.ctx } ∧
          (armCheck v c.val rid.toNat q (decide keep) = 0 →
          ((ctx t c.val).succ.map fun r => (r.state, r.raiseId)) = some (.loaded, rid))) ∧
      (∀ q n, (raising s c.val).state = .none ∨ (raising s c.val).state = .stopped ∨
          (raising s c.val).state = .faulted → planSlot s s.rai.lastSlot = some q →
        armCheck v c.val rid.toNat q false = n → n ≠ 0 → ∃ t, exec x.1 s = .next t ∧
          t = { s with regs := t.regs, rai.ctx := t.rai.ctx } ∧ regsBut s t [key, pgTim2 + 0x10] ∧
          ctx t c.val = { ctx s c.val with lastStatus := BitVec.ofNat 4 n } ∧ regBit t (pgTim2 + 0x10) 2 = true) ∧
      ((raising s c.val).state = .none ∨ (raising s c.val).state = .stopped ∨ (raising s c.val).state = .faulted →
        planSlot s s.rai.lastSlot = none → ∃ t, exec x.1 s = .next t ∧
          t = { s with regs := t.regs, rai.ctx := t.rai.ctx } ∧ regsBut s t [key, pgTim2 + 0x10] ∧
          ctx t c.val = { ctx s c.val with lastStatus := 1 }) ∧
      ((raising s c.val).state = .loaded ∨ (raising s c.val).state = .prepared ∨ (raising s c.val).state = .committed →
        ∃ t, exec x.1 s = .next t ∧ onlyRegs s t [key, pgTim2 + 0xC] ∧ regBit t (pgTim2 + 0xC) 0 = true)

/-- RCMD on a raising of one package (R346, R349, R350, R353, R355): the state it leads to; in another state
it is refused with STAT bit 0 alone. That START beside a raising that may not share the partition is refused (log 110),
does not test the partition map again (log 106), and that RESUME of a raising whose HOLD still waits is taken, is the
model's choice. -/
def Obligations.RaisingCommandsFollowStates : Prop :=
  ∀ (s : State) (c : Fin 256), isMulti s c.val = false →
    let r := raising s c.val
    let m : Prep := ⟨r.digest, BitVec.ofNat 64 (regPair s (rReg c.val 0x58)),
      BitVec.ofNat 64 (rotWanted s (rImg s r).2 (ctx s c.val).part), 0, 0⟩
    let at_ := BitVec.ofNat 64 (regPair s (rReg c.val 0x60))
    let only := fun (t : State) => t = { s with rai.ctx := t.rai.ctx } ∧ ∀ d, d ≠ c.val → ctx t d = ctx s d
    let refused := fun (i : Instr) => ∃ t, exec i s = .next t ∧ onlyRegs s t [pgTim2 + 0xC] ∧ regBit t (pgTim2 + 0xC) 0 = true
    (r.state = .loaded → rotBroken s (ctx s c.val).part c.val (rImg s r).2 = false →
      let k := pgTim0 + 0x70
      let armed := regBit s k 0 && regField s k 4 4 = (ctx s c.val).part
      ∃ t, exec (.rcmdStart c) s = .next t ∧ t = { s with regs := t.regs, rai.ctx := t.rai.ctx } ∧
        (∀ d, d ≠ c.val → ctx t d = ctx s d) ∧
        raising t c.val = { r with state := .committed, startTick := s.time.tick + 1, armedTrig := armed } ∧
        (armed = false → t.regs = s.regs) ∧
        (armed = true → regsBut s t [k] ∧ regGet t k =
          if wallOf (taiRegs s (pgTim0 + 0x60)) < wallAt s (elapsed s) then regGet s k ||| 0x100 else regGet s k)) ∧
    (r.state = .loaded → rotBroken s (ctx s c.val).part c.val (rImg s r).2 = true → refused (.rcmdStart c)) ∧
    (r.state ≠ .loaded → refused (.rcmdStart c)) ∧
    (r.state = .loaded → regField s (rReg c.val 0x54) 0 16 = r.raiseId.toNat →
      ∃ t, exec (.rcmdPrepare c) s = .next t ∧ (phaseOne s c.val false m = 0 → only t ∧
        (raising t c.val).state = .committed ∧ (raising t c.val).startTick = m.start ∧ (ctx t c.val).lastStatus = 0)) ∧
    (∀ n, r.state = .loaded → regField s (rReg c.val 0x54) 0 16 = r.raiseId.toNat → phaseOne s c.val false m = n → n ≠ 0 →
      ∃ t, exec (.rcmdPrepare c) s = .next t ∧ raising t c.val = r ∧ (ctx t c.val).lastStatus = BitVec.ofNat 4 n ∧
        regsBut s t [pgTim2 + 0x10]) ∧
    (r.state ≠ .loaded → refused (.rcmdPrepare c)) ∧
    (∀ q, (ctx s c.val).succ = some q → q.state = .loaded → hChips (rImg s q).2 ≤ 1 →
      regField s (rReg c.val 0x54) 0 16 = q.raiseId.toNat →
      ∃ t, exec (.rcmdReRaise c) s = .next t ∧ raising t c.val = r ∧
        (phaseOne s c.val true { m with
            digest := q.digest
            rot := BitVec.ofNat 64 (rotWanted s (rImg s q).2 (ctx s c.val).part)
            old := BitVec.ofNat 16 (regField s (rReg c.val 0x70) 0 16)
            stop := at_ } = 0 → only t ∧
          ((ctx t c.val).succ.map fun x => (x.state, x.stopFrame)) = some (.committed, at_))) ∧
    (liveState r.state = true → ∃ t, exec (.rcmdStop c) s = .next t ∧ only t ∧
      raising t c.val = { r with stopAt := minFrame r.stopAt at_ }) ∧
    (liveState r.state = false → refused (.rcmdStop c)) ∧
    (r.state = .committed ∨ r.state = .running → ∃ t, exec (.rcmdHold c) s = .next t ∧ only t ∧
      raising t c.val = { r with holdAt := minFrame r.holdAt at_ }) ∧
    (r.state ≠ .committed → r.state ≠ .running → refused (.rcmdHold c)) ∧
    (r.state = .held → ∃ t, exec (.rcmdResume c) s = .next t ∧ only t ∧
      raising t c.val = { r with resumeAt := some (BitVec.ofNat 64 (regPair s (rReg c.val 0x68))) }) ∧
    (r.state = .committed ∨ r.state = .running → r.holdAt ≠ none → ∃ t, exec (.rcmdResume c) s = .next t ∧ only t ∧
      raising t c.val = { r with resumeAt := some (BitVec.ofNat 64 (regPair s (rReg c.val 0x68))) }) ∧
    (r.state = .committed ∨ r.state = .running → r.holdAt = none → refused (.rcmdResume c)) ∧
    (liveState r.state = false → refused (.rcmdResume c)) ∧
    (r.state = .loaded ∨ r.state = .stopped ∨ r.state = .faulted → ∃ t, exec (.rcmdDiscard c) s = .next t ∧ only t ∧
      ctx t c.val = { ctx s c.val with raising := Raising.init }) ∧
    (∀ q, r.state ≠ .loaded → r.state ≠ .stopped → r.state ≠ .faulted → (ctx s c.val).succ = some q →
      (q.state = .loaded → ∃ t, exec (.rcmdDiscard c) s = .next t ∧ only t ∧
        ctx t c.val = { ctx s c.val with succ := none }) ∧
      (q.state ≠ .loaded → refused (.rcmdDiscard c))) ∧
    (r.state ≠ .loaded → r.state ≠ .stopped → r.state ≠ .faulted → (ctx s c.val).succ = none → refused (.rcmdDiscard c))

/-- Commands of other packages act on the raising that their RAISE_ID names, and no raising else (R282,
R348 to R350, R353): each code's effect on the context, after the record for queue 31. -/
def Obligations.ReceivedCommandsActOnTheirRaising : Prop :=
  ∀ (s : State) (f : CmdFrame) (c : Nat),
    let r := raising s c
    let w := fun o n => BitVec.ofNat 64 (cBody f o n)
    let frame := fun (t : State) => t.clu = s.clu ∧ t.edge.landing = s.edge.landing ∧ t.ses = s.ses ∧ t.sec = s.sec ∧
      ∀ d, d ≠ c → ctx t d = ctx s d
    (cmdCtx s (cRaiseId f) true = some (c, false) → cmdCtx s (cRaiseId f) false = some (c, false) →
      (liveState r.state = true → ∃ t, exec (.stop f) s = .next t ∧ frame t ∧
        raising t c = { r with stopAt := minFrame r.stopAt (w 0 8) }) ∧
      (r.state = .committed ∨ r.state = .running → ∃ t, exec (.hold f) s = .next t ∧ frame t ∧
        raising t c = { r with holdAt := minFrame r.holdAt (w 0 8) }) ∧
      (r.state = .held ∨ r.holdAt ≠ none → ∃ t, exec (.resume f) s = .next t ∧ frame t ∧
        raising t c = { r with resumeAt := some (w 0 8) }) ∧
      (r.state = .prepared → (r.digest.toNat = cBody f 0 32 ∧ r.startTick = w 32 8) →
        ∃ t, exec (.commit f) s = .next t ∧ frame t ∧ raising t c = { r with state := .committed }) ∧
      (r.state = .prepared → ¬(r.digest.toNat = cBody f 0 32 ∧ r.startTick = w 32 8) →
        ∃ t, exec (.commit f) s = .next t ∧ frame t ∧ raising t c = r) ∧
      (r.state = .prepared → ∃ t, exec (.abort f) s = .next t ∧ frame t ∧ raising t c = { r with state := .loaded } ∧
        (ctx t c).lastStatus = BitVec.ofNat 4 (cBody f 0 1)) ∧
      (∀ k j, r.state = .prepared → r.answered = false → cBody f 0 1 = 0 →
        let v := deliverCmd s (cWith f 7)
        ((rKids v r).find? fun k => rNode v r k = cOrigin f) = some k → (∀ a ∈ r.acks, a.member ≠ k) →
        j ∈ rKids v r → j ≠ k → (∀ a ∈ r.acks, a.member ≠ j) →
        ∃ t, exec (.prepareAck f) s = .next t ∧ frame t ∧
          raising t c = { r with acks := r.acks ++ [⟨k, 0, cBody f 4 4⟩] }) ∧
      (∀ x ∈ [(Instr.prepare f, deliverCmd s (cWith f 6),
                ⟨BitVec.ofNat 256 (cBody f 0 32), w 32 8, w 40 8, 0, 0⟩),
              (.reRaise f, deliverCmd s (cWith f 4),
                (⟨BitVec.ofNat 256 (cBody f 0 32), w 32 8, w 40 8, BitVec.ofNat 16 (cBody f 48 2), w 56 8⟩ : Prep))],
        (∀ n, phaseOne x.2.1 c false x.2.2 = n → n ≠ 0 → ∃ t, exec x.1 s = .next t ∧ frame t ∧
          ctx t c = { ctx s c with lastStatus := BitVec.ofNat 4 n }) ∧
        (rKids x.2.1 r = [] → rMember x.2.1 r ≠ 0 → ∃ t, exec x.1 s = .next t ∧ frame t ∧
          (phaseOne x.2.1 c false x.2.2 = 0 → raising t c = { r with
            state := .prepared
            startTick := x.2.2.start
            rotDigest := x.2.2.rot
            oldRaise := x.2.2.old
            stopFrame := x.2.2.stop
            acks := []
            answered := true }))) ∧
      (∃ t, exec (.faultReport f) s = .next t ∧ sameButEvents t { s with regs := t.regs, vlt := t.vlt } ∧
        (epFull s 31 = false → epTail t 31 = ringNext (epTail s 31) (epSize s 31) % 65536)) ∧
      (∀ e < 3, (ctxSet s e c).isSome = true → r.state = .running ∨ r.state = .held →
        r.began = false ∨ r.frame < w 8 8 →
        ∃ t, exec (.brace f) s = .next t ∧ frame t ∧ raising t c = r ∧
          braceOf t e c = some {
            active := (braceOf s e c).bind (·.active)
            pending := some (BitVec.ofNat 16 (cBody f 0 2), w 8 8) }) ∧
      (r.state = .committed → ∃ t, exec (.brace f) s = .next t ∧ frame t ∧
        raising t c = { r with brace := some (BitVec.ofNat 16 (cBody f 0 2), w 8 8) })) ∧
    (cmdCtx s (cRaiseId f) true = none → cmdCtx s (cRaiseId f) false = none →
      ∀ x ∈ [Instr.stop f, .hold f, .resume f, .reRaise f, .brace f, .prepare f, .prepareAck f, .commit f, .abort f,
             .faultReport f], exec x s = .next s)

/-- What raisings do at a tick (R346, R351, R353, R355). That RAISING_PREPARATION takes the plan loaded last and makes its
context the one that the partition runs is the model's choice (logs 29 and 105), and so is what a successor finds at its
predecessor's end (log 49).
The timers of phase one (R349, R350): a child that stays silent aborts with MISSING; a raising still
PREPARED at START_TICK returns to LOADED with cause NO_COMMIT. -/
def Obligations.RaisingsMoveAtTicksAndTimers : Prop :=
  (∀ (s : State) (c : Fin 256),
    let x := ctx s c.val
    let r := x.raising
    let p := x.part
    (startDue s c.val = true → r.armedTrig = false → r.began = false → r.replay = false → r.holdAt = none →
      gateBits (part s p) = 0 → ctxClusters s c.val = [] → hdrPorts (ctxImg s c.val).2 = [] →
      isMulti s c.val = false → (∀ e < 3, ctxSet s e c.val = none) →
      trailOn s = false → s.rai.faults = [] → s.rai.trail = [] → s.edge.pegWait = [] →
      ∃ t, exec (.raisingStart c) s = .next t ∧ (raising t c.val).state = .running ∧ (raising t c.val).began = true ∧
        (raising t c.val).frame = 0 ∧ (raising t c.val).startTick = r.startTick ∧ (part t p).kind = .contents ∧
        (part t p).origin = s.clu.tickCyc ∧ regBit t (pgTim2 + 0x10) 0 = true) ∧
    (liveState r.state = true → r.stopAt ≠ none →
      r.state = .committed ∨ (waitsFor s p c.val = true ∧ frameDue s c.val r.stopAt = true) →
      ∃ t, exec (.stopEffect c) s = .next t ∧ (raising t c.val).state = .stopped ∧ (raising t c.val).stopAt = none ∧
        (raising t c.val).frame = r.frame ∧ t.clu = s.clu ∧ t.vlt.mem = s.vlt.mem ∧
        (∀ w ∈ t.rai.trail, w.ctx ≠ c.val) ∧
        ∀ d, d ≠ c.val → ctx t d = ctx s d) ∧
    (r.state = .running → frameDue s c.val r.holdAt = true → (part s p).run = some c.val → (part s p).kind = .held →
      ∃ t, exec (.holdEffect c) s = .next t ∧ t = { s with rai.ctx := t.rai.ctx } ∧
        ctx t c.val = { x with raising := { r with state := .held, holdAt := none } } ∧
        ∀ d, d ≠ c.val → ctx t d = ctx s d) ∧
    (∀ n, r.state = .held → r.resumeAt = some n → n ≤ s.time.tick → waitsFor s p c.val = false →
      ∃ t, exec (.resumeTick c) s = .next t ∧ t = { s with regs := t.regs, rai.ctx := t.rai.ctx } ∧
        regsBut s t [pgTim2 + 0x10] ∧ regBit t (pgTim2 + 0x10) 0 = true ∧
        ctx t c.val = { x with raising := { r with state := .running, resumeAt := none } }) ∧
    (∀ q, x.succ = some q → q.state = .committed →
      ctxLive s c.val = false ∨ (waitsFor s p c.val = true ∧ q.stopFrame.toNat ≤ nextFrame s c.val) →
      ∃ t, exec (.predecessorStop c) s = .next t ∧ raising t c.val = q ∧ (ctx t c.val).succ = none ∧
        t.vlt.mem = s.vlt.mem ∧ ∀ d, d ≠ c.val → ctx t d = ctx s d) ∧
    (∀ q, planSlot s s.rai.lastSlot = some q → othersLive s c.val = false → ctxLive s c.val = false →
      ∃ t, exec (.raisingPreparation c) s = .next t ∧ (part t p).run = some c.val ∧ t.vlt.mem = s.vlt.mem ∧
        t.rai.ctx = s.rai.ctx ∧ ∀ d, d ≠ p → part t d = part s d)) ∧
  (∀ (s : State) (c : Fin 256) (k : Nat),
    let r := raising s c.val
    (ctx s c.val).succ = none → r.state = .prepared →
    (r.answered = false → ((rKids s r).find? fun k => !(r.acks.any fun a => a.member = k)) = some k →
      (rMember s r = 0 → ∃ t, exec (.prepTimeout c) s = .next t ∧ (raising t c.val).state = .loaded ∧
        (ctx t c.val).lastStatus = 7 ∧ t.clu = s.clu ∧ ∀ d, d ≠ c.val → ctx t d = ctx s d) ∧
      (rMember s r ≠ 0 → ∃ t, exec (.prepTimeout c) s = .next t ∧ raising t c.val = { r with answered := true } ∧
        t.clu = s.clu ∧ ∀ d, d ≠ c.val → ctx t d = ctx s d)) ∧
    (r.startTick ≤ s.time.tick → ∃ t, exec (.noCommit c) s = .next t ∧ raising t c.val = { r with state := .loaded } ∧
      (ctx t c.val).faultCause = 4 ∧ t.clu = s.clu ∧ ∀ d, d ≠ c.val → ctx t d = ctx s d))

/-- NODE_ID, TRL.CFG and trace records (R342, R363, R474).
Halt, fault policies and audits (R384, R465, R469, R472): a halt and its release wait for the tick of
the die's partition; a halted partition that serves a confidential context loses its clusters. -/
def Obligations.TraceHaltsAndPolicies : Prop :=
  (∀ (s : State) (w : Word),
    (anyRaising s = false → ∃ t, exec (.nodeIdWrite w) s = .next t ∧
      t = { s with regs := t.regs, link := t.link, out := t.out, edge.used := t.edge.used } ∧
      regGet t (pgTim2 + 0x40) = (w &&& 0x8000FFFF) ∧
      ((∀ p < 48, portUp s p = false) → onlyRegs s t [pgTim2 + 0x40])) ∧
    (anyRaising s = true → ∃ t, exec (.nodeIdWrite w) s = .next t ∧ onlyRegs s t [pgTim2 + 0xC] ∧
      regBit t (pgTim2 + 0xC) 0 = true) ∧
    (anyRaising s = false → ∃ t, exec (.trlCfgWrite w) s = .next t ∧
      sameButEvents t { s with regs := t.regs, vlt := t.vlt } ∧
      regField t (pgTrl + 0x40) 0 2 = wfield w 0 2 ∧ (wfield w 0 2 ≠ 3 → onlyRegs s t [pgTrl + 0x40])) ∧
    (anyRaising s = true → w.getLsbD 1 ≠ regBit s (pgTrl + 0x40) 1 → ∃ t, exec (.trlCfgWrite w) s = .next t ∧
      onlyRegs s t [pgTrl + 0xC] ∧ regBit t (pgTrl + 0xC) 0 = true) ∧
    (∀ r l, s.rai.trace = r :: l → ringOn s traceKey = true →
      ringFull (ringHead s traceKey) (ringTail s traceKey) (ringSize s traceKey) = false →
      ∃ t, exec .traceRecord s = .next t ∧ t.rai.trace = l ∧
        ringTail t traceKey = ringNext (ringTail s traceKey) (ringSize s traceKey) % 65536 ∧ t.clu = s.clu ∧ t.ses = s.ses)) ∧
  (∀ (s : State) (d : Fin 16) (c : Fin 256) (w : Word),
    (∀ p, partOfDie s d.val = some p →
      exec (.halt d) s = .next (setPart s p { part s p with haltPend := some true }) ∧
      exec (.haltRelease d) s = .next (setPart s p { part s p with haltPend := some false })) ∧
    (partOfDie s d.val = none → exec (.halt d) s = .next s ∧ exec (.haltRelease d) s = .next s) ∧
    (∀ p, partOfDie s d.val = some p → (part s p).halted = true →
      ((part s p).run = none ∨ ∃ x, (part s p).run = some x ∧ (ctx s x).conf = false) →
      ∃ t, exec (.haltEffect d) s = .next t ∧ onlyRegs s t [pgDbg d.val + 0x64] ∧
        regField t (pgDbg d.val + 0x64) 0 2 = 3) ∧
    (∀ p x, partOfDie s d.val = some p → (part s p).halted = true → (part s p).run = some x →
      (ctx s x).conf = true →
      ∃ t, exec (.haltEffect d) s = .next t ∧ regField t (pgDbg d.val + 0x64) 0 2 = 3 ∧
        (∀ k ∈ partClusters s p, ∀ r < 64, vregOf t k r = 0) ∧
        ∀ k ∈ partClusters s p, ∀ r < 32, sregOf t k r = 0) ∧
    (ctxLive s c.val = false → ∃ t, exec (.fpolicyWrite c w) s = .next t ∧
      onlyRegs s t [pgDbgS + 0x400 + 4 * c.val] ∧ regGet t (pgDbgS + 0x400 + 4 * c.val) = (w &&& 0xFFF)) ∧
    (ctxLive s c.val = true → ∃ t, exec (.fpolicyWrite c w) s = .next t ∧ onlyRegs s t [pgDbgS + 0xC] ∧
      regBit t (pgDbgS + 0xC) 0 = true) ∧
    (∃ t m, exec (.auditCtrlWrite d w) s = .next t ∧ t = { s with regs := t.regs, rai.auditNext := some m } ∧
      regsBut s t [pgDbg d.val + 0x40] ∧ regGet t (pgDbg d.val + 0x40) = (w &&& 0x10F) ∧
      bitsOf m.toNat (4 * d.val) 4 = wfield w 0 4 ∧
      ∀ k < 16, k ≠ d.val → bitsOf m.toNat (4 * k) 4 = bitsOf (s.rai.auditNext.getD s.rai.audit).toNat (4 * k) 4))

/-! ## Partitions, debug and plans -/

/-- The partition map and rotations (R34, R451 to R453): an apply waits for its tick, or is refused with the
first check that fails; at the tick the staged map becomes the live one, or RESULT says why not. -/
def Obligations.PartitionMapIsApplied : Prop :=
  ∀ (s : State) (w : Word) (p : Fin 16) (j : Fin 16),
    let st := pgDieS + 0x984
    let q := wfield w 4 4
    (s.rai.pmap = none → ∃ t, exec (.apply w) s = .next t ∧ t = { s with regs := t.regs, rai.pmap := some ⟨none, false⟩ } ∧
      regsBut s t [st] ∧ regBit t st 0 = true) ∧
    (s.rai.pmap = none → mapCheck s (some q) = 0 → ∃ t, exec (.applyAtReraise w) s = .next t ∧
      t = { s with regs := t.regs, rai.pmap := some ⟨some q, false⟩ } ∧ regsBut s t [st] ∧ regBit t st 0 = true) ∧
    (∀ n, s.rai.pmap = none → mapCheck s (some q) = n → n ≠ 0 → ∃ t, exec (.applyAtReraise w) s = .next t ∧
      onlyRegs s t [st] ∧ regGet t st = BitVec.ofNat 32 (2 * n)) ∧
    (∀ i ∈ [Instr.apply w, .applyAtReraise w], s.rai.pmap ≠ none → ∃ t, exec i s = .next t ∧
      onlyRegs s t [pgDieS + 0xC] ∧ regBit t (pgDieS + 0xC) 2 = true) ∧
    (s.rai.pmap = some ⟨none, true⟩ → mapCheck s none = 0 → s.rai.faults = [] →
      (∀ k < 16, liveDies s k ≠ stagedDies s k → createdIn s k = []) →
      ∃ t, exec .partitionMapApply s = .next t ∧ t = { s with regs := t.regs, rai.pmap := none } ∧
        (∀ k < 16, liveDies t k = stagedDies s k) ∧
        (∀ m ∈ mapRows, ∀ n < m.2.2, regGet t (pgDieS + m.2.1 + 4 * n) = regGet s (pgDieS + m.1 + 4 * n)) ∧
        regGet t st = 0 ∧ ∀ k, k ≠ st → k < pgDieS + 0x800 ∨ pgDieS + 0x980 ≤ k → regGet t k = regGet s k) ∧
    (∀ n, s.rai.pmap = some ⟨none, true⟩ → mapCheck s none = n → n ≠ 0 → s.rai.faults = [] →
      ∃ t, exec .partitionMapApply s = .next t ∧ t = { s with regs := t.regs, rai.pmap := none } ∧ regsBut s t [st] ∧
        regGet t st = BitVec.ofNat 32 (2 * n)) ∧
    (((ctxList s).any fun c => (ctx s c).part = p.val && ((ctxLive s c && isMulti s c) || succMulti s c)) = false →
      (∃ t, exec (.rotationWrite p none w) s = .next t ∧ onlyRegs s t [pgDieS + 0x380 + 4 * p.val] ∧
        regGet t (pgDieS + 0x380 + 4 * p.val) = (w &&& 0x1F)) ∧
      (∃ t, exec (.rotationWrite p (some j) w) s = .next t ∧
        onlyRegs s t [pgDieS + 0x400 + 0x40 * p.val + 4 * j.val] ∧
        regGet t (pgDieS + 0x400 + 0x40 * p.val + 4 * j.val) = (w &&& 0x1FFFFFF))) ∧
    (((ctxList s).any fun c => (ctx s c).part = p.val && ((ctxLive s c && isMulti s c) || succMulti s c)) = true →
      ∀ x ∈ [none, some j], ∃ t, exec (.rotationWrite p x w) s = .next t ∧ onlyRegs s t [pgDieS + 0xC] ∧
        regBit t (pgDieS + 0xC) 1 = true)

/-- Plans are loaded and unloaded (R44, R463): a load runs until it completes, and PLAN_STAT.RESULT says which
check failed; a plan that a context holds is not unloaded. -/
def Obligations.PlansAreLoadedAndUnloaded : Prop :=
  ∀ (s : State) (slot : BitVec 6),
    let st := pgDbgS + 0x44
    let err := [pgDbgS + 0x50, pgDbgS + 0x54]
    (regBit s st 0 = true → exec (.load slot) s = .next s ∧ exec (.unload slot) s = .next s) ∧
    (regBit s st 0 = false →
      (∃ t, exec (.load slot) s = .next t ∧ t = { s with
          regs := t.regs
          rai.load := some ⟨slot.toNat, regPair s (pgDbgS + 0x48) % 2 ^ 48⟩ } ∧ regsBut s t [st] ∧
        regBit t st 0 = true ∧ regField t st 8 6 = slot.toNat) ∧
      (planInUse s slot.toNat = false → ∃ t, exec (.unload slot) s = .next t ∧
        t = { s with regs := t.regs, rai.plans := tabErase slot.toNat s.rai.plans } ∧ regsBut s t ([st] ++ err) ∧
        regField t st 4 4 = 0 ∧ regField t st 8 6 = slot.toNat ∧ regPair t (pgDbgS + 0x50) = 0) ∧
      (planInUse s slot.toNat = true → ∃ t, exec (.unload slot) s = .next t ∧ onlyRegs s t ([st] ++ err) ∧
        regField t st 4 4 = 10)) ∧
    (∀ j, s.rai.load = some j →
      let a := j.addr
      let ends := fun (t : State) (r e : Nat) => t.rai.load = none ∧ regField t st 4 4 = r ∧ regBit t st 0 = false ∧
        regPair t (pgDbgS + 0x50) = e ∧ regBit t (pgDbgS + 0x10) 0 = true
      let head := loadRead s a 0 4
      let h := BitVec.ofNat 2048 (dramNat head.2 a 256)
      let rest := loadRead head.2 a 256 ((imgSize h + 63) / 64 - 4)
      let img : Img := { st := rest.2, at_ := a, h := h }
      ((planSlot s j.slot).isSome = true ∨ 64 ≤ planCount s →
        ∃ t, exec .loadComplete s = .next t ∧ ends t 9 0 ∧ regsBut s t ([pgDbgS + 0x10, st] ++ err)) ∧
      (planSlot s j.slot = none → planCount s < 64 →
        (a % 64 ≠ 0 ∨ carveAll s a 256 = false → ∃ t, exec .loadComplete s = .next t ∧ ends t 12 0 ∧
          t.rai.plans = s.rai.plans) ∧
        (a % 64 = 0 → carveAll s a 256 = true →
          (∀ o, head.1 = some o → o < 2 ^ 64 → ∃ t, exec .loadComplete s = .next t ∧ ends t 11 o ∧
            t.rai.plans = s.rai.plans) ∧
          (head.1 = none → sigOffOk h = false → ∃ t, exec .loadComplete s = .next t ∧ ends t 1 0x88 ∧
            t.rai.plans = s.rai.plans) ∧
          (head.1 = none → sigOffOk h = true → carveAll head.2 a (imgSize h) = true → rest.1 = none →
            ∃ t, exec .loadComplete s = .next t ∧
              (∀ c o, imageCheck img = some (c, o) → c < 16 → o < 2 ^ 64 → ends t c o ∧ t.rai.plans = s.rai.plans) ∧
              (imageCheck img = none → ends t 0 0 ∧ t.rai.lastSlot = j.slot ∧
                planSlot t j.slot = some {
                  addr := a
                  hdr := h
                  size := imgSize h
                  digest := sha512 (imgBytes rest.2 a 0 (imgSize h))
                  signer := sha512 (planModulus img) } ∧
                ∀ k, k ≠ j.slot → planSlot t k = planSlot s k)))))

/-! ## The security processor -/

/-- Certificates and contexts (R366, R368, R379, R390): the chain and a context's certificate are answered, a created
context has new keys on every die of its partition, a destroyed one has none, and a reissue renews the alias
certificate. The order of the chain and the form of a certificate where R368 is silent are the model's (log 103). -/
def Obligations.ContextsHaveKeysAndCertificates : Prop :=
  ∀ (s : State) (c : Fin 256) (p : BitVec 4) (conf : Bool) (nonce : BitVec 256),
    let x := ctx s c.val
    let idle := { s with sec.running := none }
    let result := fun (t : State) (n : Nat) => regField t (pgSec + 0x44) 8 4 = n ∧ regBit t (pgSec + 0x10) 0 = true
    let refused := fun (i : Instr) (n : Nat) => ∃ t, exec i s = .next t ∧
      onlyRegs idle t [pgSec + 0x44, pgSec + 0x10] ∧ result t n
    let answers := fun (i : Instr) (l : List Byte) (free : Nat) => ∃ t, exec i s = .next t ∧
      sameButEvents t { idle with regs := t.regs, vlt := t.vlt, free := free, sec.rspLen := t.sec.rspLen } ∧
      (l.length ≤ regField s (pgSec + 0x5C) 0 20 → result t 0 ∧ t.sec.rspLen = l.length) ∧
      (regField s (pgSec + 0x5C) 0 20 < l.length → result t 2 ∧ t.vlt = s.vlt ∧ t.sec.rspLen = s.sec.rspLen)
    (s.sec.reissue = true → refused .certChain 1 ∧ refused (.ctxCert c nonce) 1) ∧
    (s.sec.reissue = false →
      answers .certChain (chainCerts s) s.free ∧
      (x.state = .free → refused (.ctxCert c nonce) 4) ∧
      (x.state ≠ .free → answers (.ctxCert c nonce) (ctxCertOf s c.val (natBytes 32 nonce.toNat)).1 (s.free + 2))) ∧
    (sealState s = 2 ∨ x.state ≠ .free → refused (.ctxCreate c p conf) 3) ∧
    (sealState s ≠ 2 → x.state = .free → liveDies s p.toNat = 0 → refused (.ctxCreate c p conf) 2) ∧
    (sealState s ≠ 2 → x.state = .free → liveDies s p.toNat ≠ 0 → ∃ t, exec (.ctxCreate c p conf) s = .next t ∧
      t = { idle with
        regs := t.regs
        rai.ctx := t.rai.ctx
        free := s.free + 1
        sec.memKey := t.sec.memKey
        sec.keyGen := t.sec.keyGen } ∧
      regsBut s t [pgSec + 0x44, pgSec + 0x10] ∧ result t 0 ∧
      ctx t c.val = { Ctx.init with
        state := .keyed, conf := conf, access := if conf then 0 else 1, part := p.toNat
        ck := some (Config.freeValue s.free 256) } ∧
      (∀ d < 16, bitOf (liveDies s p.toNat) d = true → s.sec.keyGen ≤ keyGenOf t d c.val ∧
        keyGenOf t d c.val < t.sec.keyGen) ∧
      (∀ d k, k < 257 → k ≠ c.val → keyGenOf t d k = keyGenOf s d k) ∧ ∀ k, k ≠ c.val → ctx t k = ctx s k) ∧
    (x.state = .free → refused (.ctxDestroy c) 4) ∧
    (x.state ≠ .free → ctxHolds s c.val = true → refused (.ctxDestroy c) 3) ∧
    (x.state ≠ .free → ctxHolds s c.val = false → ∃ t, exec (.ctxDestroy c) s = .next t ∧
      t = { idle with regs := t.regs, rai.ctx := t.rai.ctx, sec.memKey := t.sec.memKey } ∧ result t 0 ∧
      ctx t c.val = Ctx.init ∧ (∀ d, keyGenOf t d c.val = 0) ∧ ∀ k, k ≠ c.val → ctx t k = ctx s k) ∧
    (s.sec.reissue = true → ∃ t, exec .aliasReissue s = .next t ∧
      t = { s with
        regs := t.regs
        free := s.free + 2
        sec.reissue := s.sec.reissueMore
        sec.reissueMore := false
        sec.aliasCert := t.sec.aliasCert } ∧
      regsBut s t [pgSec + 0x80, pgSec + 0x10] ∧ regGet t (pgSec + 0x80) = regGet s (pgSec + 0x80) + 1 ∧
      regBit t (pgSec + 0x10) 2 = true) ∧
    exec .debugAttach s = .next { s with sec.debugs := s.sec.debugs + 1 }

/-- Host sessions (R371, R372, R382): message 1 opens, a verified message 3 begins a session under the keys of both
secrets and fixes the tenant, sealed messages are taken once in counter order, and CLOSE ends the session. The context
number as one byte of the transcript, and records of 128 bytes and 1 byte, are the model's reading (log 60). -/
def Obligations.HostSessionsAreSealed : Prop :=
  ∀ (s : State) (c : Fin 256) (nt : BitVec 256) (b : List (BitVec 8)) (m : SealedMsg),
    let x := ctx s c.val
    let result := fun (t : State) (n : Nat) => regField t (pgSec + 0x44) 8 4 = n ∧ regBit t (pgSec + 0x10) 0 = true
    let only := fun (t : State) => t = { s with regs := t.regs, rai.ctx := t.rai.ctx, sec.running := none } ∧
      regsBut s t [pgSec + 0x44, pgSec + 0x10] ∧ ∀ k, k ≠ c.val → ctx t k = ctx s k
    let answers := fun (t : State) (n : Nat) => sameButEvents t { s with
        regs := t.regs, vlt := t.vlt, rai.ctx := t.rai.ctx, free := t.free
        sec.running := none, sec.rspLen := t.sec.rspLen } ∧
      (∀ k, k ≠ c.val → ctx t k = ctx s k) ∧
      (n ≤ regField s (pgSec + 0x5C) 0 20 → result t 0 ∧ t.sec.rspLen = n)
    let next := x.sessIn.map (· + 1)
    (s.sec.reissue = false → x.state ≠ .free → b.length = 512 → x.tenant = none ∨ x.tenant = some (sha512 b) →
      ∃ t o r, exec (.sessionOpen c nt b) s = .next t ∧ answers t r.length ∧
        ctx t c.val = { x with sessOpen := some o } ∧ o.nt = natBytes 32 nt.toNat ∧ o.tenant = sha512 b ∧
        o.trans = natBytes 1 c.val ++ natBytes 32 nt.toNat ++ b ++ r ∧
        r.take (chainCerts s).length = chainCerts s) ∧
    (∀ o ck, x.state ≠ .free → x.sessOpen = some o → x.ck = some ck → b.length = 1024 →
      x.tenant = none ∨ x.tenant = some o.tenant →
      ∃ t, exec (.sessionFinish c b) s = .next t ∧
        let ok := pssVerify ((o.trans.drop 33).take 512) (b.drop 512) (sha512Bytes (o.trans ++ b.take 512))
        (ok = false → only t ∧ ctx t c.val = x ∧ result t 6) ∧
        (ok = true → oaepOpen (ckOf ck) [] (b.take 512) = none → only t ∧ ctx t c.val = x ∧ result t 2) ∧
        (∀ k, ok = true → oaepOpen (ckOf ck) [] (b.take 512) = some k → k.length = 64 → answers t 512 ∧
          ctx t c.val = { x with
            tenant := some o.tenant
            session := some (sessionKeys o k b)
            sessIn := some 0
            sessOut := some 0
            sessOpen := none })) ∧
    (sealedCheck s c.val m = 0 →
      (m.body.length = 128 → ∃ t, exec (.ioKeys c m) s = .next t ∧ only t ∧ result t 0 ∧
        ctx t c.val = { x with sessIn := next, ioKeys := some (BitVec.ofNat 1024 (bytesNat m.body)) }) ∧
      (x.conf = false → m.body.length = 1 → ∃ t, exec (.access c m) s = .next t ∧ only t ∧ result t 0 ∧
        ctx t c.val = { x with sessIn := next, access := BitVec.ofNat 3 (bytesNat m.body) }) ∧
      (x.conf = true → ∃ t, exec (.access c m) s = .next t ∧ only t ∧ result t 3 ∧
        ctx t c.val = { x with sessIn := next }) ∧
      (∃ t, exec (.hostSessionClose c m) s = .next t ∧ only t ∧ result t 0 ∧
        ctx t c.val = { x with session := none, sessIn := none, sessOut := none })) ∧
    (∀ n, sealedCheck s c.val m = n → n ≠ 0 → ∀ i ∈ [Instr.ioKeys c m, .access c m, .hostSessionClose c m],
      ∃ t, exec i s = .next t ∧ only t ∧ ctx t c.val = x ∧ result t n) ∧
    (∀ k n, x.state ≠ .free → x.session = some k → x.sessIn = some n → m.counter ≠ n → sealedCheck s c.val m = 7)

/-- Weight bundles (R373, R374): an import begins under the key that this device's WRAP opens to, counts the chunks that
pass, ends with the digest of the stream and its yield section when all have passed, and with BAD_MSG at a chunk that
does not pass. That IMPORT_END brings the yield section, which the digest covers, is the model's reading (log 59). -/
def Obligations.BundlesAreImported : Prop :=
  ∀ (s : State) (c : Fin 256) (hdr set tail : List (BitVec 8)) (a : BitVec 48) (n : Nat) (w : List Byte),
    let x := ctx s c.val
    let h := bytesNat hdr
    let result := fun (t : State) (n : Nat) => regField t (pgSec + 0x44) 8 4 = n ∧ regBit t (pgSec + 0x10) 0 = true
    let only := fun (t : State) => t = { s with regs := t.regs, rai.ctx := t.rai.ctx, sec.running := none } ∧
      regsBut s t [pgSec + 0x44, pgSec + 0x10] ∧ ∀ k, k ≠ c.val → ctx t k = ctx s k
    (x.state ≠ .free → sealState s ≠ 2 → x.importing = none → hdr.length = 256 → byteFld h 0 4 = bundleMagic →
      byteFld h 4 2 = 1 → 1 ≤ byteFld h 6 2 → byteFld h 6 2 ≤ 4096 → byteFld h 0xC 4 ≠ 0 → byteFld h 0x50 176 = 0 →
      set.length = 576 * byteFld h 6 2 → bundleWrap s set = some w → byteFld h 8 4 ≤ (s.sec.svn.getD 0 0) →
      byteFld h 0x10 64 = 0 ∨ x.tenant = some (BitVec.ofNat 512 (byteFld h 0x10 64)) →
      ∃ t, exec (.importBegin c hdr set) s = .next t ∧ only t ∧
        (∀ k, oaepOpen (bkOf s.sec.uds) (sha512Bytes hdr) w = some k → k.length = 32 → result t 0 ∧
          ctx t c.val = { x with
            importing := some ⟨BitVec.ofNat 256 (bytesNat k), 0, byteFld h 0xC 4, hdr ++ set⟩ }) ∧
        (oaepOpen (bkOf s.sec.uds) (sha512Bytes hdr) w = none → result t 2 ∧ ctx t c.val = x)) ∧
    (x.importing = none → x.state ≠ .free →
      ∀ i ∈ [Instr.importChunks c a n, .importEnd ⟨c, tail⟩], ∃ t, exec i s = .next t ∧ only t ∧ ctx t c.val = x ∧
        result t 2) ∧
    (∀ y, x.state ≠ .free → x.importing = some y →
      (inCarve s a.toNat = true →
        (∃ t, exec (.importChunks c a 0) s = .next t ∧ only t ∧ result t 0 ∧ ctx t c.val = x) ∧
        (∀ r, importChunk s c.val a.toNat y = (r, 0, false) →
          ∃ t, exec (.importChunks c a (n + 1)) s = .next t ∧ result t 2 ∧
            ctx t c.val = { ctx r c.val with importing := none }) ∧
        (∀ r k, importChunk s c.val a.toNat y = (r, k, true) →
          ∃ t, exec (.importChunks c a 1) s = .next t ∧ result t 0 ∧ t.vlt = r.vlt ∧ t.rai = r.rai ∧
            ((ctx t c.val).importing.map fun z => (z.key, z.next)) = some (y.key, y.next + 1))) ∧
      (y.chunks ≤ y.next → ∃ t, exec (.importEnd ⟨c, tail⟩) s = .next t ∧ only t ∧ result t 0 ∧
        ctx t c.val = { x with importing := none, bundle := some (sha512 (y.stream ++ tail)) }) ∧
      (y.next < y.chunks → ∃ t, exec (.importEnd ⟨c, tail⟩) s = .next t ∧ only t ∧ result t 2 ∧
        ctx t c.val = { x with importing := none }))

/-- Owner commands (R385, R386): a request that fails a check changes nothing; one that passes has its effect;
both renew NONCE, and a gated one counts. A seal command in a state that does not suit it answers DENIED, a ROLLBACK that
would not lower a minimum BAD_MSG: the model's reading (log 62). -/
def Obligations.OwnerCommandsAreChecked : Prop :=
  ∀ (s : State) (r : OwnerReq),
    let result := fun (t : State) (n : Nat) => regField t (pgSec + 0x44) 8 4 = n ∧ regBit t (pgSec + 0x10) 0 = true
    let renewed := fun (t : State) => ∃ k, s.free ≤ k ∧ k < t.free ∧
      ∀ i < 8, regGet t (pgSec + 0x60 + 4 * i) = (Config.freeValue k 256).extractLsb' (32 * i) 32
    let count := fun (t : State) => pstNat t 74 1 = (pstNat s 74 1 + 1) % 2 ^ 32
    let quiet := fun (t : State) => t.clu = s.clu ∧ t.vlt = s.vlt ∧ t.rai = s.rai ∧ t.link = s.link ∧ t.sec.memKey = s.sec.memKey
    let keys := [pgSec + 0x44, pgSec + 0x10] ++ (List.range 8).map fun i => pgSec + 0x60 + 4 * i
    let denied := fun (t : State) (n : Nat) => result t n ∧
      t = { s with regs := t.regs, free := t.free, sec.running := none } ∧ regsBut s t keys
    let runs := fun (i : Instr) (cmd : Nat) (who : Signer) (pres : Bool) (eff : State → Prop) =>
      ∃ t, exec i s = .next t ∧ renewed t ∧ (ownerCheck s cmd who pres r = 0 → eff t) ∧
        (ownerCheck s cmd who pres r ≠ 0 → denied t (ownerCheck s cmd who pres r))
    let h := BitVec.ofNat 512 (argNat r 0 64)
    let kind := argNat r 0 4
    let least := argNat r 4 4
    runs (.ownerEnrol r) 1 .new true (fun t => result t 0 ∧
      ownerHash t = some (sha512 r.modulus) ∧ t.sec.reissue = true ∧ count t ∧ quiet t) ∧
    runs (.ownerTransfer r) 2 .owner true (fun t => result t 0 ∧
      ownerHash t = some h ∧ t.sec.mgmtKey = none ∧ t.sec.reissue = true ∧ count t ∧ quiet t) ∧
    runs (.rollback r) 3 .owner true (fun t =>
      (kind ≤ 3 ∧ least < minSvn s kind → result t 0 ∧ minSvn t kind = least ∧ ownerHash t = ownerHash s ∧ count t ∧ quiet t) ∧
      (3 < kind ∨ minSvn s kind ≤ least → denied t 2)) ∧
    runs (.identityDestroy r) 4 .ownerIfAny true (fun t => result t 0 ∧
      ownerHash t = none ∧ t.sec.memKey = [] ∧ t.sec.mgmtKey = none ∧
      (∃ k, s.free ≤ k ∧ k < t.free ∧ t.sec.uds = Config.freeValue k 256) ∧ t.sec.dik = spkiHash (dikOf t.sec.uds) ∧
      t.sec.bk = spkiHash (bkOf t.sec.uds) ∧
      (∀ c, (ctx t c).state = .free) ∧ count t) ∧
    runs (.sealArm r) 5 .owner false (fun t =>
      (sealState s = 0 → result t 0 ∧ sealState t = 1 ∧ quiet t) ∧ (sealState s ≠ 0 → denied t 3)) ∧
    runs (.sealDisarm r) 6 .owner true (fun t =>
      (sealState s = 1 → result t 0 ∧ sealState t = 0 ∧ count t ∧ quiet t) ∧ (sealState s ≠ 1 → denied t 3)) ∧
    runs (.sealClear r) 7 .owner true (fun t =>
      (sealState s = 2 → result t 0 ∧ sealState t = 1 ∧ count t ∧ quiet t) ∧ (sealState s ≠ 2 → denied t 3)) ∧
    runs (.mgmtKey r) 8 .owner false (fun t => result t 0 ∧
      t.sec.mgmtKey = some (BitVec.ofNat 256 (argNat r 0 32)) ∧ ownerHash t = ownerHash s ∧ quiet t) ∧
    runs (.fabricAnchor r) 9 .owner false (fun t => result t 0 ∧
      anchorNat t = h.toNat ∧ ownerHash t = ownerHash s ∧ quiet t) ∧
    (∃ t, exec .nonceRenewal s = .next t ∧ renewed t ∧ t = { s with regs := t.regs, free := s.free + 1 } ∧
      regsBut s t ((List.range 8).map fun i => pgSec + 0x60 + 4 * i))

/-- The seal and the presence pin (R386, R387, R479, R481): a break of an armed seal erases every key and faults
every context; a short one, or one without VDD_AON, does nothing. -/
def Obligations.SealBreaksEraseKeys : Prop :=
  ∀ (s : State) (ns ms : Nat),
    (s.brd.aonOut = true → exec (.sealBreak ns) s = .next s) ∧
    (s.brd.aonOut = false → ns < 10000 ∨ sealState s ≠ 1 → exec (.sealBreak ns) s = .next { s with sec.sealPinNs := ns }) ∧
    (s.brd.aonOut = false → 10000 ≤ ns → sealState s = 1 →
      (regField s (pgBrd + 0x44) 0 3 < 2 → exec (.sealBreak ns) s = .next { s with
        sec.sealPinNs := ns
        sec.sealLatch := true }) ∧
      (2 ≤ regField s (pgBrd + 0x44) 0 3 → ∃ t, exec (.sealBreak ns) s = .next t ∧ sealState t = 2 ∧
        t.sec.memKey = [] ∧ t.sec.reissue = true ∧ regBit t (pgSec + 0x10) 1 = true ∧ t.ses = s.ses ∧
        (∀ p < 48, (linkOf s p).state ≠ .down → (linkOf s p).state ≠ .disabled → (linkOf t p).keys = []) ∧
        ∀ c, (ctx s c).state ≠ .free → (ctx t c).state = .faulted ∧ (ctx t c).session = none ∧ (ctx t c).ioKeys = none)) ∧
    exec (.presenceAsserted 0) s = .next s ∧
    (0 < ms → exec (.presenceAsserted ms) s = .next { s with
      sec.presPin := true
      sec.presAsserted := decide (1000 ≤ ms) }) ∧
    exec .presenceAbort s = .next { s with sec.presPin := false, sec.presAsserted := false }

/-! ## Energy and power -/

/-- The ledger (R392, R394, R395, R398, R400): the amounts of the period that ended last (what the blocks counted, the
static energy of their power states, and the events that the command brings, log 66) are charged to the package's and the
partitions' accounts and added, uncorrected, to the windows of their rail groups; a window's correction is the clamped
ratio of its measurement to its estimate. -/
def Obligations.EnergyIsCharged : Prop :=
  ∀ (s : State) (others : List EnergyEvents) (meas : List GroupMeas) (p : Fin 16),
    let l := periodAmounts s others
    let drawn := fun k x => (tabGet 0 k s.nrg.frac + x) / energyUnit
    let mine := fun q : Nat => drawn (2 ^ 33 + q) (sumEnergy s (l.filter fun e => e.part.map (·.val) = some q))
    let ratio := fun m : GroupMeas => m.measured * 0x4000 / estimateOf s m.group.val
    let corr := fun m : GroupMeas => pgNrg + 0x200 + 4 * m.group.val
    (∃ t, exec (.ledgerUpdate others) s = .next t ∧ t = { s with regs := t.regs, nrg := t.nrg, rai.part := t.rai.part } ∧
      t.nrg.prev = [] ∧ t.nrg.ended = [] ∧ t.nrg.length = 0 ∧ t.nrg.now = s.nrg.now ∧ t.nrg.parts = s.nrg.parts ∧
      t.nrg.account = min (s.nrg.account + budgetFrame s - drawn (2 ^ 33 + 16) (sumEnergy s l)) (pkgCap s) ∧
      (∀ g, estimateOf t g = estimateOf s g + ((l.filter fun e => railGroup e.page = g).map (·.raw)).sum) ∧
      ∀ q < 16, regField t (pgNrg + 0x108 + 0x10 * q) 0 24 = satNat 24 (mine q) ∧
        part t q = { part s q with account := accountAfter s q (mine q) }) ∧
    (∃ t, exec (.correctionUpdate meas) s = .next t ∧ t = { s with regs := t.regs, free := t.free, nrg.window := [] } ∧
      regsBut s t ([pgNrg + 0xC, pgNrg + 0x10] ++ meas.map corr)) ∧
    ((meas.map (·.group)).Nodup → (∀ m ∈ meas, estimateOf s m.group.val ≠ 0) →
      ∃ t, exec (.correctionUpdate meas) s = .next t ∧ t = { s with regs := t.regs, nrg.window := [] } ∧
      (∀ m ∈ meas, regNat t (corr m) = max 0x3800 (min 0x5000 (ratio m))) ∧
      ∀ m ∈ meas, ratio m < 0x3800 ∨ 0x5000 < ratio m →
        regBit t (pgNrg + 0xC) 1 = true ∧ regBit t (pgNrg + 0x10) 0 = true) ∧
    (max 1 (regField s (pgNrg + 0x6C) 0 16) ≤ (part s p.val).thinRun → ∃ t, exec (.thinStuck p) s = .next t ∧
      onlyRegs s t [pgNrg + 0xC, pgNrg + 0x10] ∧ regBit t (pgNrg + 0xC) 2 = true ∧ regBit t (pgNrg + 0x10) 1 = true) ∧
    ((part s p.val).thinRun < max 1 (regField s (pgNrg + 0x6C) 0 16) → exec (.thinStuck p) s = .next s)

/-- Power states (R401 to R407, R410): a change that the conditions allow begins and is BUSY until it is
done; one that they do not is counted, with its refuser and its cause; a page that no die serves answers with an error. A
block that leaves OFF has lost what it held; the crossbar masks a cluster in RETAIN or OFF. -/
def Obligations.PowerStatesChange : Prop :=
  ∀ (s : State) (w : Word),
    let served := fun k => (pageServed s k).isSome = true
    let refused := fun (t : State) (pg who cause : Nat) =>
      onlyRegs s t [pg + 0x28, pg + 0x2C, pgPwr (pg / 0x1000000) + 0x44] ∧ regGet t (pg + 0x28) = regGet s (pg + 0x28) + 1 ∧
      regGet t (pg + 0x2C) = BitVec.ofNat 32 (pageId who) ∧ regField t (pgPwr (pg / 0x1000000) + 0x44) 0 16 = cause
    let masked := fun (t : State) (b : PowerBlk) (v : Nat) => ∀ c, b = .cluster c →
      regBit t (pgRgn (c.val / 16) + 0x60) (c.val % 16) = decide (2 ≤ v)
    let lost := fun (t : State) (b : PowerBlk) (v : Nat) => powerCur s b = 3 → v ≠ 3 →
      (∀ c, b = .unitM c → ∀ k < 4, tileOf t c.val k = 0) ∧
      (∀ c, b = .cluster c → (∀ r < 64, vregOf t c.val r = 0) ∧ ∀ r < 32, sregOf t c.val r = 0)
    (∀ (pg : PageId) (k : Nat), pageOfId pg = some k → ¬served k →
      exec (.pstateWrite pg w) s = .next (emit s (.errorDone 0))) ∧
    (∀ (pg : PageId) (k : Nat) (b : PowerBlk), pageOfId pg = some k → pageBlock k = some b → served k →
      let v := wfield w 4 2
      let mask := match b with | .cluster c => [pgRgn (c.val / 16) + 0x60] | _ => []
      (v = powerCur s b → exec (.pstateWrite pg w) s = .next s) ∧
      (v ≠ powerCur s b →
        (powerBusy s b = true → ∃ t, exec (.pstateWrite pg w) s = .next t ∧ refused t k k 1) ∧
        (powerBusy s b = false → powerListed b v = false →
          ∃ t, exec (.pstateWrite pg w) s = .next t ∧ refused t k k 7) ∧
        (∀ who cause, powerBusy s b = false → powerListed b v = true → v ≠ 0 → powerCheck s b = some (who, cause) →
          ∃ t, exec (.pstateWrite pg w) s = .next t ∧ refused t k who cause) ∧
        (powerBusy s b = false → powerListed b v = true → v = 0 ∨ powerCheck s b = none →
          ∃ t, exec (.pstateWrite pg w) s = .next t ∧
            t = { s with regs := t.regs, pwr.busy := s.pwr.busy ++ [(b, BitVec.ofNat 2 v)] } ∧
            regsBut s t ([powerKey b] ++ mask) ∧ powerBusy t b = true ∧ regField t (powerKey b) 4 2 = v ∧
            powerCur t b = powerCur s b ∧ (2 ≤ v → masked t b v)))) ∧
    (∀ (b : PowerBlk) (v : Nat), powerGoal s b = some v → v ≠ 0 →
      (∀ d, b = .die d → (accessQueued s d.val).isSome = true → exec (.powerEntryDone b) s = .next s) ∧
      ((∀ d, b = .die d → accessQueued s d.val = none) → ∃ t, exec (.powerEntryDone b) s = .next t ∧
        powerCur t b = v ∧ powerGoal t b = none ∧ masked t b v ∧ lost t b v ∧
        (isUnit b = true → 2 ≤ v → regBit t (powerKey b) (12 + unitBit b / 4) = true) ∧
        ((∀ d, b ≠ .die d) ∨ v ≠ 3 → powerCur s b ≠ 3 →
          t = { s with regs := t.regs, pwr := t.pwr, nrg.parts := t.nrg.parts }) ∧
        ∀ d, b = .die d → (v = 3 → presetState t d.val = 2) ∧ (v ≠ 3 → powerCur s b = 3 → presetState t d.val = 3))) ∧
    (∀ b : PowerBlk, powerGoal s b = some 0 → ∃ t, exec (.powerExitDone b) s = .next t ∧ powerCur t b = 0 ∧
      powerGoal t b = none ∧ t.vlt.mem = s.vlt.mem ∧ t.rai = s.rai ∧ masked t b 0 ∧ lost t b 0 ∧
      (powerCur s b ≠ 3 → t.clu = s.clu) ∧
      ∀ d, b = .die d → powerCur s b = 3 → presetState t d.val = 3) ∧
    (∀ (d : Fin 16) (g v : Nat), powerGoal s (.die d) = some g → g ≠ 0 → accessQueued s d.val = some v →
      ∃ t, exec (.hostPending d) s = .next t ∧ t = { s with regs := t.regs, pwr := t.pwr } ∧
        powerGoal t (.die d) = some 0 ∧ regField t (powerKey (.die d)) 4 2 = powerCur s (.die d) ∧
        regGet t (pgDie d.val + 0x28) = regGet s (pgDie d.val + 0x28) + 1 ∧
        regField t (pgPwr d.val + 0x44) 0 16 = 6) ∧
    (∀ c : Fin 1024,
      let key := powerKey (.unitM c)
      let us := [(PowerBlk.unitM c, wfield w 0 2), (.unitV0 c, wfield w 4 2), (.unitV1 c, wfield w 8 2)]
      let ch := us.filter fun x => x.2 ≠ powerCur s x.1
      (¬served (pgPwr (c.val / 64)) → exec (.unitStateWrite c w) s = .next (emit s (.errorDone 0))) ∧
      (served (pgPwr (c.val / 64)) →
        (ch = [] → exec (.unitStateWrite c w) s = .next s) ∧
        (ch ≠ [] → powerBusy s (.unitM c) = true → ∃ t, exec (.unitStateWrite c w) s = .next t ∧
          refused t (pgPwr (c.val / 64)) (pgPwr (c.val / 64)) 1) ∧
        (ch ≠ [] → powerBusy s (.unitM c) = false → (∀ x ∈ ch, powerListed x.1 x.2 = true) →
          clusterHeld s c.val = false → ∃ t, exec (.unitStateWrite c w) s = .next t ∧
            t = { s with regs := t.regs, pwr.busy := s.pwr.busy ++ ch.map fun x => (x.1, BitVec.ofNat 2 x.2) } ∧
            regsBut s t [key] ∧ powerBusy t (.unitM c) = true ∧ ∀ x ∈ ch, regField t key (unitBit x.1) 2 = x.2))) ∧
    (∀ d : Fin 16,
      let c : Fin 1024 := Fin.ofNat 1024 (64 * d.val + wfield w 0 6)
      (¬served (pgPwr d.val) → exec (.isoRelease d w) s = .next (emit s (.errorDone 0))) ∧
      (served (pgPwr d.val) →
        ∃ t, exec (.isoRelease d w) s = .next t ∧ onlyRegs s t [powerKey (.unitM c), powerKey (.planer c)] ∧
          ∀ x ∈ [(8, PowerBlk.unitM c, 12), (9, .unitV0 c, 13), (10, .unitV1 c, 14), (11, .planer c, 9)],
            regBit t (powerKey x.2.1) x.2.2 =
              (regBit s (powerKey x.2.1) x.2.2 && !(w.getLsbD x.1 && decide (powerCur s x.2.1 = 0)))))

/-! ## Resets and boot -/

/-- Partial resets (R366, R416, R439): an entry that the rules allow waits for its tick, then the die's session
table and keys are gone until the return gives it new carve-out keys. -/
def Obligations.PartialResetsEraseTheDie : Prop :=
  ∀ (s : State) (w : Word) (d : Fin 16) (xcal : List XcalResult),
    let n := wfield w 0 4
    let st := presetState s n
    let carve := (dieVaults n).any fun v => (carveRows s v).2 ≠ 0
    (n = 0 ∨ st = 2 ∨ st = 4 ∨ st = 5 ∨ (w.getLsbD 8 = false ∧ carve = true) → ∃ t, exec (.presetEnter w) s = .next t ∧
      onlyRegs s t [pgDieS + 0xC] ∧ regBit t (pgDieS + 0xC) 0 = true) ∧
    (n ≠ 0 → st ≠ 2 → st ≠ 4 → st ≠ 5 → w.getLsbD 8 = true ∨ carve = false →
      exec (.presetEnter w) s = .next { s with brd.presetPend := s.brd.presetPend.erase n ++ [n] }) ∧
    (st = 2 → regField s (pgDie n + 0x24) 0 2 ≠ 3 → ∃ t, exec (.presetRelease w) s = .next t ∧
      onlyRegs s t [pgDieS + 0x310 + 4 * n] ∧ presetState t n = 5) ∧
    (st ≠ 2 ∨ regField s (pgDie n + 0x24) 0 2 = 3 → exec (.presetRelease w) s = .next s) ∧
    (d.val ∈ s.brd.presetPend → ∃ t, exec (.partialResetEntry d) s = .next t ∧ presetState t d.val = 2 ∧
      (∀ e < 2560, ∀ o < 1024, entNat t d.val e o 1 = 0) ∧ (∀ k < 257, keyGenOf t d.val k = 0) ∧
      t.sec.reissue = true ∧ t.brd.presetPend = s.brd.presetPend.erase d.val ∧
      (dieEntering s d.val = true → powerGoal t (.die d) = some 0 ∧ regField t (pgPwr d.val + 0x44) 0 16 = 8)) ∧
    (d.val ∉ s.brd.presetPend → exec (.partialResetEntry d) s = .next s) ∧
    (presetState s d.val = 5 → ∃ t, exec (.partialResetReturn d xcal) s = .next t ∧ presetState t d.val = 3 ∧
      s.sec.keyGen ≤ keyGenOf t d.val domCarve ∧ t.sec.reissue = true ∧ t.clu = s.clu ∧ t.ses = s.ses ∧ t.rai = s.rai) ∧
    (presetState s d.val ≠ 5 → exec (.partialResetReturn d xcal) s = .next s)

/-- Package and shepherd resets, the watchdog and the timers (R414, R415, R418, R427, R436, R438, R479, R481):
persistent registers, flash and the UDS stay; everything else of the package is as State.reset has it. -/
def Obligations.ResetsKeepWhatPersists : Prop :=
  ∀ (s : State) (ns : Nat) (w : Word) (keepNew aon : Bool) (core : Fin 32) (k : TimerCmp)
    (x : Option (BitVec 64)),
    let fresh := fun (t : State) => t.clu = State.reset.clu ∧ t.vlt = State.reset.vlt ∧ t.ses = State.reset.ses ∧
      t.rai = State.reset.rai ∧ t.link = State.reset.link ∧ t.edge = State.reset.edge ∧
      (∀ k, pstKeeps k = false → regGet t k = regReset k) ∧ t.brd.flash = s.brd.flash ∧ t.sec.uds = s.sec.uds ∧
      t.sec.mgmtKey = s.sec.mgmtKey ∧ t.sec.mr = [0, 0, 0, 0] ∧ t.brd.core0 = false
    let kept := fun (t : State) => ∀ i < 1024, pstNat t i 1 = pstNat s i 1
    let n := timerNo core.val k
    let go := { s with brd.sram := [], brd.timerCmp := [], brd.timerPend := [] }
    let v := cntAdd (wdtRestart s) (pgBrd + 0x50) 1
    (10000 ≤ ns → ∃ t, exec (.packageReset ns) s = .next t ∧ fresh t ∧ (s.brd.pstPend = [] → kept t)) ∧
    (ns < 1000 → exec (.packageReset ns) s = .next s) ∧
    (1000 ≤ ns → ns < 10000 → ∃ t, exec (.packageReset ns) s = .next t ∧
      (t = { s with free := s.free + 1 } ∨ (fresh t ∧ t.free = s.free + 1))) ∧
    (wfield w 16 16 = 0xA55A → exec (.resetPackage w) s = exec (.packageReset 10000) s) ∧
    (wfield w 16 16 ≠ 0xA55A → exec (.resetPackage w) s = .next s ∧ exec (.resetShepherd w) s = .next s) ∧
    (wfield w 16 16 = 0xA55A → (shepherdCheck go).1 = true → ∃ t, exec (.resetShepherd w) s = .next t ∧
      t.clu = s.clu ∧ t.ses = s.ses ∧ t.rai.ctx = s.rai.ctx ∧ t.link = s.link ∧ t.sec = s.sec ∧ t.brd.core0 = true ∧
      t.brd.cores = true ∧ t.brd.timerCmp = [] ∧ t.brd.flash = s.brd.flash) ∧
    (wfield w 16 16 = 0xA55A → (shepherdCheck go).1 = false → ∃ t, exec (.resetShepherd w) s = .next t ∧ fresh t) ∧
    (regBit s (pgBrd + 0x48) 31 = true →
      s.brd.wdtFrom + max 1 (regField s (pgBrd + 0x48) 0 16) * msPeriods ≤ nowPeriods s →
      exec .watchdogExpiry s = exec (.resetShepherd 0xA55A0002) v ∧
        (frozen s pgBrd = false → regGet v (pgBrd + 0x50) = regGet s (pgBrd + 0x50) + 1)) ∧
    (regBit s (pgBrd + 0x48) 31 = false ∨
        nowPeriods s < s.brd.wdtFrom + max 1 (regField s (pgBrd + 0x48) 0 16) * msPeriods →
      exec .watchdogExpiry s = .next s) ∧
    exec (.wdtKick w) s = .next { s with brd.wdtFrom := nowPeriods s } ∧
    (∃ t, exec (.shepherdTimerCompare core ⟨k, x⟩) s = .next t ∧
      t = { s with brd.timerCmp := t.brd.timerCmp, brd.timerPend := t.brd.timerPend } ∧
      tabGet 0 n t.brd.timerCmp = x.getD (tabGet 0 n s.brd.timerCmp) ∧
      (∀ j, j ≠ n → tabGet 0 j t.brd.timerCmp = tabGet 0 j s.brd.timerCmp) ∧
      t.brd.timerPend = s.brd.timerPend.erase n ++
        if (x.getD (tabGet 0 n s.brd.timerCmp)).toNat ≤ nowPeriods s / 8 then [n] else []) ∧
    (∃ t, exec (.powerLoss keepNew aon) s = .next t ∧ fresh t ∧ t.brd.aonOut = aon ∧
      t.sec.sealLatch = (s.sec.sealLatch && !aon) ∧ (keepNew = false → kept t))

/-- Boot and recovery (R419, R422, R425): without a reference input boot waits in stage 1; without an image
that verifies it ends in recovery with no core released; with all of them it ends in stage 6 with Zenber
entered. A recovery image that verifies is written to its slot and the package resets. -/
def Obligations.BootNeedsVerifiedImages : Prop :=
  ∀ (s : State) (o : BootOutcome) (kind : BitVec 2) (img : List (BitVec 8)),
    let stage := fun (t : State) => regField t (pgBrd + 0x44) 0 3
    let h := fun n => slotHeader s 2 n
    let v := deriveKeys s
    let slot := slotOfs kind.toNat (slotLower s kind.toNat)
    (2 ≤ stage s → exec (.boot o) s = .next s) ∧
    (stage s < 2 → s.time.pllOn = false → ∃ t, exec (.boot o) s = .next t ∧ onlyRegs s t [pgBrd + 0x44] ∧ stage t = 1) ∧
    (stage s < 2 → s.time.pllOn = true → s.sec.sealLatch = false → ∃ t, exec (.boot o) s = .next t ∧
      t.sec.uds = s.sec.uds ∧ t.sec.dik = spkiHash (dikOf s.sec.uds) ∧ t.sec.bk = spkiHash (bkOf s.sec.uds) ∧
      (slotRun v 0 = none ∨ slotRun v 1 = none ∨ slotRun v 3 = none ∨ slotRun v 2 = none →
        stage t = 7 ∧ t.brd.core0 = false ∧ t.brd.cores = false) ∧
      (slotRun v 0 = none → t = { v with regs := t.regs, brd := t.brd }) ∧
      (∀ a b c z, slotRun v 0 = some a → slotRun v 3 = some c → slotRun v 1 = some b →
        slotRun v 2 = some z → bitOf o.selftest.toNat 0 = true →
        stage t = 6 ∧ t.brd.core0 = true ∧ t.brd.cores = true ∧
        t.brd.zenber = some (imgLoad (h z), imgLength (h z), imgEntry (h z), imgBodyHash (h z)))) ∧
    (stage s = 7 → regBit s (pgBrd + 0x44) 17 = false → 0x600 ≤ img.length →
      ∃ t, exec (.recoveryImage kind img) s = .next t ∧
        (imageOk s kind.toNat (bytesNat (img.take 0x600)) (img.drop 0x600) = true →
          memBytes t.brd.flash slot img.length = img ∧
          (∀ a, a < slot ∨ slot + img.length ≤ a → memNat t.brd.flash a 1 = memNat s.brd.flash a 1) ∧
          t.clu = State.reset.clu ∧ t.vlt = State.reset.vlt ∧ stage t = 0)) ∧
    (stage s ≠ 7 → exec (.recoveryImage kind img) s = .next s)

/-! ## Persistent store and board -/

/-- Persistent registers and flash (R427 to R429, R438): a write that its requester may make is stored, with its
wear, when it is done; a flash command runs to its end and changes its range alone. -/
def Obligations.PersistentStoreAndFlash : Prop :=
  ∀ (s : State) (who : Requester) (k : Fin 1024) (w : Word) (inst : Fin 4) (ok : Bool),
    let pg := pstPage k.val
    let may := (who = .sec ∨ (who = .core ∧ 128 ≤ k.val)) ∧ ¬(768 ≤ k.val ∧ regBit s (pstKey k.val) 31 = true)
    let cmd := pgBrd + 0x64
    let job := fun c => (c, regNat s (pgBrd + 0x54), regPair s (pgBrd + 0x58) % 2 ^ 48, regField s (pgBrd + 0x60) 0 27)
    (may → regBit s (pg + 0xC) 0 = false → ∃ t, exec (.pstWrite who k w) s = .next t ∧
      t = { s with regs := t.regs, brd.pstPend := tabIns (k.val / 256) (k.val % 256, w) s.brd.pstPend } ∧
      regsBut s t [pg + 0xC] ∧ regBit t (pg + 0xC) 0 = true) ∧
    (∀ b, (¬may ∧ b = 2) ∨
        (may ∧ regBit s (pg + 0xC) 0 = true ∧ b = 1) →
      ∃ t, exec (.pstWrite who k w) s = .next t ∧ onlyRegs s t [pg + 0xC, pg + 0x10] ∧ regBit t (pg + 0xC) b = true ∧
        regBit t (pg + 0x10) 1 = true) ∧
    (pstPending s inst.val = none → exec (.pstWriteDone inst) s = .next s) ∧
    (∀ i v, i < 256 → pstPending s inst.val = some (i, v) →
      let reg := pstKey (256 * inst.val + i)
      let wear := pgPst inst.val + 0x800 + 4 * i
      ∃ t, exec (.pstWriteDone inst) s = .next t ∧ t = { s with regs := t.regs, brd.pstPend := t.brd.pstPend } ∧
        regsBut s t [reg, wear, pgPst inst.val + 0xC, pgPst inst.val + 0x10] ∧ regGet t reg = v ∧
        regNat t wear = min 0xFFFFFF (regNat s wear + 1) ∧ regBit t (pgPst inst.val + 0xC) 0 = false ∧
        regBit t (pgPst inst.val + 0x10) 0 = true ∧ pstPending t inst.val = none) ∧
    (regBit s cmd 8 = false → ∀ x ∈ [(Instr.flashErase w, (1 : BitVec 2)), (.flashProgram w, 2)],
      ∃ t, exec x.1 s = .next t ∧ t = { s with regs := t.regs, brd.flashBusy := some (job x.2) } ∧ regsBut s t [cmd] ∧
        regBit t cmd 8 = true) ∧
    (regBit s cmd 8 = true → exec (.flashErase w) s = .next s ∧ exec (.flashProgram w) s = .next s) ∧
    (s.brd.flashBusy = none → exec (.flashDone ok) s = .next s) ∧
    (∀ c a src n, s.brd.flashBusy = some (c, a, src, n) → c = 1 ∨ c = 2 →
      let lo := if c = 1 then a / 0x10000 * 0x10000 else a
      let len := if c = 2 then n else if n = 0 then 0 else (a + n - 1) / 0x10000 * 0x10000 + 0x10000 - lo
      ∃ t, exec (.flashDone ok) s = .next t ∧ t.brd.flashBusy = none ∧ regBit t cmd 8 = false ∧
        regBit t (pgBrd + 0x10) 0 = true ∧ t.clu = s.clu ∧ t.sec = s.sec ∧
        (∀ x, x < lo ∨ lo + len ≤ x → memNat t.brd.flash x 1 = memNat s.brd.flash x 1) ∧
        (ok = false → regBit t cmd 9 = true) ∧
        (ok = true → lo + len ≤ flashBytes →
          (c = 1 → regBit t cmd 9 = false ∧ ∀ x, lo ≤ x → x < lo + len → memNat t.brd.flash x 1 = 0xFF) ∧
          (∀ l, c = 2 → inCarve s src = true → (engineBytes s 3 .sec src n).1 = some l →
            regBit t cmd 9 = false ∧ memBytes t.brd.flash a n = l)))

/-- Regulators and thermal protection (R450, R479, R487, R489 to R492): a poll that is due, and an alert, read every valid
device, whose answer VR_STATUS keeps; one that gives none did not acknowledge. A reading above a trip level sets the trip,
at the next tick of which live raisings stop and THERM_TRIP_N is low. That a poll is due by the time since the last one
is the model's reading (log 130). -/
def Obligations.BoardConditionsAreTaken : Prop :=
  ∀ (s : State) (rs : List VrReply) (ts : List TempReading),
    let dev := fun d => regGet s (pgBrd + 0x80 + 4 * d)
    let key := fun d => pgBrd + 0xC0 + 4 * d
    let valid := fun d => (dev d).getLsbD 15
    let new := fun d => match (rs.find? fun r => r.dev.val = d).bind (·.status) with
      | some w => w.toNat
      | none => setBits (regNat s (key d)) 16 1 1
    let devs := List.range 16
    let dies := List.range 20
    let read := fun (t : State) (alert : Bool) =>
      regsBut s t ([pgBrd + 0x10] ++ devs.map key) ∧
      t.out = s.out ++ (devs.filter valid).map (fun d => .regulatorRead ((dev d).setWidth 7)) ∧
      (∀ d < 16, regGet t (key d) = if valid d then BitVec.ofNat 32 (new d) else regGet s (key d)) ∧
      regBit t (pgBrd + 0x10) 1 = (regBit s (pgBrd + 0x10) 1 || alert ||
        devs.any fun d => valid d && new d ≠ regNat s (key d))
    let due := s.brd.vrFrom + max 1 (regField s (pgBrd + 0x100) 0 8) * msPeriods ≤ nowPeriods s
    (¬due → exec (.vrPoll rs) s = .next s) ∧
    (due → ∃ t, exec (.vrPoll rs) s = .next t ∧ read t false ∧
      t = { s with regs := t.regs, out := t.out, brd.vrFrom := nowPeriods s }) ∧
    (∃ t, exec (.vrAlert rs) s = .next t ∧ read t true ∧ t = { s with regs := t.regs, out := t.out }) ∧
    ((ts.map (·.die)).Nodup → ∃ t, exec (.tempUpdate ts) s = .next t ∧
      t = { s with
        regs := t.regs
        brd.thermTrip := if s.brd.thermTrip then dies.any (clearOver t) else dies.any (tripOver t)
        brd.tripNew := s.brd.tripNew || (!s.brd.thermTrip && dies.any (tripOver t))
        brd.tripLow := s.brd.tripLow && (!s.brd.thermTrip || dies.any (clearOver t))
        brd.thermCrit := s.brd.thermCrit || dies.any (critOver t) } ∧
      (∀ x ∈ ts, regNat t (pgDie x.die.val + 0x48) =
          x.junc.toNat + (if x.die.val < 16 then x.stack.toNat else 0) * 0x10000 ∧
        (x.die.val < 19 → regBit t (pgDie x.die.val + 0x10) 1 = (regBit s (pgDie x.die.val + 0x10) 1 ||
          (decide (juncOf s x.die.val ≤ 840) && decide (840 < juncOf t x.die.val)) ||
          (decide (stackOf s x.die.val ≤ 760) && decide (760 < stackOf t x.die.val))))) ∧
      (s.brd.thermTrip = false → dies.any (tripOver t) = true →
        regBit t (pgBrd + 0x104) 0 = true ∧ regBit t (pgBrd + 0x10) 2 = true)) ∧
    (s.brd.tripNew = false → exec .thermalTrip s = .next s) ∧
    (s.brd.tripNew = true → ∃ t, exec .thermalTrip s = .next t ∧ t.brd.tripNew = false ∧
      t.brd.tripLow = s.brd.thermTrip ∧ t.clu = s.clu ∧
      ((s.rai.ctx.map (·.1)).Nodup → ∀ c,
        (ctxLive s c = true → (raising t c).state = .stopped ∧ (ctx t c).faultCause = 3) ∧
        ((raising s c).state = .prepared → (ctx s c).succ = none →
          (raising t c).state = .loaded ∧ (ctx t c).lastStatus = 9) ∧
        ∀ q, (ctx s c).succ = some q → q.state = .committed → (ctx t c).succ = none))

/-! ## Registers -/
end

