-- ==== Sys2Proof/Laws/Tables.lean ====
section
/-! SUPPORT. What the operations on sparse tables and byte stores do: what they read afterwards, and that they keep
the canonical form. -/
namespace Sys2Proof.Laws
open Sys2Proof Sys2Proof.Machine

variable {α : Type}

/-! ## Reading a table after a write -/

theorem tabGet_filter (d : α) (p : Nat → Bool) (k : Nat) (t : Tab α) (hp : p k = true) :
    tabGet d k (t.filter fun e => p e.1) = tabGet d k t := by
  induction t with
  | nil => rfl
  | cons e t ih =>
    obtain ⟨a, b⟩ := e
    by_cases h : a = k
    · subst h; simp [hp, tabGet]
    · by_cases hq : p a = true <;> simp [hq, tabGet, h, ih]

theorem tabGet_filter_out (d : α) (p : Nat → Bool) (k : Nat) (t : Tab α) (hp : p k = false) :
    tabGet d k (t.filter fun e => p e.1) = d := by
  induction t with
  | nil => rfl
  | cons e t ih =>
    obtain ⟨a, b⟩ := e
    by_cases hq : p a = true
    · have h : a ≠ k := fun h => by subst h; simp [hp] at hq
      simp [hq, tabGet, h, ih]
    · simp [hq, ih]

@[simp] theorem tabGet_tabErase_self (d : α) (k : Nat) (t : Tab α) : tabGet d k (tabErase k t) = d :=
  tabGet_filter_out d (fun x => x != k) k t (by simp)

theorem tabGet_tabErase_of_ne (d : α) {j k : Nat} (t : Tab α) (h : j ≠ k) :
    tabGet d j (tabErase k t) = tabGet d j t :=
  tabGet_filter d (fun x => x != k) j t (by simpa using h)

@[simp] theorem tabGet_tabIns_self (d : α) (k : Nat) (v : α) (t : Tab α) : tabGet d k (tabIns k v t) = v := by
  induction t with
  | nil => simp [tabIns, tabGet]
  | cons e t ih =>
    obtain ⟨a, b⟩ := e
    simp only [tabIns]
    split
    · simp [tabGet]
    · split
      · simp [tabGet]
      · have : a ≠ k := fun h => by omega
        simp [tabGet, this, ih]

theorem tabGet_tabIns_of_ne (d : α) {j k : Nat} (v : α) (t : Tab α) (h : j ≠ k) :
    tabGet d j (tabIns k v t) = tabGet d j t := by
  induction t with
  | nil => simp [tabIns, tabGet, Ne.symm h]
  | cons e t ih =>
    obtain ⟨a, b⟩ := e
    simp only [tabIns]
    split
    · simp [tabGet, Ne.symm h]
    · split
      · rename_i _ e; subst e; simp [tabGet, Ne.symm h]
      · simp [tabGet, ih]

variable [DecidableEq α]

@[simp] theorem tabGet_tabSet_self (d : α) (k : Nat) (v : α) (t : Tab α) : tabGet d k (tabSet d k v t) = v := by
  unfold tabSet
  split
  · rename_i h; simp [h]
  · simp

theorem tabGet_tabSet_of_ne (d : α) {j k : Nat} (v : α) (t : Tab α) (h : j ≠ k) :
    tabGet d j (tabSet d k v t) = tabGet d j t := by
  unfold tabSet
  split
  · exact tabGet_tabErase_of_ne d t h
  · exact tabGet_tabIns_of_ne d v t h

/-! ## Canonical form -/

/-- Canonical form, said of the whole list: no default, and keys strictly rising. -/
theorem tabWf_iff (d : α) (t : Tab α) :
    tabWf d t = true ↔ (∀ e ∈ t, e.2 ≠ d) ∧ t.Pairwise fun a b => a.1 < b.1 := by
  induction t with
  | nil => simp [tabWf]
  | cons e t ih =>
    obtain ⟨k, v⟩ := e
    cases t with
    | nil => simp [tabWf]
    | cons f t =>
      obtain ⟨k', v'⟩ := f
      simp only [tabWf, Bool.and_eq_true, bne_iff_ne, decide_eq_true_eq, ih]
      constructor
      · rintro ⟨⟨hv, hk⟩, hd, hp⟩
        refine ⟨fun e he => ?_, List.pairwise_cons.2 ⟨fun e he => ?_, hp⟩⟩
        · rcases List.mem_cons.1 he with rfl | he
          · exact hv
          · exact hd e he
        · rcases List.mem_cons.1 he with rfl | he
          · exact hk
          · exact Nat.lt_trans hk ((List.pairwise_cons.1 hp).1 e he)
      · rintro ⟨hd, hp⟩
        exact ⟨⟨hd (k, v) (by simp), (List.pairwise_cons.1 hp).1 (k', v') (by simp)⟩, fun e he => hd e (List.mem_cons_of_mem _ he),
          (List.pairwise_cons.1 hp).2⟩

theorem tabWf_filter (d : α) (p : Nat × α → Bool) (t : Tab α) (h : tabWf d t = true) : tabWf d (t.filter p) = true := by
  rw [tabWf_iff] at h ⊢
  exact ⟨fun e he => h.1 e (List.mem_filter.1 he).1, h.2.filter p⟩

theorem tabWf_tabErase (d : α) (k : Nat) (t : Tab α) (h : tabWf d t = true) : tabWf d (tabErase k t) = true :=
  tabWf_filter d _ t h

theorem tabWf_tabDrop (d : α) (p : Nat → Bool) (t : Tab α) (h : tabWf d t = true) : tabWf d (tabDrop p t) = true :=
  tabWf_filter d _ t h

omit [DecidableEq α] in
theorem mem_tabIns {k : Nat} {v : α} {t : Tab α} {e : Nat × α} (h : e ∈ tabIns k v t) : e = (k, v) ∨ e ∈ t := by
  induction t with
  | nil => simpa [tabIns] using h
  | cons f t ih =>
    obtain ⟨a, b⟩ := f
    simp only [tabIns] at h
    split at h
    · simpa using h
    · split at h
      · rcases List.mem_cons.1 h with h | h
        · exact .inl h
        · exact .inr (List.mem_cons_of_mem _ h)
      · rcases List.mem_cons.1 h with h | h
        · exact .inr (h ▸ List.mem_cons_self)
        · exact (ih h).imp id (List.mem_cons_of_mem _)

theorem tabWf_tabIns (d : α) (k : Nat) (v : α) (t : Tab α) (hv : v ≠ d) (h : tabWf d t = true) :
    tabWf d (tabIns k v t) = true := by
  rw [tabWf_iff] at h ⊢
  refine ⟨fun e he => ?_, ?_⟩
  · rcases mem_tabIns he with rfl | he
    · exact hv
    · exact h.1 e he
  · obtain ⟨-, h⟩ := h
    induction t with
    | nil => simp [tabIns]
    | cons f t ih =>
      obtain ⟨a, b⟩ := f
      obtain ⟨h1, h2⟩ := List.pairwise_cons.1 h
      simp only [tabIns]
      split
      · rename_i hk
        refine List.pairwise_cons.2 ⟨fun e he => ?_, h⟩
        rcases List.mem_cons.1 he with rfl | he
        · exact hk
        · exact Nat.lt_trans hk (h1 e he)
      · split
        · rename_i _ e; subst e; exact List.pairwise_cons.2 ⟨h1, h2⟩
        · refine List.pairwise_cons.2 ⟨fun e he => ?_, ih h2⟩
          rcases mem_tabIns he with rfl | he
          · show a < k; omega
          · exact h1 e he

/-- A write keeps the canonical form, whatever it writes. -/
theorem tabWf_tabSet (d : α) (k : Nat) (v : α) (t : Tab α) (h : tabWf d t = true) : tabWf d (tabSet d k v t) = true := by
  unfold tabSet
  split
  · exact tabWf_tabErase d k t h
  · rename_i hv; exact tabWf_tabIns d k v t hv h

theorem tabWf_tabMod (d : α) (k : Nat) (f : α → α) (t : Tab α) (h : tabWf d t = true) : tabWf d (tabMod d k f t) = true :=
  tabWf_tabSet d k _ t h

/-! ## Byte stores -/

theorem memWf_iff (m : List Host.Cell) :
    Memory.wf m = true ↔ (∀ e ∈ m, e.2 ≠ 0) ∧ m.Pairwise fun a b => a.1 < b.1 := tabWf_iff (0 : Byte) m

theorem mem_cellsOf {a n x : Nat} {e : Host.Cell} (h : e ∈ cellsOf a n x) : a ≤ e.1 ∧ e.1 < a + n ∧ e.2 ≠ 0 := by
  unfold cellsOf at h
  obtain ⟨h, hz⟩ := List.mem_filter.1 h
  obtain ⟨i, hi, rfl⟩ := List.mem_map.1 h
  have := List.mem_range.1 hi
  exact ⟨by simp, by simp; omega, by simpa using hz⟩

theorem cellsOf_pairwise (a n x : Nat) : (cellsOf a n x).Pairwise fun p q => p.1 < q.1 := by
  unfold cellsOf
  refine List.Pairwise.filter _ (List.pairwise_map.2 ?_)
  exact List.pairwise_lt_range.imp fun h => by simpa using h

/-- Writing bytes keeps the canonical form. -/
theorem memWf_memWrite (m : List Host.Cell) (a n x : Nat) (h : Memory.wf m = true) :
    Memory.wf (memWrite m a n x) = true := by
  rw [memWf_iff] at h ⊢
  unfold memWrite
  refine ⟨fun e he => ?_, ?_⟩
  · rcases List.mem_append.1 he with he | he
    · rcases List.mem_append.1 he with he | he
      · exact h.1 e (List.mem_filter.1 he).1
      · exact (mem_cellsOf he).2.2
    · exact h.1 e (List.mem_filter.1 he).1
  · refine List.pairwise_append.2 ⟨List.pairwise_append.2 ⟨h.2.filter _, cellsOf_pairwise a n x, ?_⟩, h.2.filter _, ?_⟩
    · intro e he f hf
      have h1 : e.1 < a := by simpa using (List.mem_filter.1 he).2
      have := (mem_cellsOf hf).1
      omega
    · intro e he f hf
      have h2 : a + n ≤ f.1 := by simpa using (List.mem_filter.1 hf).2
      rcases List.mem_append.1 he with he | he
      · have h1 : e.1 < a := by simpa using (List.mem_filter.1 he).2
        omega
      · have := (mem_cellsOf he).2.1
        omega

/-- Clearing bytes keeps the canonical form. -/
theorem memWf_memClear (m : List Host.Cell) (a n : Nat) (h : Memory.wf m = true) :
    Memory.wf (memClear m a n) = true := by
  rw [memWf_iff] at h ⊢
  unfold memClear
  refine ⟨fun e he => ?_, List.pairwise_append.2 ⟨h.2.filter _, h.2.filter _, ?_⟩⟩
  · rcases List.mem_append.1 he with he | he <;> exact h.1 e (List.mem_filter.1 he).1
  · intro e he f hf
    have h1 : e.1 < a := by simpa using (List.mem_filter.1 he).2
    have h2 : a + n ≤ f.1 := by simpa using (List.mem_filter.1 hf).2
    omega

theorem memWf_filter (p : Host.Cell → Bool) (m : List Host.Cell) (h : Memory.wf m = true) :
    Memory.wf (m.filter p) = true := tabWf_filter 0 p m h

omit [DecidableEq α] in
theorem tabGet_append (d : α) (k : Nat) (t u : Tab α) (h : ∀ e ∈ t, e.1 ≠ k) :
    tabGet d k (t ++ u) = tabGet d k u := by
  induction t with
  | nil => rfl
  | cons e t ih =>
    obtain ⟨a, b⟩ := e
    have : a ≠ k := h (a, b) (by simp)
    simp [tabGet, this, ih fun e he => h e (List.mem_cons_of_mem _ he)]

omit [DecidableEq α] in
theorem tabGet_append_out (d : α) (k : Nat) (t u : Tab α) (h : ∀ e ∈ u, e.1 ≠ k) :
    tabGet d k (t ++ u) = tabGet d k t := by
  induction t with
  | nil =>
    have := tabGet_append d k u [] h
    simpa [tabGet] using this
  | cons e t ih =>
    obtain ⟨a, b⟩ := e
    by_cases hk : a = k <;> simp [tabGet, hk, ih]

/-- A write leaves every byte outside its range. -/
theorem memByte_memWrite_outside (m : List Host.Cell) (a n x i : Nat) (h : i < a ∨ a + n ≤ i) :
    memByte (memWrite m a n x) i = memByte m i := by
  unfold memByte memWrite
  have hc : ∀ e ∈ cellsOf a n x, e.1 ≠ i := fun e he => by have := mem_cellsOf he; omega
  rcases h with h | h
  · rw [List.append_assoc, tabGet_append_out]
    · exact tabGet_filter 0 (fun x => decide (x < a)) i m (by simpa using h)
    · intro e he
      rcases List.mem_append.1 he with he | he
      · exact hc e he
      · have h2 : a + n ≤ e.1 := by simpa using (List.mem_filter.1 he).2
        omega
  · rw [tabGet_append]
    · exact tabGet_filter 0 (fun x => decide (a + n ≤ x)) i m (by simpa using h)
    · intro e he
      rcases List.mem_append.1 he with he | he
      · have h2 : e.1 < a := by simpa using (List.mem_filter.1 he).2
        omega
      · exact hc e he

theorem tabGet_cells (f : Nat → Byte) (l : List Nat) (i a : Nat) :
    tabGet 0 (a + i) ((l.map fun j => ((a + j, f j) : Nat × Byte)).filter fun c => c.2 != 0) =
      if i ∈ l then f i else 0 := by
  induction l with
  | nil => rfl
  | cons j l ih =>
    rw [List.map_cons, List.filter_cons]
    by_cases hj : j = i
    · subst hj
      split
      · simp [tabGet]
      · rename_i hz
        have hz : f j = 0 := by simpa using hz
        rw [ih, hz]; simp
    · have hm : i ∈ j :: l ↔ i ∈ l := by simp [Ne.symm hj]
      split
      · simp only [tabGet, Nat.add_left_cancel_iff, hj, if_false, ih, hm]
      · simp only [ih, hm]

/-- A written byte reads as written. -/
theorem memByte_memWrite_inside (m : List Host.Cell) (a n x i : Nat) (h : i < n) :
    memByte (memWrite m a n x) (a + i) = byteOf x i := by
  unfold memByte memWrite
  rw [tabGet_append_out, tabGet_append]
  · exact (tabGet_cells (byteOf x) (List.range n) i a).trans (if_pos (List.mem_range.2 h))
  · intro e he
    have h2 : e.1 < a := by simpa using (List.mem_filter.1 he).2
    omega
  · intro e he
    have h2 : a + n ≤ e.1 := by simpa using (List.mem_filter.1 he).2
    omega

end Sys2Proof.Laws
end

