-- ==== Sys2Proof/Laws/State.lean ====
section
/-! SUPPORT. What each named update of State leaves: one lemma per field and update, and what the accessors read after an
update. -/
namespace Sys2Proof.Laws
open Sys2Proof Sys2Proof.Machine

/-! ### regSet -/

@[simp] theorem regSet_pending (s : State) (k : Nat) (v : Word) : (regSet s k v).pending = s.pending := rfl
@[simp] theorem regSet_latch (s : State) (k : Nat) (v : Word) : (regSet s k v).latch = s.latch := rfl
@[simp] theorem regSet_clu (s : State) (k : Nat) (v : Word) : (regSet s k v).clu = s.clu := rfl
@[simp] theorem regSet_vlt (s : State) (k : Nat) (v : Word) : (regSet s k v).vlt = s.vlt := rfl
@[simp] theorem regSet_edge (s : State) (k : Nat) (v : Word) : (regSet s k v).edge = s.edge := rfl
@[simp] theorem regSet_link (s : State) (k : Nat) (v : Word) : (regSet s k v).link = s.link := rfl
@[simp] theorem regSet_loose (s : State) (k : Nat) (v : Word) : (regSet s k v).loose = s.loose := rfl
@[simp] theorem regSet_opn (s : State) (k : Nat) (v : Word) : (regSet s k v).opn = s.opn := rfl
@[simp] theorem regSet_time (s : State) (k : Nat) (v : Word) : (regSet s k v).time = s.time := rfl
@[simp] theorem regSet_rai (s : State) (k : Nat) (v : Word) : (regSet s k v).rai = s.rai := rfl
@[simp] theorem regSet_ses (s : State) (k : Nat) (v : Word) : (regSet s k v).ses = s.ses := rfl
@[simp] theorem regSet_sec (s : State) (k : Nat) (v : Word) : (regSet s k v).sec = s.sec := rfl
@[simp] theorem regSet_pwr (s : State) (k : Nat) (v : Word) : (regSet s k v).pwr = s.pwr := rfl
@[simp] theorem regSet_nrg (s : State) (k : Nat) (v : Word) : (regSet s k v).nrg = s.nrg := rfl
@[simp] theorem regSet_brd (s : State) (k : Nat) (v : Word) : (regSet s k v).brd = s.brd := rfl
@[simp] theorem regSet_out (s : State) (k : Nat) (v : Word) : (regSet s k v).out = s.out := rfl
@[simp] theorem regSet_free (s : State) (k : Nat) (v : Word) : (regSet s k v).free = s.free := rfl

/-! ### regPut -/

@[simp] theorem regPut_pending (s : State) (k lo w v : Nat) : (regPut s k lo w v).pending = s.pending := rfl
@[simp] theorem regPut_latch (s : State) (k lo w v : Nat) : (regPut s k lo w v).latch = s.latch := rfl
@[simp] theorem regPut_clu (s : State) (k lo w v : Nat) : (regPut s k lo w v).clu = s.clu := rfl
@[simp] theorem regPut_vlt (s : State) (k lo w v : Nat) : (regPut s k lo w v).vlt = s.vlt := rfl
@[simp] theorem regPut_edge (s : State) (k lo w v : Nat) : (regPut s k lo w v).edge = s.edge := rfl
@[simp] theorem regPut_link (s : State) (k lo w v : Nat) : (regPut s k lo w v).link = s.link := rfl
@[simp] theorem regPut_loose (s : State) (k lo w v : Nat) : (regPut s k lo w v).loose = s.loose := rfl
@[simp] theorem regPut_opn (s : State) (k lo w v : Nat) : (regPut s k lo w v).opn = s.opn := rfl
@[simp] theorem regPut_time (s : State) (k lo w v : Nat) : (regPut s k lo w v).time = s.time := rfl
@[simp] theorem regPut_rai (s : State) (k lo w v : Nat) : (regPut s k lo w v).rai = s.rai := rfl
@[simp] theorem regPut_ses (s : State) (k lo w v : Nat) : (regPut s k lo w v).ses = s.ses := rfl
@[simp] theorem regPut_sec (s : State) (k lo w v : Nat) : (regPut s k lo w v).sec = s.sec := rfl
@[simp] theorem regPut_pwr (s : State) (k lo w v : Nat) : (regPut s k lo w v).pwr = s.pwr := rfl
@[simp] theorem regPut_nrg (s : State) (k lo w v : Nat) : (regPut s k lo w v).nrg = s.nrg := rfl
@[simp] theorem regPut_brd (s : State) (k lo w v : Nat) : (regPut s k lo w v).brd = s.brd := rfl
@[simp] theorem regPut_out (s : State) (k lo w v : Nat) : (regPut s k lo w v).out = s.out := rfl
@[simp] theorem regPut_free (s : State) (k lo w v : Nat) : (regPut s k lo w v).free = s.free := rfl

/-! ### orReg -/

@[simp] theorem orReg_pending (s : State) (k m : Nat) : (orReg s k m).pending = s.pending := rfl
@[simp] theorem orReg_latch (s : State) (k m : Nat) : (orReg s k m).latch = s.latch := rfl
@[simp] theorem orReg_clu (s : State) (k m : Nat) : (orReg s k m).clu = s.clu := rfl
@[simp] theorem orReg_vlt (s : State) (k m : Nat) : (orReg s k m).vlt = s.vlt := rfl
@[simp] theorem orReg_edge (s : State) (k m : Nat) : (orReg s k m).edge = s.edge := rfl
@[simp] theorem orReg_link (s : State) (k m : Nat) : (orReg s k m).link = s.link := rfl
@[simp] theorem orReg_loose (s : State) (k m : Nat) : (orReg s k m).loose = s.loose := rfl
@[simp] theorem orReg_opn (s : State) (k m : Nat) : (orReg s k m).opn = s.opn := rfl
@[simp] theorem orReg_time (s : State) (k m : Nat) : (orReg s k m).time = s.time := rfl
@[simp] theorem orReg_rai (s : State) (k m : Nat) : (orReg s k m).rai = s.rai := rfl
@[simp] theorem orReg_ses (s : State) (k m : Nat) : (orReg s k m).ses = s.ses := rfl
@[simp] theorem orReg_sec (s : State) (k m : Nat) : (orReg s k m).sec = s.sec := rfl
@[simp] theorem orReg_pwr (s : State) (k m : Nat) : (orReg s k m).pwr = s.pwr := rfl
@[simp] theorem orReg_nrg (s : State) (k m : Nat) : (orReg s k m).nrg = s.nrg := rfl
@[simp] theorem orReg_brd (s : State) (k m : Nat) : (orReg s k m).brd = s.brd := rfl
@[simp] theorem orReg_out (s : State) (k m : Nat) : (orReg s k m).out = s.out := rfl
@[simp] theorem orReg_free (s : State) (k m : Nat) : (orReg s k m).free = s.free := rfl

/-! ### clrReg -/

@[simp] theorem clrReg_pending (s : State) (k m : Nat) : (clrReg s k m).pending = s.pending := rfl
@[simp] theorem clrReg_latch (s : State) (k m : Nat) : (clrReg s k m).latch = s.latch := rfl
@[simp] theorem clrReg_clu (s : State) (k m : Nat) : (clrReg s k m).clu = s.clu := rfl
@[simp] theorem clrReg_vlt (s : State) (k m : Nat) : (clrReg s k m).vlt = s.vlt := rfl
@[simp] theorem clrReg_edge (s : State) (k m : Nat) : (clrReg s k m).edge = s.edge := rfl
@[simp] theorem clrReg_link (s : State) (k m : Nat) : (clrReg s k m).link = s.link := rfl
@[simp] theorem clrReg_loose (s : State) (k m : Nat) : (clrReg s k m).loose = s.loose := rfl
@[simp] theorem clrReg_opn (s : State) (k m : Nat) : (clrReg s k m).opn = s.opn := rfl
@[simp] theorem clrReg_time (s : State) (k m : Nat) : (clrReg s k m).time = s.time := rfl
@[simp] theorem clrReg_rai (s : State) (k m : Nat) : (clrReg s k m).rai = s.rai := rfl
@[simp] theorem clrReg_ses (s : State) (k m : Nat) : (clrReg s k m).ses = s.ses := rfl
@[simp] theorem clrReg_sec (s : State) (k m : Nat) : (clrReg s k m).sec = s.sec := rfl
@[simp] theorem clrReg_pwr (s : State) (k m : Nat) : (clrReg s k m).pwr = s.pwr := rfl
@[simp] theorem clrReg_nrg (s : State) (k m : Nat) : (clrReg s k m).nrg = s.nrg := rfl
@[simp] theorem clrReg_brd (s : State) (k m : Nat) : (clrReg s k m).brd = s.brd := rfl
@[simp] theorem clrReg_out (s : State) (k m : Nat) : (clrReg s k m).out = s.out := rfl
@[simp] theorem clrReg_free (s : State) (k m : Nat) : (clrReg s k m).free = s.free := rfl

/-! ### statSet -/

@[simp] theorem statSet_pending (s : State) (pg b : Nat) : (statSet s pg b).pending = s.pending := rfl
@[simp] theorem statSet_latch (s : State) (pg b : Nat) : (statSet s pg b).latch = s.latch := rfl
@[simp] theorem statSet_clu (s : State) (pg b : Nat) : (statSet s pg b).clu = s.clu := rfl
@[simp] theorem statSet_vlt (s : State) (pg b : Nat) : (statSet s pg b).vlt = s.vlt := rfl
@[simp] theorem statSet_edge (s : State) (pg b : Nat) : (statSet s pg b).edge = s.edge := rfl
@[simp] theorem statSet_link (s : State) (pg b : Nat) : (statSet s pg b).link = s.link := rfl
@[simp] theorem statSet_loose (s : State) (pg b : Nat) : (statSet s pg b).loose = s.loose := rfl
@[simp] theorem statSet_opn (s : State) (pg b : Nat) : (statSet s pg b).opn = s.opn := rfl
@[simp] theorem statSet_time (s : State) (pg b : Nat) : (statSet s pg b).time = s.time := rfl
@[simp] theorem statSet_rai (s : State) (pg b : Nat) : (statSet s pg b).rai = s.rai := rfl
@[simp] theorem statSet_ses (s : State) (pg b : Nat) : (statSet s pg b).ses = s.ses := rfl
@[simp] theorem statSet_sec (s : State) (pg b : Nat) : (statSet s pg b).sec = s.sec := rfl
@[simp] theorem statSet_pwr (s : State) (pg b : Nat) : (statSet s pg b).pwr = s.pwr := rfl
@[simp] theorem statSet_nrg (s : State) (pg b : Nat) : (statSet s pg b).nrg = s.nrg := rfl
@[simp] theorem statSet_brd (s : State) (pg b : Nat) : (statSet s pg b).brd = s.brd := rfl
@[simp] theorem statSet_out (s : State) (pg b : Nat) : (statSet s pg b).out = s.out := rfl
@[simp] theorem statSet_free (s : State) (pg b : Nat) : (statSet s pg b).free = s.free := rfl

/-! ### irq -/

@[simp] theorem irq_pending (s : State) (pg b : Nat) : (irq s pg b).pending = s.pending := rfl
@[simp] theorem irq_latch (s : State) (pg b : Nat) : (irq s pg b).latch = s.latch := rfl
@[simp] theorem irq_clu (s : State) (pg b : Nat) : (irq s pg b).clu = s.clu := rfl
@[simp] theorem irq_vlt (s : State) (pg b : Nat) : (irq s pg b).vlt = s.vlt := rfl
@[simp] theorem irq_edge (s : State) (pg b : Nat) : (irq s pg b).edge = s.edge := rfl
@[simp] theorem irq_link (s : State) (pg b : Nat) : (irq s pg b).link = s.link := rfl
@[simp] theorem irq_loose (s : State) (pg b : Nat) : (irq s pg b).loose = s.loose := rfl
@[simp] theorem irq_opn (s : State) (pg b : Nat) : (irq s pg b).opn = s.opn := rfl
@[simp] theorem irq_time (s : State) (pg b : Nat) : (irq s pg b).time = s.time := rfl
@[simp] theorem irq_rai (s : State) (pg b : Nat) : (irq s pg b).rai = s.rai := rfl
@[simp] theorem irq_ses (s : State) (pg b : Nat) : (irq s pg b).ses = s.ses := rfl
@[simp] theorem irq_sec (s : State) (pg b : Nat) : (irq s pg b).sec = s.sec := rfl
@[simp] theorem irq_pwr (s : State) (pg b : Nat) : (irq s pg b).pwr = s.pwr := rfl
@[simp] theorem irq_nrg (s : State) (pg b : Nat) : (irq s pg b).nrg = s.nrg := rfl
@[simp] theorem irq_brd (s : State) (pg b : Nat) : (irq s pg b).brd = s.brd := rfl
@[simp] theorem irq_out (s : State) (pg b : Nat) : (irq s pg b).out = s.out := rfl
@[simp] theorem irq_free (s : State) (pg b : Nat) : (irq s pg b).free = s.free := rfl

/-! ### emit -/

@[simp] theorem emit_pending (s : State) (o : Out) : (emit s o).pending = s.pending := rfl
@[simp] theorem emit_regs (s : State) (o : Out) : (emit s o).regs = s.regs := rfl
@[simp] theorem emit_latch (s : State) (o : Out) : (emit s o).latch = s.latch := rfl
@[simp] theorem emit_clu (s : State) (o : Out) : (emit s o).clu = s.clu := rfl
@[simp] theorem emit_vlt (s : State) (o : Out) : (emit s o).vlt = s.vlt := rfl
@[simp] theorem emit_edge (s : State) (o : Out) : (emit s o).edge = s.edge := rfl
@[simp] theorem emit_link (s : State) (o : Out) : (emit s o).link = s.link := rfl
@[simp] theorem emit_loose (s : State) (o : Out) : (emit s o).loose = s.loose := rfl
@[simp] theorem emit_opn (s : State) (o : Out) : (emit s o).opn = s.opn := rfl
@[simp] theorem emit_time (s : State) (o : Out) : (emit s o).time = s.time := rfl
@[simp] theorem emit_rai (s : State) (o : Out) : (emit s o).rai = s.rai := rfl
@[simp] theorem emit_ses (s : State) (o : Out) : (emit s o).ses = s.ses := rfl
@[simp] theorem emit_sec (s : State) (o : Out) : (emit s o).sec = s.sec := rfl
@[simp] theorem emit_pwr (s : State) (o : Out) : (emit s o).pwr = s.pwr := rfl
@[simp] theorem emit_nrg (s : State) (o : Out) : (emit s o).nrg = s.nrg := rfl
@[simp] theorem emit_brd (s : State) (o : Out) : (emit s o).brd = s.brd := rfl
@[simp] theorem emit_free (s : State) (o : Out) : (emit s o).free = s.free := rfl

/-! ### setCtx -/

@[simp] theorem setCtx_pending (s : State) (c : Nat) (x : Ctx) : (setCtx s c x).pending = s.pending := rfl
@[simp] theorem setCtx_regs (s : State) (c : Nat) (x : Ctx) : (setCtx s c x).regs = s.regs := rfl
@[simp] theorem setCtx_latch (s : State) (c : Nat) (x : Ctx) : (setCtx s c x).latch = s.latch := rfl
@[simp] theorem setCtx_clu (s : State) (c : Nat) (x : Ctx) : (setCtx s c x).clu = s.clu := rfl
@[simp] theorem setCtx_vlt (s : State) (c : Nat) (x : Ctx) : (setCtx s c x).vlt = s.vlt := rfl
@[simp] theorem setCtx_edge (s : State) (c : Nat) (x : Ctx) : (setCtx s c x).edge = s.edge := rfl
@[simp] theorem setCtx_link (s : State) (c : Nat) (x : Ctx) : (setCtx s c x).link = s.link := rfl
@[simp] theorem setCtx_loose (s : State) (c : Nat) (x : Ctx) : (setCtx s c x).loose = s.loose := rfl
@[simp] theorem setCtx_opn (s : State) (c : Nat) (x : Ctx) : (setCtx s c x).opn = s.opn := rfl
@[simp] theorem setCtx_time (s : State) (c : Nat) (x : Ctx) : (setCtx s c x).time = s.time := rfl
@[simp] theorem setCtx_ses (s : State) (c : Nat) (x : Ctx) : (setCtx s c x).ses = s.ses := rfl
@[simp] theorem setCtx_sec (s : State) (c : Nat) (x : Ctx) : (setCtx s c x).sec = s.sec := rfl
@[simp] theorem setCtx_pwr (s : State) (c : Nat) (x : Ctx) : (setCtx s c x).pwr = s.pwr := rfl
@[simp] theorem setCtx_nrg (s : State) (c : Nat) (x : Ctx) : (setCtx s c x).nrg = s.nrg := rfl
@[simp] theorem setCtx_brd (s : State) (c : Nat) (x : Ctx) : (setCtx s c x).brd = s.brd := rfl
@[simp] theorem setCtx_out (s : State) (c : Nat) (x : Ctx) : (setCtx s c x).out = s.out := rfl
@[simp] theorem setCtx_free (s : State) (c : Nat) (x : Ctx) : (setCtx s c x).free = s.free := rfl
@[simp] theorem setCtx_rai_part (s : State) (c : Nat) (x : Ctx) : (setCtx s c x).rai.part = s.rai.part := rfl
@[simp] theorem setCtx_rai_plans (s : State) (c : Nat) (x : Ctx) : (setCtx s c x).rai.plans = s.rai.plans := rfl
@[simp] theorem setCtx_rai_lastSlot (s : State) (c : Nat) (x : Ctx) : (setCtx s c x).rai.lastSlot = s.rai.lastSlot := rfl
@[simp] theorem setCtx_rai_load (s : State) (c : Nat) (x : Ctx) : (setCtx s c x).rai.load = s.rai.load := rfl
@[simp] theorem setCtx_rai_faults (s : State) (c : Nat) (x : Ctx) : (setCtx s c x).rai.faults = s.rai.faults := rfl
@[simp] theorem setCtx_rai_trail (s : State) (c : Nat) (x : Ctx) : (setCtx s c x).rai.trail = s.rai.trail := rfl
@[simp] theorem setCtx_rai_trace (s : State) (c : Nat) (x : Ctx) : (setCtx s c x).rai.trace = s.rai.trace := rfl
@[simp] theorem setCtx_rai_aborts (s : State) (c : Nat) (x : Ctx) : (setCtx s c x).rai.aborts = s.rai.aborts := rfl
@[simp] theorem setCtx_rai_latched (s : State) (c : Nat) (x : Ctx) : (setCtx s c x).rai.latched = s.rai.latched := rfl
@[simp] theorem setCtx_rai_pmap (s : State) (c : Nat) (x : Ctx) : (setCtx s c x).rai.pmap = s.rai.pmap := rfl
@[simp] theorem setCtx_rai_audit (s : State) (c : Nat) (x : Ctx) : (setCtx s c x).rai.audit = s.rai.audit := rfl
@[simp] theorem setCtx_rai_auditNext (s : State) (c : Nat) (x : Ctx) : (setCtx s c x).rai.auditNext = s.rai.auditNext := rfl
@[simp] theorem setCtx_rai_auditHit (s : State) (c : Nat) (x : Ctx) : (setCtx s c x).rai.auditHit = s.rai.auditHit := rfl

/-! ### setPart -/

@[simp] theorem setPart_pending (s : State) (p : Nat) (x : PartSt) : (setPart s p x).pending = s.pending := rfl
@[simp] theorem setPart_regs (s : State) (p : Nat) (x : PartSt) : (setPart s p x).regs = s.regs := rfl
@[simp] theorem setPart_latch (s : State) (p : Nat) (x : PartSt) : (setPart s p x).latch = s.latch := rfl
@[simp] theorem setPart_clu (s : State) (p : Nat) (x : PartSt) : (setPart s p x).clu = s.clu := rfl
@[simp] theorem setPart_vlt (s : State) (p : Nat) (x : PartSt) : (setPart s p x).vlt = s.vlt := rfl
@[simp] theorem setPart_edge (s : State) (p : Nat) (x : PartSt) : (setPart s p x).edge = s.edge := rfl
@[simp] theorem setPart_link (s : State) (p : Nat) (x : PartSt) : (setPart s p x).link = s.link := rfl
@[simp] theorem setPart_loose (s : State) (p : Nat) (x : PartSt) : (setPart s p x).loose = s.loose := rfl
@[simp] theorem setPart_opn (s : State) (p : Nat) (x : PartSt) : (setPart s p x).opn = s.opn := rfl
@[simp] theorem setPart_time (s : State) (p : Nat) (x : PartSt) : (setPart s p x).time = s.time := rfl
@[simp] theorem setPart_ses (s : State) (p : Nat) (x : PartSt) : (setPart s p x).ses = s.ses := rfl
@[simp] theorem setPart_sec (s : State) (p : Nat) (x : PartSt) : (setPart s p x).sec = s.sec := rfl
@[simp] theorem setPart_pwr (s : State) (p : Nat) (x : PartSt) : (setPart s p x).pwr = s.pwr := rfl
@[simp] theorem setPart_nrg (s : State) (p : Nat) (x : PartSt) : (setPart s p x).nrg = s.nrg := rfl
@[simp] theorem setPart_brd (s : State) (p : Nat) (x : PartSt) : (setPart s p x).brd = s.brd := rfl
@[simp] theorem setPart_out (s : State) (p : Nat) (x : PartSt) : (setPart s p x).out = s.out := rfl
@[simp] theorem setPart_free (s : State) (p : Nat) (x : PartSt) : (setPart s p x).free = s.free := rfl
@[simp] theorem setPart_rai_ctx (s : State) (p : Nat) (x : PartSt) : (setPart s p x).rai.ctx = s.rai.ctx := rfl
@[simp] theorem setPart_rai_plans (s : State) (p : Nat) (x : PartSt) : (setPart s p x).rai.plans = s.rai.plans := rfl
@[simp] theorem setPart_rai_lastSlot (s : State) (p : Nat) (x : PartSt) : (setPart s p x).rai.lastSlot = s.rai.lastSlot := rfl
@[simp] theorem setPart_rai_load (s : State) (p : Nat) (x : PartSt) : (setPart s p x).rai.load = s.rai.load := rfl
@[simp] theorem setPart_rai_faults (s : State) (p : Nat) (x : PartSt) : (setPart s p x).rai.faults = s.rai.faults := rfl
@[simp] theorem setPart_rai_trail (s : State) (p : Nat) (x : PartSt) : (setPart s p x).rai.trail = s.rai.trail := rfl
@[simp] theorem setPart_rai_trace (s : State) (p : Nat) (x : PartSt) : (setPart s p x).rai.trace = s.rai.trace := rfl
@[simp] theorem setPart_rai_aborts (s : State) (p : Nat) (x : PartSt) : (setPart s p x).rai.aborts = s.rai.aborts := rfl
@[simp] theorem setPart_rai_latched (s : State) (p : Nat) (x : PartSt) : (setPart s p x).rai.latched = s.rai.latched := rfl
@[simp] theorem setPart_rai_pmap (s : State) (p : Nat) (x : PartSt) : (setPart s p x).rai.pmap = s.rai.pmap := rfl
@[simp] theorem setPart_rai_audit (s : State) (p : Nat) (x : PartSt) : (setPart s p x).rai.audit = s.rai.audit := rfl
@[simp] theorem setPart_rai_auditNext (s : State) (p : Nat) (x : PartSt) : (setPart s p x).rai.auditNext = s.rai.auditNext := rfl
@[simp] theorem setPart_rai_auditHit (s : State) (p : Nat) (x : PartSt) : (setPart s p x).rai.auditHit = s.rai.auditHit := rfl

/-! ### setSeq -/

@[simp] theorem setSeq_pending (s : State) (c : Nat) (q : Seq) : (setSeq s c q).pending = s.pending := rfl
@[simp] theorem setSeq_regs (s : State) (c : Nat) (q : Seq) : (setSeq s c q).regs = s.regs := rfl
@[simp] theorem setSeq_latch (s : State) (c : Nat) (q : Seq) : (setSeq s c q).latch = s.latch := rfl
@[simp] theorem setSeq_vlt (s : State) (c : Nat) (q : Seq) : (setSeq s c q).vlt = s.vlt := rfl
@[simp] theorem setSeq_edge (s : State) (c : Nat) (q : Seq) : (setSeq s c q).edge = s.edge := rfl
@[simp] theorem setSeq_link (s : State) (c : Nat) (q : Seq) : (setSeq s c q).link = s.link := rfl
@[simp] theorem setSeq_loose (s : State) (c : Nat) (q : Seq) : (setSeq s c q).loose = s.loose := rfl
@[simp] theorem setSeq_opn (s : State) (c : Nat) (q : Seq) : (setSeq s c q).opn = s.opn := rfl
@[simp] theorem setSeq_time (s : State) (c : Nat) (q : Seq) : (setSeq s c q).time = s.time := rfl
@[simp] theorem setSeq_rai (s : State) (c : Nat) (q : Seq) : (setSeq s c q).rai = s.rai := rfl
@[simp] theorem setSeq_ses (s : State) (c : Nat) (q : Seq) : (setSeq s c q).ses = s.ses := rfl
@[simp] theorem setSeq_sec (s : State) (c : Nat) (q : Seq) : (setSeq s c q).sec = s.sec := rfl
@[simp] theorem setSeq_pwr (s : State) (c : Nat) (q : Seq) : (setSeq s c q).pwr = s.pwr := rfl
@[simp] theorem setSeq_nrg (s : State) (c : Nat) (q : Seq) : (setSeq s c q).nrg = s.nrg := rfl
@[simp] theorem setSeq_brd (s : State) (c : Nat) (q : Seq) : (setSeq s c q).brd = s.brd := rfl
@[simp] theorem setSeq_out (s : State) (c : Nat) (q : Seq) : (setSeq s c q).out = s.out := rfl
@[simp] theorem setSeq_free (s : State) (c : Nat) (q : Seq) : (setSeq s c q).free = s.free := rfl
@[simp] theorem setSeq_clu_cyc (s : State) (c : Nat) (q : Seq) : (setSeq s c q).clu.cyc = s.clu.cyc := rfl
@[simp] theorem setSeq_clu_tickCyc (s : State) (c : Nat) (q : Seq) : (setSeq s c q).clu.tickCyc = s.clu.tickCyc := rfl
@[simp] theorem setSeq_clu_pipe (s : State) (c : Nat) (q : Seq) : (setSeq s c q).clu.pipe = s.clu.pipe := rfl
@[simp] theorem setSeq_clu_lanes (s : State) (c : Nat) (q : Seq) : (setSeq s c q).clu.lanes = s.clu.lanes := rfl
@[simp] theorem setSeq_clu_vreg (s : State) (c : Nat) (q : Seq) : (setSeq s c q).clu.vreg = s.clu.vreg := rfl
@[simp] theorem setSeq_clu_sreg (s : State) (c : Nat) (q : Seq) : (setSeq s c q).clu.sreg = s.clu.sreg := rfl
@[simp] theorem setSeq_clu_preg (s : State) (c : Nat) (q : Seq) : (setSeq s c q).clu.preg = s.clu.preg := rfl
@[simp] theorem setSeq_clu_xreg (s : State) (c : Nat) (q : Seq) : (setSeq s c q).clu.xreg = s.clu.xreg := rfl
@[simp] theorem setSeq_clu_tile (s : State) (c : Nat) (q : Seq) : (setSeq s c q).clu.tile = s.clu.tile := rfl
@[simp] theorem setSeq_clu_run (s : State) (c : Nat) (q : Seq) : (setSeq s c q).clu.run = s.clu.run := rfl
@[simp] theorem setSeq_clu_lc (s : State) (c : Nat) (q : Seq) : (setSeq s c q).clu.lc = s.clu.lc := rfl
@[simp] theorem setSeq_clu_peg (s : State) (c : Nat) (q : Seq) : (setSeq s c q).clu.peg = s.clu.peg := rfl
@[simp] theorem setSeq_clu_pegCmp (s : State) (c : Nat) (q : Seq) : (setSeq s c q).clu.pegCmp = s.clu.pegCmp := rfl
@[simp] theorem setSeq_clu_store (s : State) (c : Nat) (q : Seq) : (setSeq s c q).clu.store = s.clu.store := rfl
@[simp] theorem setSeq_clu_wbuf (s : State) (c : Nat) (q : Seq) : (setSeq s c q).clu.wbuf = s.clu.wbuf := rfl
@[simp] theorem setSeq_clu_bent (s : State) (c : Nat) (q : Seq) : (setSeq s c q).clu.bent = s.clu.bent := rfl
@[simp] theorem setSeq_clu_tag (s : State) (c : Nat) (q : Seq) : (setSeq s c q).clu.tag = s.clu.tag := rfl
@[simp] theorem setSeq_clu_busy (s : State) (c : Nat) (q : Seq) : (setSeq s c q).clu.busy = s.clu.busy := rfl
@[simp] theorem setSeq_clu_tables (s : State) (c : Nat) (q : Seq) : (setSeq s c q).clu.tables = s.clu.tables := rfl

/-! ### setVreg -/

@[simp] theorem setVreg_pending (s : State) (c r : Nat) (v : VecReg) : (setVreg s c r v).pending = s.pending := rfl
@[simp] theorem setVreg_regs (s : State) (c r : Nat) (v : VecReg) : (setVreg s c r v).regs = s.regs := rfl
@[simp] theorem setVreg_latch (s : State) (c r : Nat) (v : VecReg) : (setVreg s c r v).latch = s.latch := rfl
@[simp] theorem setVreg_vlt (s : State) (c r : Nat) (v : VecReg) : (setVreg s c r v).vlt = s.vlt := rfl
@[simp] theorem setVreg_edge (s : State) (c r : Nat) (v : VecReg) : (setVreg s c r v).edge = s.edge := rfl
@[simp] theorem setVreg_link (s : State) (c r : Nat) (v : VecReg) : (setVreg s c r v).link = s.link := rfl
@[simp] theorem setVreg_loose (s : State) (c r : Nat) (v : VecReg) : (setVreg s c r v).loose = s.loose := rfl
@[simp] theorem setVreg_opn (s : State) (c r : Nat) (v : VecReg) : (setVreg s c r v).opn = s.opn := rfl
@[simp] theorem setVreg_time (s : State) (c r : Nat) (v : VecReg) : (setVreg s c r v).time = s.time := rfl
@[simp] theorem setVreg_rai (s : State) (c r : Nat) (v : VecReg) : (setVreg s c r v).rai = s.rai := rfl
@[simp] theorem setVreg_ses (s : State) (c r : Nat) (v : VecReg) : (setVreg s c r v).ses = s.ses := rfl
@[simp] theorem setVreg_sec (s : State) (c r : Nat) (v : VecReg) : (setVreg s c r v).sec = s.sec := rfl
@[simp] theorem setVreg_pwr (s : State) (c r : Nat) (v : VecReg) : (setVreg s c r v).pwr = s.pwr := rfl
@[simp] theorem setVreg_nrg (s : State) (c r : Nat) (v : VecReg) : (setVreg s c r v).nrg = s.nrg := rfl
@[simp] theorem setVreg_brd (s : State) (c r : Nat) (v : VecReg) : (setVreg s c r v).brd = s.brd := rfl
@[simp] theorem setVreg_out (s : State) (c r : Nat) (v : VecReg) : (setVreg s c r v).out = s.out := rfl
@[simp] theorem setVreg_free (s : State) (c r : Nat) (v : VecReg) : (setVreg s c r v).free = s.free := rfl
@[simp] theorem setVreg_clu_cyc (s : State) (c r : Nat) (v : VecReg) : (setVreg s c r v).clu.cyc = s.clu.cyc := rfl
@[simp] theorem setVreg_clu_tickCyc (s : State) (c r : Nat) (v : VecReg) : (setVreg s c r v).clu.tickCyc = s.clu.tickCyc := rfl
@[simp] theorem setVreg_clu_pipe (s : State) (c r : Nat) (v : VecReg) : (setVreg s c r v).clu.pipe = s.clu.pipe := rfl
@[simp] theorem setVreg_clu_lanes (s : State) (c r : Nat) (v : VecReg) : (setVreg s c r v).clu.lanes = s.clu.lanes := rfl
@[simp] theorem setVreg_clu_sreg (s : State) (c r : Nat) (v : VecReg) : (setVreg s c r v).clu.sreg = s.clu.sreg := rfl
@[simp] theorem setVreg_clu_preg (s : State) (c r : Nat) (v : VecReg) : (setVreg s c r v).clu.preg = s.clu.preg := rfl
@[simp] theorem setVreg_clu_xreg (s : State) (c r : Nat) (v : VecReg) : (setVreg s c r v).clu.xreg = s.clu.xreg := rfl
@[simp] theorem setVreg_clu_tile (s : State) (c r : Nat) (v : VecReg) : (setVreg s c r v).clu.tile = s.clu.tile := rfl
@[simp] theorem setVreg_clu_run (s : State) (c r : Nat) (v : VecReg) : (setVreg s c r v).clu.run = s.clu.run := rfl
@[simp] theorem setVreg_clu_lc (s : State) (c r : Nat) (v : VecReg) : (setVreg s c r v).clu.lc = s.clu.lc := rfl
@[simp] theorem setVreg_clu_peg (s : State) (c r : Nat) (v : VecReg) : (setVreg s c r v).clu.peg = s.clu.peg := rfl
@[simp] theorem setVreg_clu_pegCmp (s : State) (c r : Nat) (v : VecReg) : (setVreg s c r v).clu.pegCmp = s.clu.pegCmp := rfl
@[simp] theorem setVreg_clu_store (s : State) (c r : Nat) (v : VecReg) : (setVreg s c r v).clu.store = s.clu.store := rfl
@[simp] theorem setVreg_clu_wbuf (s : State) (c r : Nat) (v : VecReg) : (setVreg s c r v).clu.wbuf = s.clu.wbuf := rfl
@[simp] theorem setVreg_clu_bent (s : State) (c r : Nat) (v : VecReg) : (setVreg s c r v).clu.bent = s.clu.bent := rfl
@[simp] theorem setVreg_clu_tag (s : State) (c r : Nat) (v : VecReg) : (setVreg s c r v).clu.tag = s.clu.tag := rfl
@[simp] theorem setVreg_clu_seq (s : State) (c r : Nat) (v : VecReg) : (setVreg s c r v).clu.seq = s.clu.seq := rfl
@[simp] theorem setVreg_clu_busy (s : State) (c r : Nat) (v : VecReg) : (setVreg s c r v).clu.busy = s.clu.busy := rfl
@[simp] theorem setVreg_clu_tables (s : State) (c r : Nat) (v : VecReg) : (setVreg s c r v).clu.tables = s.clu.tables := rfl

/-! ### setSreg -/

@[simp] theorem setSreg_pending (s : State) (c r : Nat) (v : BitVec 64) : (setSreg s c r v).pending = s.pending := rfl
@[simp] theorem setSreg_regs (s : State) (c r : Nat) (v : BitVec 64) : (setSreg s c r v).regs = s.regs := rfl
@[simp] theorem setSreg_latch (s : State) (c r : Nat) (v : BitVec 64) : (setSreg s c r v).latch = s.latch := rfl
@[simp] theorem setSreg_vlt (s : State) (c r : Nat) (v : BitVec 64) : (setSreg s c r v).vlt = s.vlt := rfl
@[simp] theorem setSreg_edge (s : State) (c r : Nat) (v : BitVec 64) : (setSreg s c r v).edge = s.edge := rfl
@[simp] theorem setSreg_link (s : State) (c r : Nat) (v : BitVec 64) : (setSreg s c r v).link = s.link := rfl
@[simp] theorem setSreg_loose (s : State) (c r : Nat) (v : BitVec 64) : (setSreg s c r v).loose = s.loose := rfl
@[simp] theorem setSreg_opn (s : State) (c r : Nat) (v : BitVec 64) : (setSreg s c r v).opn = s.opn := rfl
@[simp] theorem setSreg_time (s : State) (c r : Nat) (v : BitVec 64) : (setSreg s c r v).time = s.time := rfl
@[simp] theorem setSreg_rai (s : State) (c r : Nat) (v : BitVec 64) : (setSreg s c r v).rai = s.rai := rfl
@[simp] theorem setSreg_ses (s : State) (c r : Nat) (v : BitVec 64) : (setSreg s c r v).ses = s.ses := rfl
@[simp] theorem setSreg_sec (s : State) (c r : Nat) (v : BitVec 64) : (setSreg s c r v).sec = s.sec := rfl
@[simp] theorem setSreg_pwr (s : State) (c r : Nat) (v : BitVec 64) : (setSreg s c r v).pwr = s.pwr := rfl
@[simp] theorem setSreg_nrg (s : State) (c r : Nat) (v : BitVec 64) : (setSreg s c r v).nrg = s.nrg := rfl
@[simp] theorem setSreg_brd (s : State) (c r : Nat) (v : BitVec 64) : (setSreg s c r v).brd = s.brd := rfl
@[simp] theorem setSreg_out (s : State) (c r : Nat) (v : BitVec 64) : (setSreg s c r v).out = s.out := rfl
@[simp] theorem setSreg_free (s : State) (c r : Nat) (v : BitVec 64) : (setSreg s c r v).free = s.free := rfl
@[simp] theorem setSreg_clu_cyc (s : State) (c r : Nat) (v : BitVec 64) : (setSreg s c r v).clu.cyc = s.clu.cyc := rfl
@[simp] theorem setSreg_clu_tickCyc (s : State) (c r : Nat) (v : BitVec 64) : (setSreg s c r v).clu.tickCyc = s.clu.tickCyc := rfl
@[simp] theorem setSreg_clu_pipe (s : State) (c r : Nat) (v : BitVec 64) : (setSreg s c r v).clu.pipe = s.clu.pipe := rfl
@[simp] theorem setSreg_clu_lanes (s : State) (c r : Nat) (v : BitVec 64) : (setSreg s c r v).clu.lanes = s.clu.lanes := rfl
@[simp] theorem setSreg_clu_vreg (s : State) (c r : Nat) (v : BitVec 64) : (setSreg s c r v).clu.vreg = s.clu.vreg := rfl
@[simp] theorem setSreg_clu_preg (s : State) (c r : Nat) (v : BitVec 64) : (setSreg s c r v).clu.preg = s.clu.preg := rfl
@[simp] theorem setSreg_clu_xreg (s : State) (c r : Nat) (v : BitVec 64) : (setSreg s c r v).clu.xreg = s.clu.xreg := rfl
@[simp] theorem setSreg_clu_tile (s : State) (c r : Nat) (v : BitVec 64) : (setSreg s c r v).clu.tile = s.clu.tile := rfl
@[simp] theorem setSreg_clu_run (s : State) (c r : Nat) (v : BitVec 64) : (setSreg s c r v).clu.run = s.clu.run := rfl
@[simp] theorem setSreg_clu_lc (s : State) (c r : Nat) (v : BitVec 64) : (setSreg s c r v).clu.lc = s.clu.lc := rfl
@[simp] theorem setSreg_clu_peg (s : State) (c r : Nat) (v : BitVec 64) : (setSreg s c r v).clu.peg = s.clu.peg := rfl
@[simp] theorem setSreg_clu_pegCmp (s : State) (c r : Nat) (v : BitVec 64) : (setSreg s c r v).clu.pegCmp = s.clu.pegCmp := rfl
@[simp] theorem setSreg_clu_store (s : State) (c r : Nat) (v : BitVec 64) : (setSreg s c r v).clu.store = s.clu.store := rfl
@[simp] theorem setSreg_clu_wbuf (s : State) (c r : Nat) (v : BitVec 64) : (setSreg s c r v).clu.wbuf = s.clu.wbuf := rfl
@[simp] theorem setSreg_clu_bent (s : State) (c r : Nat) (v : BitVec 64) : (setSreg s c r v).clu.bent = s.clu.bent := rfl
@[simp] theorem setSreg_clu_tag (s : State) (c r : Nat) (v : BitVec 64) : (setSreg s c r v).clu.tag = s.clu.tag := rfl
@[simp] theorem setSreg_clu_seq (s : State) (c r : Nat) (v : BitVec 64) : (setSreg s c r v).clu.seq = s.clu.seq := rfl
@[simp] theorem setSreg_clu_busy (s : State) (c r : Nat) (v : BitVec 64) : (setSreg s c r v).clu.busy = s.clu.busy := rfl
@[simp] theorem setSreg_clu_tables (s : State) (c r : Nat) (v : BitVec 64) : (setSreg s c r v).clu.tables = s.clu.tables := rfl

/-! ### setXreg -/

@[simp] theorem setXreg_pending (s : State) (c r : Nat) (v : BitVec 64) : (setXreg s c r v).pending = s.pending := rfl
@[simp] theorem setXreg_regs (s : State) (c r : Nat) (v : BitVec 64) : (setXreg s c r v).regs = s.regs := rfl
@[simp] theorem setXreg_latch (s : State) (c r : Nat) (v : BitVec 64) : (setXreg s c r v).latch = s.latch := rfl
@[simp] theorem setXreg_vlt (s : State) (c r : Nat) (v : BitVec 64) : (setXreg s c r v).vlt = s.vlt := rfl
@[simp] theorem setXreg_edge (s : State) (c r : Nat) (v : BitVec 64) : (setXreg s c r v).edge = s.edge := rfl
@[simp] theorem setXreg_link (s : State) (c r : Nat) (v : BitVec 64) : (setXreg s c r v).link = s.link := rfl
@[simp] theorem setXreg_loose (s : State) (c r : Nat) (v : BitVec 64) : (setXreg s c r v).loose = s.loose := rfl
@[simp] theorem setXreg_opn (s : State) (c r : Nat) (v : BitVec 64) : (setXreg s c r v).opn = s.opn := rfl
@[simp] theorem setXreg_time (s : State) (c r : Nat) (v : BitVec 64) : (setXreg s c r v).time = s.time := rfl
@[simp] theorem setXreg_rai (s : State) (c r : Nat) (v : BitVec 64) : (setXreg s c r v).rai = s.rai := rfl
@[simp] theorem setXreg_ses (s : State) (c r : Nat) (v : BitVec 64) : (setXreg s c r v).ses = s.ses := rfl
@[simp] theorem setXreg_sec (s : State) (c r : Nat) (v : BitVec 64) : (setXreg s c r v).sec = s.sec := rfl
@[simp] theorem setXreg_pwr (s : State) (c r : Nat) (v : BitVec 64) : (setXreg s c r v).pwr = s.pwr := rfl
@[simp] theorem setXreg_nrg (s : State) (c r : Nat) (v : BitVec 64) : (setXreg s c r v).nrg = s.nrg := rfl
@[simp] theorem setXreg_brd (s : State) (c r : Nat) (v : BitVec 64) : (setXreg s c r v).brd = s.brd := rfl
@[simp] theorem setXreg_out (s : State) (c r : Nat) (v : BitVec 64) : (setXreg s c r v).out = s.out := rfl
@[simp] theorem setXreg_free (s : State) (c r : Nat) (v : BitVec 64) : (setXreg s c r v).free = s.free := rfl
@[simp] theorem setXreg_clu_cyc (s : State) (c r : Nat) (v : BitVec 64) : (setXreg s c r v).clu.cyc = s.clu.cyc := rfl
@[simp] theorem setXreg_clu_tickCyc (s : State) (c r : Nat) (v : BitVec 64) : (setXreg s c r v).clu.tickCyc = s.clu.tickCyc := rfl
@[simp] theorem setXreg_clu_pipe (s : State) (c r : Nat) (v : BitVec 64) : (setXreg s c r v).clu.pipe = s.clu.pipe := rfl
@[simp] theorem setXreg_clu_lanes (s : State) (c r : Nat) (v : BitVec 64) : (setXreg s c r v).clu.lanes = s.clu.lanes := rfl
@[simp] theorem setXreg_clu_vreg (s : State) (c r : Nat) (v : BitVec 64) : (setXreg s c r v).clu.vreg = s.clu.vreg := rfl
@[simp] theorem setXreg_clu_sreg (s : State) (c r : Nat) (v : BitVec 64) : (setXreg s c r v).clu.sreg = s.clu.sreg := rfl
@[simp] theorem setXreg_clu_preg (s : State) (c r : Nat) (v : BitVec 64) : (setXreg s c r v).clu.preg = s.clu.preg := rfl
@[simp] theorem setXreg_clu_tile (s : State) (c r : Nat) (v : BitVec 64) : (setXreg s c r v).clu.tile = s.clu.tile := rfl
@[simp] theorem setXreg_clu_run (s : State) (c r : Nat) (v : BitVec 64) : (setXreg s c r v).clu.run = s.clu.run := rfl
@[simp] theorem setXreg_clu_lc (s : State) (c r : Nat) (v : BitVec 64) : (setXreg s c r v).clu.lc = s.clu.lc := rfl
@[simp] theorem setXreg_clu_peg (s : State) (c r : Nat) (v : BitVec 64) : (setXreg s c r v).clu.peg = s.clu.peg := rfl
@[simp] theorem setXreg_clu_pegCmp (s : State) (c r : Nat) (v : BitVec 64) : (setXreg s c r v).clu.pegCmp = s.clu.pegCmp := rfl
@[simp] theorem setXreg_clu_store (s : State) (c r : Nat) (v : BitVec 64) : (setXreg s c r v).clu.store = s.clu.store := rfl
@[simp] theorem setXreg_clu_wbuf (s : State) (c r : Nat) (v : BitVec 64) : (setXreg s c r v).clu.wbuf = s.clu.wbuf := rfl
@[simp] theorem setXreg_clu_bent (s : State) (c r : Nat) (v : BitVec 64) : (setXreg s c r v).clu.bent = s.clu.bent := rfl
@[simp] theorem setXreg_clu_tag (s : State) (c r : Nat) (v : BitVec 64) : (setXreg s c r v).clu.tag = s.clu.tag := rfl
@[simp] theorem setXreg_clu_seq (s : State) (c r : Nat) (v : BitVec 64) : (setXreg s c r v).clu.seq = s.clu.seq := rfl
@[simp] theorem setXreg_clu_busy (s : State) (c r : Nat) (v : BitVec 64) : (setXreg s c r v).clu.busy = s.clu.busy := rfl
@[simp] theorem setXreg_clu_tables (s : State) (c r : Nat) (v : BitVec 64) : (setXreg s c r v).clu.tables = s.clu.tables := rfl

/-! ### setTile -/

@[simp] theorem setTile_pending (s : State) (c t : Nat) (v : BitVec 131072) : (setTile s c t v).pending = s.pending := rfl
@[simp] theorem setTile_regs (s : State) (c t : Nat) (v : BitVec 131072) : (setTile s c t v).regs = s.regs := rfl
@[simp] theorem setTile_latch (s : State) (c t : Nat) (v : BitVec 131072) : (setTile s c t v).latch = s.latch := rfl
@[simp] theorem setTile_vlt (s : State) (c t : Nat) (v : BitVec 131072) : (setTile s c t v).vlt = s.vlt := rfl
@[simp] theorem setTile_edge (s : State) (c t : Nat) (v : BitVec 131072) : (setTile s c t v).edge = s.edge := rfl
@[simp] theorem setTile_link (s : State) (c t : Nat) (v : BitVec 131072) : (setTile s c t v).link = s.link := rfl
@[simp] theorem setTile_loose (s : State) (c t : Nat) (v : BitVec 131072) : (setTile s c t v).loose = s.loose := rfl
@[simp] theorem setTile_opn (s : State) (c t : Nat) (v : BitVec 131072) : (setTile s c t v).opn = s.opn := rfl
@[simp] theorem setTile_time (s : State) (c t : Nat) (v : BitVec 131072) : (setTile s c t v).time = s.time := rfl
@[simp] theorem setTile_rai (s : State) (c t : Nat) (v : BitVec 131072) : (setTile s c t v).rai = s.rai := rfl
@[simp] theorem setTile_ses (s : State) (c t : Nat) (v : BitVec 131072) : (setTile s c t v).ses = s.ses := rfl
@[simp] theorem setTile_sec (s : State) (c t : Nat) (v : BitVec 131072) : (setTile s c t v).sec = s.sec := rfl
@[simp] theorem setTile_pwr (s : State) (c t : Nat) (v : BitVec 131072) : (setTile s c t v).pwr = s.pwr := rfl
@[simp] theorem setTile_nrg (s : State) (c t : Nat) (v : BitVec 131072) : (setTile s c t v).nrg = s.nrg := rfl
@[simp] theorem setTile_brd (s : State) (c t : Nat) (v : BitVec 131072) : (setTile s c t v).brd = s.brd := rfl
@[simp] theorem setTile_out (s : State) (c t : Nat) (v : BitVec 131072) : (setTile s c t v).out = s.out := rfl
@[simp] theorem setTile_free (s : State) (c t : Nat) (v : BitVec 131072) : (setTile s c t v).free = s.free := rfl
@[simp] theorem setTile_clu_cyc (s : State) (c t : Nat) (v : BitVec 131072) : (setTile s c t v).clu.cyc = s.clu.cyc := rfl
@[simp] theorem setTile_clu_tickCyc (s : State) (c t : Nat) (v : BitVec 131072) : (setTile s c t v).clu.tickCyc = s.clu.tickCyc := rfl
@[simp] theorem setTile_clu_pipe (s : State) (c t : Nat) (v : BitVec 131072) : (setTile s c t v).clu.pipe = s.clu.pipe := rfl
@[simp] theorem setTile_clu_lanes (s : State) (c t : Nat) (v : BitVec 131072) : (setTile s c t v).clu.lanes = s.clu.lanes := rfl
@[simp] theorem setTile_clu_vreg (s : State) (c t : Nat) (v : BitVec 131072) : (setTile s c t v).clu.vreg = s.clu.vreg := rfl
@[simp] theorem setTile_clu_sreg (s : State) (c t : Nat) (v : BitVec 131072) : (setTile s c t v).clu.sreg = s.clu.sreg := rfl
@[simp] theorem setTile_clu_preg (s : State) (c t : Nat) (v : BitVec 131072) : (setTile s c t v).clu.preg = s.clu.preg := rfl
@[simp] theorem setTile_clu_xreg (s : State) (c t : Nat) (v : BitVec 131072) : (setTile s c t v).clu.xreg = s.clu.xreg := rfl
@[simp] theorem setTile_clu_run (s : State) (c t : Nat) (v : BitVec 131072) : (setTile s c t v).clu.run = s.clu.run := rfl
@[simp] theorem setTile_clu_lc (s : State) (c t : Nat) (v : BitVec 131072) : (setTile s c t v).clu.lc = s.clu.lc := rfl
@[simp] theorem setTile_clu_peg (s : State) (c t : Nat) (v : BitVec 131072) : (setTile s c t v).clu.peg = s.clu.peg := rfl
@[simp] theorem setTile_clu_pegCmp (s : State) (c t : Nat) (v : BitVec 131072) : (setTile s c t v).clu.pegCmp = s.clu.pegCmp := rfl
@[simp] theorem setTile_clu_store (s : State) (c t : Nat) (v : BitVec 131072) : (setTile s c t v).clu.store = s.clu.store := rfl
@[simp] theorem setTile_clu_wbuf (s : State) (c t : Nat) (v : BitVec 131072) : (setTile s c t v).clu.wbuf = s.clu.wbuf := rfl
@[simp] theorem setTile_clu_bent (s : State) (c t : Nat) (v : BitVec 131072) : (setTile s c t v).clu.bent = s.clu.bent := rfl
@[simp] theorem setTile_clu_tag (s : State) (c t : Nat) (v : BitVec 131072) : (setTile s c t v).clu.tag = s.clu.tag := rfl
@[simp] theorem setTile_clu_seq (s : State) (c t : Nat) (v : BitVec 131072) : (setTile s c t v).clu.seq = s.clu.seq := rfl
@[simp] theorem setTile_clu_busy (s : State) (c t : Nat) (v : BitVec 131072) : (setTile s c t v).clu.busy = s.clu.busy := rfl
@[simp] theorem setTile_clu_tables (s : State) (c t : Nat) (v : BitVec 131072) : (setTile s c t v).clu.tables = s.clu.tables := rfl

/-! ### setRun -/

@[simp] theorem setRun_pending (s : State) (c t : Nat) (r : Run) : (setRun s c t r).pending = s.pending := rfl
@[simp] theorem setRun_regs (s : State) (c t : Nat) (r : Run) : (setRun s c t r).regs = s.regs := rfl
@[simp] theorem setRun_latch (s : State) (c t : Nat) (r : Run) : (setRun s c t r).latch = s.latch := rfl
@[simp] theorem setRun_vlt (s : State) (c t : Nat) (r : Run) : (setRun s c t r).vlt = s.vlt := rfl
@[simp] theorem setRun_edge (s : State) (c t : Nat) (r : Run) : (setRun s c t r).edge = s.edge := rfl
@[simp] theorem setRun_link (s : State) (c t : Nat) (r : Run) : (setRun s c t r).link = s.link := rfl
@[simp] theorem setRun_loose (s : State) (c t : Nat) (r : Run) : (setRun s c t r).loose = s.loose := rfl
@[simp] theorem setRun_opn (s : State) (c t : Nat) (r : Run) : (setRun s c t r).opn = s.opn := rfl
@[simp] theorem setRun_time (s : State) (c t : Nat) (r : Run) : (setRun s c t r).time = s.time := rfl
@[simp] theorem setRun_rai (s : State) (c t : Nat) (r : Run) : (setRun s c t r).rai = s.rai := rfl
@[simp] theorem setRun_ses (s : State) (c t : Nat) (r : Run) : (setRun s c t r).ses = s.ses := rfl
@[simp] theorem setRun_sec (s : State) (c t : Nat) (r : Run) : (setRun s c t r).sec = s.sec := rfl
@[simp] theorem setRun_pwr (s : State) (c t : Nat) (r : Run) : (setRun s c t r).pwr = s.pwr := rfl
@[simp] theorem setRun_nrg (s : State) (c t : Nat) (r : Run) : (setRun s c t r).nrg = s.nrg := rfl
@[simp] theorem setRun_brd (s : State) (c t : Nat) (r : Run) : (setRun s c t r).brd = s.brd := rfl
@[simp] theorem setRun_out (s : State) (c t : Nat) (r : Run) : (setRun s c t r).out = s.out := rfl
@[simp] theorem setRun_free (s : State) (c t : Nat) (r : Run) : (setRun s c t r).free = s.free := rfl
@[simp] theorem setRun_clu_cyc (s : State) (c t : Nat) (r : Run) : (setRun s c t r).clu.cyc = s.clu.cyc := rfl
@[simp] theorem setRun_clu_tickCyc (s : State) (c t : Nat) (r : Run) : (setRun s c t r).clu.tickCyc = s.clu.tickCyc := rfl
@[simp] theorem setRun_clu_pipe (s : State) (c t : Nat) (r : Run) : (setRun s c t r).clu.pipe = s.clu.pipe := rfl
@[simp] theorem setRun_clu_lanes (s : State) (c t : Nat) (r : Run) : (setRun s c t r).clu.lanes = s.clu.lanes := rfl
@[simp] theorem setRun_clu_vreg (s : State) (c t : Nat) (r : Run) : (setRun s c t r).clu.vreg = s.clu.vreg := rfl
@[simp] theorem setRun_clu_sreg (s : State) (c t : Nat) (r : Run) : (setRun s c t r).clu.sreg = s.clu.sreg := rfl
@[simp] theorem setRun_clu_preg (s : State) (c t : Nat) (r : Run) : (setRun s c t r).clu.preg = s.clu.preg := rfl
@[simp] theorem setRun_clu_xreg (s : State) (c t : Nat) (r : Run) : (setRun s c t r).clu.xreg = s.clu.xreg := rfl
@[simp] theorem setRun_clu_tile (s : State) (c t : Nat) (r : Run) : (setRun s c t r).clu.tile = s.clu.tile := rfl
@[simp] theorem setRun_clu_lc (s : State) (c t : Nat) (r : Run) : (setRun s c t r).clu.lc = s.clu.lc := rfl
@[simp] theorem setRun_clu_peg (s : State) (c t : Nat) (r : Run) : (setRun s c t r).clu.peg = s.clu.peg := rfl
@[simp] theorem setRun_clu_pegCmp (s : State) (c t : Nat) (r : Run) : (setRun s c t r).clu.pegCmp = s.clu.pegCmp := rfl
@[simp] theorem setRun_clu_store (s : State) (c t : Nat) (r : Run) : (setRun s c t r).clu.store = s.clu.store := rfl
@[simp] theorem setRun_clu_wbuf (s : State) (c t : Nat) (r : Run) : (setRun s c t r).clu.wbuf = s.clu.wbuf := rfl
@[simp] theorem setRun_clu_bent (s : State) (c t : Nat) (r : Run) : (setRun s c t r).clu.bent = s.clu.bent := rfl
@[simp] theorem setRun_clu_tag (s : State) (c t : Nat) (r : Run) : (setRun s c t r).clu.tag = s.clu.tag := rfl
@[simp] theorem setRun_clu_seq (s : State) (c t : Nat) (r : Run) : (setRun s c t r).clu.seq = s.clu.seq := rfl
@[simp] theorem setRun_clu_busy (s : State) (c t : Nat) (r : Run) : (setRun s c t r).clu.busy = s.clu.busy := rfl
@[simp] theorem setRun_clu_tables (s : State) (c t : Nat) (r : Run) : (setRun s c t r).clu.tables = s.clu.tables := rfl

/-! ### setLc -/

@[simp] theorem setLc_pending (s : State) (c k : Nat) (v : BitVec 16) : (setLc s c k v).pending = s.pending := rfl
@[simp] theorem setLc_regs (s : State) (c k : Nat) (v : BitVec 16) : (setLc s c k v).regs = s.regs := rfl
@[simp] theorem setLc_latch (s : State) (c k : Nat) (v : BitVec 16) : (setLc s c k v).latch = s.latch := rfl
@[simp] theorem setLc_vlt (s : State) (c k : Nat) (v : BitVec 16) : (setLc s c k v).vlt = s.vlt := rfl
@[simp] theorem setLc_edge (s : State) (c k : Nat) (v : BitVec 16) : (setLc s c k v).edge = s.edge := rfl
@[simp] theorem setLc_link (s : State) (c k : Nat) (v : BitVec 16) : (setLc s c k v).link = s.link := rfl
@[simp] theorem setLc_loose (s : State) (c k : Nat) (v : BitVec 16) : (setLc s c k v).loose = s.loose := rfl
@[simp] theorem setLc_opn (s : State) (c k : Nat) (v : BitVec 16) : (setLc s c k v).opn = s.opn := rfl
@[simp] theorem setLc_time (s : State) (c k : Nat) (v : BitVec 16) : (setLc s c k v).time = s.time := rfl
@[simp] theorem setLc_rai (s : State) (c k : Nat) (v : BitVec 16) : (setLc s c k v).rai = s.rai := rfl
@[simp] theorem setLc_ses (s : State) (c k : Nat) (v : BitVec 16) : (setLc s c k v).ses = s.ses := rfl
@[simp] theorem setLc_sec (s : State) (c k : Nat) (v : BitVec 16) : (setLc s c k v).sec = s.sec := rfl
@[simp] theorem setLc_pwr (s : State) (c k : Nat) (v : BitVec 16) : (setLc s c k v).pwr = s.pwr := rfl
@[simp] theorem setLc_nrg (s : State) (c k : Nat) (v : BitVec 16) : (setLc s c k v).nrg = s.nrg := rfl
@[simp] theorem setLc_brd (s : State) (c k : Nat) (v : BitVec 16) : (setLc s c k v).brd = s.brd := rfl
@[simp] theorem setLc_out (s : State) (c k : Nat) (v : BitVec 16) : (setLc s c k v).out = s.out := rfl
@[simp] theorem setLc_free (s : State) (c k : Nat) (v : BitVec 16) : (setLc s c k v).free = s.free := rfl
@[simp] theorem setLc_clu_cyc (s : State) (c k : Nat) (v : BitVec 16) : (setLc s c k v).clu.cyc = s.clu.cyc := rfl
@[simp] theorem setLc_clu_tickCyc (s : State) (c k : Nat) (v : BitVec 16) : (setLc s c k v).clu.tickCyc = s.clu.tickCyc := rfl
@[simp] theorem setLc_clu_pipe (s : State) (c k : Nat) (v : BitVec 16) : (setLc s c k v).clu.pipe = s.clu.pipe := rfl
@[simp] theorem setLc_clu_lanes (s : State) (c k : Nat) (v : BitVec 16) : (setLc s c k v).clu.lanes = s.clu.lanes := rfl
@[simp] theorem setLc_clu_vreg (s : State) (c k : Nat) (v : BitVec 16) : (setLc s c k v).clu.vreg = s.clu.vreg := rfl
@[simp] theorem setLc_clu_sreg (s : State) (c k : Nat) (v : BitVec 16) : (setLc s c k v).clu.sreg = s.clu.sreg := rfl
@[simp] theorem setLc_clu_preg (s : State) (c k : Nat) (v : BitVec 16) : (setLc s c k v).clu.preg = s.clu.preg := rfl
@[simp] theorem setLc_clu_xreg (s : State) (c k : Nat) (v : BitVec 16) : (setLc s c k v).clu.xreg = s.clu.xreg := rfl
@[simp] theorem setLc_clu_tile (s : State) (c k : Nat) (v : BitVec 16) : (setLc s c k v).clu.tile = s.clu.tile := rfl
@[simp] theorem setLc_clu_run (s : State) (c k : Nat) (v : BitVec 16) : (setLc s c k v).clu.run = s.clu.run := rfl
@[simp] theorem setLc_clu_peg (s : State) (c k : Nat) (v : BitVec 16) : (setLc s c k v).clu.peg = s.clu.peg := rfl
@[simp] theorem setLc_clu_pegCmp (s : State) (c k : Nat) (v : BitVec 16) : (setLc s c k v).clu.pegCmp = s.clu.pegCmp := rfl
@[simp] theorem setLc_clu_store (s : State) (c k : Nat) (v : BitVec 16) : (setLc s c k v).clu.store = s.clu.store := rfl
@[simp] theorem setLc_clu_wbuf (s : State) (c k : Nat) (v : BitVec 16) : (setLc s c k v).clu.wbuf = s.clu.wbuf := rfl
@[simp] theorem setLc_clu_bent (s : State) (c k : Nat) (v : BitVec 16) : (setLc s c k v).clu.bent = s.clu.bent := rfl
@[simp] theorem setLc_clu_tag (s : State) (c k : Nat) (v : BitVec 16) : (setLc s c k v).clu.tag = s.clu.tag := rfl
@[simp] theorem setLc_clu_seq (s : State) (c k : Nat) (v : BitVec 16) : (setLc s c k v).clu.seq = s.clu.seq := rfl
@[simp] theorem setLc_clu_busy (s : State) (c k : Nat) (v : BitVec 16) : (setLc s c k v).clu.busy = s.clu.busy := rfl
@[simp] theorem setLc_clu_tables (s : State) (c k : Nat) (v : BitVec 16) : (setLc s c k v).clu.tables = s.clu.tables := rfl

/-! ### setPeg -/

@[simp] theorem setPeg_pending (s : State) (c g : Nat) (v : BitVec 32) : (setPeg s c g v).pending = s.pending := rfl
@[simp] theorem setPeg_regs (s : State) (c g : Nat) (v : BitVec 32) : (setPeg s c g v).regs = s.regs := rfl
@[simp] theorem setPeg_latch (s : State) (c g : Nat) (v : BitVec 32) : (setPeg s c g v).latch = s.latch := rfl
@[simp] theorem setPeg_vlt (s : State) (c g : Nat) (v : BitVec 32) : (setPeg s c g v).vlt = s.vlt := rfl
@[simp] theorem setPeg_edge (s : State) (c g : Nat) (v : BitVec 32) : (setPeg s c g v).edge = s.edge := rfl
@[simp] theorem setPeg_link (s : State) (c g : Nat) (v : BitVec 32) : (setPeg s c g v).link = s.link := rfl
@[simp] theorem setPeg_loose (s : State) (c g : Nat) (v : BitVec 32) : (setPeg s c g v).loose = s.loose := rfl
@[simp] theorem setPeg_opn (s : State) (c g : Nat) (v : BitVec 32) : (setPeg s c g v).opn = s.opn := rfl
@[simp] theorem setPeg_time (s : State) (c g : Nat) (v : BitVec 32) : (setPeg s c g v).time = s.time := rfl
@[simp] theorem setPeg_rai (s : State) (c g : Nat) (v : BitVec 32) : (setPeg s c g v).rai = s.rai := rfl
@[simp] theorem setPeg_ses (s : State) (c g : Nat) (v : BitVec 32) : (setPeg s c g v).ses = s.ses := rfl
@[simp] theorem setPeg_sec (s : State) (c g : Nat) (v : BitVec 32) : (setPeg s c g v).sec = s.sec := rfl
@[simp] theorem setPeg_pwr (s : State) (c g : Nat) (v : BitVec 32) : (setPeg s c g v).pwr = s.pwr := rfl
@[simp] theorem setPeg_nrg (s : State) (c g : Nat) (v : BitVec 32) : (setPeg s c g v).nrg = s.nrg := rfl
@[simp] theorem setPeg_brd (s : State) (c g : Nat) (v : BitVec 32) : (setPeg s c g v).brd = s.brd := rfl
@[simp] theorem setPeg_out (s : State) (c g : Nat) (v : BitVec 32) : (setPeg s c g v).out = s.out := rfl
@[simp] theorem setPeg_free (s : State) (c g : Nat) (v : BitVec 32) : (setPeg s c g v).free = s.free := rfl
@[simp] theorem setPeg_clu_cyc (s : State) (c g : Nat) (v : BitVec 32) : (setPeg s c g v).clu.cyc = s.clu.cyc := rfl
@[simp] theorem setPeg_clu_tickCyc (s : State) (c g : Nat) (v : BitVec 32) : (setPeg s c g v).clu.tickCyc = s.clu.tickCyc := rfl
@[simp] theorem setPeg_clu_pipe (s : State) (c g : Nat) (v : BitVec 32) : (setPeg s c g v).clu.pipe = s.clu.pipe := rfl
@[simp] theorem setPeg_clu_lanes (s : State) (c g : Nat) (v : BitVec 32) : (setPeg s c g v).clu.lanes = s.clu.lanes := rfl
@[simp] theorem setPeg_clu_vreg (s : State) (c g : Nat) (v : BitVec 32) : (setPeg s c g v).clu.vreg = s.clu.vreg := rfl
@[simp] theorem setPeg_clu_sreg (s : State) (c g : Nat) (v : BitVec 32) : (setPeg s c g v).clu.sreg = s.clu.sreg := rfl
@[simp] theorem setPeg_clu_preg (s : State) (c g : Nat) (v : BitVec 32) : (setPeg s c g v).clu.preg = s.clu.preg := rfl
@[simp] theorem setPeg_clu_xreg (s : State) (c g : Nat) (v : BitVec 32) : (setPeg s c g v).clu.xreg = s.clu.xreg := rfl
@[simp] theorem setPeg_clu_tile (s : State) (c g : Nat) (v : BitVec 32) : (setPeg s c g v).clu.tile = s.clu.tile := rfl
@[simp] theorem setPeg_clu_run (s : State) (c g : Nat) (v : BitVec 32) : (setPeg s c g v).clu.run = s.clu.run := rfl
@[simp] theorem setPeg_clu_lc (s : State) (c g : Nat) (v : BitVec 32) : (setPeg s c g v).clu.lc = s.clu.lc := rfl
@[simp] theorem setPeg_clu_pegCmp (s : State) (c g : Nat) (v : BitVec 32) : (setPeg s c g v).clu.pegCmp = s.clu.pegCmp := rfl
@[simp] theorem setPeg_clu_store (s : State) (c g : Nat) (v : BitVec 32) : (setPeg s c g v).clu.store = s.clu.store := rfl
@[simp] theorem setPeg_clu_wbuf (s : State) (c g : Nat) (v : BitVec 32) : (setPeg s c g v).clu.wbuf = s.clu.wbuf := rfl
@[simp] theorem setPeg_clu_bent (s : State) (c g : Nat) (v : BitVec 32) : (setPeg s c g v).clu.bent = s.clu.bent := rfl
@[simp] theorem setPeg_clu_tag (s : State) (c g : Nat) (v : BitVec 32) : (setPeg s c g v).clu.tag = s.clu.tag := rfl
@[simp] theorem setPeg_clu_seq (s : State) (c g : Nat) (v : BitVec 32) : (setPeg s c g v).clu.seq = s.clu.seq := rfl
@[simp] theorem setPeg_clu_busy (s : State) (c g : Nat) (v : BitVec 32) : (setPeg s c g v).clu.busy = s.clu.busy := rfl
@[simp] theorem setPeg_clu_tables (s : State) (c g : Nat) (v : BitVec 32) : (setPeg s c g v).clu.tables = s.clu.tables := rfl

/-! ### setPegCmp -/

@[simp] theorem setPegCmp_pending (s : State) (c g : Nat) (v : BitVec 32) : (setPegCmp s c g v).pending = s.pending := rfl
@[simp] theorem setPegCmp_regs (s : State) (c g : Nat) (v : BitVec 32) : (setPegCmp s c g v).regs = s.regs := rfl
@[simp] theorem setPegCmp_latch (s : State) (c g : Nat) (v : BitVec 32) : (setPegCmp s c g v).latch = s.latch := rfl
@[simp] theorem setPegCmp_vlt (s : State) (c g : Nat) (v : BitVec 32) : (setPegCmp s c g v).vlt = s.vlt := rfl
@[simp] theorem setPegCmp_edge (s : State) (c g : Nat) (v : BitVec 32) : (setPegCmp s c g v).edge = s.edge := rfl
@[simp] theorem setPegCmp_link (s : State) (c g : Nat) (v : BitVec 32) : (setPegCmp s c g v).link = s.link := rfl
@[simp] theorem setPegCmp_loose (s : State) (c g : Nat) (v : BitVec 32) : (setPegCmp s c g v).loose = s.loose := rfl
@[simp] theorem setPegCmp_opn (s : State) (c g : Nat) (v : BitVec 32) : (setPegCmp s c g v).opn = s.opn := rfl
@[simp] theorem setPegCmp_time (s : State) (c g : Nat) (v : BitVec 32) : (setPegCmp s c g v).time = s.time := rfl
@[simp] theorem setPegCmp_rai (s : State) (c g : Nat) (v : BitVec 32) : (setPegCmp s c g v).rai = s.rai := rfl
@[simp] theorem setPegCmp_ses (s : State) (c g : Nat) (v : BitVec 32) : (setPegCmp s c g v).ses = s.ses := rfl
@[simp] theorem setPegCmp_sec (s : State) (c g : Nat) (v : BitVec 32) : (setPegCmp s c g v).sec = s.sec := rfl
@[simp] theorem setPegCmp_pwr (s : State) (c g : Nat) (v : BitVec 32) : (setPegCmp s c g v).pwr = s.pwr := rfl
@[simp] theorem setPegCmp_nrg (s : State) (c g : Nat) (v : BitVec 32) : (setPegCmp s c g v).nrg = s.nrg := rfl
@[simp] theorem setPegCmp_brd (s : State) (c g : Nat) (v : BitVec 32) : (setPegCmp s c g v).brd = s.brd := rfl
@[simp] theorem setPegCmp_out (s : State) (c g : Nat) (v : BitVec 32) : (setPegCmp s c g v).out = s.out := rfl
@[simp] theorem setPegCmp_free (s : State) (c g : Nat) (v : BitVec 32) : (setPegCmp s c g v).free = s.free := rfl
@[simp] theorem setPegCmp_clu_cyc (s : State) (c g : Nat) (v : BitVec 32) : (setPegCmp s c g v).clu.cyc = s.clu.cyc := rfl
@[simp] theorem setPegCmp_clu_tickCyc (s : State) (c g : Nat) (v : BitVec 32) : (setPegCmp s c g v).clu.tickCyc = s.clu.tickCyc := rfl
@[simp] theorem setPegCmp_clu_pipe (s : State) (c g : Nat) (v : BitVec 32) : (setPegCmp s c g v).clu.pipe = s.clu.pipe := rfl
@[simp] theorem setPegCmp_clu_lanes (s : State) (c g : Nat) (v : BitVec 32) : (setPegCmp s c g v).clu.lanes = s.clu.lanes := rfl
@[simp] theorem setPegCmp_clu_vreg (s : State) (c g : Nat) (v : BitVec 32) : (setPegCmp s c g v).clu.vreg = s.clu.vreg := rfl
@[simp] theorem setPegCmp_clu_sreg (s : State) (c g : Nat) (v : BitVec 32) : (setPegCmp s c g v).clu.sreg = s.clu.sreg := rfl
@[simp] theorem setPegCmp_clu_preg (s : State) (c g : Nat) (v : BitVec 32) : (setPegCmp s c g v).clu.preg = s.clu.preg := rfl
@[simp] theorem setPegCmp_clu_xreg (s : State) (c g : Nat) (v : BitVec 32) : (setPegCmp s c g v).clu.xreg = s.clu.xreg := rfl
@[simp] theorem setPegCmp_clu_tile (s : State) (c g : Nat) (v : BitVec 32) : (setPegCmp s c g v).clu.tile = s.clu.tile := rfl
@[simp] theorem setPegCmp_clu_run (s : State) (c g : Nat) (v : BitVec 32) : (setPegCmp s c g v).clu.run = s.clu.run := rfl
@[simp] theorem setPegCmp_clu_lc (s : State) (c g : Nat) (v : BitVec 32) : (setPegCmp s c g v).clu.lc = s.clu.lc := rfl
@[simp] theorem setPegCmp_clu_peg (s : State) (c g : Nat) (v : BitVec 32) : (setPegCmp s c g v).clu.peg = s.clu.peg := rfl
@[simp] theorem setPegCmp_clu_store (s : State) (c g : Nat) (v : BitVec 32) : (setPegCmp s c g v).clu.store = s.clu.store := rfl
@[simp] theorem setPegCmp_clu_wbuf (s : State) (c g : Nat) (v : BitVec 32) : (setPegCmp s c g v).clu.wbuf = s.clu.wbuf := rfl
@[simp] theorem setPegCmp_clu_bent (s : State) (c g : Nat) (v : BitVec 32) : (setPegCmp s c g v).clu.bent = s.clu.bent := rfl
@[simp] theorem setPegCmp_clu_tag (s : State) (c g : Nat) (v : BitVec 32) : (setPegCmp s c g v).clu.tag = s.clu.tag := rfl
@[simp] theorem setPegCmp_clu_seq (s : State) (c g : Nat) (v : BitVec 32) : (setPegCmp s c g v).clu.seq = s.clu.seq := rfl
@[simp] theorem setPegCmp_clu_busy (s : State) (c g : Nat) (v : BitVec 32) : (setPegCmp s c g v).clu.busy = s.clu.busy := rfl
@[simp] theorem setPegCmp_clu_tables (s : State) (c g : Nat) (v : BitVec 32) : (setPegCmp s c g v).clu.tables = s.clu.tables := rfl

/-! ### setStore -/

@[simp] theorem setStore_pending (s : State) (c a n x : Nat) : (setStore s c a n x).pending = s.pending := rfl
@[simp] theorem setStore_regs (s : State) (c a n x : Nat) : (setStore s c a n x).regs = s.regs := rfl
@[simp] theorem setStore_latch (s : State) (c a n x : Nat) : (setStore s c a n x).latch = s.latch := rfl
@[simp] theorem setStore_vlt (s : State) (c a n x : Nat) : (setStore s c a n x).vlt = s.vlt := rfl
@[simp] theorem setStore_edge (s : State) (c a n x : Nat) : (setStore s c a n x).edge = s.edge := rfl
@[simp] theorem setStore_link (s : State) (c a n x : Nat) : (setStore s c a n x).link = s.link := rfl
@[simp] theorem setStore_loose (s : State) (c a n x : Nat) : (setStore s c a n x).loose = s.loose := rfl
@[simp] theorem setStore_opn (s : State) (c a n x : Nat) : (setStore s c a n x).opn = s.opn := rfl
@[simp] theorem setStore_time (s : State) (c a n x : Nat) : (setStore s c a n x).time = s.time := rfl
@[simp] theorem setStore_rai (s : State) (c a n x : Nat) : (setStore s c a n x).rai = s.rai := rfl
@[simp] theorem setStore_ses (s : State) (c a n x : Nat) : (setStore s c a n x).ses = s.ses := rfl
@[simp] theorem setStore_sec (s : State) (c a n x : Nat) : (setStore s c a n x).sec = s.sec := rfl
@[simp] theorem setStore_pwr (s : State) (c a n x : Nat) : (setStore s c a n x).pwr = s.pwr := rfl
@[simp] theorem setStore_nrg (s : State) (c a n x : Nat) : (setStore s c a n x).nrg = s.nrg := rfl
@[simp] theorem setStore_brd (s : State) (c a n x : Nat) : (setStore s c a n x).brd = s.brd := rfl
@[simp] theorem setStore_out (s : State) (c a n x : Nat) : (setStore s c a n x).out = s.out := rfl
@[simp] theorem setStore_free (s : State) (c a n x : Nat) : (setStore s c a n x).free = s.free := rfl
@[simp] theorem setStore_clu_cyc (s : State) (c a n x : Nat) : (setStore s c a n x).clu.cyc = s.clu.cyc := rfl
@[simp] theorem setStore_clu_tickCyc (s : State) (c a n x : Nat) : (setStore s c a n x).clu.tickCyc = s.clu.tickCyc := rfl
@[simp] theorem setStore_clu_pipe (s : State) (c a n x : Nat) : (setStore s c a n x).clu.pipe = s.clu.pipe := rfl
@[simp] theorem setStore_clu_lanes (s : State) (c a n x : Nat) : (setStore s c a n x).clu.lanes = s.clu.lanes := rfl
@[simp] theorem setStore_clu_vreg (s : State) (c a n x : Nat) : (setStore s c a n x).clu.vreg = s.clu.vreg := rfl
@[simp] theorem setStore_clu_sreg (s : State) (c a n x : Nat) : (setStore s c a n x).clu.sreg = s.clu.sreg := rfl
@[simp] theorem setStore_clu_preg (s : State) (c a n x : Nat) : (setStore s c a n x).clu.preg = s.clu.preg := rfl
@[simp] theorem setStore_clu_xreg (s : State) (c a n x : Nat) : (setStore s c a n x).clu.xreg = s.clu.xreg := rfl
@[simp] theorem setStore_clu_tile (s : State) (c a n x : Nat) : (setStore s c a n x).clu.tile = s.clu.tile := rfl
@[simp] theorem setStore_clu_run (s : State) (c a n x : Nat) : (setStore s c a n x).clu.run = s.clu.run := rfl
@[simp] theorem setStore_clu_lc (s : State) (c a n x : Nat) : (setStore s c a n x).clu.lc = s.clu.lc := rfl
@[simp] theorem setStore_clu_peg (s : State) (c a n x : Nat) : (setStore s c a n x).clu.peg = s.clu.peg := rfl
@[simp] theorem setStore_clu_pegCmp (s : State) (c a n x : Nat) : (setStore s c a n x).clu.pegCmp = s.clu.pegCmp := rfl
@[simp] theorem setStore_clu_wbuf (s : State) (c a n x : Nat) : (setStore s c a n x).clu.wbuf = s.clu.wbuf := rfl
@[simp] theorem setStore_clu_bent (s : State) (c a n x : Nat) : (setStore s c a n x).clu.bent = s.clu.bent := rfl
@[simp] theorem setStore_clu_tag (s : State) (c a n x : Nat) : (setStore s c a n x).clu.tag = s.clu.tag := rfl
@[simp] theorem setStore_clu_seq (s : State) (c a n x : Nat) : (setStore s c a n x).clu.seq = s.clu.seq := rfl
@[simp] theorem setStore_clu_busy (s : State) (c a n x : Nat) : (setStore s c a n x).clu.busy = s.clu.busy := rfl
@[simp] theorem setStore_clu_tables (s : State) (c a n x : Nat) : (setStore s c a n x).clu.tables = s.clu.tables := rfl

/-! ### setWbuf -/

@[simp] theorem setWbuf_pending (s : State) (c o n x : Nat) : (setWbuf s c o n x).pending = s.pending := rfl
@[simp] theorem setWbuf_regs (s : State) (c o n x : Nat) : (setWbuf s c o n x).regs = s.regs := rfl
@[simp] theorem setWbuf_latch (s : State) (c o n x : Nat) : (setWbuf s c o n x).latch = s.latch := rfl
@[simp] theorem setWbuf_vlt (s : State) (c o n x : Nat) : (setWbuf s c o n x).vlt = s.vlt := rfl
@[simp] theorem setWbuf_edge (s : State) (c o n x : Nat) : (setWbuf s c o n x).edge = s.edge := rfl
@[simp] theorem setWbuf_link (s : State) (c o n x : Nat) : (setWbuf s c o n x).link = s.link := rfl
@[simp] theorem setWbuf_loose (s : State) (c o n x : Nat) : (setWbuf s c o n x).loose = s.loose := rfl
@[simp] theorem setWbuf_opn (s : State) (c o n x : Nat) : (setWbuf s c o n x).opn = s.opn := rfl
@[simp] theorem setWbuf_time (s : State) (c o n x : Nat) : (setWbuf s c o n x).time = s.time := rfl
@[simp] theorem setWbuf_rai (s : State) (c o n x : Nat) : (setWbuf s c o n x).rai = s.rai := rfl
@[simp] theorem setWbuf_ses (s : State) (c o n x : Nat) : (setWbuf s c o n x).ses = s.ses := rfl
@[simp] theorem setWbuf_sec (s : State) (c o n x : Nat) : (setWbuf s c o n x).sec = s.sec := rfl
@[simp] theorem setWbuf_pwr (s : State) (c o n x : Nat) : (setWbuf s c o n x).pwr = s.pwr := rfl
@[simp] theorem setWbuf_nrg (s : State) (c o n x : Nat) : (setWbuf s c o n x).nrg = s.nrg := rfl
@[simp] theorem setWbuf_brd (s : State) (c o n x : Nat) : (setWbuf s c o n x).brd = s.brd := rfl
@[simp] theorem setWbuf_out (s : State) (c o n x : Nat) : (setWbuf s c o n x).out = s.out := rfl
@[simp] theorem setWbuf_free (s : State) (c o n x : Nat) : (setWbuf s c o n x).free = s.free := rfl
@[simp] theorem setWbuf_clu_cyc (s : State) (c o n x : Nat) : (setWbuf s c o n x).clu.cyc = s.clu.cyc := rfl
@[simp] theorem setWbuf_clu_tickCyc (s : State) (c o n x : Nat) : (setWbuf s c o n x).clu.tickCyc = s.clu.tickCyc := rfl
@[simp] theorem setWbuf_clu_pipe (s : State) (c o n x : Nat) : (setWbuf s c o n x).clu.pipe = s.clu.pipe := rfl
@[simp] theorem setWbuf_clu_lanes (s : State) (c o n x : Nat) : (setWbuf s c o n x).clu.lanes = s.clu.lanes := rfl
@[simp] theorem setWbuf_clu_vreg (s : State) (c o n x : Nat) : (setWbuf s c o n x).clu.vreg = s.clu.vreg := rfl
@[simp] theorem setWbuf_clu_sreg (s : State) (c o n x : Nat) : (setWbuf s c o n x).clu.sreg = s.clu.sreg := rfl
@[simp] theorem setWbuf_clu_preg (s : State) (c o n x : Nat) : (setWbuf s c o n x).clu.preg = s.clu.preg := rfl
@[simp] theorem setWbuf_clu_xreg (s : State) (c o n x : Nat) : (setWbuf s c o n x).clu.xreg = s.clu.xreg := rfl
@[simp] theorem setWbuf_clu_tile (s : State) (c o n x : Nat) : (setWbuf s c o n x).clu.tile = s.clu.tile := rfl
@[simp] theorem setWbuf_clu_run (s : State) (c o n x : Nat) : (setWbuf s c o n x).clu.run = s.clu.run := rfl
@[simp] theorem setWbuf_clu_lc (s : State) (c o n x : Nat) : (setWbuf s c o n x).clu.lc = s.clu.lc := rfl
@[simp] theorem setWbuf_clu_peg (s : State) (c o n x : Nat) : (setWbuf s c o n x).clu.peg = s.clu.peg := rfl
@[simp] theorem setWbuf_clu_pegCmp (s : State) (c o n x : Nat) : (setWbuf s c o n x).clu.pegCmp = s.clu.pegCmp := rfl
@[simp] theorem setWbuf_clu_store (s : State) (c o n x : Nat) : (setWbuf s c o n x).clu.store = s.clu.store := rfl
@[simp] theorem setWbuf_clu_bent (s : State) (c o n x : Nat) : (setWbuf s c o n x).clu.bent = s.clu.bent := rfl
@[simp] theorem setWbuf_clu_tag (s : State) (c o n x : Nat) : (setWbuf s c o n x).clu.tag = s.clu.tag := rfl
@[simp] theorem setWbuf_clu_seq (s : State) (c o n x : Nat) : (setWbuf s c o n x).clu.seq = s.clu.seq := rfl
@[simp] theorem setWbuf_clu_busy (s : State) (c o n x : Nat) : (setWbuf s c o n x).clu.busy = s.clu.busy := rfl
@[simp] theorem setWbuf_clu_tables (s : State) (c o n x : Nat) : (setWbuf s c o n x).clu.tables = s.clu.tables := rfl

/-! ### setBundle -/

@[simp] theorem setBundle_pending (s : State) (c h a : Nat) (v : BitVec 256) : (setBundle s c h a v).pending = s.pending := rfl
@[simp] theorem setBundle_regs (s : State) (c h a : Nat) (v : BitVec 256) : (setBundle s c h a v).regs = s.regs := rfl
@[simp] theorem setBundle_latch (s : State) (c h a : Nat) (v : BitVec 256) : (setBundle s c h a v).latch = s.latch := rfl
@[simp] theorem setBundle_vlt (s : State) (c h a : Nat) (v : BitVec 256) : (setBundle s c h a v).vlt = s.vlt := rfl
@[simp] theorem setBundle_edge (s : State) (c h a : Nat) (v : BitVec 256) : (setBundle s c h a v).edge = s.edge := rfl
@[simp] theorem setBundle_link (s : State) (c h a : Nat) (v : BitVec 256) : (setBundle s c h a v).link = s.link := rfl
@[simp] theorem setBundle_loose (s : State) (c h a : Nat) (v : BitVec 256) : (setBundle s c h a v).loose = s.loose := rfl
@[simp] theorem setBundle_opn (s : State) (c h a : Nat) (v : BitVec 256) : (setBundle s c h a v).opn = s.opn := rfl
@[simp] theorem setBundle_time (s : State) (c h a : Nat) (v : BitVec 256) : (setBundle s c h a v).time = s.time := rfl
@[simp] theorem setBundle_rai (s : State) (c h a : Nat) (v : BitVec 256) : (setBundle s c h a v).rai = s.rai := rfl
@[simp] theorem setBundle_ses (s : State) (c h a : Nat) (v : BitVec 256) : (setBundle s c h a v).ses = s.ses := rfl
@[simp] theorem setBundle_sec (s : State) (c h a : Nat) (v : BitVec 256) : (setBundle s c h a v).sec = s.sec := rfl
@[simp] theorem setBundle_pwr (s : State) (c h a : Nat) (v : BitVec 256) : (setBundle s c h a v).pwr = s.pwr := rfl
@[simp] theorem setBundle_nrg (s : State) (c h a : Nat) (v : BitVec 256) : (setBundle s c h a v).nrg = s.nrg := rfl
@[simp] theorem setBundle_brd (s : State) (c h a : Nat) (v : BitVec 256) : (setBundle s c h a v).brd = s.brd := rfl
@[simp] theorem setBundle_out (s : State) (c h a : Nat) (v : BitVec 256) : (setBundle s c h a v).out = s.out := rfl
@[simp] theorem setBundle_free (s : State) (c h a : Nat) (v : BitVec 256) : (setBundle s c h a v).free = s.free := rfl
@[simp] theorem setBundle_clu_cyc (s : State) (c h a : Nat) (v : BitVec 256) : (setBundle s c h a v).clu.cyc = s.clu.cyc := rfl
@[simp] theorem setBundle_clu_tickCyc (s : State) (c h a : Nat) (v : BitVec 256) : (setBundle s c h a v).clu.tickCyc = s.clu.tickCyc := rfl
@[simp] theorem setBundle_clu_pipe (s : State) (c h a : Nat) (v : BitVec 256) : (setBundle s c h a v).clu.pipe = s.clu.pipe := rfl
@[simp] theorem setBundle_clu_lanes (s : State) (c h a : Nat) (v : BitVec 256) : (setBundle s c h a v).clu.lanes = s.clu.lanes := rfl
@[simp] theorem setBundle_clu_vreg (s : State) (c h a : Nat) (v : BitVec 256) : (setBundle s c h a v).clu.vreg = s.clu.vreg := rfl
@[simp] theorem setBundle_clu_sreg (s : State) (c h a : Nat) (v : BitVec 256) : (setBundle s c h a v).clu.sreg = s.clu.sreg := rfl
@[simp] theorem setBundle_clu_preg (s : State) (c h a : Nat) (v : BitVec 256) : (setBundle s c h a v).clu.preg = s.clu.preg := rfl
@[simp] theorem setBundle_clu_xreg (s : State) (c h a : Nat) (v : BitVec 256) : (setBundle s c h a v).clu.xreg = s.clu.xreg := rfl
@[simp] theorem setBundle_clu_tile (s : State) (c h a : Nat) (v : BitVec 256) : (setBundle s c h a v).clu.tile = s.clu.tile := rfl
@[simp] theorem setBundle_clu_run (s : State) (c h a : Nat) (v : BitVec 256) : (setBundle s c h a v).clu.run = s.clu.run := rfl
@[simp] theorem setBundle_clu_lc (s : State) (c h a : Nat) (v : BitVec 256) : (setBundle s c h a v).clu.lc = s.clu.lc := rfl
@[simp] theorem setBundle_clu_peg (s : State) (c h a : Nat) (v : BitVec 256) : (setBundle s c h a v).clu.peg = s.clu.peg := rfl
@[simp] theorem setBundle_clu_pegCmp (s : State) (c h a : Nat) (v : BitVec 256) : (setBundle s c h a v).clu.pegCmp = s.clu.pegCmp := rfl
@[simp] theorem setBundle_clu_store (s : State) (c h a : Nat) (v : BitVec 256) : (setBundle s c h a v).clu.store = s.clu.store := rfl
@[simp] theorem setBundle_clu_wbuf (s : State) (c h a : Nat) (v : BitVec 256) : (setBundle s c h a v).clu.wbuf = s.clu.wbuf := rfl
@[simp] theorem setBundle_clu_tag (s : State) (c h a : Nat) (v : BitVec 256) : (setBundle s c h a v).clu.tag = s.clu.tag := rfl
@[simp] theorem setBundle_clu_seq (s : State) (c h a : Nat) (v : BitVec 256) : (setBundle s c h a v).clu.seq = s.clu.seq := rfl
@[simp] theorem setBundle_clu_busy (s : State) (c h a : Nat) (v : BitVec 256) : (setBundle s c h a v).clu.busy = s.clu.busy := rfl
@[simp] theorem setBundle_clu_tables (s : State) (c h a : Nat) (v : BitVec 256) : (setBundle s c h a v).clu.tables = s.clu.tables := rfl

/-! ### setTag -/

@[simp] theorem setTag_pending (s : State) (c h : Nat) (t : BentTag) : (setTag s c h t).pending = s.pending := rfl
@[simp] theorem setTag_regs (s : State) (c h : Nat) (t : BentTag) : (setTag s c h t).regs = s.regs := rfl
@[simp] theorem setTag_latch (s : State) (c h : Nat) (t : BentTag) : (setTag s c h t).latch = s.latch := rfl
@[simp] theorem setTag_vlt (s : State) (c h : Nat) (t : BentTag) : (setTag s c h t).vlt = s.vlt := rfl
@[simp] theorem setTag_edge (s : State) (c h : Nat) (t : BentTag) : (setTag s c h t).edge = s.edge := rfl
@[simp] theorem setTag_link (s : State) (c h : Nat) (t : BentTag) : (setTag s c h t).link = s.link := rfl
@[simp] theorem setTag_loose (s : State) (c h : Nat) (t : BentTag) : (setTag s c h t).loose = s.loose := rfl
@[simp] theorem setTag_opn (s : State) (c h : Nat) (t : BentTag) : (setTag s c h t).opn = s.opn := rfl
@[simp] theorem setTag_time (s : State) (c h : Nat) (t : BentTag) : (setTag s c h t).time = s.time := rfl
@[simp] theorem setTag_rai (s : State) (c h : Nat) (t : BentTag) : (setTag s c h t).rai = s.rai := rfl
@[simp] theorem setTag_ses (s : State) (c h : Nat) (t : BentTag) : (setTag s c h t).ses = s.ses := rfl
@[simp] theorem setTag_sec (s : State) (c h : Nat) (t : BentTag) : (setTag s c h t).sec = s.sec := rfl
@[simp] theorem setTag_pwr (s : State) (c h : Nat) (t : BentTag) : (setTag s c h t).pwr = s.pwr := rfl
@[simp] theorem setTag_nrg (s : State) (c h : Nat) (t : BentTag) : (setTag s c h t).nrg = s.nrg := rfl
@[simp] theorem setTag_brd (s : State) (c h : Nat) (t : BentTag) : (setTag s c h t).brd = s.brd := rfl
@[simp] theorem setTag_out (s : State) (c h : Nat) (t : BentTag) : (setTag s c h t).out = s.out := rfl
@[simp] theorem setTag_free (s : State) (c h : Nat) (t : BentTag) : (setTag s c h t).free = s.free := rfl
@[simp] theorem setTag_clu_cyc (s : State) (c h : Nat) (t : BentTag) : (setTag s c h t).clu.cyc = s.clu.cyc := rfl
@[simp] theorem setTag_clu_tickCyc (s : State) (c h : Nat) (t : BentTag) : (setTag s c h t).clu.tickCyc = s.clu.tickCyc := rfl
@[simp] theorem setTag_clu_pipe (s : State) (c h : Nat) (t : BentTag) : (setTag s c h t).clu.pipe = s.clu.pipe := rfl
@[simp] theorem setTag_clu_lanes (s : State) (c h : Nat) (t : BentTag) : (setTag s c h t).clu.lanes = s.clu.lanes := rfl
@[simp] theorem setTag_clu_vreg (s : State) (c h : Nat) (t : BentTag) : (setTag s c h t).clu.vreg = s.clu.vreg := rfl
@[simp] theorem setTag_clu_sreg (s : State) (c h : Nat) (t : BentTag) : (setTag s c h t).clu.sreg = s.clu.sreg := rfl
@[simp] theorem setTag_clu_preg (s : State) (c h : Nat) (t : BentTag) : (setTag s c h t).clu.preg = s.clu.preg := rfl
@[simp] theorem setTag_clu_xreg (s : State) (c h : Nat) (t : BentTag) : (setTag s c h t).clu.xreg = s.clu.xreg := rfl
@[simp] theorem setTag_clu_tile (s : State) (c h : Nat) (t : BentTag) : (setTag s c h t).clu.tile = s.clu.tile := rfl
@[simp] theorem setTag_clu_run (s : State) (c h : Nat) (t : BentTag) : (setTag s c h t).clu.run = s.clu.run := rfl
@[simp] theorem setTag_clu_lc (s : State) (c h : Nat) (t : BentTag) : (setTag s c h t).clu.lc = s.clu.lc := rfl
@[simp] theorem setTag_clu_peg (s : State) (c h : Nat) (t : BentTag) : (setTag s c h t).clu.peg = s.clu.peg := rfl
@[simp] theorem setTag_clu_pegCmp (s : State) (c h : Nat) (t : BentTag) : (setTag s c h t).clu.pegCmp = s.clu.pegCmp := rfl
@[simp] theorem setTag_clu_store (s : State) (c h : Nat) (t : BentTag) : (setTag s c h t).clu.store = s.clu.store := rfl
@[simp] theorem setTag_clu_wbuf (s : State) (c h : Nat) (t : BentTag) : (setTag s c h t).clu.wbuf = s.clu.wbuf := rfl
@[simp] theorem setTag_clu_bent (s : State) (c h : Nat) (t : BentTag) : (setTag s c h t).clu.bent = s.clu.bent := rfl
@[simp] theorem setTag_clu_seq (s : State) (c h : Nat) (t : BentTag) : (setTag s c h t).clu.seq = s.clu.seq := rfl
@[simp] theorem setTag_clu_busy (s : State) (c h : Nat) (t : BentTag) : (setTag s c h t).clu.busy = s.clu.busy := rfl
@[simp] theorem setTag_clu_tables (s : State) (c h : Nat) (t : BentTag) : (setTag s c h t).clu.tables = s.clu.tables := rfl

/-! ### pushEv -/

@[simp] theorem pushEv_pending (s : State) (e : Ev) : (pushEv s e).pending = s.pending := rfl
@[simp] theorem pushEv_regs (s : State) (e : Ev) : (pushEv s e).regs = s.regs := rfl
@[simp] theorem pushEv_latch (s : State) (e : Ev) : (pushEv s e).latch = s.latch := rfl
@[simp] theorem pushEv_vlt (s : State) (e : Ev) : (pushEv s e).vlt = s.vlt := rfl
@[simp] theorem pushEv_edge (s : State) (e : Ev) : (pushEv s e).edge = s.edge := rfl
@[simp] theorem pushEv_link (s : State) (e : Ev) : (pushEv s e).link = s.link := rfl
@[simp] theorem pushEv_loose (s : State) (e : Ev) : (pushEv s e).loose = s.loose := rfl
@[simp] theorem pushEv_opn (s : State) (e : Ev) : (pushEv s e).opn = s.opn := rfl
@[simp] theorem pushEv_time (s : State) (e : Ev) : (pushEv s e).time = s.time := rfl
@[simp] theorem pushEv_rai (s : State) (e : Ev) : (pushEv s e).rai = s.rai := rfl
@[simp] theorem pushEv_ses (s : State) (e : Ev) : (pushEv s e).ses = s.ses := rfl
@[simp] theorem pushEv_sec (s : State) (e : Ev) : (pushEv s e).sec = s.sec := rfl
@[simp] theorem pushEv_pwr (s : State) (e : Ev) : (pushEv s e).pwr = s.pwr := rfl
@[simp] theorem pushEv_nrg (s : State) (e : Ev) : (pushEv s e).nrg = s.nrg := rfl
@[simp] theorem pushEv_brd (s : State) (e : Ev) : (pushEv s e).brd = s.brd := rfl
@[simp] theorem pushEv_out (s : State) (e : Ev) : (pushEv s e).out = s.out := rfl
@[simp] theorem pushEv_free (s : State) (e : Ev) : (pushEv s e).free = s.free := rfl
@[simp] theorem pushEv_clu_cyc (s : State) (e : Ev) : (pushEv s e).clu.cyc = s.clu.cyc := rfl
@[simp] theorem pushEv_clu_tickCyc (s : State) (e : Ev) : (pushEv s e).clu.tickCyc = s.clu.tickCyc := rfl
@[simp] theorem pushEv_clu_lanes (s : State) (e : Ev) : (pushEv s e).clu.lanes = s.clu.lanes := rfl
@[simp] theorem pushEv_clu_vreg (s : State) (e : Ev) : (pushEv s e).clu.vreg = s.clu.vreg := rfl
@[simp] theorem pushEv_clu_sreg (s : State) (e : Ev) : (pushEv s e).clu.sreg = s.clu.sreg := rfl
@[simp] theorem pushEv_clu_preg (s : State) (e : Ev) : (pushEv s e).clu.preg = s.clu.preg := rfl
@[simp] theorem pushEv_clu_xreg (s : State) (e : Ev) : (pushEv s e).clu.xreg = s.clu.xreg := rfl
@[simp] theorem pushEv_clu_tile (s : State) (e : Ev) : (pushEv s e).clu.tile = s.clu.tile := rfl
@[simp] theorem pushEv_clu_run (s : State) (e : Ev) : (pushEv s e).clu.run = s.clu.run := rfl
@[simp] theorem pushEv_clu_lc (s : State) (e : Ev) : (pushEv s e).clu.lc = s.clu.lc := rfl
@[simp] theorem pushEv_clu_peg (s : State) (e : Ev) : (pushEv s e).clu.peg = s.clu.peg := rfl
@[simp] theorem pushEv_clu_pegCmp (s : State) (e : Ev) : (pushEv s e).clu.pegCmp = s.clu.pegCmp := rfl
@[simp] theorem pushEv_clu_store (s : State) (e : Ev) : (pushEv s e).clu.store = s.clu.store := rfl
@[simp] theorem pushEv_clu_wbuf (s : State) (e : Ev) : (pushEv s e).clu.wbuf = s.clu.wbuf := rfl
@[simp] theorem pushEv_clu_bent (s : State) (e : Ev) : (pushEv s e).clu.bent = s.clu.bent := rfl
@[simp] theorem pushEv_clu_tag (s : State) (e : Ev) : (pushEv s e).clu.tag = s.clu.tag := rfl
@[simp] theorem pushEv_clu_seq (s : State) (e : Ev) : (pushEv s e).clu.seq = s.clu.seq := rfl
@[simp] theorem pushEv_clu_busy (s : State) (e : Ev) : (pushEv s e).clu.busy = s.clu.busy := rfl
@[simp] theorem pushEv_clu_tables (s : State) (e : Ev) : (pushEv s e).clu.tables = s.clu.tables := rfl

/-! ### countEv -/

@[simp] theorem countEv_pending (s : State) (pg : Nat) (p : Option Nat) (k : EventKind) (n : Nat) : (countEv s pg p k n).pending = s.pending := by unfold countEv; split <;> rfl
@[simp] theorem countEv_regs (s : State) (pg : Nat) (p : Option Nat) (k : EventKind) (n : Nat) : (countEv s pg p k n).regs = s.regs := by unfold countEv; split <;> rfl
@[simp] theorem countEv_latch (s : State) (pg : Nat) (p : Option Nat) (k : EventKind) (n : Nat) : (countEv s pg p k n).latch = s.latch := by unfold countEv; split <;> rfl
@[simp] theorem countEv_clu (s : State) (pg : Nat) (p : Option Nat) (k : EventKind) (n : Nat) : (countEv s pg p k n).clu = s.clu := by unfold countEv; split <;> rfl
@[simp] theorem countEv_vlt (s : State) (pg : Nat) (p : Option Nat) (k : EventKind) (n : Nat) : (countEv s pg p k n).vlt = s.vlt := by unfold countEv; split <;> rfl
@[simp] theorem countEv_edge (s : State) (pg : Nat) (p : Option Nat) (k : EventKind) (n : Nat) : (countEv s pg p k n).edge = s.edge := by unfold countEv; split <;> rfl
@[simp] theorem countEv_link (s : State) (pg : Nat) (p : Option Nat) (k : EventKind) (n : Nat) : (countEv s pg p k n).link = s.link := by unfold countEv; split <;> rfl
@[simp] theorem countEv_loose (s : State) (pg : Nat) (p : Option Nat) (k : EventKind) (n : Nat) : (countEv s pg p k n).loose = s.loose := by unfold countEv; split <;> rfl
@[simp] theorem countEv_opn (s : State) (pg : Nat) (p : Option Nat) (k : EventKind) (n : Nat) : (countEv s pg p k n).opn = s.opn := by unfold countEv; split <;> rfl
@[simp] theorem countEv_time (s : State) (pg : Nat) (p : Option Nat) (k : EventKind) (n : Nat) : (countEv s pg p k n).time = s.time := by unfold countEv; split <;> rfl
@[simp] theorem countEv_rai (s : State) (pg : Nat) (p : Option Nat) (k : EventKind) (n : Nat) : (countEv s pg p k n).rai = s.rai := by unfold countEv; split <;> rfl
@[simp] theorem countEv_ses (s : State) (pg : Nat) (p : Option Nat) (k : EventKind) (n : Nat) : (countEv s pg p k n).ses = s.ses := by unfold countEv; split <;> rfl
@[simp] theorem countEv_sec (s : State) (pg : Nat) (p : Option Nat) (k : EventKind) (n : Nat) : (countEv s pg p k n).sec = s.sec := by unfold countEv; split <;> rfl
@[simp] theorem countEv_pwr (s : State) (pg : Nat) (p : Option Nat) (k : EventKind) (n : Nat) : (countEv s pg p k n).pwr = s.pwr := by unfold countEv; split <;> rfl
@[simp] theorem countEv_brd (s : State) (pg : Nat) (p : Option Nat) (k : EventKind) (n : Nat) : (countEv s pg p k n).brd = s.brd := by unfold countEv; split <;> rfl
@[simp] theorem countEv_out (s : State) (pg : Nat) (p : Option Nat) (k : EventKind) (n : Nat) : (countEv s pg p k n).out = s.out := by unfold countEv; split <;> rfl
@[simp] theorem countEv_free (s : State) (pg : Nat) (p : Option Nat) (k : EventKind) (n : Nat) : (countEv s pg p k n).free = s.free := by unfold countEv; split <;> rfl
@[simp] theorem countEv_nrg_frac (s : State) (pg : Nat) (p : Option Nat) (k : EventKind) (n : Nat) : (countEv s pg p k n).nrg.frac = s.nrg.frac := by unfold countEv; split <;> rfl
@[simp] theorem countEv_nrg_window (s : State) (pg : Nat) (p : Option Nat) (k : EventKind) (n : Nat) : (countEv s pg p k n).nrg.window = s.nrg.window := by unfold countEv; split <;> rfl
@[simp] theorem countEv_nrg_account (s : State) (pg : Nat) (p : Option Nat) (k : EventKind) (n : Nat) : (countEv s pg p k n).nrg.account = s.nrg.account := by unfold countEv; split <;> rfl
@[simp] theorem countEv_nrg_prev (s : State) (pg : Nat) (p : Option Nat) (k : EventKind) (n : Nat) : (countEv s pg p k n).nrg.prev = s.nrg.prev := by unfold countEv; split <;> rfl
@[simp] theorem countEv_nrg_parts (s : State) (pg : Nat) (p : Option Nat) (k : EventKind) (n : Nat) : (countEv s pg p k n).nrg.parts = s.nrg.parts := by unfold countEv; split <;> rfl
@[simp] theorem countEv_nrg_ended (s : State) (pg : Nat) (p : Option Nat) (k : EventKind) (n : Nat) : (countEv s pg p k n).nrg.ended = s.nrg.ended := by unfold countEv; split <;> rfl
@[simp] theorem countEv_nrg_length (s : State) (pg : Nat) (p : Option Nat) (k : EventKind) (n : Nat) : (countEv s pg p k n).nrg.length = s.nrg.length := by unfold countEv; split <;> rfl

/-! ### setPreg -/

@[simp] theorem setPreg_pending (s : State) (c r : Nat) (v : BitVec 256) : (setPreg s c r v).pending = s.pending := by unfold setPreg; split <;> rfl
@[simp] theorem setPreg_regs (s : State) (c r : Nat) (v : BitVec 256) : (setPreg s c r v).regs = s.regs := by unfold setPreg; split <;> rfl
@[simp] theorem setPreg_latch (s : State) (c r : Nat) (v : BitVec 256) : (setPreg s c r v).latch = s.latch := by unfold setPreg; split <;> rfl
@[simp] theorem setPreg_vlt (s : State) (c r : Nat) (v : BitVec 256) : (setPreg s c r v).vlt = s.vlt := by unfold setPreg; split <;> rfl
@[simp] theorem setPreg_edge (s : State) (c r : Nat) (v : BitVec 256) : (setPreg s c r v).edge = s.edge := by unfold setPreg; split <;> rfl
@[simp] theorem setPreg_link (s : State) (c r : Nat) (v : BitVec 256) : (setPreg s c r v).link = s.link := by unfold setPreg; split <;> rfl
@[simp] theorem setPreg_loose (s : State) (c r : Nat) (v : BitVec 256) : (setPreg s c r v).loose = s.loose := by unfold setPreg; split <;> rfl
@[simp] theorem setPreg_opn (s : State) (c r : Nat) (v : BitVec 256) : (setPreg s c r v).opn = s.opn := by unfold setPreg; split <;> rfl
@[simp] theorem setPreg_time (s : State) (c r : Nat) (v : BitVec 256) : (setPreg s c r v).time = s.time := by unfold setPreg; split <;> rfl
@[simp] theorem setPreg_rai (s : State) (c r : Nat) (v : BitVec 256) : (setPreg s c r v).rai = s.rai := by unfold setPreg; split <;> rfl
@[simp] theorem setPreg_ses (s : State) (c r : Nat) (v : BitVec 256) : (setPreg s c r v).ses = s.ses := by unfold setPreg; split <;> rfl
@[simp] theorem setPreg_sec (s : State) (c r : Nat) (v : BitVec 256) : (setPreg s c r v).sec = s.sec := by unfold setPreg; split <;> rfl
@[simp] theorem setPreg_pwr (s : State) (c r : Nat) (v : BitVec 256) : (setPreg s c r v).pwr = s.pwr := by unfold setPreg; split <;> rfl
@[simp] theorem setPreg_nrg (s : State) (c r : Nat) (v : BitVec 256) : (setPreg s c r v).nrg = s.nrg := by unfold setPreg; split <;> rfl
@[simp] theorem setPreg_brd (s : State) (c r : Nat) (v : BitVec 256) : (setPreg s c r v).brd = s.brd := by unfold setPreg; split <;> rfl
@[simp] theorem setPreg_out (s : State) (c r : Nat) (v : BitVec 256) : (setPreg s c r v).out = s.out := by unfold setPreg; split <;> rfl
@[simp] theorem setPreg_free (s : State) (c r : Nat) (v : BitVec 256) : (setPreg s c r v).free = s.free := by unfold setPreg; split <;> rfl
@[simp] theorem setPreg_clu_cyc (s : State) (c r : Nat) (v : BitVec 256) : (setPreg s c r v).clu.cyc = s.clu.cyc := by unfold setPreg; split <;> rfl
@[simp] theorem setPreg_clu_tickCyc (s : State) (c r : Nat) (v : BitVec 256) : (setPreg s c r v).clu.tickCyc = s.clu.tickCyc := by unfold setPreg; split <;> rfl
@[simp] theorem setPreg_clu_pipe (s : State) (c r : Nat) (v : BitVec 256) : (setPreg s c r v).clu.pipe = s.clu.pipe := by unfold setPreg; split <;> rfl
@[simp] theorem setPreg_clu_lanes (s : State) (c r : Nat) (v : BitVec 256) : (setPreg s c r v).clu.lanes = s.clu.lanes := by unfold setPreg; split <;> rfl
@[simp] theorem setPreg_clu_vreg (s : State) (c r : Nat) (v : BitVec 256) : (setPreg s c r v).clu.vreg = s.clu.vreg := by unfold setPreg; split <;> rfl
@[simp] theorem setPreg_clu_sreg (s : State) (c r : Nat) (v : BitVec 256) : (setPreg s c r v).clu.sreg = s.clu.sreg := by unfold setPreg; split <;> rfl
@[simp] theorem setPreg_clu_xreg (s : State) (c r : Nat) (v : BitVec 256) : (setPreg s c r v).clu.xreg = s.clu.xreg := by unfold setPreg; split <;> rfl
@[simp] theorem setPreg_clu_tile (s : State) (c r : Nat) (v : BitVec 256) : (setPreg s c r v).clu.tile = s.clu.tile := by unfold setPreg; split <;> rfl
@[simp] theorem setPreg_clu_run (s : State) (c r : Nat) (v : BitVec 256) : (setPreg s c r v).clu.run = s.clu.run := by unfold setPreg; split <;> rfl
@[simp] theorem setPreg_clu_lc (s : State) (c r : Nat) (v : BitVec 256) : (setPreg s c r v).clu.lc = s.clu.lc := by unfold setPreg; split <;> rfl
@[simp] theorem setPreg_clu_peg (s : State) (c r : Nat) (v : BitVec 256) : (setPreg s c r v).clu.peg = s.clu.peg := by unfold setPreg; split <;> rfl
@[simp] theorem setPreg_clu_pegCmp (s : State) (c r : Nat) (v : BitVec 256) : (setPreg s c r v).clu.pegCmp = s.clu.pegCmp := by unfold setPreg; split <;> rfl
@[simp] theorem setPreg_clu_store (s : State) (c r : Nat) (v : BitVec 256) : (setPreg s c r v).clu.store = s.clu.store := by unfold setPreg; split <;> rfl
@[simp] theorem setPreg_clu_wbuf (s : State) (c r : Nat) (v : BitVec 256) : (setPreg s c r v).clu.wbuf = s.clu.wbuf := by unfold setPreg; split <;> rfl
@[simp] theorem setPreg_clu_bent (s : State) (c r : Nat) (v : BitVec 256) : (setPreg s c r v).clu.bent = s.clu.bent := by unfold setPreg; split <;> rfl
@[simp] theorem setPreg_clu_tag (s : State) (c r : Nat) (v : BitVec 256) : (setPreg s c r v).clu.tag = s.clu.tag := by unfold setPreg; split <;> rfl
@[simp] theorem setPreg_clu_seq (s : State) (c r : Nat) (v : BitVec 256) : (setPreg s c r v).clu.seq = s.clu.seq := by unfold setPreg; split <;> rfl
@[simp] theorem setPreg_clu_busy (s : State) (c r : Nat) (v : BitVec 256) : (setPreg s c r v).clu.busy = s.clu.busy := by unfold setPreg; split <;> rfl
@[simp] theorem setPreg_clu_tables (s : State) (c r : Nat) (v : BitVec 256) : (setPreg s c r v).clu.tables = s.clu.tables := by unfold setPreg; split <;> rfl

/-! ## What the accessors read after an update -/

@[simp] theorem ctx_setCtx_self (s : State) (c : Nat) (x : Ctx) : ctx (setCtx s c x) c = x :=
  tabGet_tabSet_self _ _ _ _

theorem ctx_setCtx_of_ne (s : State) {c d : Nat} (x : Ctx) (h : d ≠ c) : ctx (setCtx s c x) d = ctx s d :=
  tabGet_tabSet_of_ne _ _ _ h

@[simp] theorem part_setPart_self (s : State) (p : Nat) (x : PartSt) : part (setPart s p x) p = x :=
  tabGet_tabSet_self _ _ _ _

theorem part_setPart_of_ne (s : State) {p q : Nat} (x : PartSt) (h : q ≠ p) : part (setPart s p x) q = part s q :=
  tabGet_tabSet_of_ne _ _ _ h

@[simp] theorem part_setCtx (s : State) (c p : Nat) (x : Ctx) : part (setCtx s c x) p = part s p := rfl

@[simp] theorem ctx_setPart (s : State) (p c : Nat) (x : PartSt) : ctx (setPart s p x) c = ctx s c := rfl

@[simp] theorem seqOf_setSeq_self (s : State) (c : Nat) (q : Seq) : seqOf (setSeq s c q) c = q :=
  tabGet_tabSet_self _ _ _ _

theorem seqOf_setSeq_of_ne (s : State) {c d : Nat} (q : Seq) (h : d ≠ c) : seqOf (setSeq s c q) d = seqOf s d :=
  tabGet_tabSet_of_ne _ _ _ h

@[simp] theorem vregOf_setVreg_self (s : State) (c r : Nat) (v : VecReg) : vregOf (setVreg s c r v) c r = v :=
  tabGet_tabSet_self _ _ _ _

/-- Another register of the same cluster, or any register of another one. -/
theorem vregOf_setVreg_of_ne (s : State) {c r d q : Nat} (v : VecReg) (h : d * 64 + q ≠ c * 64 + r) :
    vregOf (setVreg s c r v) d q = vregOf s d q :=
  tabGet_tabSet_of_ne _ _ _ h

@[simp] theorem sregOf_setSreg_self (s : State) (c r : Nat) (v : BitVec 64) : sregOf (setSreg s c r v) c r = v :=
  tabGet_tabSet_self _ _ _ _

/-- Another register of the same cluster, or any register of another one. -/
theorem sregOf_setSreg_of_ne (s : State) {c r d q : Nat} (v : BitVec 64) (h : d * 32 + q ≠ c * 32 + r) :
    sregOf (setSreg s c r v) d q = sregOf s d q :=
  tabGet_tabSet_of_ne _ _ _ h

@[simp] theorem xregOf_setXreg_self (s : State) (c r : Nat) (v : BitVec 64) : xregOf (setXreg s c r v) c r = v :=
  tabGet_tabSet_self _ _ _ _

/-- Another register of the same cluster, or any register of another one. -/
theorem xregOf_setXreg_of_ne (s : State) {c r d q : Nat} (v : BitVec 64) (h : d * 8 + q ≠ c * 8 + r) :
    xregOf (setXreg s c r v) d q = xregOf s d q :=
  tabGet_tabSet_of_ne _ _ _ h

@[simp] theorem tileOf_setTile_self (s : State) (c r : Nat) (v : BitVec 131072) : tileOf (setTile s c r v) c r = v :=
  tabGet_tabSet_self _ _ _ _

/-- Another register of the same cluster, or any register of another one. -/
theorem tileOf_setTile_of_ne (s : State) {c r d q : Nat} (v : BitVec 131072) (h : d * 4 + q ≠ c * 4 + r) :
    tileOf (setTile s c r v) d q = tileOf s d q :=
  tabGet_tabSet_of_ne _ _ _ h

@[simp] theorem runOf_setRun_self (s : State) (c r : Nat) (v : Run) : runOf (setRun s c r v) c r = v :=
  tabGet_tabSet_self _ _ _ _

/-- Another register of the same cluster, or any register of another one. -/
theorem runOf_setRun_of_ne (s : State) {c r d q : Nat} (v : Run) (h : d * 4 + q ≠ c * 4 + r) :
    runOf (setRun s c r v) d q = runOf s d q :=
  tabGet_tabSet_of_ne _ _ _ h

@[simp] theorem lcOf_setLc_self (s : State) (c r : Nat) (v : BitVec 16) : lcOf (setLc s c r v) c r = v :=
  tabGet_tabSet_self _ _ _ _

/-- Another register of the same cluster, or any register of another one. -/
theorem lcOf_setLc_of_ne (s : State) {c r d q : Nat} (v : BitVec 16) (h : d * 2 + q ≠ c * 2 + r) :
    lcOf (setLc s c r v) d q = lcOf s d q :=
  tabGet_tabSet_of_ne _ _ _ h

@[simp] theorem pegOf_setPeg_self (s : State) (c r : Nat) (v : BitVec 32) : pegOf (setPeg s c r v) c r = v :=
  tabGet_tabSet_self _ _ _ _

/-- Another register of the same cluster, or any register of another one. -/
theorem pegOf_setPeg_of_ne (s : State) {c r d q : Nat} (v : BitVec 32) (h : d * 16 + q ≠ c * 16 + r) :
    pegOf (setPeg s c r v) d q = pegOf s d q :=
  tabGet_tabSet_of_ne _ _ _ h

@[simp] theorem pegCmpOf_setPegCmp_self (s : State) (c r : Nat) (v : BitVec 32) : pegCmpOf (setPegCmp s c r v) c r = v :=
  tabGet_tabSet_self _ _ _ _

/-- Another register of the same cluster, or any register of another one. -/
theorem pegCmpOf_setPegCmp_of_ne (s : State) {c r d q : Nat} (v : BitVec 32) (h : d * 16 + q ≠ c * 16 + r) :
    pegCmpOf (setPegCmp s c r v) d q = pegCmpOf s d q :=
  tabGet_tabSet_of_ne _ _ _ h

end Sys2Proof.Laws
end

