-- ==== Sys2Proof/Laws/Registers.lean ====
section
/-! SUPPORT. What the operations on registers do: which register they change and what it then holds, that nothing else
changes, and that the registers keep their canonical form. -/
namespace Sys2Proof.Laws
open Sys2Proof Sys2Proof.Machine Sys2Proof.Safety

@[simp] theorem regGet_regSet_self (s : State) (k : Nat) (v : Word) : regGet (regSet s k v) k = v :=
  tabGet_tabSet_self _ _ _ _

theorem regGet_regSet_of_ne (s : State) {j k : Nat} (v : Word) (h : j ≠ k) : regGet (regSet s k v) j = regGet s j := by
  unfold regGet regSet
  unfold tabSet
  split
  · exact tabGet_tabErase_of_ne _ _ h
  · exact tabGet_tabIns_of_ne _ _ _ h

/-- Only that register changes. -/
theorem regSet_only (s : State) (k : Nat) (v : Word) : onlyRegs s (regSet s k v) [k] :=
  ⟨rfl, fun j hj => regGet_regSet_of_ne s v (by simpa using hj)⟩

/-- Nothing changes. -/
theorem onlyRegs_refl (s : State) (ks : List Nat) : onlyRegs s s ks := ⟨rfl, fun _ _ => rfl⟩

/-- One change of registers after another. -/
theorem onlyRegs_trans {s t u : State} {ks ls : List Nat} (h : onlyRegs s t ks) (g : onlyRegs t u ls) :
    onlyRegs s u (ks ++ ls) := by
  obtain ⟨h1, h2⟩ := h
  obtain ⟨g1, g2⟩ := g
  refine ⟨by rw [g1, h1], fun k hk => ?_⟩
  rw [List.mem_append, not_or] at hk
  rw [g2 k hk.2, h2 k hk.1]

theorem onlyRegs_mono {s t : State} {ks ls : List Nat} (h : onlyRegs s t ks) (hs : ∀ k ∈ ks, k ∈ ls) : onlyRegs s t ls :=
  ⟨h.1, fun k hk => h.2 k fun hm => hk (hs k hm)⟩

theorem onlyRegs.but {s t : State} {ks : List Nat} (h : onlyRegs s t ks) : regsBut s t ks := h.2

theorem regPut_only (s : State) (k lo w v : Nat) : onlyRegs s (regPut s k lo w v) [k] := regSet_only _ _ _
theorem orReg_only (s : State) (k m : Nat) : onlyRegs s (orReg s k m) [k] := regSet_only _ _ _
theorem clrReg_only (s : State) (k m : Nat) : onlyRegs s (clrReg s k m) [k] := regSet_only _ _ _
theorem statSet_only (s : State) (pg b : Nat) : onlyRegs s (statSet s pg b) [pg + 0xC] := regSet_only _ _ _
theorem irq_only (s : State) (pg b : Nat) : onlyRegs s (irq s pg b) [pg + 0x10] := regSet_only _ _ _
theorem rawAdd_only (s : State) (k n : Nat) : onlyRegs s (rawAdd s k n) [k] := regSet_only _ _ _

theorem regPairSet_only (s : State) (k v : Nat) : onlyRegs s (regPairSet s k v) [k, k + 4] :=
  onlyRegs_trans (regSet_only s k _) (regSet_only _ (k + 4) _)

/-- A counter of a page: nothing, or its own register alone. -/
theorem cntAdd_only (s : State) (k n : Nat) : onlyRegs s (cntAdd s k n) [k] := by
  unfold cntAdd
  split
  · exact onlyRegs_refl s _
  · exact regSet_only s k _

theorem cntMax_only (s : State) (k n : Nat) : onlyRegs s (cntMax s k n) [k] := by
  unfold cntMax
  split
  · exact onlyRegs_refl s _
  · exact regSet_only s k _

theorem cntAdd64_only (s : State) (k n : Nat) : onlyRegs s (cntAdd64 s k n) [k, k + 4] := by
  unfold cntAdd64
  split
  · exact onlyRegs_refl s _
  · exact regPairSet_only s k _

/-- A counter that its page does not freeze goes up by `n`, modulo 2^32 (R446). -/
theorem cntAdd_counts (s : State) (k n : Nat) (h : frozen s (pageOfKey k) = false) :
    regGet (cntAdd s k n) k = regGet s k + BitVec.ofNat 32 n := by
  simp [cntAdd, h]

/-- A first-since-read capture: its own register alone. -/
theorem firstCapt_only (s : State) (k v : Nat) : onlyRegs s (firstCapt s k v) [k] := by
  unfold firstCapt
  split
  · exact orReg_only s k _
  · exact regSet_only s k _

theorem capture_only (s : State) (pg code pos arg : Nat) :
    onlyRegs s (capture s pg code pos arg) [pg + 0x1C, pg + 0x20] := by
  unfold capture
  split
  · exact onlyRegs_mono (orReg_only s _ _) (by simp)
  · exact onlyRegs_trans (regSet_only s _ _) (regSet_only _ _ _)

/-- A fault writes its page's capture, and waits for the tick. -/
theorem fault_keeps (s : State) (code pg pos arg : Nat) (c : Option Nat) :
    regsBut s (fault s code pg pos arg c) [pg + 0x1C, pg + 0x20] ∧
    fault s code pg pos arg c = { s with
      regs := (fault s code pg pos arg c).regs
      rai.faults := (fault s code pg pos arg c).rai.faults } := by
  have h := capture_only s pg code pos arg
  refine ⟨h.2, ?_⟩
  show fault s code pg pos arg c = _
  unfold fault
  rw [h.1]

/-! ## Canonical form of the registers -/

theorem regsWf_iff (t : Tab Word) :
    regsWf t = true ↔ (∀ e ∈ t, e.2 ≠ regReset e.1) ∧ t.Pairwise fun a b => a.1 < b.1 := by
  induction t with
  | nil => simp [regsWf]
  | cons e t ih =>
    obtain ⟨k, v⟩ := e
    cases t with
    | nil => simp [regsWf]
    | cons f t =>
      obtain ⟨k', v'⟩ := f
      simp only [regsWf, Bool.and_eq_true, bne_iff_ne, decide_eq_true_eq, ih]
      constructor
      · rintro ⟨⟨hv, hk⟩, hd, hp⟩
        refine ⟨fun e he => ?_, List.pairwise_cons.2 ⟨fun e he => ?_, hp⟩⟩
        · rcases List.mem_cons.1 he with rfl | he
          · exact hv
          · exact hd e he
        · rcases List.mem_cons.1 he with rfl | he
          · exact hk
          · exact Nat.lt_trans hk ((List.pairwise_cons.1 hp).1 e he)
      · rintro ⟨hd, hp⟩
        exact ⟨⟨hd (k, v) (by simp), (List.pairwise_cons.1 hp).1 (k', v') (by simp)⟩,
          fun e he => hd e (List.mem_cons_of_mem _ he), (List.pairwise_cons.1 hp).2⟩

theorem tabIns_pairwise {α : Type} (k : Nat) (v : α) (t : Tab α) (h : t.Pairwise fun a b => a.1 < b.1) :
    (tabIns k v t).Pairwise fun a b => a.1 < b.1 := by
  induction t with
  | nil => simp [tabIns]
  | cons f t ih =>
    obtain ⟨a, b⟩ := f
    obtain ⟨h1, h2⟩ := List.pairwise_cons.1 h
    simp only [tabIns]
    split
    · rename_i hk
      refine List.pairwise_cons.2 ⟨fun e he => ?_, h⟩
      rcases List.mem_cons.1 he with rfl | he
      · exact hk
      · exact Nat.lt_trans hk (h1 e he)
    · split
      · rename_i _ e; subst e; exact List.pairwise_cons.2 ⟨h1, h2⟩
      · refine List.pairwise_cons.2 ⟨fun e he => ?_, ih h2⟩
        rcases mem_tabIns he with rfl | he
        · show a < k; omega
        · exact h1 e he

/-- Storing a register keeps the canonical form. -/
theorem regsWf_regSet (s : State) (k : Nat) (v : Word) (h : regsWf s.regs = true) : regsWf (regSet s k v).regs = true := by
  rw [regsWf_iff] at h ⊢
  show (∀ e ∈ tabSet (regReset k) k v s.regs, _) ∧ (tabSet (regReset k) k v s.regs).Pairwise _
  unfold tabSet
  split
  · exact ⟨fun e he => h.1 e (List.mem_filter.1 he).1, h.2.filter _⟩
  · rename_i hv
    refine ⟨fun e he => ?_, tabIns_pairwise k v s.regs h.2⟩
    rcases mem_tabIns he with rfl | he
    · exact hv
    · exact h.1 e he

/-- Storing a register keeps the canonical form of the whole state. -/
theorem canonical_regSet (s : State) (k : Nat) (v : Word) (h : canonical s = true) : canonical (regSet s k v) = true := by
  simp only [canonical, Bool.and_eq_true] at h ⊢
  simp only [regSet_vlt, regSet_clu, regSet_edge, regSet_ses, regSet_brd]
  exact ⟨⟨⟨⟨⟨⟨⟨⟨regsWf_regSet s k v h.1.1.1.1.1.1.1.1, h.1.1.1.1.1.1.1.2⟩, h.1.1.1.1.1.1.2⟩, h.1.1.1.1.1.2⟩, h.1.1.1.1.2⟩,
    h.1.1.1.2⟩, h.1.1.2⟩, h.1.2⟩, h.2⟩

/-- Storing bytes keeps the canonical form of a cluster's store. -/
theorem wf_setStore (s : State) (c a n x : Nat) (h : Memory.wf s.clu.store = true) :
    Memory.wf (setStore s c a n x).clu.store = true := memWf_memWrite _ _ _ _ h

theorem wf_setWbuf (s : State) (c o n x : Nat) (h : Memory.wf s.clu.wbuf = true) :
    Memory.wf (setWbuf s c o n x).clu.wbuf = true := by
  unfold setWbuf
  simp only
  split
  · exact memWf_memWrite _ _ _ _ h
  · exact memWf_memWrite _ _ _ _ (memWf_memWrite _ _ _ _ h)

end Sys2Proof.Laws
end

