-- ==== Sys2Proof/Laws/Issue.lean ====
section
/-! SUPPORT. What `advance` does while nothing is due, and what an operation that issues cleanly does: every meaning of
a bundle slot goes through these two. -/
namespace Sys2Proof.Laws
open Sys2Proof Sys2Proof.Machine Sys2Proof.Safety

theorem nextStage_none (s : State) (t : Nat) (h : ∀ e ∈ s.clu.pipe, t ≤ e.stage) : nextStage s t = none := by
  unfold nextStage
  generalize s.clu.pipe = l at h
  induction l with
  | nil => rfl
  | cons e l ih =>
    simp only [List.foldl_cons, if_pos (h e (by simp))]
    exact ih fun e he => h e (List.mem_cons_of_mem _ he)

/-- With nothing in flight before the target, only the cycle moves on. -/
theorem advance_idle (s : State) (t : Nat) (h : ∀ e ∈ s.clu.pipe, t ≤ e.stage) :
    advance s t = { s with clu.cyc := max s.clu.cyc t } := by
  unfold advance
  cases t + 1 - s.clu.cyc with
  | zero => rfl
  | succ n => simp only [advanceN, nextStage_none s t h]

/-- An operation that issues cleanly reads its operands in its own cycle, and puts exactly its own stages under way;
one that occupies its unit for several cycles keeps it. -/
theorem issueOp_clean (s : State) (i : Issue) (k u due : Nat) (op : State → Nat → OpInfo) (h : issuesCleanly s i k u due)
    (ho : let o := op { s with clu.cyc := slotCycle s i } (slotCycle s i)
          o.slot = k ∧ o.enc = true ∧ o.unit = u ∧ o.due = due) :
    let o := op { s with clu.cyc := slotCycle s i } (slotCycle s i)
    issueOp s i op = launched s i k (o.evs ++ if 1 < o.occ then [(0, .busyTo k (slotCycle s i + o.occ))] else []) := by
  obtain ⟨⟨hc, hp⟩, hr, hu, hb, hd, ha⟩ := h
  have ht : issueCycle s i = slotCycle s i := Nat.max_eq_right hc
  have had : advance s (slotCycle s i) = { s with clu.cyc := slotCycle s i } := by
    rw [advance_idle s _ hp, Nat.max_eq_right hc]
  simp only [issueOp, ht, had]
  generalize he : op { s with clu.cyc := slotCycle s i } (slotCycle s i) = o at ho
  obtain ⟨hs, hn, hu', hd'⟩ := ho
  subst hs
  rw [← hu'] at hu
  rw [← hd'] at hd
  unfold issueAt
  have h1 : slotRuns { s with clu.cyc := slotCycle s i } i.cl.val (slotCycle s i) = true := hr
  have h2 : unitOff { s with clu.cyc := slotCycle s i } i.cl.val o.unit = 0 := hu
  have h3 : ¬slotCycle s i < tabGet 0 (i.cl.val * 8 + o.slot) s.clu.busy := Nat.not_lt.2 hb
  have h4 : ¬guardPos s ≤ posOf s i.cl.val (slotCycle s i + o.due) := Nat.not_le.2 hd
  have h5 : issueNotes { s with clu.cyc := slotCycle s i } i.cl.val (slotCycle s i) o =
      if 1 < o.occ then [(0, .busyTo o.slot (slotCycle s i + o.occ))] else [] := by
    have g4 : ¬guardPos { s with clu.cyc := slotCycle s i } ≤
        posOf { s with clu.cyc := slotCycle s i } i.cl.val (slotCycle s i + o.due) := h4
    have g6 : ¬audited { s with clu.cyc := slotCycle s i } i.cl.val = true := by
      rw [Bool.not_eq_true]; exact ha
    unfold issueNotes
    rw [if_neg g4, if_neg g6]
    rfl
  have g1 : (!slotRuns { s with clu.cyc := slotCycle s i } i.cl.val (slotCycle s i)) = true ↔ False := by simp [h1]
  have g2 : (!o.enc) = true ↔ False := by simp [hn]
  simp only [g1, g2, if_false, h2, ne_eq, not_true_eq_false, h3, h5, launched]

end Sys2Proof.Laws
end

