-- ==== Sys2Proof/Machine/StoredLine.lean ====
section
/-! DEFINITION. A line as the stack stores it: ciphertext, integrity tag, meta and check symbols (R215, R216). State
holds a line's data, the domain and the key set that it was written under, and how many of its symbols have gone bad;
the symbols that were written follow from these. -/
namespace Sys2Proof.Machine
open Sys2Proof

/-- The tweak T of the line at `u` in vault `v` (R215). -/
def lineTweak (v u : Nat) : Nat := v * 2 ^ 25 + u / 64

/-- The ciphertext of a line, under the XTS key pair of the key set that wrote it (R215). -/
def lineCipher (s : State) (v u : Nat) : List Byte :=
  xts true (Config.lineKeys (sideOf s v u).keyGen).1 (lineTweak v u) (natBytes 64 (lineData s v u))

/-- Symbol 71: POISON (R216). -/
def lineMeta (s : State) (v u : Nat) : Byte := if (sideOf s v u).poison then 1 else 0

/-- The four parts that the tag covers: T, the owner's domain number, symbol 71 and the ciphertext (R216). -/
def macParts (s : State) (v u : Nat) : List (List Byte) :=
  [natBytes 16 (lineTweak v u), natBytes 2 (sideOf s v u).dom, [lineMeta s v u], lineCipher s v u]

/-- Symbols 64 to 70: 56 bits of the AES-256-GMAC of the parts under the owner's integrity key (R216). The order of the
parts, the nonce and the choice of bits are open (log 116). -/
def lineTag (s : State) (v u : Nat) : List Byte :=
  let l := macParts s v u
  let data := ((sortRank (fun x => Config.macRank x.2) l.zipIdx).map (·.1)).flatten
  let tag := gcmTag (natBytes 32 (Config.lineKeys (sideOf s v u).keyGen).2.toNat)
    (natBytes 12 (Config.macNonce l).toNat) data []
  natBytes 7 (Config.macBits (BitVec.ofNat 128 (bytesNat tag))).toNat

/-! ## The Reed–Solomon code (R216) -/

/-- A byte times x in GF(2⁸). -/
def rsTwice (a : Byte) : Byte := if a.getLsbD 7 then (a <<< 1) ^^^ Config.rsField else a <<< 1

/-- The product of two bytes in GF(2⁸): one step for each bit of `b`, the highest first. -/
def rsMul (a b : Byte) : Byte :=
  (List.range 8).foldl (fun p i => rsTwice p ^^^ (if b.getLsbD (7 - i) then a else 0)) 0

/-- The generator polynomial, the product of x + root over the four roots, without its x⁴; constant term first. -/
def rsGen : List Byte :=
  ((List.range 4).foldl (fun g i =>
    (List.range (g.length + 1)).map fun k =>
      (if k = 0 then 0 else g.getD (k - 1) 0) ^^^ rsMul (Config.rsRoot i) (g.getD k 0)) [1]).take 4

/-- The check symbols of some symbols: what is left of them times x⁴ after division by the generator polynomial. -/
def rsCheck (l : List Byte) : List Byte :=
  l.foldl (fun r x =>
    let f := x ^^^ r.getD 3 0
    (List.range 4).map fun k => (if k = 0 then 0 else r.getD (k - 1) 0) ^^^ rsMul f (rsGen.getD k 0)) [0, 0, 0, 0]

/-- The 76 symbols of a line as they were written (R216). -/
def lineSymbols (s : State) (v u : Nat) : List Byte :=
  let l := lineCipher s v u ++ lineTag s v u ++ [lineMeta s v u]
  l ++ rsCheck l

end Sys2Proof.Machine
end

