-- ==== Sys2Proof/Tests/Slice0.lean ====
section
/-! SUPPORT. Tests: for every statement with hypotheses a concrete state and operands that meet them (`wit_…`), small
results worked out from the spec by hand (`test_…`), and ill-formed commands that WellFormed refuses. -/
namespace Sys2Proof.Tests
open Sys2Proof Sys2Proof.Machine Sys2Proof.Safety
set_option Elab.async false

/-! ## Small states -/

/-- The reset state with identity hashes that can be evaluated. -/
def base : State :=
  { State.reset with
    sec.dik := 1
    sec.bk := 2 }

/-- A state with some registers written. -/
def regsOf (s : State) (l : List (Nat × Word)) : State := l.foldl (fun s x => regSet s x.1 x.2) s

/-- Whether a command answers a next state with a property. -/
def gives (i : Instr) (s : State) (p : State → Bool) : Bool :=
  match exec i s with
  | .next t => p t
  | _ => false

/-- A raising in a state. -/
def inState (r : RaiseState) : Raising := { Raising.init with state := r }

/-- A context of partition 0 with a raising. -/
def ctxIn (r : Raising) : Ctx := { Ctx.init with state := .keyed, raising := r }

/-- Partition 0 holds C0 and runs context 0; cluster 0 has a bent of 8,191 bundles in half 0. -/
def run0 : State :=
  { regsOf base [(pgDieS + 0x800, 1)] with
    rai.part := [(0, { PartSt.init with kind := .contents, run := some 0, lastKind := .contents })]
    rai.ctx := [(0, { ctxIn (inState .running) with state := .running })]
    clu.tag := [(0, { valid := true, index := 5, length := 8191, sealed := true })]
    clu.sreg := [(1, 0x20000000), (2, 7), (3, 0xFFFFFFFFFFFFFFFF)]
    clu.lc := [(0, 1)] }

/-- The first position of cluster 0, and the last before the guard. -/
def i0 : Issue := ⟨0, 0⟩
def iLast : Issue := ⟨0, 1983⟩

/-! ## Bundles -/

theorem wit_StepRunsFrontCommand :
    { base with pending := [.decisionPoint] }.pending = .decisionPoint :: [] ∧ base.pending = [] := by decide

theorem wit_OnlyTwoCommandsCanFault :
    Instr.decisionPoint ≠ .frameTick ∧ (100 : Nat) < 101 ∧ gives .frameTick base (fun _ => true) = true ∧
    gives (.droopStretch 0 100 1 false 5) base (fun _ => true) = true := by decide +kernel

theorem wit_Invariants :
    queueFormed { base with pending := [.decisionPoint] } = true ∧ goesOn { base with pending := [.decisionPoint] } = true ∧
    canonical { base with pending := [.decisionPoint] } = true ∧ legalFrame base = true := by decide +kernel

theorem wit_ControlOperationResults :
    reached run0 i0 ∧ issuesCleanly run0 i0 6 0 0 ∧ issuesCleanly run0 iLast 6 0 0 ∧ lcOf run0 0 0 ≠ 0 ∧ lcOf run0 0 1 = 0 ∧
    (((sregOf run0 0 1).extractLsb' 16 14).toNat = 8192) := by
  unfold issuesCleanly reached; decide +kernel

theorem wit_ScalarOperationResults : issuesCleanly run0 i0 6 0 0 ∧ issuesCleanly run0 ⟨0, 1981⟩ 6 0 2 := by
  unfold issuesCleanly reached; decide +kernel

/-- A V operation with the sources v1, v2 and the destination v3. -/
def vop (f vb vc : Nat) : VOp :=
  { xg := 0, pred := 0, vd := 3, va := 1, vb := BitVec.ofNat 6 vb, vc := BitVec.ofNat 6 vc, fmt := BitVec.ofNat 3 f, rm := 0 }

theorem wit_ElementwiseVectorResults :
    (∀ l ∈ [vabsLat, vrcpLat, vsqrtLat, vexpLat, vsinLat, vmovLat, vaddLat, vmulLat, vmaxLat, vdivLat, vfmaLat, vclassLat],
      vIssues run0 i0 .v0 (vop 0 0 0) (vlat l 0) l.rm) ∧
    vIssues run0 i0 .v1 (vop 4 0 0) (vlat vbitLat 4) vbitLat.rm ∧ vIssues run0 i0 .v0 (vop 0 2 4) (vlat vfmaLat 0) true ∧
    vIssues run0 i0 .v0 (vop 5 2 3) (vlat vmaxLat 5) false ∧ (vw 5 = 16 ∨ vw 5 = 8) ∧
    vIssues run0 i0 .v0 (vop 1 0 16) (vlat vclassLat 1) false ∧ vw 1 = 16 := by
  unfold vIssues issuesCleanly reached; and_intros <;> decide +kernel

theorem wit_MoveAndConversionResults :
    (∀ l ∈ [vselLat, vpermLat, vrotLat, vbcastLat], vIssues run0 i0 .v0 (vop 0 2 0) (vlat l 0) false) ∧
    vIssues run0 i0 .v0 (vop 4 0 0) (vlat vbcastLat 4) false ∧ vfp 4 = none ∧
    vIssues run0 i0 .v0 (vop 4 2 0) (vlat vrngLat 4) false ∧
    vIssues run0 i0 .v0 (vop 0 0 8) (4, 1) true ∧ 1 ≤ convRatio 0 0 ∧ vIssues run0 i0 .v0 (vop 3 0 0) (6, 2) true ∧
    (0 : Nat) < convRatio 0 3 ∧ vIssues run0 i0 .v0 (vop 0 0 15) (vlat vpackLat 0) true := by
  unfold vIssues issuesCleanly reached; and_intros <;> decide +kernel

theorem wit_ReductionResults :
    vIssues run0 i0 .v0 (vop 0 0 0) (vlat vredLat 0) false ∧ vIssues run0 i0 .v0 (vop 0 0 0) (vlat vscanLat 0) false := by
  unfold vIssues issuesCleanly reached; and_intros <;> decide +kernel

theorem wit_TileOperationResults : issuesCleanly run0 i0 0 1 0 ∧ issuesCleanly run0 ⟨0, 1980⟩ 0 1 3 := by
  unfold issuesCleanly reached; decide +kernel

/-- MMA with an FP8 format on the store's first bytes. -/
def mmaOp : MmaOp := { xg := 0, pred := 0, gdim := 0, tile := 0, fold := 0, fmt := 0, sa := 0, step := 0 }

theorem wit_MmaRunsAndCloses :
    mmaAligned (sregOf run0 0 0) mmaOp = true ∧ issuesCleanly run0 i0 0 1 (mmaTiming 0).1 ∧ (runOf run0 0 0).count ≤ 63 ∧
    0 + foldTerms 0 0 < 64 ∧
    63 + foldTerms 0 0 = 64 ∧ 64 < 63 + foldTerms 0 1 ∧ foldTerms 0 1 < 64 ∧
    issuesCleanly { run0 with clu.run := [(0, { Run.init with count := 63 })] } i0 0 1 (mmaTiming 0).1 := by
  unfold issuesCleanly reached; decide +kernel

/-- S, L and F operations. -/
def sop (imm : Nat) : SOp := { xg := 0, reg := 5, sa := 0, imm := BitVec.ofNat 12 imm }
def lop (aen : Nat) : LOp :=
  { xg := 0, bank := 0, col := 0, ap := 0, aen := BitVec.ofNat 1 aen, abank := BitVec.ofNat 5 aen, ars := 0, sr := 0, imm := 0 }
def fop (port sel : Nat) : FOp :=
  { xg := 0, port := BitVec.ofNat 5 port, lane := 0, sel := BitVec.ofNat 5 sel, sa := 0, off := 0 }

theorem wit_StoreSlotOperations :
    issuesCleanly run0 i0 4 0 2 ∧ issuesCleanly run0 i0 4 0 3 ∧ (storeAddr run0 0 0 (1024 * 4095)).toNat % 1024 = 0 ∧
    (storeAddr run0 0 0 (8 * 4095)).toNat % 8 = 0 ∧ (storeAddr run0 0 0 (4 * 4095)).toNat % 4 = 0 ∧
    (storeAddr run0 0 0 (512 * 4095)).toNat % 512 = 0 := by
  unfold issuesCleanly reached; decide +kernel

theorem wit_VaultSlotOperations :
    issuesCleanly run0 i0 3 0 0 ∧ issuesCleanly run0 i0 3 0 30 ∧ issuesCleanly run0 i0 3 0 4 ∧ issuesCleanly run0 i0 3 8 40 ∧
    (lop 1).abank ≠ (lop 1).bank ∧ (lop 0).ars = 0 ∧ (storeAddr run0 0 0 0).toNat % 128 = 0 := by
  unfold issuesCleanly reached; decide +kernel

theorem wit_FabricSlotOperations :
    issuesCleanly run0 i0 5 0 3 ∧ issuesCleanly run0 i0 5 0 2 ∧ issuesCleanly run0 i0 5 0 1 ∧
    (fop 20 17).port.toNat ≤ 20 ∧ (fop 20 17).sel ≠ (fop 20 17).port ∧ elemOn run0 0 0 0 = true ∧
    (17 : Nat) ≠ 16 + 0 / 16 % 4 ∧ (storeAddr run0 0 0 0).toNat % 64 = 0 := by
  unfold issuesCleanly reached; decide +kernel

theorem wit_NullBundlesIssue :
    reached run0 i0 ∧ slotRuns run0 0 (slotCycle run0 i0) = true ∧ slotWordOk .m 0 = true ∧
    slotWordOk .m 5 = false ∧ reached run0 ⟨0, 8191⟩ ∧
    clusterIssues run0 0 = true ∧ inBent run0 0 (slotCycle run0 ⟨0, 8191⟩) = false := by
  unfold reached; decide +kernel

/-- One stage under way in cluster 0. -/
def flyIn (s : State) (a : Act) : State := { s with clu.pipe := [⟨0, 6, 0, 2, a⟩] }
def flying (a : Act) : State := flyIn run0 a

theorem wit_ResultsLandInTheirCycle :
    (∀ a ∈ [Act.sregWrite 31 5, .sregKeep 2, .vregWrite 63 1 7, .vregElem 63 16 511 9, .pregWrite 15 1 1, .xLimit 7 9,
        .xPos 7 9, .xShift 7 9, .lcWrite 1 3, .jump 8191, .tileZero 3 1, .tileFill 3 15 1 7, .tileClose 3 7 [],
        .runSet 3 Run.init, .pegCmpWrite 15 2, .pegAdd 15 1, .pegAdd 15 (-1)],
      alone (flying a) 0 6 0 2 a) ∧
    sregOf (advance (flying (.sregWrite 31 5)) 3) 0 31 = 5 ∧ pegOf (advance (flying (.pegAdd 15 1)) 3) 0 15 = 1 := by
  unfold alone; decide +kernel

theorem wit_StoreAccessesInTheirCycle :
    ∀ a ∈ [Act.storeV 0x3FFC00 5 7, .storeCol 64 3 7, .storeS 64 true 7, .recvWrite 64 (some 7), .recvWrite 64 none,
        .loadV 63 5 64, .loadS 31 true 64, .loadX 7 true 64, .swbRead 512 0 3, .vwrRead 128 3 2 true 3,
        .sendRead 64 17 2 true, .wbufWrite 512 3 7, .wbufBytes 32767 [1, 2], .mmaAct 5 0 1 64 8 true,
        .mmaWgt 5 0 1 64 8 none none],
      alone (flying a) 0 6 0 2 a := by
  unfold alone; decide +kernel

theorem wit_StoresKeepTheirBytes :
    0x3FFFF8 + 8 ≤ storeSize ∧ (0 : Nat) < storeSize ∧ 32767 < wbufSize ∧ 64 ≤ wbufSize ∧
    (0 + wbufSize - 32767) % wbufSize < 64 := by decide

theorem wit_BentStoreInItsCycle :
    ∀ a ∈ [Act.bentCol 8188 3 7, .sealHalf 9 8192, .nextBent 9], alone (flying a) 0 6 0 2 a := by
  unfold alone; decide +kernel

/-- Vaults 0 and 64 give context 0 the 16 rows from row 0. -/
def vrun : State := regsOf run0 [(pgVlt 0 + 0x400, 0x100000), (pgVlt 64 + 0x400, 0x100000)]
def opened : State := setOpenRow vrun 0 3 (some 5)

theorem wit_VaultCommandsInTheirCycle :
    (∀ a ∈ [Act.vaultAct 3 5, .vaultAct 3 16, .vaultPre 3 false, .vaultRd 3 2 true 3 (.store 64), .vaultWr 3 2 true 3 7,
        .colCheck 64 3 (0, false) (0, false) (.bent 8) 7, .planeIn 64 3 7],
      alone (flyIn vrun a) 0 6 0 2 a ∧ alone (flyIn opened a) 0 6 0 2 a) ∧
    clusterCtx vrun 0 = some 0 ∧ ctxRows vrun 0 0 = (0, 16) ∧ judgeCmd vrun 0 .act 3 2 (posOf vrun 0 2) false = 0 ∧
    judgeCmd opened 0 .act 3 2 (posOf vrun 0 2) false = 11 ∧ (openRow vrun 0 3).isSome = false ∧
    judgeCmd opened 0 .pre 3 2 (posOf vrun 0 2) false = 0 ∧ openRow opened 0 3 = some 5 ∧
    judgeCmd opened 0 .wr 3 2 (posOf vrun 0 2) false = 12 ∧ judgeCmd opened 0 .rd 3 200 200 false = 0 ∧
    judgeCmd opened 0 .wr 3 200 200 false = 0 ∧ planerDecodes vrun 0 = false := by
  unfold alone; decide +kernel

/-- A line on its way to an input, which it reaches in cycle 2. -/
def onLane (s : State) (dst port lane : Nat) : State := { s with clu.lanes := [⟨dst, port, lane, 2, 0, some 9⟩] }
def edgeFly (a : Act) : State := { run0 with clu.pipe := [⟨1025, 3, 0, 2, a⟩] }

theorem wit_TransfersInTheirCycle :
    (∀ a ∈ [Act.laneOut 15 0 9, .laneOut 16 7 9, .recvTake 3 0 true 64 none, .recvTake 3 0 true 64 (some 3), .fwdTake 17 5 0],
      (flying a).clu.cyc ≤ 2 ∧ audited (flying a) 0 = false ∧ (flying a).clu.pipe = [⟨0, 6, 0, 2, a⟩]) ∧
    clusterMasked run0 0 = false ∧ clusterMasked (regsOf run0 [(pgRgn 0 + 0x60, 1)]) 0 = true ∧ regionMasked run0 0 = false ∧
    (∀ y ∈ (onLane run0 128 3 0).clu.lanes, (y.dst, y.port) = inputOf 0 3 ∧ y.pos = 2 ∧ y.v = some 9) ∧
    (∀ y ∈ (onLane run0 0 17 2).clu.lanes, (y.dst, y.port) = inputOf 0 17) ∧ crossingSlips run0 0 17 = false ∧
    crossingSlips run0 65 2 = false ∧ linkOfEdge 1 2 = some (45, 20) ∧
    (edgeFly (.edgeRead 2 3 4 5)).clu.pipe = [⟨1024 + 1, 3, 0, 2, .edgeRead 2 3 4 5⟩] := by
  decide +kernel

/-- A line that waits at an input is received after two more cycles, and its peg counts it (R152, R155). -/
theorem test_receive :
    (advance (onLane (flying (.recvTake 3 0 true 64 (some 3))) 128 3 0) 3).clu.pipe.map (fun e => (e.stage, e.act)) =
      [(4, .recvWrite 64 (some 9)), (4, .pegAdd 3 1)] := by decide +kernel

/-- An activation opens its row of the window (R206, R208). -/
theorem test_activate : openRow (advance (flyIn vrun (.vaultAct 3 5)) 3) 0 3 = some 5 := by decide +kernel

/-- SADDI with −1 wraps from 0: s2 = 7 and the signed immediate 0x1FFF give 6. -/
theorem test_saddi_signed :
    gives (.saddi i0 2 0x1FFF) run0 (fun t => t.clu.pipe.any fun e => e.act = .sregWrite 2 6) = true := by decide +kernel

/-- SSRA takes the shift count modulo 64: −1 stays −1. -/
theorem test_ssra_sign :
    gives (.ssra i0 4 3 2) run0 (fun t => t.clu.pipe.any fun e => e.act = .sregWrite 4 0xFFFFFFFFFFFFFFFF) = true := by
  decide +kernel

/-- 1.0 + 2.0 = 3.0 in every lane (R167). -/
theorem test_vadd_fp32 :
    gives (.vadd i0 .v0 (vop 0 2 0)) { run0 with clu.vreg := [(1, 0x3F800000), (2, 0x40000000)] }
      (fun t => t.clu.pipe.any fun e => match e.act with
        | .vregWrite r _ v => r = 3 && e.stage = 3 && v.extractLsb' 0 32 = (0x40400000 : BitVec 32)
        | _ => false) = true := by decide +kernel

/-- LOOPB with a zero counter falls through; with 1 it counts to 0 and jumps (R123). -/
theorem test_loopb :
    gives (.loopb i0 1 9) run0 (fun t => t.clu.pipe.isEmpty) = true ∧
    gives (.loopb i0 0 9) run0 (fun t => t.clu.pipe.map (·.act) = [.lcWrite 0 0, .jump 9]) = true := by decide +kernel

/-- At the bundle address LENGTH the bent has ended (R124). -/
theorem test_bent_end_null :
    gives (.bentEnd ⟨0, 8191⟩) run0 (fun t => (seqOf t 0).ended) = true := by decide +kernel

/-! ## Time -/

/-- The PLL follows input 0 (A), and the other input is or is not valid; and holdover. -/
def refOn (other : Bool) : State :=
  { regsOf base [(pgTim1 + 0x40, 2), (pgTim1 + 0x44, if other then 3 else 1)] with time.pllOn := true }
def refHeld : State := { regsOf base [(pgTim1 + 0x40, 2), (pgTim1 + 0x44, 8)] with time.pllOn := true }

/-- Captures on, rising edges. -/
def captOn (n : Nat) : State :=
  { regsOf base [(pgTim0 + 0xC0, 0x400)] with time.capts := List.replicate n (0, 0) }

theorem wit_TimeBaseIsWritten :
    anyRaising base = false ∧ wfield 14 0 4 = 14 ∧ anyRaising run0 = true ∧ wfield 15 0 4 = 15 ∧ wfield 9 0 4 = 9 ∧
    (4 : Word).getLsbD 2 = true ∧ (1 : Word).getLsbD 9 = false ∧ regBit base (pgTim0 + 0x70) 0 = false ∧
    regBit (regsOf base [(pgTim0 + 0x70, 1)]) (pgTim0 + 0x70) 0 = true := by decide +kernel

theorem wit_CapturesAndPulses :
    regBit (captOn 15) (pgTim0 + 0xC0) 10 = true ∧ regBit (captOn 15) (pgTim0 + 0xC0) 9 = false ∧
    (captOn 15).time.prevLevel = false ∧ (captOn 15).time.capts.length < 16 ∧ 16 ≤ (captOn 16).time.capts.length ∧
    base.time.wallFrom < base.time.periods + 800000000 ∧
    wallAt base (800000000 - 1) / (1000000000 * 2 ^ 56) < wallAt base 800000000 / (1000000000 * 2 ^ 56) := by
  decide +kernel

theorem wit_ReferenceInputs :
    (∀ b ∈ [true, false], (refOn b).time.pllOn = true ∧ refHold (refOn b) = false ∧ refActive (refOn b) = false) ∧
    refSelects (refOn true) true = true ∧ refValid (refOn true) true = true ∧ refValid (refOn false) true = false ∧
    refHold refHeld = true ∧ refSelects refHeld false = true ∧ refHeld.time.pllOn = true ∧
    (let s := { regsOf base [(pgTim1 + 0x40, 7), (pgTim1 + 0x44, 3)] with time.pllOn := true };
      refAuto s = true ∧ regBit s (pgTim1 + 0x40) 2 = true ∧ refValid s (refPrefers s) = true ∧ refHold s = false ∧
      refActive s ≠ refPrefers s) ∧
    wfield 0 0 2 = b2n false ∧ refValid (refOn true) false = true ∧
    base.time.pllOn = false ∧ (let s := regsOf base [(pgTim1 + 0x44, 1)]; refSelects s (refPrefers s) = true ∧ refValid s (refPrefers s) = true) := by
  decide +kernel

/-- Domain 3 owes a stretch of domain 66 of period `tp`. -/
def owing (tp : Int) : State := { base with time.domains := [(3, { owed := [(66, tp)], taken := 0, next := 0 })] }

theorem wit_DroopStretchesAreShared :
    10 ≤ 5 * max 2 (regField base (pgRgn 66 + 0x40) 0 5) ∧ domainIdle (regsOf base [(pgRgn 66 + 0x24, 2)]) 66 = true ∧
    5 * max 2 (regField base (pgRgn 66 + 0x40) 0 5) < 100 ∧ domainIdle base 66 = false ∧
    frozen base (pgRgn 66) = false ∧ (domainOf base 0).owed = [] ∧ domainIdle base 3 = false ∧
    (domainOf (owing 5) 3).owed = (66, 5) :: [] ∧ ¬(5 : Int) < 5 ∧ (5 : Int) + 4 ≤ tickPeriods (owing 5) ∧
    (tickPeriods (owing 2045) : Int) < 2045 + 4 ∧
    (∀ x < 67, (domainOf base x).owed.length + (domainOf base x).taken = 0) := by decide +kernel

/-- A stretch that begins less than 4 periods before the tick stays owed to the next tick period (R98, R100). -/
theorem test_echo :
    gives (.stretchEcho ⟨3, 2046⟩) (owing 2045) (fun t => (domainOf t 3).owed = [(66, 2045)]) = true := by decide +kernel

theorem wit_FrameTickMovesTimeOn :
    base.time.pllOn = false ∧
    (let s := { base with clu.cyc := 2048, time.pllOn := true };
      s.time.pllOn = true ∧ (∀ p < 16, (part s p).kind ≠ .finish) ∧ s.time.stepPend = false ∧
      s.clu.cyc ≤ s.clu.tickCyc + (tickPeriods s - stretchCount s (tickPeriods s)) ∧
      gives .frameTick s (fun t => t.time.tick = 1 && t.time.periods = 2048) = true) := by decide +kernel

/-- Partition 0 at the tick after a frame of contents, with its latched gate conditions. -/
def atTick (thin : Bool) : State :=
  { run0 with
    time.pllOn := true
    rai.part := [(0, { PartSt.init with kind := .contents, run := some 0, lastKind := .contents, inbound := true,
                                        lead := true, thin := thin })]
    rai.ctx := [(0, { ctxIn { inState .running with began := true } with state := .running })] }

/-- Where every condition holds the next frame is one of contents; a thinning hold makes it a held frame with its cause,
and a partition without a die runs nothing (R72, R73, R77). -/
theorem wit_TickFollowsTheGate :
    (atTick false).time.pllOn = true ∧
    gives .frameTick (atTick false) (fun t => (part t 0).kind = .contents && (part t 1).kind = .none) = true ∧
    gives .frameTick (atTick true) (fun t => (part t 0).kind = .held && regField t (pgTim0 + 0x108) 0 5 = 24) = true := by
  decide +kernel

/-- Partition 0 held for `n` frames, no raising live. -/
def heldFor (n : Nat) : State :=
  { run0 with
    rai.part := [(0, { PartSt.init with kind := .held, run := some 0, holds := n })]
    rai.ctx := [] }

/-- Partition 0 at the end of entry 0 of a table of two entries, the second IDLE. -/
def rotating : State :=
  { regsOf base [(pgDieS + 0x800, 1), (pgDieS + 0x380, 2), (pgDieS + 0x400, 1), (pgDieS + 0x404, 0x1000001)] with
    rai.part := [(0, { PartSt.init with began := true, entry := 0, entryRun := 1, done := 1, idleEnt := true })] }

theorem wit_ConditionsStallsAndRotation :
    liveDies run0 0 ≠ 0 ∧ liveDies base 0 = 0 ∧
    (∀ b ∈ [true, false], let s := { run0 with
        rai.ctx := [(0, { ctxIn { inState .running with began := b } with state := .running })] };
      gateCtx s 0 = some 0 ∧ (raising s 0).began = b) ∧ gateCtx { run0 with rai.part := [] } 0 = none ∧
    (part (heldFor 15) 0).holds < 16 ∧
    (let s := { regsOf (heldFor 16) [(pgTim0 + 0x54, 16)] with rai.ctx := run0.rai.ctx };
      max 16 (regNat s (pgTim0 + 0x54)) ≤ (part s 0).holds ∧ (part s 0).run = some 0 ∧ s.rai.faults = [] ∧ ctxLive s 0 = true) ∧
    (let s := regsOf (heldFor 16) [(pgTim0 + 0x54, 16)]; max 16 (regNat s (pgTim0 + 0x54)) ≤ (part s 0).holds ∧
      (part s 0).run = some 0 ∧ s.rai.faults = [] ∧ ctxLive s 0 = false ∧
      gives (.stall 0) s (fun t => (part t 0).holds = 0) = true) ∧
    (part rotating 0).began = true ∧ (part rotating 0).kind = .none ∧ entryOver rotating 0 = true ∧
    rotCount rotating 0 = 2 ∧ (rotEntry rotating 0 1).2.2 = true ∧ 1 = ((part rotating 0).entry + 1) % rotCount rotating 0 ∧
    gives (.rotationEntryEnd 0) rotating (fun t => (part t 0).kind = .idle) = true ∧
    (let s := { regsOf rotating [(pgDieS + 0x404, 1)] with rai.ctx := [(0, ctxIn (inState .committed))] };
      (rotEntry s 0 1).2.2 = false ∧ runnable s 0 (rotEntry s 0 1).2.1 = true ∧
      (part s 0).run ≠ some (rotEntry s 0 1).2.1) ∧
    (let s := regsOf rotating [(pgDieS + 0x404, 1)];
      (∀ j < 2, (rotEntry s 0 j).2.2 = false ∧ runnable s 0 (rotEntry s 0 j).2.1 = false) ∧ rotCount s 0 ≠ 0) := by
  decide +kernel

/-! ## Stacked memory -/

/-- Vault 64 has a window of context 3: rows 0 to 9. -/
def win64 : State := regsOf base [(pgVlt 64 + 0x40C, 0x000A0000)]

theorem wit_WindowsStayApart :
    windowOk win64 64 (winOf 0x5FF6000A) 4 = true ∧ ctxHolds win64 4 = false ∧ windowOk win64 64 (winOf 0x00010009) 4 = false ∧
    ctxHolds run0 0 = true ∧ windowOk win64 64 (winOf 0x0001000A) domCarve = true ∧
    windowOk win64 64 (winOf 0x00010009) domCarve = false ∧ (ctxRows win64 64 3).2 ≠ 0 ∧
    dramMap base 0x1800000000 = some (64, 0) ∧
    (∃ i < 64, (carveRows (regsOf base [(pgVlt 64 + 0x44, 0x10000)]) (64 * 1 + i)).2 ≠ 0) ∧
    (∀ x ∈ [carveRows base 64] ++ (List.range 256).map (ctxRows base 64), 0 < x.1 ∨ x.1 + x.2 ≤ 0) := by decide +kernel

theorem vlt_rows_reset : ∀ k < 256, ((regRow .vlt (0x400 + 4 * k)).map (·.reset)) = some 0 := by decide +kernel

theorem regReset_vlt (a o b : Nat) (h0 : a < 0x100000000) (h1 : a / 0x1000000 = 1) (h2 : a % 0x1000 = o)
    (h3 : a % 0x1000000 - o = b) (hp : ∃ i, pageAt 1 b = some (.vlt, i)) (ho : 0x400 ≤ o)
    (hr : (regRow .vlt o).map (·.reset) = some 0) : regReset a = 0 := by
  obtain ⟨i, hp⟩ := hp
  unfold regReset
  simp only [Nat.mod_eq_of_lt h0, h1, h2, h3, hp]
  cases hw : regRow .vlt o with
  | none => rfl
  | some r =>
    rw [hw] at hr
    have hz : r.reset = 0 := by simpa using hr
    have hne : o ≠ 0x44 := by omega
    simp [hz, hne]

/-- The window registers of a vault of die 1 read 0 at reset. -/
theorem ctxRows_base (i k : Nat) (hi : i < 64) (hk : k < 256) : (ctxRows base (64 * 1 + i) k).2 = 0 := by
  have hp : ∃ i', pageAt 1 (0x140000 + 0x1000 * i) = some (.vlt, i') := ⟨i, by revert i; decide⟩
  have e : pgVlt (64 * 1 + i) + 0x400 + 4 * k = 0x1140000 + 0x1000 * i + (0x400 + 4 * k) := by
    simp only [pgVlt, pageBase]; omega
  have h : regReset (pgVlt (64 * 1 + i) + 0x400 + 4 * k) = 0 := by
    rw [e]
    exact regReset_vlt _ (0x400 + 4 * k) (0x140000 + 0x1000 * i) (by omega) (by omega) (by omega) (by omega) hp
      (by omega) (vlt_rows_reset k hk)
  have hz : winOf 0 = (0, 0) := by decide
  simp only [ctxRows, regGet, base, State.reset, tabGet, h, hz]

theorem wit_WindowsStayApart_imap :
    ∀ i < 64, (carveRows base (64 * 1 + i)).2 = 0 ∧ ∀ k < 256, (ctxRows base (64 * 1 + i) k).2 = 0 := fun i hi =>
  ⟨by revert i; decide +kernel, fun k hk => ctxRows_base i k hi hk⟩

/-- Vault 64 with an initialisation at line pair `n` of `rows` rows. -/
def initAt (n rows : Nat) : State :=
  { win64 with vlt.init := [(64, { dom := 3, next := n, rows := rows, first := 0, aborted := false })] }

/-- Cluster 0 runs a bent whose first bundle reads bank 0, of which the scrubber holds row 0 open. -/
def touched : State :=
  { run0 with
    vlt.scrubRow := [(0, 1)]
    clu.bent := [(0, BitVec.ofNat 256 (6 <<< 124))] }

theorem wit_VaultsAreMaintained :
    wfield 0x000F5FFF 0 15 < vaultRows ∧ regField win64 (pgVlt 64 + 0x6C) 0 5 < 16 ∧
    isRetired win64 64 (wfield 0x000F5FFF 0 15) 30 = false ∧ vaultRows ≤ wfield 0x6000 0 15 ∧
    16 ≤ regField (regsOf win64 [(pgVlt 64 + 0x6C, 16)]) (pgVlt 64 + 0x6C) 0 5 ∧ initOf win64 64 = none ∧
    (ctxRows win64 64 3).2 ≠ 0 ∧ ctxHolds win64 3 = false ∧
    (initOf (initAt 512 1) 64).map (fun i => (i.next, i.rows, i.aborted)) = some (512, 1, false) ∧
    (initOf (initAt 511 1) 64).map (fun i => (i.next + 1, 512 * i.rows)) = some (512, 512) ∧
    (63 : BitVec 12).toNat < 64 ∧ initOf base (64 * 1 + 63) = none ∧
    win64.clu.pipe = [] ∧ win64.clu.lanes = [] ∧ (∀ b < 32, openRow win64 64 b = none) ∧ tabGet [] 64 win64.vlt.revisit = [] ∧
    scrubOpen base 64 = none ∧ regField (regsOf win64 [(pgVlt 64 + 0x48, 0)]) (pgVlt 64 + 0x48) 0 16 = 0 ∧
    isRetired (regsOf win64 [(pgVlt 64 + 0x6C, 1), (pgVlt 64 + 0x800, 0x8000000F)]) 64 15 0 = true ∧
    (⟨1, 3, 63⟩ : AbortReq) ∈ { base with rai.latched := [⟨1, 3, 63⟩] }.rai.latched ∧
    hostServes { run0 with rai.part := [(0, { PartSt.init with kind := .held, run := some 0 })] } 0 = false ∧ banksNow base 64 = [] ∧
    (let s := { base with vlt.scrubRow := [(64, 1)] }; scrubOpen s 64 = some 0 ∧ regField s (pgVlt 64 + 0x4C) 0 20 = 0 ∧
      0 / 0x8000 ∉ banksNow s 64) ∧
    (let s := touched; scrubOpen s 0 = some 0 ∧ 0 / 0x8000 ∈ banksNow s 0) ∧
    2048 ≤ frameLen base ∧ (carveRows base 64).2 = 0 ∧ (∀ c < 256, (ctxRows base 64 c).2 = 0) ∧
    regField base (pgVlt 64 + 0x4C) 0 20 % 0x8000 < 24575 := by decide +kernel

/-- Context 3 lets the host read and write its rows in vault 64; one access waits. -/
def access64 (wr : Bool) : State :=
  { regSet win64 (pgVlt 64 + 0x48) 0 with
    rai.ctx := [(3, { Ctx.init with state := .keyed, access := 1 })]
    sec.memKey := [(257 + 3, 9)]
    vlt.side := [(lineKey 64 0, { dom := 3, keyGen := 9, poison := false, bad := 0 })]
    vlt.mem := [(64 * vaultSize + 5, 0xAB)]
    vlt.hostq := [(64, [{ job := .access { who := .core, addr := 0x1800000000, write := wr, len := 64, data := 5, poison := false, tag := 7 } 0,
                          aborted := false, late := false }])] }

theorem wit_HostAccessesOutsideDram :
    (∀ a ∈ [0x0FFF01000000, 0x0FFFFFFFFFFF, 0x0F0000000014, 0x0F0000800008, 0x0F0000FFF000], dramMap base a = none) ∧
    regKey 0x0FFF01000000 = none ∧ s0Part 0xFFFFFF = none ∧ regKey 0x0F0000000014 = some 0x14 ∧
    windowAt (kDie 0x14) 0x14 = none ∧ (pageServed base 0x14).isSome = true ∧ pageServed base 0x7FF000 = none ∧
    regKey 0x0F0000800008 = some 0x800008 ∧ windowAt (kDie 0x800008) 0x800008 = some (true, 8) ∧ presetState base 0 ≠ 4 ∧
    gives (.hostAccess ⟨.core, 0x0F0000000014, true, 4, 0x5, false, 7⟩) base
      (fun t => regGet t 0x14 = 5 && t.out = [.writeDone 7]) = true ∧
    gives (.hostAccess ⟨.openPort, 0x0F0000800008, false, 8, 0, false, 7⟩) base (fun t => t.out = [.readDone 7 0]) = true := by
  decide +kernel

theorem wit_HostAccessesAreServed :
    dramMap base 0x18000000000 = none ∧ dramMap base 0x1800000000 = some (64, 0) ∧ dieServes base 1 = true ∧
    presetState (regsOf base [(pgDieS + 0x314, 5)]) 1 ∈ [2, 4, 5] ∧
    regField (regsOf base [(pgDie 1 + 0x24, 2)]) (pgDie 1 + 0x24) 0 2 ∈ [2, 3] ∧
    (0x1800000000 % 64 + 64 ≤ 64) ∧ rowOwner win64 64 0 = some 3 ∧
    (∀ w ∈ [true, false], (hostQ (access64 w) 64).length = 1 ∧ initOf (access64 w) 64 = none ∧ hostServes (access64 w) 64 = true ∧
      dieServes (access64 w) 1 = true ∧ (ctx (access64 w) 3).conf = false ∧
      (ctx (access64 w) 3).access.getLsbD (accessBit .core) = true) ∧
    lineKind (access64 false) 64 0 3 = (0, false) ∧ scrubPick (access64 false) 64 (banksNext (access64 false) 64) = none ∧ isRetired (access64 true) 64 0 0 = false ∧
    gives (.hostEngineGuard 64 41 false) (access64 false) (fun t => t.out = [.readDone 7 0xAB0000000000]) = true ∧
    gives (.hostEngineGuard 64 41 false) (access64 true) (fun t => t.out = [.writeDone 7] && lineData t 64 0 = 5) = true := by
  decide +kernel

/-! ## Sessions -/

/-- A number from fields: byte offset and value. -/
def bytesAt (l : List (Nat × Nat)) : Nat := l.foldl (fun a x => a + x.2 <<< (8 * x.1)) 0

/-- Context 0 of partition 0 runs plan slot 1, whose image lies at address 0: die 0, batch 4, two buckets, cluster 0.
Its rows in vault 0 are 0 to 99. Entry 0 of die 0 is in STATE `st`, and bound to batch slot 0 unless it is 0. -/
def sess (st : Nat) : State :=
  { regsOf run0 [(pgVlt 0 + 0x400, 0x00640000)] with
    rai.plans := [(1, ⟨0, BitVec.ofNat 2048 (bytesAt [(0x10, 1), (0x14, 1), (0x16, 4), (0x24, 2), (0x28, 0x100)]), 2000, 0, 0⟩)]
    rai.ctx := [(0, { ctxIn { inState .running with plan := 1 } with state := .running })]
    vlt.mem := [(0x100, 1)]
    ses.table := [(0, 1)] ++ (if st = 0 then [] else [(4, BitVec.ofNat 8 st)])
    ses.bound := if st = 0 then [] else [(0, some (0, 0))] }

theorem wit_CommitsAreChecked :
    commitCheck (sess 0) 0 (wset 0 12 2 1).toNat = 0 ∧ commitCheck (sess 2) 0 (wset 0 12 2 2).toNat = 0 ∧
    commitCheck (sess 2) 0 (wset 0x30000 12 2 3).toNat = 0 ∧ commitCheck (sess 2) 0 (wset 0x40000 12 2 3).toNat = 5 ∧
    commitCheck (sess 1) 0 (wset 0 12 2 1).toNat = 1 ∧ commitCheck base 0 (wset 2559 12 2 1).toNat ≠ 0 := by decide +kernel

theorem wit_CommitsAreQueued :
    slotHome (sess 0) 0 0 = some (0, 1) ∧ slotHome (sess 0) 0 3 = some (0, 4) ∧
    (entNat (sess 0) 0 0 1 1, entSlot (sess 0) 0 0) = (0, 0) ∧ boundOf (sess 2) 0 0 = some (0, 0) ∧
    bucketCheck (sess 0) 0 0x100 = 0 ∧ leadVault (sess 0) 0 = some 0 ∧ bucketCheck (sess 0) 0 0x200 = 5 := by decide +kernel

/-- A written job at the front of vault 0's queue. -/
def done0 (j : HostJob) : State := { sess 4 with vlt.hostq := [(0, [⟨j, false, false⟩])] }

theorem wit_CommitsComplete :
    frozen (sess 4) (pgSes 0) = false ∧ boundOf (sess 4) 0 0 = some (0, 0) ∧ CommitKind.bind ≠ .release ∧
    (∀ j ∈ [HostJob.commit 0 0 .release 3 1 true, .commit 0 0 .bind 0 7 true, .bucket 0 0 1 true],
      hostQ (done0 j) 0 = [⟨j, false, false⟩]) := by decide +kernel

/-- A BIND, from its command to its completion: the entry is BOUND, and COMMITTED shows it (R245, R247, R255). -/
theorem test_bind_queues :
    gives (.bind 0 0) (sess 0) (fun t => entState t 0 0 = 1 && boundOf t 0 0 = some (0, 0) && (hostQ t 0).length = 1) = true ∧
    gives (.commitComplete 0) (done0 (.commit 0 0 .bind 0 7 true)) (fun t => entState t 0 0 = 2 &&
      regNat t (pgSes 0 + 0x58) = 0x80000000) = true := by decide +kernel

theorem wit_EntryWindowKeepsReadOnlyBytes :
    (0x3A0 : Nat) / 1024 < 2560 ∧ (0x3A0 : Nat) % 1024 % accBytes .b8 = 0 ∧ presetState (sess 2) 0 ≠ 4 ∧
    entState (sess 0) 0 0 = 0 ∧ entState (sess 2) 0 0 = 2 ∧ entState (sess 3) 0 0 = 3 ∧
    entryRw (0x3A0 - 1) = true ∧ entryRw 0x3A0 = false ∧ entryRw 3 = true ∧ entryRw 4 = false ∧ entryRw 0x20 = true := by decide +kernel

theorem wit_AbortsMarkPendingCommits :
    abortPending (done0 (.commit 0 0 .bind 0 0 false)) ⟨0, 1, 0⟩ = true ∧
    abortPending (done0 (.bucket 0 0 1 false)) ⟨0, 2, 0⟩ = true ∧ abortPending base ⟨0, 1, 0⟩ = false ∧
    abortPending base ⟨0, 2, 0⟩ = false ∧ abortLate base ⟨0, 1, 0⟩ = false ∧
    (let s := { base with rai.latched := [⟨0, 1, 0⟩] }; abortPending s ⟨0, 1, 0⟩ = false ∧ abortLate s ⟨0, 1, 0⟩ = true) := by
  decide +kernel

/-! ## Leashed traffic -/

/-- A table set of edge die E0 for port 0 with one bent (index 1, bucket 0, frame 0): data slot 5 sends staging lines 0 to 15;
route 9 of port 0 lands at ring line 3, counter 2; group 0 combines two steps into line 0. -/
def set0 : TableSet :=
  { bents := [(0, 1, { slots := [⟨5, 1, false, false, 9, 0x123456, 0, 0⟩], lanes := [], gates := [], rsv := 0 })]
    fwd := [(0, 9, BitVec.ofNat 128 (2 + 3 <<< 3 + 2 <<< 22))]
    groups := [{ target := 0, steps := 2, fmt := 0, seed := false, seedPos := 0, counter := 1, short := true, pegEn := false, peg := 0, rsv := 0 }]
    braces := []
    frames := [[[(0, 1)]]]
    bucketLine := 0
    ports := 1 }

/-- A Chroip link of port 0 in a state. -/
def linkIn (st : LinkState) : Link := { Link.init with state := st, lanesUp := true, credits := [16, 16, 16, 16] }

/-- An UP link with keys for its phase. -/
def linkKeyed : Link := { linkIn .up with keys := [(0, some 7), (1, some 9)] }

/-- Port 0 is a Chroip port of partition 0 in a state. -/
def port0 (k : Link) : State :=
  { regsOf (sess 2) [(pgPrt 0 + 0x40, 5), (pgDieS + 0x840, 0x10), (pgPrt 0 + 0x60, 0x0200), (pgPrt 0 + 0x5C, 0x11223344)] with
    link := [(0, k)] }

/-- Edge die E0 runs `set0` for context 0, raising number 7, with a ring and a staging area; the raising is in frame 5. -/
def edge0 : State :=
  { regsOf (port0 linkKeyed) [(pgSlt 0 + 0x100, 0x00070100), (bankKey (pgLnd 0 + 0x44) 0, 0x00010000),
      (bankKey (pgLnd 0 + 0x48) 0, 0x00010010), (pgDieS + 0x900, 0x10)] with
    edge.sets := [(0, { state := .running, tables := set0, ctx := some 0 })]
    rai.ctx := [(0, { ctxIn { inState .running with plan := 1, raiseId := 7, began := true, frame := 5 } with state := .running })] }

/-- A received short leashed frame with a header and a payload of zeros, with good tag and FCS, after some fill. -/
def rxLeashed (seq : Nat) (hdr : BitVec 160) : RxFrame :=
  let k : Link := { Link.init with mac := 5, peer := some 0, keys := [(0, some 9)] }
  { bytes := (List.replicate 3 0 : List Byte) ++ wireFrame k (BitVec.ofNat 128 (2 + seq <<< 16)) (hdr.setWidth 176) (List.replicate 64 0) false
    start := 0, corr := 0, uncorr := 0, markers := 0 }

/-- The frame as the port reads it. -/
def rxSeen (f : RxFrame) : RxView := rxRead (linkOf edge0 0) f (f.bytes.drop 3)

/-- The deferred send of slot 5: every line it waited for is staged. -/
def deferred0 : Deferred := { ctx := 0, ent := ⟨5, 1, false, false, 9, 0x123456, 0, 0⟩, frame := 5, lines := [0x100000] }

theorem wit_LeashedPacketsAreSent :
    edge0.clu.pipe = [] ∧ edge0.clu.lanes = [] ∧ (servedBent edge0 0).map (fun x => (x.1, slotEntry x.2.2 false 5)) =
      some (0, some ⟨5, 1, false, false, 9, 0x123456, 0, 0⟩) ∧
    leashUp edge0 0 0 = true ∧ packetBytes false ≤ unitRoom edge0 0 (slotUnit false 5) ∧
    (0, false, 5) ∉ edge0.edge.sent ∧ seqFits edge0 0 1 = true ∧ seqFits edge0 0 2 = true ∧
    (∀ i < 16, takeWrites edge0 set0 0 0 i = false) ∧
    (let s := { edge0 with edge.deferred := [(0, [deferred0])], edge.staged := [(0x100000, 9)] };
      (tabGet [] 0 s.edge.deferred).find? (deferredReady s) = some deferred0 ∧ leashUp s 0 0 = true ∧
      (tabGet [] 0 s.edge.late).length < 256) ∧
    (let y := originate edge0 0 0 deferred0.ent 5; let s := { edge0 with edge.late := [(0, [y])] };
      tabGet [] 0 s.edge.late = y :: [] ∧ tabGet [] 0 s.loose.cmdq = [] ∧
      unitClass s 0 .allowance = .empty ∧ fitsUnit s 0 .allowance y = true ∧ frozen s (pgSlt 0) = false) := by decide +kernel

/-- A lane entry of E0 on link 0, lane 0, at position 10 for 4 cycles. -/
def lane0 (dir : Nat) : BitVec 64 := BitVec.ofNat 64 (10 + dir <<< 22 + 3 <<< 44)

theorem wit_LaneEntriesMoveLines :
    ∀ d ∈ [0, 1], edgeLanePart edge0 0 (laneLink (lane0 d)) (laneNo (lane0 d)) = some 0 ∧ (part edge0 0).run = some 0 ∧
      issues (part edge0 0).kind = true ∧ laneGood 0 (lane0 d) = true ∧ lanePos (lane0 d) = 10 ∧ laneRun (lane0 d) = 3 ∧
      laneDir (lane0 d) = (d = 1) := by decide +kernel

theorem wit_Landings :
    (let f := rxLeashed 0 (leashedHdr 1 2 7 6 9 5 1); let v := rxSeen f; let h : BitVec 160 := v.ext.setWidth 160;
      (linkOf edge0 0).state = .up ∧ rxFind (linkOf edge0 0) f.bytes = some (f.bytes.drop 3) ∧ framePasses v = true ∧
      rKind v = 2 ∧ rSeq v = (linkOf edge0 0).expect ∧
      (setForRaise edge0 0 (lRaise h)).map (·.2) = some 0 ∧ lReserved h = false ∧ lDiverted h = false ∧
      bitsOf (forwardEntry edge0 set0 0 0 (lRoute h)) 0 3 = 2 ∧ tabGet false (edgeKey 0 0) edge0.edge.dupWin = false ∧
      dueAhead edge0 0 (lDue h) = 1 ∧ expectOf edge0 set0 0 0 6 2 = none) ∧
    (let f := rxLeashed 0 (leashedHdr 1 2 8 8 9 5 1); let v := rxSeen f;
      rxFind (linkOf edge0 0) f.bytes = some (f.bytes.drop 3) ∧ framePasses v = true ∧
      setForRaise edge0 0 (lRaise (v.ext.setWidth 160)) = none ∧ frozen edge0 (pgSlt 0) = false) := by
  decide +kernel

theorem wit_Combines :
    (let s := { edge0 with edge.comb := [(combKey 0 0 6 0, { waiting := [(1, 40)], ended := 0 })] };
      let st := tabGet { waiting := [], ended := 0 } (combKey 0 0 6 0) s.edge.comb;
      (ctxSet s 0 0).map (fun t => t.groups[0]?) = some set0.groups[0]? ∧ set0.groups.length = 1 ∧
      (∀ g ∈ set0.groups, stepReady s 0 g 6 st = true) ∧ (st.waiting.find? fun x => x.1 = st.ended + 1) = some (1, 40)) := by
  decide +kernel

theorem wit_TableSetsAndAreas :
    (setOf edge0 0 0).state = .running ∧ (setOf edge0 0 1).state ≠ .running ∧
    (let s := { edge0 with edge.sets := [(0, { state := .loaded, tables := set0, ctx := none })] };
      (setOf s 0 0).state = .loaded ∧ pageTaken s 0 0 = true) ∧
    (∀ j < 4, j ≠ 1 → winMeet (wfield 0x201 0 7, wfield 0x201 8 7) (setPages edge0 0 j) = false) ∧
    winMeet (wfield 0x200 0 7, wfield 0x200 8 7) (setPages edge0 0 0) = true ∧
    areaRefused base 0 0 (wfield 0x006E0000 0 9, 4 * wfield 0x006E0000 16 9) = false ∧
    areaRefused base 0 0 (wfield 0x006F0000 0 9, 4 * wfield 0x006F0000 16 9) = true ∧
    areaRefused base 0 0 (wfield 0x01B80000 0 9, 1 * wfield 0x01B80000 16 9) = false ∧
    areaRefused base 0 0 (wfield 0x01B80001 0 9, 1 * wfield 0x01B80001 16 9) = true ∧
    pageTaken edge0 0 127 = false ∧ (0x7FFFF8 : Nat) % accBytes .b8 = 0 := by decide +kernel

/-! ## Links -/

/-- A port with a MAC address that no plan names. -/
def portOff : State := regsOf base [(pgPrt 0 + 0x60, 0x0200), (pgPrt 0 + 0x5C, 0x11223344)]

theorem wit_PortsAreConfigured :
    (linkOf portOff 0).state = .disabled ∧ portNamed portOff 0 = false ∧ wfield 5 0 2 = 1 ∧ macGood portOff 0 = true ∧
    (5 : Word).getLsbD 5 = false ∧ (4 : Word).getLsbD 2 = true ∧ wfield 4 0 2 = portKind portOff 0 ∧ (1 : Word).getLsbD 2 = false ∧
    regField portOff (pgOpn 0 + 0x44) 0 4 = 0 ∧ wfield 6 0 2 = 2 ∧
    (∀ st ∈ [LinkState.phy, .hello, .key, .delay, .ready, .up, .down], (linkOf (port0 (linkIn st)) 0).state = st) ∧
    portKind (port0 (linkIn .up)) 0 = 1 ∧ (5 : Word).getLsbD 2 = true ∧ frozen (port0 (linkIn .up)) (pgPrt 0) = false ∧
    wfield 2 0 2 ≠ portKind portOff 0 ∧
    (let s := { port0 Link.init with rai.plans := [(1, ⟨0, BitVec.ofNat 2048 (1 <<< (8 * 0x18)), 2000, 0, 0⟩)] };
      portNamed s 0 = true ∧ (linkOf s 0).state = .disabled) := by decide +kernel

theorem wit_TrainingFollowsItsStates :
    (∀ st ∈ [LinkState.phy, .hello, .key, .delay, .ready, .up, .down], (linkOf (port0 (linkIn st)) 0).state = st) ∧
    2 ≤ byteFld (BitVec.ofNat 112 (2 <<< 24)).toNat 3 1 ∧ (linkIn .hello).holdoff = 0 ∧
    { linkIn .hello with holdoff := 2 }.holdoff ≠ 0 ∧
    (let b : BitVec 112 := BitVec.ofNat 112 (5 <<< 16); let k := { linkIn .delay with echoes := 0xFFDF };
      byteFld b.toNat 2 2 = 5 ∧ bitOf k.echoes 5 = false ∧ k.echoes + 2 ^ 5 = 0xFFFF ∧
      { k with echoes := 0 }.echoes + 2 ^ 5 ≠ 0xFFFF ∧ bitOf { k with echoes := 32 }.echoes 5 = true) ∧
    (let s := regsOf (port0 (linkIn .down)) [(pgPrt 0 + 0x40, 0x15)];
      regBit s (pgPrt 0 + 0x40) 4 = true ∧ regBit s (pgPrt 0 + 0x40) 2 = true) := by decide +kernel

/-- A delay within 520 ns and one above it, whatever the fixed paths are. -/
theorem wit_EchoDelays (b : BitVec 112) :
    (max (linkIn .delay).delayMax (echoDelay b 0) + 1999) / 2000 ≤ 520 ∧
    520 < (max { linkIn .delay with delayMax := 1040001 }.delayMax (echoDelay b 0) + 1999) / 2000 := by
  simp [echoDelay, linkIn, Link.init]

/-- An UP link with two frames in its replay buffer. -/
def linkSent : Link :=
  { linkIn .up with
    nextSeq := 2
    rbuf := [⟨0, 2, 0, List.replicate 64 0, 2, 0⟩, ⟨1, 2, 0, List.replicate 64 0, 2, 0⟩] }

theorem wit_AcknowledgementAndReplay :
    linkSent.state = .up ∧ (linkSent.rbuf.filter fun x => 0x8000 ≤ ((0 : BitVec 16) - x.seq).toNat).length = 1 ∧
    (linkSent.rbuf.filter fun x => 0x8000 ≤ ((0xFFFF : BitVec 16) - x.seq).toNat).length = 2 ∧
    { linkSent with replaying := true }.replaying = true ∧
    (let s := port0 { linkSent with replaying := true };
      portUp s 0 = true ∧ 0 < linkSent.rbuf.length ∧ (∀ u ∈ frameUnits s, unitUsed s 0 u ≤ unitSize s u) ∧
      ((frameUnits s).any fun u => unitOpen s 0 (periodPos s 0) (entBytes ⟨0, 2, 0, List.replicate 64 0, 2, 0⟩) u &&
        decide (unitClass s 0 u ≠ .reserved)) = true) ∧ { linkSent with timeouts := 1 }.timeouts < 2 ∧
    2 ≤ { linkSent with timeouts := 2 }.timeouts ∧ { linkSent with pcoal := true }.pcoal = true ∧
    { linkSent with credits := [15, 16, 16, 16] }.credits[(0 : BitVec 2).toNat]? = some 15 ∧ 15 + (1 : BitVec 5).toNat ≤ 16 ∧
    16 < 15 + (2 : BitVec 5).toNat := by decide +kernel

/-- Two frames wait; ACK_RX of 0 releases the first (R299). -/
theorem test_ack_releases :
    gives (.ackRx 0 0) (port0 linkSent) (fun t => (linkOf t 0).rbuf.map (·.seq) = [1]) = true := by decide +kernel

/-- An UP link of version 2 that updates its keys, and an exchange of which CERTS and the own SECRET are there. -/
def kxHalf (f : KeyEx → KeyEx) : KeyEx := f { KeyEx.init with certs := some [1], own := some ([2], [3]) }
def updating : State := regsOf (port0 { linkKeyed with kx := kxHalf fun x => { x with update := true } }) [(pgPrt 0 + 0x54, 2)]

theorem wit_LinkKeysAreExchanged :
    updates updating 0 = true ∧ (linkOf updating 0).kx.update = true ∧ (linkOf updating 0).kx.certs = some [1] ∧
    (linkOf updating 0).kx.own = some ([2], [3]) ∧ updates base 0 = false ∧
    regField (regsOf updating [(pgSec + 0x94, 1)]) (pgSec + 0x94) 0 16 ≠ 0 ∧
    regField (regsOf updating [(pgSec + 0x94, 0)]) (pgSec + 0x94) 0 16 = 0 ∧
    (linkOf (port0 (linkIn .key)) 0).state = .key ∧ (linkIn .key).kx.certs = none ∧
    (let x := kxHalf id; x.certs ≠ none ∧ x.own ≠ none ∧ x.secret = none) ∧
    (kxHalf fun x => { x with finish := some [4] }).finish ≠ none := by decide +kernel

/-! ## Loose traffic -/

/-- A request packet of operation `op` to node `dst` from node 5. -/
def pkt (dst op len addr tag ord : Nat) : LooseReq := { hdr := looseHdr dst 5 op 0 (if op = 4 then 2 else 0) 3 ord tag len addr, payload := 0xAB }

/-- The DRAM address and vault offset of the first carve-out row of vault 0. -/
def carveAddr : Nat := 0x1400000000
def carveU : Nat := 0x50000000

/-- Lines of a good carve-out or context row of vault 0, from vault offset `u`. -/
def goodLines (u n dom gen : Nat) : Tab Side :=
  (List.range n).map fun i => (lineKey 0 (u + 64 * i), { dom := dom, keyGen := gen, poison := false, bad := 0 })

/-- Bytes of a number as memory cells. -/
def cells (a : Nat) (l : List Byte) : List Host.Cell := (l.zipIdx.map fun x => (a + x.2, x.1)).filter fun x => x.2 ≠ 0

/-- Port 0 is UP; node 0x12 is reached by it from E0. One packet waits at E0. -/
def staged0 : Staged := { die := 0, inPort := none, inVc := 0, arrived := 0, escape := false, waited := false, pkt := pkt 0x12 1 64 0 7 0 }
def looseOut : State :=
  { port0 (linkIn .up) with
    loose.route := [(0x12, 0x40), (65536 + 0x12, 0x40)]
    loose.staged := [staged0] }

theorem wit_LoosePacketsAreForwarded :
    looseOut.loose.staged = [staged0] ∧ staged0.die = 0 ∧ staged0.escape = false ∧ oDst staged0.pkt ≠ nodeId looseOut ∧
    oHops staged0.pkt < 63 ∧ 0 ∈ preferred looseOut staged0 ∧ looseUsable looseOut staged0 0 = true ∧
    tabGet [] 0 looseOut.loose.cmdq = [] ∧ staged0.inPort ≠ some 0 ∧ frozen looseOut (pgLse 0) = false ∧
    unitClass looseOut 0 (.loose 10) = .unclaimed ∧ unitClass looseOut 0 (.data 5) = .empty ∧
    lateFits looseOut 0 (.loose 10) = false ∧
    fitsLoose looseOut 0 (.loose 10) (unitNext looseOut 0 (.loose 10)) staged0 = true := by decide +kernel

/-- Endpoint queue 3 has a ring of two records in the carve-out, and its first record asks for a message. RX_IDLE has passed. -/
def origin3 : State :=
  { regsOf base [(pgLse 1 + 0x204 + 0x30, 0x14), (pgLse 1 + 0x208 + 0x30, 2), (pgLse 1 + 0x20C + 0x30, 0x10000)] with
    time.periods := 100000000
    vlt.mem := cells carveU (natBytes 22 (pkt 0x12 1 64 0 0 0).hdr.toNat)
    vlt.side := goodLines carveU 2 domCarve 1 }

theorem wit_EndpointOriginates :
    mayOriginate origin3 = true ∧ 2 ≤ epSize origin3 3 ∧ epHead origin3 3 ≠ epTail origin3 3 ∧
    (let x := engineLines origin3 1 .dma (epRecord origin3 3 (epHead origin3 3)) 2;
      ((x.1.bind originReq).map fun r => (oOp r, oDst r)) = some (1, 0x12) ∧ (takeSend x.2 0x12 3).isSome = true) ∧
    freeTag origin3 = some 0 ∧
    (let c : SendCtx := ⟨0x12, 3, 1, 0, false, none, false⟩; let s := { origin3 with loose.sendCtx := [c] };
      sendOf s 0x12 3 = some c ∧ freeTag s = some 0 ∧ pausedNow s 1 = false) := by decide +kernel

/-- Context 3 owns rows 0 to 9 of vault 0 and lets loose requests in; queue 17 has a ring of two records in the carve-out. -/
def serve3 : State :=
  { regsOf base [(pgVlt 0 + 0x40C, 0x000A0000), (pgLse 1 + 0x204 + 0x110, 0x14), (pgLse 1 + 0x208 + 0x110, 2)] with
    rai.ctx := [(3, { Ctx.init with state := .keyed, access := 4 })]
    sec.memKey := [(3, 9), (256, 1)]
    vlt.side := goodLines 0 1 3 9 }

theorem wit_RequestsArePerformed :
    serve3.loose.staged = [] ∧
    (∀ x ∈ [(1, 64, 0), (1, 64, 15), (2, 0, 0), (3, 64, 0), (5, 0, 0)], let q := oWith (pkt 0 1 x.2.1 x.2.2 9 0) x.1;
      looseBad q = false ∧ oDst q = nodeId serve3 ∧ oOrd q = 0 ∧ reqSrc q = 5 ∧ oStream q = 3) ∧
    recvOf serve3 5 3 = none ∧ serve3.loose.recvCtx.length < 4096 ∧
    (let x : RecvCtx := ⟨5, 3, 0, [], false⟩; recvOf { serve3 with loose.recvCtx := [x] } x.src x.stream = some x) ∧
    byteFld (oWith (pkt 0 1 64 0 9 0) 1).hdr.toNat 16 1 = 0 ∧ epFull serve3 17 = false ∧
    byteFld (oWith (pkt 0 1 64 15 9 0) 1).hdr.toNat 16 1 = 15 ∧
    dramMap serve3 0 = some (0, 0) ∧ dramOwner serve3 0 = some 3 ∧ regKey 0 = none ∧ dieServes serve3 0 = true ∧
    (ctx serve3 3).conf = false ∧ (ctx serve3 3).access.getLsbD 2 = true ∧ lineKind serve3 0 0 3 = (0, false) ∧
    isRetired serve3 0 0 0 = false ∧ regKey (oAddr (oWith (pkt 0 2 0 0x0F0000000014 9 0) 2)) = some 0x14 ∧
    regsDenied (regsOf base [(pgSec + 0x9C, 0)]) 0x14 = true := by decide +kernel

/-- A read request is answered with the line, STATUS 0 and its TAG (R325). -/
theorem test_rd_answers :
    gives (.rd (pkt 0 2 0 0 9 0)) { serve3 with vlt.mem := [(2, 5)] } (fun t => t.loose.staged.any fun y =>
      oOp y.pkt = 4 && oTag y.pkt = 9 && oLen y.pkt = 64 && y.pkt.payload = 0x50000) = true := by decide +kernel

theorem wit_StreamsEndByCompletionAndTimer :
    (let r := pkt 0 4 0 0 9 0; let q : OutReq := ⟨9, pkt 0x12 5 0 0 9 0⟩; let s := { base with loose.outReq := [q] };
      looseBad (oWith r 4) = false ∧ oDst (oWith r 4) = nodeId s ∧ s.loose.staged = [] ∧
      (s.loose.outReq.find? fun y => y.tag = oTag (oWith r 4)) = some q ∧ oOp q.req = 5 ∧
      (base.loose.outReq.find? fun y => y.tag = oTag (oWith r 4)) = none ∧ frozen base (pgLse 1) = false ∧
      s.loose.outReq.find? (fun y => y.tag = 9) = some q) ∧
    (let x : RecvCtx := ⟨5, 3, 0, [pkt 0 1 64 0 9 2], false⟩; let s := { base with loose.recvCtx := [x] };
      recvOf s 5 3 = some x ∧ x.closed = false ∧ x.window ≠ [] ∧ ∀ q ∈ x.window, oOrd q ≠ x.exp + 1) ∧
    (∀ b, let x : RecvCtx := ⟨5, 3, 0, [], b⟩; recvOf { base with loose.recvCtx := [x] } 5 3 = some x) ∧
    (let x : SendCtx := ⟨5, 3, 0, 0, true, some true, false⟩; sendOf { base with loose.sendCtx := [x] } 5 3 = some x ∧ x.closed ≠ none) := by
  decide +kernel

theorem wit_RoutesChangeWhenDrained :
    tablesOpen (regsOf base [(pgLse 2 + 0x40, 1)]) 2 = true ∧ tablesOpen base 2 = false ∧ drainedNow base 2 = true ∧
    (65535 : Nat) ≠ regField base (pgLse 2 + 0x60) 0 16 := by decide +kernel

/-- A command frame. -/
def cmd (dst code flags seq : Nat) : CmdFrame :=
  { hdr := BitVec.ofNat 176 (dst + 5 <<< 24 + code <<< 48 + flags <<< 56 + seq <<< 80 + 8 <<< 120), body := 0 }

theorem wit_CommandFramesTravel :
    cReserved { hdr := 0x10000, body := 0 } = true ∧ cReserved (cmd 0x12 1 0 3) = false ∧
    (let s := { base with loose.seen := [(5, 3, 0)] }; cmdSeen s (cmd 0x12 1 0 3) = true ∧ frozen s (pgLse 0) = false) ∧
    cmdSeen looseOut (cmd 0x12 1 0 3) = false ∧ cFlood (cmd 0x12 1 0 3) = false ∧ cDst (cmd 0x12 1 0 3) ≠ nodeId looseOut ∧
    cHops (cmd 0x12 1 0 3) < 63 ∧ cmdPort looseOut 0 0x12 = some 0 ∧ cmdPort looseOut 1 0x12 = some 0 ∧
    (tabGet [] 0 looseOut.loose.cmdq).length < 64 ∧
    (∀ n ∈ [7, 8], let w : CmdWait := ⟨cmd 0x12 1 2 3, n⟩; let s := { looseOut with loose.waits := [w] };
      (s.loose.waits.find? fun w => cSeq w.cmd = 3) = some w) := by decide +kernel

/-! ## Open ports -/

/-- Port 3 is an open port whose interface 0 is up, with address 0x02_0000_0001; receive queue 0 and transmit queue 0 of its die have
rings of four in the carve-out. -/
def open3 : State :=
  { regsOf base [(pgPrt 3 + 0x40, 2), (pgOpn 3 + 0x40, 4), (pgOpn 3 + 0x44, 1), (pgOpn 3 + 0x50, 1), (pgOpn 3 + 0x54, 2),
      (rxqKey 0 0 + 4, 0x14), (rxqKey 0 0 + 8, 0x80000004),
      (txqKey 0 0, 0x1000), (txqKey 0 0 + 4, 0x14), (txqKey 0 0 + 8, 0x80000004), (txqKey 0 0 + 12, 0x10000)] with
    vlt.mem := cells (carveU + 0x1000) (natBytes 32 (carveAddr + 0x2000 + 60 <<< 48 + 3 <<< 72))
    vlt.side := goodLines (carveU + 0x1000) 1 domCarve 1 ++ goodLines (carveU + 0x2000) 1 domCarve 1 }

def if3 : OpenIf := .port 3 0

/-- A frame of `n` bytes to `dst`, of EtherType `ty`, with some bytes after it. -/
def eth (n dst ty : Nat) (l : List Byte) : EthFrame :=
  { bytes := natBytesBE 6 dst ++ List.replicate 6 0 ++ natBytesBE 2 ty ++ l ++ List.replicate (n - 14 - l.length) 0, tp := 0 }

/-- A pause frame that pauses priority 0 for 5 quanta. -/
def pause : EthFrame := eth 60 0x0180C2000001 0x8808 [1, 1, 0, 1, 0, 5]

theorem wit_OpenInterfacesAreConfigured :
    ifOn open3 if3 = true ∧ regBit open3 (ifPage if3 + 0x44) (ifNo if3) = true ∧
    (let s := { regsOf open3 [(pgOpn 3 + 0x40, 0x44), (pgOpn 3 + 0x44, 0)] with opn.xoff := [(0, true)] };
      ifOn s if3 = true ∧ ifUp s if3 = false ∧ ifPfc s if3 = true ∧ tabGet false (ifBlk if3) s.opn.xoff = true) ∧
    regField base (openPortPage (.port 3) + 0x44) 0 4 = 0 ∧ regField open3 (openPortPage (.port 3) + 0x44) 0 4 ≠ 0 ∧
    (let s := regsOf base [(blkPage 3 + 0xE10, 31)]; bitsOf (regNat s (blkPage 3 + 0xE14) + (1 : Word).toNat * 0x100000000) 36 28 = 0 ∧
      bitsOf (regNat s (blkPage 3 + 0xE14) + (1 : Word).toNat * 0x100000000) 18 6 < blkQueues 3 ∧
      bitsOf (regNat s (blkPage 3 + 0xE14) + (1 : Word).toNat * 0x100000000) 26 4 = 0 ∧
      regField s (blkPage 3 + 0xE10) 0 8 < blkSteers 3) := by decide +kernel

theorem wit_OpenFramesMove :
    ifUp open3 if3 = true ∧ (∀ x ∈ [eth 60 1 0x0800 [], pause], 60 ≤ x.bytes.length ∧ x.bytes.length ≤ 9212 ∧
      tagCount x.bytes ≤ 1) ∧
    (let s := regsOf open3 [(pgOpn 3 + 0x40, 0x44)]; ifUp s if3 = true ∧ isPfc pause.bytes = true ∧ ifPfc s if3 = true ∧
      gives (.openFrameRx if3 pause) s (fun t => tabGet 0 (8 * ifKey if3) t.opn.paused ≠ 0) = true) ∧
    (isPfc pause.bytes && ifPfc open3 if3) = false ∧
    dstAccepted open3 if3 (dstMac (eth 60 0x020000000001 0x0800 []).bytes) = false ∧ frozen open3 (ifPage if3) = false ∧
    dstAccepted open3 if3 (dstMac (eth 60 0x000200000001 0x0800 []).bytes) = true ∧ if3 ≠ .mgt ∧
    rxQueue open3 if3 (eth 60 0x000200000001 0x0800 []) = 0 ∧ ringOn open3 (rxqKey 0 0) = true ∧
    60 + 64 ≤ rxSize open3 (rxqKey 0 0) ∧
    ringUsed open3 (rxqKey 0 0) + 0 + 1 < ringSize open3 (rxqKey 0 0) ∧ bufLevel open3 0 + 60 ≤ bufSize ∧
    ringFull (ringHead open3 (rxqKey 0 0)) (ringTail open3 (rxqKey 0 0)) (ringSize open3 (rxqKey 0 0)) = false ∧
    (let x : RxHeld := ⟨0, 0, [1], 60, ifPage if3⟩; let s := { open3 with opn.held := [x] };
      (s.opn.held.find? fun y => y.blk = 0 && y.queue = 0) = some x ∧ ringOn s (rxqKey 0 0) = true ∧
      x.len + 64 ≤ rxSize s (rxqKey 0 0)) ∧
    txTurn open3 0 0 = some 0 ∧ txTurn open3 0 0 ≠ some 1 ∧
    (let d := txNext open3 0 0; let l := d.1.getD [];
      d.1.isSome = true ∧ txGood open3 0 (bytesNat l) = true ∧ bitOf (byteFld (bytesNat l) 8 1) 2 = false ∧
      (engineBytes d.2 0 .openPort (byteFld (bytesNat l) 0 6) (byteFld (bytesNat l) 6 2)).1.isSome = true) := by
  decide +kernel

/-- A management datagram of second 0 with counter `n`, and its tag under key 5. -/
def mgmtCmd (n : Nat) : MgmtDatagram :=
  let d : MgmtDatagram := { port := 4000, secs := 0, counter := BitVec.ofNat 64 n, cmd := cmd 0 1 0 3, tag := 0 }
  { d with tag := BitVec.ofNat 128 (bytesNat (gcmTag (natBytes 32 5) (List.replicate 4 0 ++ natBytes 8 n) (mgmtBytes d) [])) }

def mgmt0 : State :=
  { regsOf base [(pgMgt + 0x70, 4000), (pgMgt + 0x40, 4), (pgMgt + 0x44, 1)] with
    sec.mgmtKey := some 5
    opn.mgmtCt := some 8 }

theorem wit_ManagementCommandsAreChecked :
    (4000 : BitVec 16).toNat = regField mgmt0 (pgMgt + 0x70) 0 16 ∧ ifUp mgmt0 .mgt = true ∧ mgmtGood mgmt0 (mgmtCmd 9) = true ∧
    mgmtGood mgmt0 (mgmtCmd 8) = false ∧ frozen mgmt0 pgMgt = false := by decide +kernel

/-! ## Raisings -/

/-- Plan slot 1 of a plan of `chips` packages whose image lies at address 0; context 0, of partition 0, has raising `r` of it and
number 7; the members' nodes are `nodes`, member 0 their parent. -/
def plan1 (chips : Nat) (nodes : List Nat) (r : Raising) : State :=
  { base with
    rai.plans := [(1, ⟨0, BitVec.ofNat 2048 (bytesAt [(0x10, chips), (0x24, 2), (0x28, 0x100), (0x38, 0x200)]), 2000, 0, 0⟩)]
    rai.lastSlot := 1
    rai.ctx := [(0, ctxIn { r with plan := 1, raiseId := 7 })]
    vlt.mem := cells 0x210 (nodes.flatMap fun n => natBytes 8 n) }

/-- One package; the raising in a state. -/
def one (st : RaiseState) : State := plan1 1 [] (inState st)

theorem wit_ArmLoadsARaising :
    (∀ st ∈ [RaiseState.none, .stopped, .faulted, .running, .held, .loaded, .prepared, .committed],
      (raising (one st) 0).state = st ∧ (planSlot (one st) (one st).rai.lastSlot).isSome = true ∧
      regField (one st) (pgTrl + 0x40) 0 2 ≠ 3 ∧ (ctx (one st) 0).succ = none) ∧
    (raising (one .none) 5).state = .none ∧ ((planSlot (one .none) 1).map fun q =>
      armCheck (regSet (one .none) (rReg 5 0x54) ((9 : BitVec 16).setWidth 32)) 5 9 q false) = some 1 := by decide +kernel

/-- Context 5, keyed in partition 0 without dies, may take the plan of slot 1, whose signer is its tenant. -/
def armQ : PlanSlot := ⟨0, BitVec.ofNat 2048 (bytesAt [(7, 11), (0x10, 1), (0x24, 1), (0x28, 0x100), (0x38, 0x200)]), 2000, 0, 3⟩
def armable (st : RaiseState) : State :=
  { base with
    rai.plans := [(1, armQ)]
    rai.lastSlot := 1
    rai.ctx := [(5, { ctxIn { inState st with plan := 1, raiseId := 7 } with tenant := some 3 })] }
def armS : State := regSet (armable .none) (rReg 5 0x54) ((9 : BitVec 16).setWidth 32)
def prepS : State := regsOf (armable .loaded) [(rReg 5 0x54, 7), (rReg 5 0x58, 9)]

/-- ARM and PREPARE pass where the energy is admitted, which rests on Config.baseFrame. -/
theorem wit_ArmPasses (h : admitted armS (ctx armS 5).part (hEnergyMax armQ.hdr) = true) : armCheck armS 5 9 armQ false = 0 := by
  unfold armCheck
  rw [if_neg (by decide +kernel), if_neg (by decide +kernel), if_neg (by decide +kernel), if_neg (by simp [h]),
    if_neg (by decide +kernel), if_neg (by decide +kernel), if_neg (by decide +kernel)]

theorem wit_PreparePasses (h : admitted prepS (ctx prepS 5).part (hEnergyMax armQ.hdr) = true) :
    phaseOne prepS 5 false ⟨(raising prepS 5).digest, 9, 0, 0, 0⟩ = 0 := by
  have hq : planSlot prepS (rOf prepS 5 false).plan = some armQ := by decide +kernel
  unfold phaseOne
  simp only [hq]
  rw [if_neg (by decide +kernel), if_neg (by decide +kernel), if_neg (by decide +kernel), if_neg (by decide +kernel),
    if_neg (by decide +kernel), if_neg (by decide +kernel), if_neg (by simp [h]), if_neg (by decide +kernel),
    if_neg (by decide +kernel), if_neg (by decide +kernel), if_neg (by decide +kernel)]

theorem wit_PrepareOperands :
    isMulti prepS 5 = false ∧ (raising prepS 5).state = .loaded ∧ BitVec.ofNat 64 (regPair prepS (rReg 5 0x58)) = 9 ∧
    rotWanted prepS (rImg prepS (raising prepS 5)).2 (ctx prepS 5).part = 0 ∧
    regField prepS (rReg 5 0x54) 0 16 = (raising prepS 5).raiseId.toNat ∧ (raising armS 5).state = .none ∧
    planSlot armS armS.rai.lastSlot = some armQ := by decide +kernel

/-- A raising of two packages in context 1 lives beside context 0's, whose raising is LOADED. -/
def beside2 : State :=
  let s := plan1 2 [0, 5] (inState .loaded)
  { s with rai.ctx := [(0, ctxIn { inState .loaded with plan := 2 }), (1, ctxIn { inState .running with plan := 1 })] }

theorem wit_RaisingCommandsFollowStates :
    (∀ st ∈ [RaiseState.none, .loaded, .prepared, .committed, .running, .held, .stopped, .faulted],
      isMulti (one st) 0 = false ∧ (raising (one st) 0).state = st ∧ regBit (one st) (pgTim0 + 0x70) 0 = false ∧
      (ctx (one st) 0).succ = none) ∧
    regField (regsOf (one .loaded) [(rReg 0 0x54, 7)]) (rReg 0 0x54) 0 16 = (raising (one .loaded) 0).raiseId.toNat ∧
    (let s := one .loaded; let r := raising s 0;
      phaseOne s 0 false ⟨r.digest, BitVec.ofNat 64 (regPair s (rReg 0 0x58)),
        BitVec.ofNat 64 (rotWanted s (rImg s r).2 (ctx s 0).part), 0, 0⟩ = 6) ∧
    (let q : Raising := { inState .loaded with plan := 1, raiseId := 7 };
      let s := { one .running with rai.ctx := [(0, { ctxIn (inState .running) with succ := some q })] };
      (ctx s 0).succ = some q ∧ q.state = .loaded ∧ hChips (rImg s q).2 ≤ 1) ∧
    (let s := one .loaded; rotBroken s (ctx s 0).part 0 (rImg s (raising s 0)).2 = false) ∧
    (let s := beside2; isMulti s 0 = false ∧ (raising s 0).state = .loaded ∧
      rotBroken s (ctx s 0).part 0 (rImg s (raising s 0)).2 = true) ∧
    { inState .running with holdAt := some 5 }.holdAt ≠ none ∧ (inState .running).holdAt = none ∧
    liveState .committed = true ∧ liveState .prepared = false := by decide +kernel

/-- STOP on a held raising whose STOP_AT is 9 (R353). -/
theorem test_rcmd_stop :
    gives (.rcmdStop 0) (regsOf (one .held) [(rReg 0 0x60, 9)]) (fun t => (raising t 0).stopAt = some 9) = true := by decide +kernel

/-- A command frame from node 5 about raising 7, with a body. -/
def about7 (body : Nat) : CmdFrame := { hdr := BitVec.ofNat 176 (5 <<< 24 + 7 <<< 64 + 64 <<< 120), body := BitVec.ofNat 512 body }

theorem wit_ReceivedCommandsActOnTheirRaising :
    cRaiseId (about7 0) = 7 ∧
    (∀ st ∈ [RaiseState.prepared, .committed, .running, .held], cmdCtx (one st) 7 true = some (0, false) ∧
      cmdCtx (one st) 7 false = some (0, false) ∧ (raising (one st) 0).state = st) ∧
    (raising (one .prepared) 0).digest.toNat = cBody (about7 0) 0 32 ∧
    (raising (one .prepared) 0).startTick = BitVec.ofNat 64 (cBody (about7 0) 32 8) ∧
    (raising (one .prepared) 0).digest.toNat ≠ cBody (about7 1) 0 32 ∧
    (let s := plan1 3 [0, 5, 6] (inState .prepared); let r := raising s 0; let v := deliverCmd s (cWith (about7 0) 7);
      r.answered = false ∧ cBody (about7 0) 0 1 = 0 ∧ rKids v r = [1, 2] ∧
      ((rKids v r).find? fun k => rNode v r k = cOrigin (about7 0)) = some 1 ∧ r.acks = []) ∧
    (∀ code ∈ [6, 4], let s := plan1 2 [5, 0] (inState .loaded); let v := deliverCmd s (cWith (about7 1) code); let r := raising s 0;
      cmdCtx s 7 true = some (0, false) ∧ cmdCtx s 7 false = some (0, false) ∧ cBody (about7 1) 0 32 = 1 ∧ rKids v r = [] ∧ rMember v r = 1 ∧ phaseOne v 0 false ⟨1, 0, 0, 0, 0⟩ = 2) ∧
    epFull (regsOf base [(pgLse 1 + 0x208 + 0x1F0, 2)]) 31 = false ∧
    (ctxSet edge0 0 0).isSome = true ∧ (raising edge0 0).state = .running ∧
    (raising edge0 0).frame < BitVec.ofNat 64 (cBody (about7 (6 <<< 64)) 8 8) ∧
    cmdCtx edge0 7 true = some (0, false) ∧ cmdCtx edge0 7 false = some (0, false) ∧
    cmdCtx base 7 true = none ∧ cmdCtx base 7 false = none := by decide +kernel

/-- Member 1 of two, on this package, with the tick on its grid. -/
def prepM : State :=
  { regsOf (plan1 2 [5, 0] (inState .loaded)) [(pgTim2 + 0x40, 0x80000000), (pgTim0 + 0x44, 1)] with
    rai.plans := [(1, ⟨0, BitVec.ofNat 2048 (bytesAt [(7, 11), (0x10, 2), (0x24, 2), (0x28, 0x100), (0x38, 0x200)]), 2000, 0, 3⟩)]
    rai.ctx := [(0, { ctxIn { inState .loaded with plan := 1, raiseId := 7 } with tenant := some 3 })] }
def prepared9 : CmdFrame := about7 (9 <<< 256)
def seenM : State := deliverCmd prepM (cWith prepared9 6)

theorem wit_ReceivedPreparePasses (h : admitted seenM (ctx seenM 0).part (hEnergyMax (rImg prepM (raising prepM 0)).2) = true) :
    phaseOne seenM 0 false ⟨BitVec.ofNat 256 (cBody prepared9 0 32), 9, 0, 0, 0⟩ = 0 := by
  have hq : planSlot seenM (rOf seenM 0 false).plan = some ⟨0, (rImg prepM (raising prepM 0)).2, 2000, 0, 3⟩ := by decide +kernel
  unfold phaseOne
  simp only [hq]
  rw [if_neg (by decide +kernel), if_neg (by decide +kernel), if_neg (by decide +kernel), if_neg (by decide +kernel),
    if_neg (by decide +kernel), if_neg (by decide +kernel), if_neg (by simp [h]), if_neg (by decide +kernel),
    if_neg (by decide +kernel), if_neg (by decide +kernel), if_neg (by decide +kernel)]

theorem wit_ReceivedPrepareOperands :
    cmdCtx prepM (cRaiseId prepared9) true = some (0, false) ∧ cmdCtx prepM (cRaiseId prepared9) false = some (0, false) ∧
    rKids seenM (raising prepM 0) = [] ∧ rMember seenM (raising prepM 0) = 1 ∧ BitVec.ofNat 64 (cBody prepared9 32 8) = 9 ∧
    BitVec.ofNat 64 (cBody prepared9 40 8) = 0 := by decide +kernel

theorem wit_PhaseTimersReturnToLoaded :
    (let s := plan1 3 [0, 5, 6] { inState .prepared with acks := [⟨1, 0, 1⟩] }; let r := raising s 0;
      (ctx s 0).succ = none ∧ r.state = .prepared ∧ r.answered = false ∧ rMember s r = 0 ∧
      ((rKids s r).find? fun k => !(r.acks.any fun a => a.member = k)) = some 2 ∧ r.startTick ≤ s.time.tick) ∧
    (let s := { plan1 3 [5, 0, 6] (inState .prepared) with vlt.mem := cells 0x210 ([5, 0, 6 + 1 <<< 24].flatMap fun n => natBytes 8 n) };
      let r := raising s 0;
      rMember s r = 1 ∧ ((rKids s r).find? fun k => !(r.acks.any fun a => a.member = k)) = some 2) := by decide +kernel

/-- Partition 0 has context 0's state loaded and does nothing (or was stopped). -/
def waiting0 (r : Raising) (k : PeriodKind) : State :=
  { base with
    rai.part := [(0, { PartSt.init with kind := k, run := some 0 })]
    rai.ctx := [(0, ctxIn r)] }

theorem wit_RaisingsMoveAtTicks :
    (let s := waiting0 (inState .committed) .none; startDue s 0 = true ∧ gateBits (part s 0) = 0 ∧ ctxClusters s 0 = [] ∧
      hdrPorts (ctxImg s 0).2 = [] ∧ isMulti s 0 = false ∧ (∀ e < 3, (ctxSet s e 0).isNone = true) ∧ trailOn s = false ∧
      s.rai.faults = [] ∧ s.rai.trail = [] ∧ s.edge.pegWait = [] ∧ (raising s 0).armedTrig = false ∧ (raising s 0).began = false ∧
      (raising s 0).replay = false ∧ (raising s 0).holdAt = none) ∧
    (let s := waiting0 { inState .running with began := true, frame := 4, stopAt := some 5 } .stopped;
      liveState (raising s 0).state = true ∧ (raising s 0).stopAt ≠ none ∧ waitsFor s 0 0 = true ∧
      frameDue s 0 (raising s 0).stopAt = true) ∧
    (let s := waiting0 { inState .running with began := true, frame := 4, holdAt := some 5 } .held;
      frameDue s 0 (raising s 0).holdAt = true ∧ (part s 0).run = some 0 ∧ (part s 0).kind = .held) ∧
    (let s := waiting0 { inState .held with resumeAt := some 0 } .held;
      (raising s 0).resumeAt = some 0 ∧ (0 : BitVec 64) ≤ s.time.tick ∧ waitsFor s 0 0 = false) ∧
    (let q : Raising := { inState .committed with stopFrame := 5 };
      let s := { waiting0 { inState .running with began := true, frame := 4 } .stopped with
        rai.ctx := [(0, { ctxIn { inState .running with began := true, frame := 4 } with succ := some q })] };
      (ctx s 0).succ = some q ∧ waitsFor s 0 0 = true ∧ q.stopFrame.toNat ≤ nextFrame s 0) ∧
    (planSlot (one .none) (one .none).rai.lastSlot).isSome = true ∧ othersLive (one .none) 0 = false ∧ ctxLive (one .none) 0 = false := by
  decide +kernel

theorem wit_NodeTrailAndTrace :
    anyRaising base = false ∧ (∀ p < 48, portUp base p = false) ∧ anyRaising run0 = true ∧ wfield 2 0 2 ≠ 3 ∧
    (2 : Word).getLsbD 1 ≠ regBit run0 (pgTrl + 0x40) 1 ∧
    (let s := { regsOf base [(traceKey + 8, 0x80000002)] with rai.trace := [5] };
      s.rai.trace = 5 :: [] ∧ ringOn s traceKey = true ∧
      ringFull (ringHead s traceKey) (ringTail s traceKey) (ringSize s traceKey) = false) := by decide +kernel

/-! ## Partitions, debug and plans -/

/-- An apply waits for the present tick; the staged map gives `p1` to partition 1. -/
def mapDue (p1 : Nat) : State :=
  { regsOf base [(pgDieS + 0x104, BitVec.ofNat 32 p1)] with rai.pmap := some ⟨none, true⟩ }

theorem wit_PartitionMapIsApplied :
    base.rai.pmap = none ∧ mapCheck base (some (wfield 0xF2 4 4)) = 0 ∧
    (let s := regsOf base [(pgDieS + 0x100, 1), (pgDieS + 0x104, 1)]; mapCheck s (some 15) = 1 ∧ s.rai.pmap = none) ∧
    (mapDue 0).rai.pmap ≠ none ∧ mapCheck (mapDue 0) none = 0 ∧ (∀ k < 16, createdIn (mapDue 0) k = []) ∧
    mapCheck (mapDue 0x10001) none = 0 ∧
    (let s := { run0 with rai.pmap := some ⟨none, true⟩ }; mapCheck s none = 2) ∧
    (let busy := fun (s : State) (p : Nat) =>
        (ctxList s).any fun c => (ctx s c).part = p && ((ctxLive s c && isMulti s c) || succMulti s c);
      busy base 15 = false ∧ busy (plan1 2 [0, 5] (inState .committed)) 0 = true ∧
      busy (let s := plan1 2 [0, 5] (inState .none); { s with
        rai.ctx := [(0, { ctxIn (inState .running) with succ := some { inState .committed with plan := 1 } })] }) 0 = true) := by
  decide +kernel

/-- Partition 0 holds C0, is halted, and serves context 0, confidential or not. -/
def halted0 (conf : Bool) : State :=
  { run0 with
    rai.part := [(0, { PartSt.init with halted := true, run := some 0 })]
    rai.ctx := [(0, { ctxIn (inState .running) with conf := conf })] }

theorem wit_HaltsPoliciesAndAudits :
    partOfDie run0 0 = some 0 ∧ partOfDie run0 15 = none ∧
    (∀ b ∈ [true, false], partOfDie (halted0 b) 0 = some 0 ∧ (part (halted0 b) 0).halted = true ∧
      (part (halted0 b) 0).run = some 0 ∧ (ctx (halted0 b) 0).conf = b ∧ ctxLive (halted0 b) 0 = true) ∧
    ctxLive base 255 = false ∧ ctxLive run0 0 = true := by decide +kernel

/-- A load of slot 63 from the first carve-out row of vault 0, whose lines are good up to the `n`-th; the header has a SIG_OFF. -/
def loading (n sig : Nat) : State :=
  { base with
    rai.load := some ⟨63, carveAddr⟩
    vlt.mem := cells (carveU + 0x88) (natBytes 8 sig)
    vlt.side := goodLines carveU n domCarve 1 }

theorem wit_PlansAreLoadedAndUnloaded :
    regBit base (pgDbgS + 0x44) 0 = false ∧ regBit (regsOf base [(pgDbgS + 0x44, 1)]) (pgDbgS + 0x44) 0 = true ∧
    planInUse base 63 = false ∧ planInUse (one .loaded) 1 = true ∧
    (planSlot { one .none with rai.load := some ⟨1, 0⟩ } 1).isSome = true ∧
    planSlot (loading 4 0) 63 = none ∧ planCount (loading 4 0) < 64 ∧ carveAll base 0 256 = false ∧
    carveAddr % 64 = 0 ∧ carveAll (loading 4 0) carveAddr 256 = true ∧
    (loadRead (loading 3 0) carveAddr 0 4).1 = some 192 ∧ (loadRead (loading 4 0) carveAddr 0 4).1 = none ∧
    (let r := loadRead (loading 4 0xFF) carveAddr 0 4; sigOffOk (BitVec.ofNat 2048 (dramNat r.2 carveAddr 256)) = false) ∧
    (let r := loadRead (loading 21 0x100) carveAddr 0 4; let h := BitVec.ofNat 2048 (dramNat r.2 carveAddr 256);
      sigOffOk h = true ∧ carveAll r.2 carveAddr (imgSize h) = true ∧
      (loadRead r.2 carveAddr 256 ((imgSize h + 63) / 64 - 4)).1 = none) := by decide +kernel

/-- An image without the magic is refused with RESULT 1 at offset 0 (R463). -/
theorem test_load_bad_header :
    gives .loadComplete (loading 21 0x100) (fun t => regField t (pgDbgS + 0x44) 4 4 = 1 && regPair t (pgDbgS + 0x50) = 0) = true := by
  decide +kernel

/-! ## The security processor -/

/-- Context 3 is KEYED in partition 0 and can be changed by `f`. -/
def keyed3 (f : Ctx → Ctx) : State :=
  { base with rai.ctx := [(3, f { Ctx.init with state := .keyed })] }

theorem wit_ContextsHaveKeysAndCertificates :
    { base with sec.reissue := true }.sec.reissue = true ∧ base.sec.reissue = false ∧ (ctx base 3).state = .free ∧
    (ctx (keyed3 id) 3).state ≠ .free ∧ sealState base ≠ 2 ∧ liveDies base 15 = 0 ∧
    (let s := regsOf base [(pgDieS + 0x83C, 0x8000)]; liveDies s 15 ≠ 0 ∧ bitOf (liveDies s 15) 15 = true ∧ sealState s ≠ 2) ∧
    ctxHolds (keyed3 id) 3 = false ∧ ctxHolds (keyed3 fun x => { x with raising := inState .loaded }) 3 = true := by decide +kernel

/-- A sealed message with counter 0; its tag under the session key 7 (AES-256-GCM of the body, nonce 0). -/
def sealed0 (n : Nat) : SealedMsg :=
  { counter := 0, body := List.replicate n 5,
    tag := if n = 1 then 270122158057846079043191247830606032030 else 100208137730914620283039708222869904212 }

def session3 (conf : Bool) : State := keyed3 fun x => { x with session := some 7, sessIn := some 0, conf := conf }

/-- A session between its messages 2 and 3. -/
def open5 : SessOpen := { nt := [5], nd := [6], sd := [7], trans := [1], tenant := 9 }

theorem wit_HostSessionsAreSealed :
    (keyed3 id).sec.reissue = false ∧ (List.replicate 512 (1 : Byte)).length = 512 ∧ (ctx (keyed3 id) 3).tenant = none ∧
    (let s := keyed3 fun x => { x with sessOpen := some open5, ck := some 1, tenant := some 9 };
      (ctx s 3).sessOpen = some open5 ∧ (ctx s 3).ck = some 1 ∧ (ctx s 3).tenant = some 9) ∧ (List.replicate 1024 (1 : Byte)).length = 1024 ∧
    sealedCheck (session3 false) 3 (sealed0 128) = 0 ∧
    (sealed0 128).body.length = 128 ∧ sealedCheck (session3 true) 3 (sealed0 1) = 0 ∧ (sealed0 1).body.length = 1 ∧
    (ctx (session3 false) 3).conf = false ∧ (ctx (session3 true) 3).conf = true ∧
    sealedCheck (session3 false) 3 { sealed0 1 with tag := 0 } = 2 ∧
    sealedCheck (session3 false) 3 { sealed0 1 with counter := 1 } = 7 ∧ sealedCheck base 3 (sealed0 1) = 4 := by decide +kernel

/-- The header of a bundle of one chunk for one device, any tenant. -/
def bundleHdr : List Byte := natBytes 256 (bundleMagic + 1 <<< 32 + 1 <<< 48 + 1 <<< 96)
/-- The device-set entry of this device. -/
def bundleSet : List Byte := natBytes 576 2

/-- An import under K_w 5 of a bundle of `n` chunks of which `k` have passed. The chunk at `carveAddr`, of 64 bytes for vault 0 and row 0
of the window of context 3, is good. -/
def import3 (n k : Nat) : State :=
  let hdr := natBytes 16 (64 <<< 64)
  let ct := List.replicate 64 (9 : Byte)
  let tag := gcmTag (natBytes 32 5) (List.replicate 4 0 ++ natBytes 8 k) hdr ct
  { regsOf (keyed3 fun x => { x with importing := some { key := 5, next := k, chunks := n, stream := [] } })
      [(pgVlt 0 + 0x40C, 0x000A0000), (pgDieS + 0x800, 1)] with
    vlt.mem := cells carveU (hdr ++ ct ++ tag)
    vlt.side := goodLines carveU 2 domCarve 1 }

theorem wit_BundlesAreImported :
    (ctx (keyed3 id) 3).importing = none ∧ bundleHdr.length = 256 ∧ byteFld (bytesNat bundleHdr) 0 4 = bundleMagic ∧
    byteFld (bytesNat bundleHdr) 4 2 = 1 ∧ byteFld (bytesNat bundleHdr) 6 2 = 1 ∧ byteFld (bytesNat bundleHdr) 0xC 4 ≠ 0 ∧
    byteFld (bytesNat bundleHdr) 0x50 176 = 0 ∧ bundleSet.length = 576 * 1 ∧ (bundleWrap (keyed3 id) bundleSet).isSome = true ∧
    byteFld (bytesNat bundleHdr) 8 4 ≤ (keyed3 id).sec.svn.getD 0 0 ∧ byteFld (bytesNat bundleHdr) 0x10 64 = 0 ∧
    inCarve (import3 1 0) carveAddr = true ∧
    ((ctx (import3 1 0) 3).importing.map fun y => (importChunk (import3 1 0) 3 carveAddr y).2) = some (96, true) ∧
    ((ctx (import3 1 1) 3).importing.map fun y => ((importChunk (import3 1 1) 3 carveAddr y).2, decide (y.chunks ≤ y.next))) =
      some ((0, false), true) := by decide +kernel

/-- An owner command of a package without an owner, unsigned. -/
def ownerReq (arg : List Byte) (modulus sig : List Byte) : OwnerReq :=
  { rsv := 0, nonce := 0, arg := arg ++ List.replicate (256 - arg.length) 0, device := 1, modulus := modulus, signature := sig }

theorem wit_SealBreaksEraseKeys :
    (let s := { base with brd.aonOut := true }; s.brd.aonOut = true) ∧ base.brd.aonOut = false ∧ sealState base ≠ 1 ∧
    (let s := regsOf base [(pstKey 73, 1), (pgBrd + 0x44, 2)]; sealState s = 1 ∧ 2 ≤ regField s (pgBrd + 0x44) 0 3) ∧
    (let s := regsOf base [(pstKey 73, 1), (pgBrd + 0x44, 1)]; sealState s = 1 ∧ regField s (pgBrd + 0x44) 0 3 < 2) := by decide +kernel

/-! ## Energy and power -/

theorem wit_EnergyIsCharged :
    (let m : List GroupMeas := [⟨0, 7⟩, ⟨38, 6⟩]; let s := { base with nrg.window := [(0, 8), (38, 8)] };
      (m.map (·.group)).Nodup ∧ (∀ x ∈ m, estimateOf s x.group.val ≠ 0) ∧
      ¬(7 * 0x4000 / 8 < 0x3800) ∧ 6 * 0x4000 / 8 < 0x3800) ∧
    (let s := { base with rai.part := [(15, { PartSt.init with thinRun := 1 })] };
      max 1 (regField (regsOf s [(pgNrg + 0x6C, 0)]) (pgNrg + 0x6C) 0 16) ≤ (part s 15).thinRun) ∧
    (part base 15).thinRun < max 1 (regField base (pgNrg + 0x6C) 0 16) := by decide +kernel

/-- A VADD in FP32 with no gate counts its 256 lanes on its cluster's page, for the partition (R393, R395). -/
theorem test_active_lanes_count :
    gives (.vadd i0 .v0 (vop 0 2 0)) run0 (fun t => (advance t 1).nrg.now = [⟨pgClu 0, some 0, .lane, 256⟩]) = true := by decide +kernel

/-- 500,000 column accesses at 499,200 fJ draw 249,600,000,000 fJ for their partition (R392, R393, R395). -/
theorem test_counted_amount :
    (let s := { regsOf base [(coefKey 6, 499200)] with nrg.prev := [⟨pgVlt 3, some 2, .column, 500000⟩] };
      ((countedEvents s).map (eventAmount s)).map (fun a => (a.raw, a.part.map (·.val))) = [(249600000000, some 2)]) := by
  decide +kernel

/-- A die whose regions are gated. -/
def gatedDie (d : Nat) : State :=
  regsOf base ((List.range 4).map fun r => (pgRgn (4 * d + r) + 0x24, 0x22))

theorem wit_PowerStatesChange :
    (pageOfId ⟨15, 1, 63⟩).isSome = true ∧
    (∀ x ∈ [(⟨15, 1, 63⟩, PowerBlk.cluster 1023), (⟨15, 3, 63⟩, .planer 1023), (⟨15, 4, 3⟩, .region 63), ((⟨15, 5, 0⟩ : PageId), .die 15)],
      (pageOfId x.1).bind pageBlock = some x.2) ∧
    powerCur base (.cluster 1023) = 0 ∧ powerBusy base (.cluster 1023) = false ∧ powerListed (.cluster 1023) 3 = true ∧
    powerListed (.region 63) 3 = false ∧ powerCheck base (.cluster 1023) = none ∧ (powerCheck base (.region 63)).isSome = true ∧
    powerBusy (regsOf base [(pgClu 1023 + 0x24, 0x100)]) (.cluster 1023) = true ∧
    powerCheck (gatedDie 15) (.die 15) = none ∧ powerListed (.die 0) 3 = false ∧
    (∀ g ∈ [0, 2, 3], powerGoal { base with pwr.busy := [(.die 15, BitVec.ofNat 2 g)] } (.die 15) = some g) ∧
    (let s := { base with pwr.busy := [(.die 1, 2)], vlt.hostq := [(64, [⟨.access ⟨.core, 0, false, 4, 0, false, 0⟩ 0, false, false⟩])] };
      powerGoal s (.die 1) = some 2 ∧ accessQueued s 1 = some 64) ∧ accessQueued base 15 = none ∧
    (pageServed base (pgClu 1023)).isSome = true ∧ (pageServed base (pgPwr 15)).isSome = true ∧
    (let s := regsOf base [(pgDieS + 0x310 + 60, 4)]; pageServed s (pgClu 1023) = none ∧ pageServed s (pgPwr 15) = none) ∧
    (let s := { regsOf base [(pgClu 1023 + 0x24, 0x103)] with pwr.busy := [(.cluster 1023, 0)] };
      powerCur s (.cluster 1023) = 3 ∧ powerGoal s (.cluster 1023) = some 0) ∧
    powerListed (.unitM 1023) 3 = true ∧ clusterHeld base 1023 = false := by decide +kernel

/-! ## Resets and boot -/

/-- Die 15 in a PRESET_STATE. -/
def preset15 (n : Nat) : State := regsOf base [(pgDieS + 0x310 + 60, BitVec.ofNat 32 n)]

theorem wit_PartialResetsEraseTheDie :
    (∀ n ∈ [0, 2, 3, 4, 5], presetState (preset15 n) 15 = n) ∧ wfield 0xF 0 4 = 15 ∧ wfield 0x10C 0 4 ≠ 0 ∧
    (0xC : Word).getLsbD 8 = false ∧ ((dieVaults 12).any fun v => (carveRows base v).2 ≠ 0) = true ∧
    ((dieVaults 15).any fun v => (carveRows base v).2 ≠ 0) = false ∧
    regField (preset15 2) (pgDie 15 + 0x24) 0 2 ≠ 3 ∧
    regField (regsOf (preset15 2) [(pgDie 15 + 0x24, 3)]) (pgDie 15 + 0x24) 0 2 = 3 ∧
    15 ∈ { base with brd.presetPend := [15] }.brd.presetPend ∧ 15 ∉ base.brd.presetPend ∧
    dieEntering { base with brd.presetPend := [15], pwr.busy := [(.die 15, 2)] } 15 = true := by decide +kernel

/-- A package whose boot image is in slot 0 with an empty body, and whose Zenber is empty: both hashes are that of no bytes. -/
def shepherd0 : State :=
  { base with
    brd.bootHash := sha512 []
    brd.zenber := some (carveAddr, 0, 0, sha512 []) }

theorem wit_ResetsKeepWhatPersists :
    base.brd.pstPend = [] ∧ wfield 0xA55A0000 16 16 = 0xA55A ∧ wfield 0xA55B0000 16 16 ≠ 0xA55A ∧
    (shepherdCheck shepherd0).1 = true ∧ (shepherdCheck base).1 = false ∧
    (let s := { regsOf base [(pgBrd + 0x48, 0x80000000)] with time.periods := msPeriods };
      regBit s (pgBrd + 0x48) 31 = true ∧ s.brd.wdtFrom + max 1 (regField s (pgBrd + 0x48) 0 16) * msPeriods ≤ nowPeriods s ∧
      frozen s pgBrd = false) ∧
    regBit base (pgBrd + 0x48) 31 = false ∧
    (tabGet (0 : BitVec 64) (timerNo 31 .vstimecmp) base.brd.timerCmp).toNat ≤ nowPeriods base / 8 ∧
    nowPeriods base / 8 < (tabGet (0 : BitVec 64) 95 [(95, (1 : BitVec 64))]).toNat ∧ timerNo 31 .vstimecmp = 95 := by decide +kernel

theorem wit_BootNeedsVerifiedImages :
    (∀ n ∈ [0, 1, 2, 6, 7], regField (regsOf base [(pgBrd + 0x44, BitVec.ofNat 32 n)]) (pgBrd + 0x44) 0 3 = n) ∧
    base.time.pllOn = false ∧ { base with time.pllOn := true }.time.pllOn = true ∧ base.sec.sealLatch = false ∧
    regBit (regsOf base [(pgBrd + 0x44, 7)]) (pgBrd + 0x44) 17 = false ∧ 0x600 ≤ (List.replicate 0x600 (0 : Byte)).length := by
  decide +kernel

/-! ## Persistent store and board -/

theorem wit_PersistentStoreAndFlash :
    pstAllowed base .sec 0 = true ∧ pstAllowed base .core 128 = true ∧ pstAllowed base .core 127 = false ∧
    pstAllowed (regsOf base [(pstKey 768, 0x80000000)]) .sec 768 = false ∧
    regBit (regsOf base [(pstKey 768, 0x80000000)]) (pstKey 768) 31 = true ∧ regBit base (pstKey 768) 31 = false ∧ regBit base (pstPage 1023 + 0xC) 0 = false ∧
    regBit (regsOf base [(pgPst 3 + 0xC, 1)]) (pstPage 1023 + 0xC) 0 = true ∧ pstPending base 3 = none ∧
    pstPending { base with brd.pstPend := [(3, (255, 7))] } 3 = some (255, 7) ∧
    regBit base (pgBrd + 0x64) 8 = false ∧ regBit (regsOf base [(pgBrd + 0x64, 0x100)]) (pgBrd + 0x64) 8 = true ∧
    base.brd.flashBusy = none ∧
    (let s := { base with brd.flashBusy := some (2, 0x20000, carveAddr, 64), vlt.side := goodLines carveU 1 domCarve 1 };
      inCarve s carveAddr = true ∧ (engineBytes s 3 .sec carveAddr 64).1 = some (List.replicate 64 0)) := by decide +kernel

theorem wit_BoardConditionsAreTaken :
    (let s := regsOf base [(pgBrd + 0x80 + 60, 0x8040), (pgBrd + 0x100, 1)];
      (regGet s (pgBrd + 0x80 + 60)).getLsbD 15 = true ∧ (regGet s (pgBrd + 0x80)).getLsbD 15 = false ∧
      ¬s.brd.vrFrom + max 1 (regField s (pgBrd + 0x100) 0 8) * msPeriods ≤ nowPeriods s ∧
      (let u := { s with time.periods := msPeriods };
        u.brd.vrFrom + max 1 (regField u (pgBrd + 0x100) 0 8) * msPeriods ≤ nowPeriods u)) ∧
    (let s := { base with brd.tripNew := true, rai.ctx := [(0, { ctxIn (inState .running) with
        succ := some (inState .committed) }), (1, ctxIn (inState .prepared))] };
      (s.rai.ctx.map (·.1)).Nodup ∧ ctxLive s 0 = true ∧ (raising s 1).state = .prepared ∧ (ctx s 1).succ = none) ∧ (([⟨19, 841, 0⟩, ⟨0, 8, 9⟩] : List TempReading).map (·.die)).Nodup ∧
    base.brd.tripNew = false ∧ { base with brd.tripNew := true }.brd.tripNew = true ∧ (base.rai.ctx.map (·.1)).Nodup ∧
    base.brd.thermTrip = false ∧
    gives (.tempUpdate [⟨19, 841, 0⟩]) base (fun t => (List.range 20).any (tripOver t)) = true := by decide +kernel

theorem wit_RegistersFollowTheirAccessCodes :
    dramMap base 0x17FFFFFFFFF ≠ none ∧ dramMap base 0x18000000000 = none ∧ regKey 0x0F0000000014 = some 0x14 ∧
    windowAt (kDie 0x14) (0x14 % 0x1000000) = none ∧ (pageServed base 0x14).isSome = true ∧
    pageServed base 0x3000 = none ∧ pageServed base (pgTim2 + 0x10) = some (.tim2, 2) ∧
    regRow .tim2 0xFFC = none ∧ kOff (pgTim2 + 0x30) = 0x30 ∧ (0x0FFF013FFFFC : Nat) % 4 = 0 ∧ regKey 0x0FFF01000000 = none ∧
    pageOfId ⟨0, 1, 64⟩ = none ∧ (pageOfId ⟨19, 5, 0⟩).isSome = true ∧ regsWf base.regs = true := by decide +kernel

/-! ## A signed owner command -/

/-- The modulus of an owner's RSA key made for this test, and its PSS signature of OWNER_ENROL with NONCE 0 for the device of `base`. -/
def ownerModulus : List Byte := natBytes 512 (
    0x3f590798ea31f98d20b7240bc7ee172fed686fc684a733c2de846692302cd537b8610120fd5d5e35793e3cf77b1f9d0cbeb <<< 0 +
    0x735b924109c44e66cc3fefab75579690a8ca9275a80749905676c7572523fbc5770945b4351ca863ab42907ff8de6514fc87 <<< 400 +
    0x5aaf5e406e29281ff2a01f65307955bada05e071b6d429160e8ea648c1d231c0fd768bd8a4656ca7f80801300806ad4e3a6a <<< 800 +
    0xf3e8c91fb77fd5b95d7066cdb47937008814a31cb811e857f0b18749fca2c1970f04834496d9d233d0bcd3c46fae9a2b7497 <<< 1200 +
    0xb6b21fc82c1e13925f45be6477158e7e5a644466a1b0c13e16a56a5a091915b3ce54776839ba4561c107cf1a9ff20acd8355 <<< 1600 +
    0xeaa5ed1135e279ae74636ecc50856db32dcb91920d78e067e1ee76b5455b2074cad98484585c82e8448a6fe23b8c1d99b3fb <<< 2000 +
    0x5b5d02f066518ec17aaadbfe5f1193567562c2ce04380965727ee84752809235c0a0c446896a9d5ddbaf7751607a5477d050 <<< 2400 +
    0xa85bc36c820191508dd34515aa3d9dc04c740e97a4f437d04a3b7fcf899e0ac4414e45bf71c9e2c75b476af9498efa31ec58 <<< 2800 +
    0x1ea82c1c06e6a26699260ea107ef1a6d3b99a1aaad0fe25339ad346ca5608241c613f0452fbda021633bd57f51a843cad8b6 <<< 3200 +
    0x1593e489b8e3aec8eb89afa6371344a28af3b04edab402eac83d8949739787f23aa6d798cf20ae5ac08f0a357e83e76a0d6e <<< 3600 +
    0xf766aec2c10a54889e7e848 <<< 4000)
def ownerSignature : List Byte := natBytes 512 (
    0x83c3923b6cc9acb25253c0f26278b473eb21a9b17c973cd107325dda070e004c4340b80bf06feaff35d63bf87c781f4bd19b <<< 0 +
    0xb6577fb38d6a8f96008e34c9bcb053a791905a06554a74c1f10747c232cb31fac7bce5028055466f6a422119e8925e31170b <<< 400 +
    0xe296fb06c2e756063d4676295b8d0d837a0f35a907bc1b878c4c2b50a4ca03d5e3180a121f3db37e19ff69df4c18e9ba1d4f <<< 800 +
    0x95110157b2e31f5150ee48038e92dda36f6b2d06c6ea423e6e5103f890e6cd54dfa6847d11528dfe56d8ac2c1c30eacc3b4e <<< 1200 +
    0xc3e9a95f90228db1d0b8f414a9c6e0141621e208b371691aa76d0379f1eb374b3a6d5b01aaec42e6ce04620e53d5a0db4c42 <<< 1600 +
    0x19905caa092071b3a4c05d22be557e6cee0da05f67aeaac05d4c77d7bdd5ed35ba9dcb7be2a557efdfd62f72d253d1464899 <<< 2000 +
    0x655ec83d0dd9b005fc839210a2e7fce3ec4fac3435f093c97cf3bff328fe8aff3252fc74017a3df5ae6c9419a40c6a08d192 <<< 2400 +
    0x6fca737e6849eb7323287bfbbc72f015642e8dca4ee779598d862a3f44a682e357bf06a567facdfb7766efec0f73257396d4 <<< 2800 +
    0x1974ef0c2a871e6393d80c6759edebb2a7f6b4c26c6f584cc9cf46eabaf72eeb0cb21329ef618b78aad654a0d6bcd4a75aec <<< 3200 +
    0xc0bfc6af73a5069086efde4457f5734dc2f39d30a510fa4df7680ac94b589521153712ebcf27de0da9a3c24e945b2cbdeda1 <<< 3600 +
    0xdaf16430bb422c9fbbf553cc <<< 4000)

/-- The command that a verified new owner gives passes every check with presence, and none without (R385, R386). -/
theorem test_owner_enrol_checks :
    ownerCheck { base with sec.presAsserted := true } 1 .new true (ownerReq [] ownerModulus ownerSignature) = 0 ∧
    ownerCheck { base with sec.presAsserted := true } 1 .new true { ownerReq [] ownerModulus ownerSignature with rsv := 1 } = 2 ∧
    ownerCheck { base with sec.presAsserted := true } 1 .new true { ownerReq [] ownerModulus ownerSignature with nonce := 1 } = 7 := by
  decide +kernel

/-- The signatures of the same key, as the owner's, under ROLLBACK and SEAL_ARM with ARG zeros; the owner's other commands are
signed in the same way, over their own code. -/
def ownerSig3 : List Byte := natBytes 512 (
    0x5703e85da7d8c8afc0e44f66941687ecbd6cfe9138ad7fdcfbc1aedd7bc316745e2c347e820d1267241a9919d104552f4320 <<< 0 +
    0x990667bee238d2b1f1af78f3c449cdfe86a0cb57983f7e606b457f285cab0414363674a9b32ac7d032dcccc7b710348fcd16 <<< 400 +
    0x4cb102c81ab677f2b9aed4ae4d42c941fde0ca9f5d93234cb39dad35468ad4537fd02331e92c7fa3e2b315197192899220da <<< 800 +
    0x98758adb4b519db20ee9ec050f66f35f983279e89e075812b2560ac268d181a0aba414521e69855f3113190e8e74286822a3 <<< 1200 +
    0x5e8b8571ff57f45868fd3d92678a082322ddb3f0c1ba8548d912f147ad821e428e21e7655a950c99e92e71b90b54b89d890e <<< 1600 +
    0x1dc63d234990417d2eba6c8dbf69bce30bdddf761867edd7c2a89e2db0a0cf4ead73406e7bb4601f8cbf398d800fa12cd6be <<< 2000 +
    0x44a7b1f0eb6363cdd0a6d29a3ffaf5aa08842af66e94efdfe356a13e42624386faedee06103c84937cf1beb6321b7d922764 <<< 2400 +
    0x8f8ddbc3777ed08263565d084611c759dd593a42052249d1203d3ec665e4090e2ba88136eb8ac68ae13771b00ec8d3ea3a56 <<< 2800 +
    0x38a14167083fb3a04917dacc27140678e80d3bae9bef0ebc7041bfa60307688691e5a7c9572f21b09373a567169ecfac9dd9 <<< 3200 +
    0x8f03b2b7c74111f74de33b834334b6ce125f1f770bb57ac559cf7c56214308bd6ec953e1acb79e23927b614fd395053bee64 <<< 3600 +
    0x81b27dbfcde6bba8fc6f9751 <<< 4000)
def ownerSig5 : List Byte := natBytes 512 (
    0xb997a2ff5f7b083bc66832d701313c3376a6b6593d82e5c051b6077a8f6ec8fff2a06088f6926207aa493a37444c9719226f <<< 0 +
    0xc6fd7e223f0284e3c4b3b977bee4089ea600491c1058a22712f8037efdd0bc25e129a2af5f2d79cd56244d81a83ef97d9453 <<< 400 +
    0xf667a4508b343ded8be61d3f6b15ed8a04caddb3f699f55721a6dc57e3ae6c8507dfb20157bba3320a73d5cb321015918943 <<< 800 +
    0x7c005a5b930088f87385b23d668e2d27f01821fdf5021cf9b5d6161b030c491ab99711bc444dc43071e14f27f7e7210c2975 <<< 1200 +
    0x698baf66e005bb589c29cf78bcdfaebd1693ae6e76f13b835ba28e433ce04b74fbf69e7cb3aa7f3f377728fed6bb9fd04281 <<< 1600 +
    0x736f519c0d19308a17c3bf1bc8ee9b9b795d12f2c6f885d9a375939525d787f56c0f2d1277df804ea1e77a593dcb1739fb37 <<< 2000 +
    0xf36dabb0031fe9b42d80e41b07fba4a3b481bc6650fabc95255aa70b943d81bdace3ada72fa0b12a6e8db5f220b76efdd0d7 <<< 2400 +
    0xb72c8c977dc2b17fd51c69645165b7867e52b59fe219cf769155f82e9beed4b3f7ef587f9416e8efa9e027a297efaff34467 <<< 2800 +
    0xd968cdb41812b21d3d090bfbba21dd20f230d97086395754f69ff6dc1301599aa8a27ac37cc12a680465b98f26b0d6e333c6 <<< 3200 +
    0xfbbb5996955c49e44143943a954cc984ded08fa9e48d2ba000a1656f3c55c3fc9fa562ea06b2cfde189ff625c6668c43eb52 <<< 3600 +
    0xfb0cce901943d6ec348b955c <<< 4000)

/-- The same package with that owner, and a minimum SVN of 1 for kind 0. -/
def owned : State := { regsOf (ownerStore base (some (sha512 ownerModulus))) [(pstKey 65, 1)] with sec.presAsserted := true }

theorem wit_owner_3 : ownerCheck owned 3 .owner true (ownerReq [] ownerModulus ownerSig3) = 0 := by decide +kernel
theorem wit_owner_5 : ownerCheck owned 5 .owner false (ownerReq [] ownerModulus ownerSig5) = 0 := by decide +kernel

theorem wit_OwnerCommandsAreChecked :
    ownerCheck { base with sec.presAsserted := true } 4 .ownerIfAny true (ownerReq [] ownerModulus ownerSignature) = 0 ∧
    argNat (ownerReq [] [] []) 0 4 ≤ 3 ∧ argNat (ownerReq [] [] []) 4 4 < minSvn owned 0 ∧ minSvn base 0 ≤ 0 ∧
    (∀ n ∈ [0, 1, 2], sealState (regsOf base [(pstKey 73, BitVec.ofNat 32 n)]) = n) ∧
    ownerCheck base 1 .new true (ownerReq [] [] []) ≠ 0 := by decide +kernel

/-! ## A tenant's signature, and a partner's chain -/

def finishSig : List Byte := natBytes 512 (
    0xbe76807f18da079dbef5d2eb05b73539d2c2d901f3529e99e9c85c5601bdfdac4453244e18863d59fa701271c2a76235fca8 <<< 0 +
    0x86927aeb986183bfd5074b0b4e93ccd068799dd1b2d6b9580c51805b75173b356482cea3c260829aad15ebd33de5a9b6d410 <<< 400 +
    0xdee22ea90243e4687ad02b04229ec7fa6353732bf02921f52a813e3a7b1de23b2c0b9511c5442aaa597536cbe5203beb4434 <<< 800 +
    0x965244b1d13796d52fea14426ca99b6b7b17dd4b01369143b85950370be2221962ad25488a1b939ae3e4639c9acaad4be7fc <<< 1200 +
    0x73d4a3cbf22885dbb9f35d40fb0f4565c59e186b7c1eb7594a8d04c819595e7a41ed02360cbc81e37e35801016df1d08659f <<< 1600 +
    0x32cfdab8baf7aa09dd74318188eee672f96c545b78f8fb14d2bdbe7997c8999064e2bb35a261ecde70315ef96ec2a5c9feb7 <<< 2000 +
    0xfe22c643754b77b9feda35a271d7982ebdd4b88167d81291724d8422cf566928242ce2ac555116b55f5519cf17b965b1f97f <<< 2400 +
    0xb84cf4ca34479928ecc4d2c676718ec171296518c2075fe734060cf8a4d9f4ee362aed4a3779afdb31f87b4efbc26ea7d2 <<< 2800 +
    0xdfabed1796f6ad3c350e8097b597c35cbc9410f6e3f2086c0926cf817bce1084cc03609bbe07cdffebcf0c5dc83e788692f8 <<< 3200 +
    0xf359d453f7e576cecf27d308911f41c3b21d8fe1e92459930f9d358c0fea71a7d7a4225b2909ab6227b79338f286450cf4dd <<< 3600 +
    0x6a319e704a6a1682ec8fd2b5 <<< 4000)

/-- A tenant's FINISH verifies over the transcript and its ciphertext (R371). What the ciphertext opens to under the context
key rests on Config.rsaKey, which has no value. -/
theorem wit_FinishVerifies :
    (let trans := [3] ++ List.replicate 32 0 ++ ownerModulus; let b := List.replicate 512 1 ++ finishSig;
      b.length = 1024 ∧
      pssVerify ((trans.drop 33).take 512) (b.drop 512) (sha512Bytes (trans ++ b.take 512)) = true) := by decide +kernel

/-- The signed part of a certificate of the test key, with an ATB-CONFIG of firmware SVN 1 if it has one. -/
def testTbs (n : Nat) (cfg : Bool) : List Byte :=
  derSeq (der 0xA0 (derInt 2) ++ derInt n ++ pssAlg ++ derSeq [] ++ derSeq [] ++ derSeq [] ++ spki ownerModulus ++
    der 0xA3 (derSeq (if cfg then derExt 2 (derSeq (derInt 1 ++ derOctets [] ++ derOctets [] ++ derOctets [] ++
      derOctets [] ++ derSeq (derInt 1))) else [])))
def testSigA : List Byte := natBytes 512 (
    0x95f8c254f8ec2b0cf7f93bbe7cdfe5f8cdca521988cd6d85c71af75f6fa537e8dd9671cc7932d4865423123c371bce923499 <<< 0 +
    0x6eaaf6bbee2fad0b32acf58464776c171d35b8690126ea6091b5bf08138a251c6b844dde719cd7e333e7cb1306fb9d9dce02 <<< 400 +
    0x1f634ad6ce47944aadf890f159f2350114f5f087e53e3bdce631a227b3d5117a8862c1037aae2d54a6f08b77f1e79491f97b <<< 800 +
    0x346dd141ce83d5a6ec199db2ad72b3c7c780b89b6c75d149e1487c0314fc2c23692d1118a9002b6d1cc2f47e4e09191eea62 <<< 1200 +
    0x3ecc548c12f0362ae648817b84216f6d0f64a2298fa98a989220bd9fae702967e2659d679ddaae91e92ab78cc8d2f8fe8789 <<< 1600 +
    0x35f83f2729046c255779d43d27ce9b177c394f37d57677e88915ff4349434dfaff6b28e08a62398a6e01e4febb10f5ddc3c0 <<< 2000 +
    0x4533e8e41c9348b0d36e7e196216c3c53d9890ec2bd816d98ac491a9ce8924762a177988b64cf3a977c849f22d76dbfb9b03 <<< 2400 +
    0x364c65bacb9f835881781690ae9aa8f700e3e80eba21faa76435e2da81bbbd920600a52742e4f41e3a96c92f7f6959b47b91 <<< 2800 +
    0xf01cdbe8d5029df64882d58c7380ca67f5594c2e13820168469b4902444b98903dc386279bf8cfbab681a164b7ab609cbe45 <<< 3200 +
    0xe16a9d431aaa61ede5cf1c7c6a3a1c6063e685b3e8fb80b70b967c2b13195cde4f53f083dcc303d6de9ab51311e882c85860 <<< 3600 +
    0x2723b5fe9a5d485e605d96ab <<< 4000)
def testSigI : List Byte := natBytes 512 (
    0xad4d531c4ff51077fb00a11f6b69d1253f56d432a678b7481f63e9583da7bdddd74c2ad7d65cdc4422f9462eca18e32e1707 <<< 0 +
    0x39663829387b76808ef57bea6dd5cbbd76d483421de6278038fec5daa952d74ee8e9a260059dd5be2d316a58fced2713257b <<< 400 +
    0x6a827cdccba8423dad8c557432c7e08591d6c9726974ace52fbef6af11af877bdd07fca5ae28a2174884ba77330fd366e8dd <<< 800 +
    0x8be5bd9e4f95b92442373e0d30570ecebc1c374492be58d8b49cae8fe5c55bb081e41250dd4413893094163d842f617d3277 <<< 1200 +
    0xc798ff46efe3bdbeaa4f611b559153adb1cee7540948fadf72a444b6e313d2842fb04f7f8bb477b325e4813fc7bbb144e047 <<< 1600 +
    0x4181c3903a5f2f3ef670a856b3e54bb1ce290413873230d1027ea0efde322e40e4415bf0a7ef277bb8079540c606704aa295 <<< 2000 +
    0xdd1314f0467ca5565e2e3d3c14060620009b00a6ddd9ebfd775e716a2dadf40cd3237ac6505369822190ab96f26e76b45791 <<< 2400 +
    0x698c51a3a7a1cd99db2ef3a335c269a5f36f83bf38e468a68a7ad8ff078fa7b475ac8c6bf848ca82b5d0564ff916cfcc2663 <<< 2800 +
    0x82529492f8ac5b53b65769e045b121979f395a25c2047f9df34a0da1ddd24c3782d46223a929516118e12b5c92ff5e385b0 <<< 3200 +
    0x24ebb8d677970c3d3b219e954b3f34ce7e2132672b2e212429c28063ce2c96b86b7bd25e99153f1d5a5bfc0b6f57c63bfee2 <<< 3600 +
    0x74762659f75f9eeef5b96aa1 <<< 4000)

/-- Alias, identity and device CA of a partner of an own fabric: its anchor is the hash of the device CA's key. -/
def testChain : List Byte :=
  derSeq (testTbs 1 true ++ pssAlg ++ derBits testSigA) ++ derSeq (testTbs 2 false ++ pssAlg ++ derBits testSigI) ++
    derSeq (testTbs 3 false ++ pssAlg ++ derBits [])

theorem wit_ChainParses : (chainKey testChain = some ownerModulus) ∧ chainKey [1] = none := by decide +kernel

def testView (n : Nat) (cfg : Bool) (sig : List Byte) (exts : List (List Byte × Bool × List Byte)) : CertView :=
  { tbs := testTbs n cfg, sig := sig, spki := spki ownerModulus, modulus := ownerModulus, exts := exts }
def testExt : List Byte × Bool × List Byte :=
  (extOid 2, false, derSeq (derInt 1 ++ derOctets [] ++ derOctets [] ++ derOctets [] ++ derOctets [] ++ derSeq (derInt 1)))
def fabric : State := anchorStore base (some (sha512 (spki ownerModulus)))

/-- The chain is accepted under that anchor (R370, R378). -/
theorem wit_ChainVerifies : chainGood fabric testChain = true := by
  have hv : chainView testChain = some (testView 1 true testSigA [testExt], testView 2 false testSigI [], testView 3 false [] []) := by
    decide +kernel
  have h1 : signedBy (testView 1 true testSigA [testExt]) (testView 2 false testSigI []).modulus = true := by decide +kernel
  have h2 : signedBy (testView 2 false testSigI []) (testView 3 false [] []).modulus = true := by decide +kernel
  have h3 : anchorNat fabric ≠ 0 ∧ (sha512 (testView 3 false [] []).spki).toNat = anchorNat fabric := by decide +kernel
  have h4 : chainSvn (testView 1 true testSigA [testExt]) = some 1 := by decide +kernel
  have h5 : regNat fabric (pgSec + 0x98) ≤ 1 := by decide +kernel
  unfold chainGood
  rw [hv]
  simp only [h1, h2, h4, h3.2, h5]
  simp [testView, testExt, h3.1]

/-! ## Ill-formed commands (one for each check of WellFormed) -/

theorem smoke_issue : (Instr.mnop ⟨0, 16384⟩).wellFormed = false ∧ (Instr.mnop ⟨0, 16383⟩).wellFormed = true := by decide

theorem smoke_host_access :
    (∀ r ∈ [(⟨.core, 63, true, 2, 0, false, 0⟩ : HostReq), ⟨.core, 0, true, 0, 0, false, 0⟩, ⟨.core, 0, true, 65, 0, false, 0⟩],
      (Instr.hostAccess r).wellFormed = false) ∧ (Instr.hostAccess ⟨.core, 63, true, 1, 0, false, 0⟩).wellFormed = true := by decide

theorem smoke_frames :
    (Instr.seqFrameRx 0 ⟨[], 0, 0, 0, 0⟩).wellFormed = false ∧ (Instr.seqFrameRx 0 ⟨[1], 16385, 0, 0, 0⟩).wellFormed = false ∧
    (Instr.openFrameRx .mgt ⟨[1, 2, 3], 0⟩).wellFormed = false ∧
    (Instr.looseForward 0 [⟨0, .loose 3⟩, ⟨1, .data 1600⟩]).wellFormed = false ∧
    (Instr.latePacketSend ⟨0, .data 1600⟩).wellFormed = false := by decide

theorem smoke_keys :
    (Instr.keyCerts 0 (List.replicate 4097 0)).wellFormed = false ∧ (Instr.keySecret 0 [0]).wellFormed = false := by decide +kernel

theorem smoke_owner :
    ∀ r ∈ [ownerReq [] [1] (List.replicate 512 1), ownerReq [] (List.replicate 512 1) [1]],
      (Instr.ownerEnrol r).wellFormed = false := by decide +kernel

theorem smoke_reserved :
    (∀ x ∈ [(SlotId.m, 2 ^ 36), (.l, 2 ^ 40), (.s, 2 ^ 32), (.f, 2 ^ 32), (.c, 2 ^ 24), (.top, 0), (.top, 16)],
      (Instr.reservedOpcode i0 x.1 (BitVec.ofNat 44 x.2)).wellFormed = false) ∧
    (∀ x ∈ [(SlotId.m, 2 ^ 36 - 1), (.v0, 2 ^ 44 - 1), (.v1, 2 ^ 44 - 1), (.l, 2 ^ 40 - 1), (.top, 15)],
      (Instr.reservedOpcode i0 x.1 (BitVec.ofNat 44 x.2)).wellFormed = true) := by decide

/-! ## The words of bundle slots -/

/-- One word of each slot, its fields put together bit by bit from the layouts of R143, R147, R149 and R151 to R153. -/
theorem test_slot_words :
    decodeSlot i0 .m (1 + 3 <<< 5 + 2 <<< 9 + 1 <<< 13 + 2 <<< 14 + 1 <<< 16 + 5 <<< 18 + 7 <<< 22 + 511 <<< 27) =
      some (.mma i0 ⟨3, 2, 1, 2, 1, 5, 7, 511⟩) ∧
    decodeSlot i0 .m (3 + 8 <<< 5 + 3 <<< 14 + 9 <<< 16 + 63 <<< 20) = some (.mdrain i0 ⟨8, 0, 3, 9, 63, 0⟩) ∧
    decodeSlot i0 .v1 (0x04 + 1 <<< 7 + 15 <<< 11 + 33 <<< 15 + 2 <<< 21 + 3 <<< 27 + 4 <<< 33 + 1 <<< 39 + 3 <<< 42) =
      some (.vfma i0 .v1 ⟨1, 15, 33, 2, 3, 4, 1, 3⟩) ∧
    decodeSlot i0 .l (2 + 2 <<< 5 + 31 <<< 9 + 7 <<< 14 + 1 <<< 18 + 1 <<< 19 + 6 <<< 20 + 5 <<< 25 + 4 <<< 30 + 3 <<< 35) =
      some (.vrd i0 ⟨2, 31, 7, 1, 1, 6, 5, 4, 3⟩) ∧
    decodeSlot i0 .s (6 + 1 <<< 5 + 7 <<< 9 + 9 <<< 15 + 4095 <<< 20) = some (.xld i0 ⟨1, 7, 9, 4095⟩) ∧
    decodeSlot i0 .f (3 + 20 <<< 9 + 5 <<< 14 + 17 <<< 17) = some (.ffwd i0 ⟨0, 20, 5, 17, 0, 0⟩) ∧
    decodeSlot i0 .c (0x17 + 5 <<< 6 + 2 <<< 9) = some (.xadv i0 5 0x8002) ∧
    decodeSlot i0 .c (0x23 + 9 <<< 6 + 1 <<< 10) = some (.gadd i0 9 0xC001) ∧ decodeSlot i0 .c 0x3F = none ∧
    decodeBundle i0 0 = [.mnop i0, .vnop i0 .v0, .vnop i0 .v1, .lnop i0, .snop i0, .fnop i0, .cnop i0] := by decide +kernel

/-- The check value of CRC-32: the FCS of "123456789" (R291). -/
theorem test_crc32 : crc32 ((List.range 9).map fun i => BitVec.ofNat 8 (0x31 + i)) = 0xCBF43926 := by decide +kernel

end Sys2Proof.Tests
end

section
/-! PROOF. Register access: what a 32-bit access of a shepherd core does to DRAM, a register page, a reserved offset and
the shepherd SRAM, and the commands that act on a page by its name (R7, R9, R412, R440, R442, R444, R446 to R448). -/
namespace Sys2Proof.Proofs
open Sys2Proof Sys2Proof.Machine Sys2Proof.Safety Sys2Proof.Laws

/-! ## Numbers in a byte store -/

/-- A number in a byte store is the sum of what the cells in its range give. -/
theorem memNat_eq_sum (m : List Host.Cell) (a n : Nat) :
    memNat m a n = (m.map fun c => if a ≤ c.1 ∧ c.1 < a + n then c.2.toNat <<< (8 * (c.1 - a)) else 0).sum := by
  have h : ∀ acc, m.foldl (fun acc c => if a ≤ c.1 && c.1 < a + n then acc + c.2.toNat <<< (8 * (c.1 - a)) else acc) acc =
      acc + (m.map fun c => if a ≤ c.1 ∧ c.1 < a + n then c.2.toNat <<< (8 * (c.1 - a)) else 0).sum := by
    induction m with
    | nil => simp
    | cons c m ih =>
      intro acc
      rw [List.foldl_cons, ih, List.map_cons, List.sum_cons, ← Nat.add_assoc]
      by_cases hc : a ≤ c.1 ∧ c.1 < a + n <;> simp [hc]
  simpa [memNat] using h 0

theorem memNat_append (l m : List Host.Cell) (a n : Nat) : memNat (l ++ m) a n = memNat l a n + memNat m a n := by
  simp [memNat_eq_sum]

/-- Zero cells and cells outside the range give nothing. -/
theorem memNat_eq_zero (m : List Host.Cell) (a n : Nat) (h : ∀ c ∈ m, c.2 = 0 ∨ c.1 < a ∨ a + n ≤ c.1) :
    memNat m a n = 0 := by
  rw [memNat_eq_sum]
  refine List.sum_eq_zero fun x hx => ?_
  obtain ⟨c, hc, rfl⟩ := List.mem_map.1 hx
  rcases h c hc with hz | ho
  · simp [hz]
  · exact if_neg (by omega)

/-- Dropping cells that give nothing changes nothing. -/
theorem memNat_filter (m : List Host.Cell) (a n : Nat) (p : Host.Cell → Bool)
    (h : ∀ c ∈ m, p c = false → c.2 = 0 ∨ c.1 < a ∨ a + n ≤ c.1) : memNat (m.filter p) a n = memNat m a n := by
  induction m with
  | nil => rfl
  | cons c m ih =>
    have hcons : ∀ l, memNat (c :: l) a n = memNat [c] a n + memNat l a n := fun l => memNat_append [c] l a n
    rw [hcons m, ← ih fun d hd => h d (List.mem_cons_of_mem c hd)]
    cases hp : p c with
    | true => rw [List.filter_cons_of_pos hp, hcons]
    | false =>
      have hc : memNat [c] a n = 0 := memNat_eq_zero _ _ _ (by simpa using h c List.mem_cons_self hp)
      rw [List.filter_cons_of_neg (by simp [hp]), hc, Nat.zero_add]

/-- The `n` low bytes of a number, put together. -/
theorem sum_byteOf (x n : Nat) : ((List.range n).map fun i => (byteOf x i).toNat <<< (8 * i)).sum = x % 2 ^ (8 * n) := by
  induction n with
  | zero => simp [Nat.mod_one]
  | succ n ih =>
    rw [List.range_succ, List.map_append, List.sum_append, ih, Nat.mul_succ, Nat.pow_add, Nat.mod_mul]
    simp [byteOf, Nat.shiftRight_eq_div_pow, Nat.shiftLeft_eq, Nat.mul_comm]

theorem memNat_cellsOf (a n x : Nat) : memNat (cellsOf a n x) a n = x % 2 ^ (8 * n) := by
  rw [cellsOf, memNat_filter _ _ _ _ fun c _ hc => .inl (by simpa using hc), memNat_eq_sum, List.map_map, ← sum_byteOf]
  refine congrArg List.sum (List.map_congr_left fun i hi => ?_)
  have := List.mem_range.1 hi
  simp [this]

/-- A written number reads as written. -/
theorem memNat_memWrite_self (m : List Host.Cell) (a n x : Nat) : memNat (memWrite m a n x) a n = x % 2 ^ (8 * n) := by
  have hlo : memNat (m.filter fun c => c.1 < a) a n = 0 :=
    memNat_eq_zero _ _ _ fun c hc => .inr (.inl (by simpa using (List.mem_filter.1 hc).2))
  have hhi : memNat (m.filter fun c => a + n ≤ c.1) a n = 0 :=
    memNat_eq_zero _ _ _ fun c hc => .inr (.inr (by simpa using (List.mem_filter.1 hc).2))
  rw [memWrite, memNat_append, memNat_append, hlo, hhi, memNat_cellsOf, Nat.zero_add, Nat.add_zero]

/-- A write leaves the numbers outside its range. -/
theorem memNat_memWrite_outside (m : List Host.Cell) (a n x b k : Nat) (h : b + k ≤ a ∨ a + n ≤ b) :
    memNat (memWrite m a n x) b k = memNat m b k := by
  have hw : memNat (cellsOf a n x) b k = 0 := memNat_eq_zero _ _ _ fun c hc => by have := mem_cellsOf hc; omega
  rw [memWrite, memNat_append, memNat_append, hw, Nat.add_zero]
  rcases h with h | h
  · have hlo : memNat (m.filter fun c => c.1 < a) b k = memNat m b k :=
      memNat_filter _ _ _ _ fun c _ hc => by have := of_decide_eq_false hc; omega
    have hhi : memNat (m.filter fun c => a + n ≤ c.1) b k = 0 :=
      memNat_eq_zero _ _ _ fun c hc => by have := of_decide_eq_true (List.mem_filter.1 hc).2; omega
    rw [hlo, hhi, Nat.add_zero]
  · have hlo : memNat (m.filter fun c => c.1 < a) b k = 0 :=
      memNat_eq_zero _ _ _ fun c hc => by have := of_decide_eq_true (List.mem_filter.1 hc).2; omega
    have hhi : memNat (m.filter fun c => a + n ≤ c.1) b k = memNat m b k :=
      memNat_filter _ _ _ _ fun c _ hc => by have := of_decide_eq_false hc; omega
    rw [hlo, hhi, Nat.zero_add]

/-! ## The pages that count an access -/

theorem countOn_only (s : State) (l : List Nat) (o : Nat) : onlyRegs s (countOn s l o) (l.map (· + o)) := by
  induction l generalizing s with
  | nil => exact onlyRegs_refl s _
  | cons pg l ih => exact onlyRegs_trans (cntAdd_only s (pg + o) 1) (ih _)

/-- An access changes the counters of its path alone (R456). -/
theorem countAccess_only (s : State) (l : List Nat) (ok : Bool) :
    onlyRegs s (countAccess s l ok) (l.flatMap fun pg => [pg + 0x44, pg + 0x48]) := by
  have hmem : ∀ o, o = 0x44 ∨ o = 0x48 → ∀ k ∈ l.map (· + o), k ∈ l.flatMap fun pg => [pg + 0x44, pg + 0x48] := by
    intro o ho k hk
    obtain ⟨pg, hpg, rfl⟩ := List.mem_map.1 hk
    exact List.mem_flatMap.2 ⟨pg, hpg, by simpa using ho⟩
  cases ok with
  | true => exact onlyRegs_mono (countOn_only s l 0x44) (hmem _ (.inl rfl))
  | false =>
    refine onlyRegs_mono (onlyRegs_trans (countOn_only s l 0x44) (countOn_only _ l 0x48)) fun k hk => ?_
    exact (List.mem_append.1 hk).elim (hmem _ (.inl rfl) k) (hmem _ (.inr rfl) k)

theorem countOn_latch (s : State) (x : Tab Word) (l : List Nat) (o : Nat) :
    countOn { s with latch := x } l o = { countOn s l o with latch := x } := by
  induction l generalizing s with
  | nil => rfl
  | cons pg l ih =>
    have h : cntAdd { s with latch := x } (pg + o) 1 = { cntAdd s (pg + o) 1 with latch := x } := by
      show (if frozen s (pageOfKey (pg + o)) then _ else _) = _
      unfold cntAdd
      split <;> rfl
    exact (congrArg (countOn · l o) h).trans (ih _)

/-- Counting an access does not look at the latches. -/
theorem countAccess_latch (s : State) (x : Tab Word) (l : List Nat) (ok : Bool) :
    countAccess { s with latch := x } l ok = { countAccess s l ok with latch := x } := by
  cases ok <;> simp [countAccess, countOn_latch]

theorem hostPath_from_S0_aligned (d : Nat) : ∀ pg ∈ hostPath 3 d, pg % 0x1000 = 0 := by
  intro pg h
  rcases List.mem_cons.1 h with rfl | h
  · simp only [pgD2d, pageBase]; omega
  · obtain ⟨j, -, rfl⟩ := List.mem_map.1 h
    simp only [pgD2d, pageBase]; omega

theorem regPath_aligned (d : Nat) : ∀ pg ∈ regPath d, pg % 0x1000 = 0 := by
  unfold regPath
  split
  · exact hostPath_from_S0_aligned d
  · repeat' split
    all_goals decide

/-- The counters of a path of D2D pages lie at two offsets of their pages. -/
theorem kOff_counters (d : Nat) :
    ∀ k ∈ (regPath d).flatMap fun pg => [pg + 0x44, pg + 0x48], kOff k = 0x44 ∨ kOff k = 0x48 := by
  intro k hk
  obtain ⟨pg, hpg, hk⟩ := List.mem_flatMap.1 hk
  have := regPath_aligned d pg hpg
  simp only [List.mem_cons, List.not_mem_nil, or_false] at hk
  unfold kOff
  omega

theorem regGet_countAccess (s : State) (d : Nat) (ok : Bool) (j : Nat) (h1 : kOff j ≠ 0x44) (h2 : kOff j ≠ 0x48) :
    regGet (countAccess s (regPath d) ok) j = regGet s j :=
  (countAccess_only s (regPath d) ok).2 j fun hj => (kOff_counters d j hj).elim h1 h2

/-- Counting an access leaves which pages are served. -/
theorem pageServed_countAccess (s : State) (d : Nat) (ok : Bool) (k : Nat) :
    pageServed (countAccess s (regPath d) ok) k = pageServed s k := by
  have hp : kDie k < 16 → presetState (countAccess s (regPath d) ok) (kDie k) = presetState s (kDie k) := fun h =>
    congrArg (wfield · 0 3) (regGet_countAccess s d ok _
      (by simp only [kOff, pgDieS, pageBase]; omega) (by simp only [kOff, pgDieS, pageBase]; omega))
  by_cases h : kDie k < 16
  · simp only [pageServed, hp h]
  · simp [pageServed, h]

/-! ## The rows of a page -/

/-- Offsets below 0x40 hold the common registers of every page (R446). -/
theorem regRow_of_lt (b : Blk) {o : Nat} (h : o < 0x40) (hne : o ≠ 0xC) : regRow b o = findRow o commonRows := by
  rw [regRow, if_neg hne, if_pos h]

theorem mem_of_findRow {o : Nat} {l : List RegRow} {r : RegRow} (h : findRow o l = some r) : r ∈ l := by
  induction l with
  | nil => simp [findRow] at h
  | cons x l ih =>
    rw [findRow] at h
    obtain ⟨-, h⟩ | ⟨-, h⟩ := ite_eq_iff.1 h
    · exact Option.some.inj h ▸ List.mem_cons_self
    · exact List.mem_cons_of_mem x (ih h)

theorem offPage_of_lt (b : Blk) {k : Nat} (h : kOff k < 0x200) : offPage b k = false := by
  simp [offPage, Nat.not_le.2 h]

/-- No bit of a register is both counted and set by reset: CNT_CLEAR and reset agree (R8, R446). -/
theorem regRow_cnt_or_reset {b : Blk} {o : Nat} {r : RegRow} (h : regRow b o = some r) : r.cnt = 0 ∨ r.reset = 0 := by
  have hcommon : ∀ r ∈ commonRows, r.cnt = 0 := by decide
  have hblk : ∀ r ∈ blkRows b, r.cnt = 0 ∨ r.reset = 0 := by cases b <;> decide
  unfold regRow at h
  split at h
  · exact .inl (Option.some.inj h ▸ rfl)
  · split at h
    · exact .inl (hcommon r (mem_of_findRow h))
    · exact hblk r (mem_of_findRow h)

/-! ## Reading a register -/

/-- TIME_LO and TIME_HI are a latched pair (R444, R446). -/
theorem regRow_time (b : Blk) {o j : Nat} (ho : o = 0x30 + 4 * j) (hj : j < 2) :
    (regRow b o).isSome = true ∧ (regRow b o).bind (latchPlace · o) = some (j, 1) := by
  subst ho
  rw [regRow_of_lt b (by omega) (by omega)]
  interval_cases j <;> decide

/-- None of the common registers but INFO shows state held elsewhere. -/
theorem viewOf_common (s : State) (b : Blk) (i : Nat) {k : Nat} (h0 : 0 < kOff k) (h : kOff k < 0x40) :
    viewOf s b i k = none := by
  have hlo : ∀ n, 0x40 ≤ n → ¬ n ≤ kOff k := by omega
  have hne : ∀ n, 0x40 ≤ n → kOff k ≠ n := by omega
  cases b <;> simp [viewOf, viewClu, viewDie, viewSlt, viewLnd, viewLse, viewPrt, viewTim0, viewTim2, viewNrg, viewSec,
    hlo, hne, h0.ne']

theorem regShow_reserved (s : State) (b : Blk) (i : Nat) {k : Nat} (h : regRow b (kOff k) = none) :
    regShow s b i k = 0 := by simp [regShow, h]

theorem regShow_common (s : State) (b : Blk) (i : Nat) {k : Nat} (h0 : 0 < kOff k) (h : kOff k < 0x40)
    (hrow : (regRow b (kOff k)).isSome = true) : regShow s b i k = regGet s k := by
  simp [regShow, viewOf_common s b i h0 h, offPage_of_lt b (show kOff k < 0x200 by omega), Option.isSome_iff_ne_none.1 hrow]

section
variable {b : Blk} {k : Nat} (hq : kOff k < 0x40 ∨ k % 4 = 0 ∧ regRow b (kOff k) = none)
include hq

/-- Neither a common register nor a reserved offset is one from 0x40 on that has a row. -/
theorem kOff_ne_of_row {o : Nat} (ho : 0x40 ≤ o) (hrow : regRow b o ≠ none) : kOff k ≠ o := by
  rintro rfl
  exact hq.elim (fun h => by omega) fun h => hrow h.2

theorem readElse_eq_none (s : State) : readElse s b k = none := by
  cases b with
  | dbgC => exact if_neg (kOff_ne_of_row hq (by decide) (by decide))
  | dbgE => exact if_neg (kOff_ne_of_row hq (by decide) (by decide))
  | _ => rfl

theorem clearedBy_eq_none (s : State) : clearedBy s b k = none := by
  have hne := fun o => kOff_ne_of_row hq (o := o)
  cases b with
  | clu => exact if_neg (hne _ (by decide) (by decide))
  | vlt =>
    have h60 := hne 0x60 (by decide) (by decide)
    have h64 := hne 0x64 (by decide) (by decide)
    have h74 := hne 0x74 (by decide) (by decide)
    simp [clearedBy, h60, h64, h74]
  | pln => exact if_neg (hne _ (by decide) (by decide))
  | xbr => exact if_neg (hne _ (by decide) (by decide))
  | slt => exact if_neg (hne _ (by decide) (by decide))
  | lnd => exact if_neg (hne _ (by decide) (by decide))
  | dbgC => exact if_neg (hne _ (by decide) (by decide))
  | _ => rfl

theorem maskedReg_eq_false (s : State) (i : Nat) : maskedReg s b i k = false := by
  have hrows : ∀ n, (∀ j < n, (regRow b (0x80 + 4 * j)).isSome = true) → ¬(0x80 ≤ kOff k ∧ kOff k < 0x80 + 4 * n) := by
    rintro n hn ⟨h1, h2⟩
    rcases hq with h | ⟨h4, hnone⟩
    · omega
    · have ho : 0x80 + 4 * ((kOff k - 0x80) / 4) = kOff k := by unfold kOff at *; omega
      have := hn ((kOff k - 0x80) / 4) (by omega)
      simp [ho, hnone] at this
  cases b with
  | clu => have := hrows 48 (by decide); simp only [maskedReg, Bool.and_eq_false_iff, decide_eq_false_iff_not]; omega
  | lnd => have := hrows 16 (by decide); simp only [maskedReg, Bool.and_eq_false_iff, decide_eq_false_iff_not]; omega
  | _ => rfl

variable (s : State) (i : Nat) (h1 : kOff k ≠ 0x1C) (h2 : kOff k ≠ 0x20)
include h1 h2

/-- A read of a common register but ERR_CAPT0 and ERR_CAPT1, or of a reserved offset, has no effect but that of a latch:
here none. -/
theorem regReadAt_unlatched (hp : (regRow b (kOff k)).bind (latchPlace · (kOff k)) = none) :
    regReadAt s b i k = (regShow s b i k, s) := by
  simp [regReadAt, h1, h2, readElse_eq_none hq s, maskedReg_eq_false hq s i, clearedBy_eq_none hq s, hp]

/-- The first word of a latched group loads the latch (R444). -/
theorem regReadAt_loads {n : Nat} (hp : (regRow b (kOff k)).bind (latchPlace · (kOff k)) = some (0, n)) :
    regReadAt s b i k = (regShow s b i k, loadLatch s b i k n) := by
  simp [regReadAt, h1, h2, readElse_eq_none hq s, maskedReg_eq_false hq s i, clearedBy_eq_none hq s, hp]

/-- The other words of a latched group come from the latch (R444). -/
theorem regReadAt_latched {j n : Nat} (hp : (regRow b (kOff k)).bind (latchPlace · (kOff k)) = some (j + 1, n)) :
    regReadAt s b i k = (if offPage b k then 0 else tabGet 0 k s.latch, s) := by
  simp [regReadAt, h1, h2, readElse_eq_none hq s, maskedReg_eq_false hq s i, clearedBy_eq_none hq s, hp]

end

theorem loadLatch_one (s : State) (b : Blk) (i k : Nat) :
    loadLatch s b i k 1 = { s with latch := tabSet 0 (k + 4) (regShow s b i (k + 4)) s.latch } := rfl

/-- A read of ERR_CAPT0 gives it, latches ERR_CAPT1, and clears VALID and MORE (R448). -/
theorem regReadAt_errCapt0 (s : State) (b : Blk) (i : Nat) {pg : Nat} (h : pg % 0x1000 = 0) :
    regReadAt s b i (pg + 0x1C) = (regGet s (pg + 0x1C), errCapt0Clear s pg) := by
  have ho : kOff (pg + 0x1C) = 0x1C := by unfold kOff; omega
  simp [regReadAt, ho]

/-! ## Writing a register -/

theorem regWriteAt_reserved (s : State) (who : Requester) (b : Blk) (i k : Nat) (w : Word)
    (h : offPage b k = true ∨ regRow b (kOff k) = none) : regWriteAt s who b i k w = s := by
  have hrow : (if offPage b k then none else regRow b (kOff k)) = none := by
    rcases h with h | h <;> simp [h]
  simp only [regWriteAt, hrow]

/-- The common registers but CTRL, IRQ_FORCE and PSTATE follow their access codes alone (R7). -/
theorem regWriteAt_common (s : State) (who : Requester) (b : Blk) (i : Nat) {k : Nat} (w : Word) {r : RegRow}
    (h : kOff k < 0x40) (hne : kOff k ≠ 8 ∧ kOff k ≠ 0x18 ∧ kOff k ≠ 0x24) (hrow : regRow b (kOff k) = some r) :
    regWriteAt s who b i k w = plainWrite s r k w := by
  obtain ⟨h8, h18, h24⟩ := hne
  simp [regWriteAt, offPage_of_lt b (show kOff k < 0x200 by omega), hrow, h, h8, h18, h24]

theorem plainWrite_only (s : State) (r : RegRow) (k : Nat) (w : Word) : onlyRegs s (plainWrite s r k w) [k] :=
  regSet_only _ _ _

/-- A mask of ones drops nothing. -/
theorem and_full (x : Word) : x &&& 0xFFFFFFFF#32 = x := BitVec.and_allOnes

/-- RW bits take what is written, W1C bits written 1 clear, the others stay (R7). -/
theorem regGet_plainWrite (s : State) (r : RegRow) (k : Nat) (w : Word) :
    regGet (plainWrite s r k w) k = ((regGet s k &&& ~~~BitVec.ofNat 32 r.rw) ||| (w &&& BitVec.ofNat 32 r.rw)) &&&
      ~~~(w &&& BitVec.ofNat 32 r.w1c) := regGet_regSet_self _ _ _

/-! ## The addresses of a shepherd core -/

theorem dramMap_eq_none (s : State) {a : Nat} (h : 0x18000000000 ≤ a) : dramMap s a = none := if_pos h

theorem regKey_eq_some_iff (a k : Nat) : regKey a = some k ↔ a = 0x0F0000000000 + k ∧ k < 0x14000000 := by
  unfold regKey regBase
  split <;> simp_all <;> omega

theorem dramMap_of_regKey (s : State) {a k : Nat} (h : regKey a = some k) : dramMap s a = none := by
  obtain ⟨rfl, -⟩ := (regKey_eq_some_iff a k).1 h
  exact dramMap_eq_none s (by omega)

theorem mod_four_of_regKey {a k : Nat} (h : regKey a = some k) : a % 4 = k % 4 := by
  obtain ⟨rfl, -⟩ := (regKey_eq_some_iff a k).1 h
  omega

/-! ### The next word of a page -/

theorem regKey_add_four {a : BitVec 48} {k : Nat} (h : regKey a.toNat = some k) (hk : k % 0x1000 + 4 < 0x1000) :
    regKey (a + 4).toNat = some (k + 4) := by
  rw [regKey_eq_some_iff] at h ⊢
  have h48 : (4 : BitVec 48).toNat = 4 := rfl
  rw [BitVec.toNat_add, h48]
  omega

theorem windowAt_add_four {d x : Nat} (hx : x % 0x1000 + 4 < 0x1000) (h : windowAt d x = none) :
    windowAt d (x + 4) = none := by
  unfold windowAt at h ⊢
  grind

theorem pageServed_add_four (s : State) {k : Nat} (hk : k % 0x1000 + 4 < 0x1000) :
    pageServed s (k + 4) = pageServed s k := by
  have hdie : kDie (k + 4) = kDie k := by unfold kDie; omega
  have hpage : kPage (k + 4) = kPage k := by unfold kPage; omega
  simp only [pageServed, hdie, hpage]

/-! ## Register accesses by address -/

section
variable {s : State} {a : BitVec 48} {k : Nat} (hk : regKey a.toNat = some k)
include hk

theorem exec_registerWrite_misaligned (w : Word) (h4 : k % 4 ≠ 0) :
    exec (.registerWrite a w) s = .next (emit s (.errorDone 0)) := by
  show execRegisterWrite a w s = _
  simp [execRegisterWrite, dramMap_of_regKey s hk, mod_four_of_regKey hk, h4]

theorem exec_latchedPairRead_misaligned (h4 : k % 4 ≠ 0) :
    exec (.latchedPairRead a) s = .next (emit s (.errorDone 0)) := by
  show execLatchedPairRead a s = _
  simp [execLatchedPairRead, dramMap_of_regKey s hk, mod_four_of_regKey hk, h4]

variable (h4 : k % 4 = 0) (hwin : windowAt (kDie k) (k % 0x1000000) = none)
include h4 hwin

theorem exec_registerWrite_unserved (w : Word) (hp : pageServed s k = none) :
    exec (.registerWrite a w) s = .next (emit (countAccess s (regPath (kDie k)) false) (.errorDone 0)) := by
  have hw : regionWrite s .core k 4 w.toNat = none := by simp [regionWrite, hwin, hp]
  show execRegisterWrite a w s = _
  simp [execRegisterWrite, hostPut, dramMap_of_regKey s hk, mod_four_of_regKey hk, h4, hk, hw]

theorem exec_latchedPairRead_unserved (hp : pageServed s k = none) :
    exec (.latchedPairRead a) s = .next (emit (countAccess s (regPath (kDie k)) false) (.errorDone 0)) := by
  have hr : regionRead s k 4 = none := by simp [regionRead, hwin, hp]
  show execLatchedPairRead a s = _
  simp [execLatchedPairRead, hostGet, dramMap_of_regKey s hk, mod_four_of_regKey hk, h4, hk, hr]

variable {b : Blk} {i : Nat} (hp : pageServed s k = some (b, i))
include hp

theorem exec_registerWrite_served (w : Word) :
    exec (.registerWrite a w) s = .next (countAccess (regWriteAt s .core b i k w) (regPath (kDie k)) true) := by
  have hw : regionWrite s .core k 4 w.toNat = some (regWriteAt s .core b i k w) := by simp [regionWrite, hwin, hp, h4]
  show execRegisterWrite a w s = _
  simp [execRegisterWrite, hostPut, dramMap_of_regKey s hk, mod_four_of_regKey hk, h4, hk, hw]

theorem exec_latchedPairRead_served {v : Word} {t : State} (hr : regReadAt s b i k = (v, t)) :
    exec (.latchedPairRead a) s = .next (emit (countAccess t (regPath (kDie k)) true) (.value v)) := by
  have hr : regionRead s k 4 = some (v.toNat, t) := by simp [regionRead, hwin, hp, h4, hr]
  show execLatchedPairRead a s = _
  simp [execLatchedPairRead, hostGet, dramMap_of_regKey s hk, mod_four_of_regKey hk, h4, hk, hr]

/-! ### The clauses of a served page -/

theorem exec_registerWrite_reserved (w : Word) (h : offPage b k = true ∨ regRow b (kOff k) = none) :
    exec (.registerWrite a w) s = .next (countAccess s (regPath (kDie k)) true) := by
  rw [exec_registerWrite_served hk h4 hwin hp, regWriteAt_reserved s .core b i k w h]

theorem exec_latchedPairRead_reserved (h : regRow b (kOff k) = none) :
    exec (.latchedPairRead a) s = .next (emit (countAccess s (regPath (kDie k)) true) (.value 0)) := by
  have hne : ∀ o, regRow b o ≠ none → kOff k ≠ o := fun o ho e => ho (e ▸ h)
  have hrow : ∀ o < 0x40, o ≠ 0xC → findRow o commonRows ≠ none → kOff k ≠ o := fun o ho hc hf =>
    hne o (regRow_of_lt b ho hc ▸ hf)
  have hr := regReadAt_unlatched (.inr ⟨h4, h⟩) s i (hrow 0x1C (by decide) (by decide) (by decide))
    (hrow 0x20 (by decide) (by decide) (by decide)) (by simp [h])
  rw [regShow_reserved s b i h] at hr
  exact exec_latchedPairRead_served hk h4 hwin hp hr

/-- A write of a common register that follows its access codes changes that register and the counters of the path. -/
theorem exec_registerWrite_common (w : Word) {r : RegRow} (h : kOff k < 0x40)
    (hne : kOff k ≠ 8 ∧ kOff k ≠ 0x18 ∧ kOff k ≠ 0x24) (hrow : regRow b (kOff k) = some r) :
    ∃ t, exec (.registerWrite a w) s = .next t ∧
      onlyRegs s t (k :: (regPath (kDie k)).flatMap fun pg => [pg + 0x44, pg + 0x48]) ∧
      regGet t k = ((regGet s k &&& ~~~BitVec.ofNat 32 r.rw) ||| (w &&& BitVec.ofNat 32 r.rw)) &&&
        ~~~(w &&& BitVec.ofNat 32 r.w1c) := by
  refine ⟨_, exec_registerWrite_served hk h4 hwin hp w, ?_, ?_⟩ <;> rw [regWriteAt_common s .core b i w h hne hrow]
  · exact onlyRegs_trans (plainWrite_only s r k w) (countAccess_only _ _ _)
  · rw [regGet_countAccess _ _ _ _ (by omega) (by omega), regGet_plainWrite]

/-- IRQ_EN takes what is written (R447). -/
theorem exec_registerWrite_irqEn (w : Word) (ho : kOff k = 0x14) :
    ∃ t, exec (.registerWrite a w) s = .next t ∧
      onlyRegs s t (k :: (regPath (kDie k)).flatMap fun pg => [pg + 0x44, pg + 0x48]) ∧
      regGet t k = (regGet s k &&& 0xFFFF0000) ||| (w &&& 0xFFFF) := by
  have hrow : regRow b (kOff k) = some ⟨0x14, 1, 0, 0xFFFF, 0, 0, 0, .no⟩ := by rw [ho, regRow_of_lt b] <;> decide
  obtain ⟨t, hx, honly, hget⟩ := exec_registerWrite_common hk h4 hwin hp w (by omega) (by omega) hrow
  exact ⟨t, hx, honly, by simpa [and_full] using hget⟩

/-- IRQ_STAT is cleared by ones (R447). -/
theorem exec_registerWrite_irqStat (w : Word) (ho : kOff k = 0x10) :
    ∃ t, exec (.registerWrite a w) s = .next t ∧
      onlyRegs s t (k :: (regPath (kDie k)).flatMap fun pg => [pg + 0x44, pg + 0x48]) ∧
      regGet t k = regGet s k &&& ~~~(w &&& 0xFFFF) := by
  have hrow : regRow b (kOff k) = some ⟨0x10, 1, 0, 0, 0xFFFF, 0, 0, .no⟩ := by rw [ho, regRow_of_lt b] <;> decide
  obtain ⟨t, hx, honly, hget⟩ := exec_registerWrite_common hk h4 hwin hp w (by omega) (by omega) hrow
  exact ⟨t, hx, honly, by simpa [and_full] using hget⟩

/-- IRQ_EN shows what it holds. -/
theorem exec_latchedPairRead_irqEn (ho : kOff k = 0x14) :
    exec (.latchedPairRead a) s = .next (emit (countAccess s (regPath (kDie k)) true) (.value (regGet s k))) := by
  have hrow : regRow b (kOff k) = some ⟨0x14, 1, 0, 0xFFFF, 0, 0, 0, .no⟩ := by rw [ho, regRow_of_lt b] <;> decide
  have hr := regReadAt_unlatched (b := b) (k := k) (.inl (by omega)) s i (by omega) (by omega) (by simp [hrow, latchPlace])
  rw [regShow_common s b i (by omega) (by omega) (by simp [hrow])] at hr
  exact exec_latchedPairRead_served hk h4 hwin hp hr

omit h4 in
/-- TIME: a read of its LO word latches the HI word, which the next read gives (R444). -/
theorem exec_latchedPairRead_time (ho : kOff k = 0x30) :
    ∃ t, exec (.latchedPairRead a) s = .next t ∧
      t = { countAccess s (regPath (kDie k)) true with latch := t.latch, out := s.out ++ [.value (regGet s k)] } ∧
      exec (.latchedPairRead (a + 4)) t =
        .next (emit (countAccess t (regPath (kDie k)) true) (.value (regGet s (k + 4)))) := by
  have hoff : k % 0x1000 = 0x30 := ho
  have ho4 : kOff (k + 4) = 0x34 := by unfold kOff; omega
  have hdie : kDie (k + 4) = kDie k := by unfold kDie; omega
  obtain ⟨hrow, hplace⟩ := regRow_time b (j := 0) ho (by decide)
  obtain ⟨hrow4, hplace4⟩ := regRow_time b (j := 1) ho4 (by decide)
  have hr := regReadAt_loads (b := b) (k := k) (.inl (by omega)) s i (by omega) (by omega) hplace
  rw [regShow_common s b i (by omega) (by omega) hrow, loadLatch_one,
    regShow_common s b i (by omega) (by omega) hrow4] at hr
  have hx := exec_latchedPairRead_served hk (by omega) hwin hp hr
  rw [countAccess_latch] at hx
  refine ⟨_, hx, ?_, ?_⟩
  · rw [(countAccess_only s (regPath (kDie k)) true).1]
    rfl
  · generalize ht : emit { countAccess s (regPath (kDie k)) true with
      latch := tabSet 0 (k + 4) (regGet s (k + 4)) s.latch } (.value (regGet s k)) = t
    have hserved : pageServed t (k + 4) = pageServed (countAccess s (regPath (kDie k)) true) (k + 4) := by rw [← ht]; rfl
    have hlatch : tabGet 0 (k + 4) t.latch = regGet s (k + 4) := by rw [← ht]; exact tabGet_tabSet_self _ _ _ _
    rw [pageServed_countAccess, pageServed_add_four s (by omega), hp] at hserved
    have hr4 := regReadAt_latched (b := b) (k := k + 4) (.inl (by omega)) t i (by omega) (by omega) hplace4
    rw [offPage_of_lt b (by omega), hlatch] at hr4
    have hwin4 := windowAt_add_four (by omega) hwin
    rw [← hdie, show k % 0x1000000 + 4 = (k + 4) % 0x1000000 by omega] at hwin4
    exact hdie ▸ exec_latchedPairRead_served (regKey_add_four hk (by omega)) (by omega) hwin4 hserved hr4

end

/-! ## DRAM and shepherd SRAM by address -/

/-- Both commands make the host access of a shepherd core where the address is in DRAM (R440, log 79). -/
theorem exec_access_dram (s : State) (a : BitVec 48) (w : Word) (h : dramMap s a.toNat ≠ none) :
    exec (.registerWrite a w) s = exec (.hostAccess ⟨.core, a, true, 4, w.setWidth 512, false, 0⟩) s ∧
    exec (.latchedPairRead a) s = exec (.hostAccess ⟨.core, a, false, 4, 0, false, 0⟩) s := by
  obtain ⟨⟨v, u⟩, hvu⟩ := Option.ne_none_iff_exists'.1 h
  constructor
  · show execRegisterWrite a w s = execHostAccess _ s
    simp only [execRegisterWrite, execHostAccess, hvu]
  · show execLatchedPairRead a s = execHostAccess _ s
    simp only [execLatchedPairRead, execHostAccess, hvu]

/-- The shepherd SRAM within the S0 range (R412). -/
theorem s0Part_sram {x : Nat} (h1 : 0x1000000 ≤ x) (h2 : x < 0x1400000) : s0Part x = some 1 := by
  simp [s0Part, h1, h2, show ¬ x < 0x10000 by omega]

theorem s0Write_sram (s : State) {x : Nat} (n : Nat) (h1 : 0x1000000 ≤ x) (h2 : x + 3 < 0x1400000) :
    s0Write s x 4 n = some { s with brd.sram := memWrite s.brd.sram (x - 0x1000000) 4 n } := by
  simp [s0Write, s0Part_sram h1 (show x < 0x1400000 by omega), s0Part_sram (show 0x1000000 ≤ x + 3 by omega) h2]

theorem s0Read_sram (s : State) {x : Nat} (h1 : 0x1000000 ≤ x) (h2 : x + 3 < 0x1400000) :
    s0Read s x 4 = some (memNat s.brd.sram (x - 0x1000000) 4) := by
  simp [s0Read, s0Part_sram h1 (show x < 0x1400000 by omega), s0Part_sram (show 0x1000000 ≤ x + 3 by omega) h2]

section
variable (s : State) {a : BitVec 48} (hlo : 0x0FFF01000000 ≤ a.toNat) (hhi : a.toNat < 0x0FFF01400000)
include hlo hhi

theorem regKey_sram : regKey a.toNat = none := by
  refine Option.eq_none_iff_forall_ne_some.2 fun k hk => ?_
  have := (regKey_eq_some_iff _ _).1 hk
  omega

theorem mem_s0Range_sram (h4 : a.toNat % 4 = 0) : (s0Base ≤ a.toNat ∧ a.toNat + 4 ≤ s0Base + 0x100000000) ∧
    0x1000000 ≤ a.toNat - s0Base ∧ a.toNat - s0Base + 3 < 0x1400000 ∧
    a.toNat - s0Base - 0x1000000 = a.toNat - 0x0FFF01000000 := by
  have hb : s0Base = 0x0FFF00000000 := rfl
  omega

variable (h4 : a.toNat % 4 = 0)
include h4

theorem exec_registerWrite_sram (w : Word) : exec (.registerWrite a w) s =
    .next { s with brd.sram := memWrite s.brd.sram (a.toNat - 0x0FFF01000000) 4 w.toNat } := by
  obtain ⟨hin, h1, h2, hx⟩ := mem_s0Range_sram hlo hhi h4
  show execRegisterWrite a w s = _
  simp [execRegisterWrite, hostPut, dramMap_eq_none s (show 0x18000000000 ≤ a.toNat by omega), regKey_sram hlo hhi, h4,
    hin, s0Write_sram s _ h1 h2, hx]

theorem exec_latchedPairRead_sram : exec (.latchedPairRead a) s =
    .next (emit s (.value (BitVec.ofNat 32 (memNat s.brd.sram (a.toNat - 0x0FFF01000000) 4)))) := by
  obtain ⟨hin, h1, h2, hx⟩ := mem_s0Range_sram hlo hhi h4
  show execLatchedPairRead a s = _
  simp [execLatchedPairRead, hostGet, dramMap_eq_none s (show 0x18000000000 ≤ a.toNat by omega), regKey_sram hlo hhi, h4,
    hin, s0Read_sram s h1 h2, hx]

end

/-! ## Captures that a read clears -/

/-- VALID and MORE clear, and nothing else (R138, R223, R448). -/
theorem regGet_captClear_self (s : State) (k : Nat) : regGet (captClear s k) k = regGet s k &&& 0x3FFFFFFF :=
  regGet_regSet_self _ _ _

theorem captRead_clears (s : State) (k : Nat) :
    captRead s k = { s with regs := (captRead s k).regs, out := s.out ++ [.value (regGet s k)] } ∧
    regsBut s (captRead s k) [k] ∧ regGet (captRead s k) k = regGet s k &&& 0x3FFFFFFF :=
  ⟨rfl, (clrReg_only (emit s (.value (regGet s k))) k _).2, regGet_captClear_self _ _⟩

/-- The pages of a C-die that hold such captures. -/
theorem pageAt_cdie_isSome {d k : Nat} (hd : d < 16)
    (hk : 0x18 ≤ k ∧ k < 0x1C ∨ 0x100 ≤ k ∧ k < 0x1C0 ∨ k = 0x1F0) : (pageAt d (0x1000 * k)).isSome = true := by
  have hq : 0x1000 * k / 0x1000 = k := by omega
  have hm : 0x1000 * k % 0x1000 = 0 := by omega
  have h20 : ¬ 20 ≤ d := by omega
  simp only [pageAt, hq, hm, h20, hd]
  grind (splits := 30)

/-- A disabled C-die serves its DBG page, and one that is not disabled the others too (R442, R462). -/
theorem pageServed_cdie_isSome (s : State) {d k : Nat} (hd : d < 16)
    (hk : 0x18 ≤ k ∧ k < 0x1C ∨ 0x100 ≤ k ∧ k < 0x1C0 ∨ k = 0x1F0) (hs : k = 0x1F0 ∨ presetState s d ≠ 4) :
    (pageServed s (pageBase d (0x1000 * k))).isSome = true := by
  have hdie : kDie (pageBase d (0x1000 * k)) = d := by unfold kDie pageBase; omega
  have hpage : kPage (pageBase d (0x1000 * k)) = 0x1000 * k := by unfold kPage pageBase; omega
  rw [pageServed, hdie, hpage, if_neg]
  · exact pageAt_cdie_isSome hd hk
  · simp only [Bool.and_eq_true, decide_eq_true_eq]
    omega

/-- A read by name of a capture on a page of a C-die. -/
theorem next_captRead_onServed (s : State) {d n pg : Nat} (k : Nat) (hpg : pg = pageBase d (0x1000 * n)) (hd : d < 16)
    (hn : 0x18 ≤ n ∧ n < 0x1C ∨ 0x100 ≤ n ∧ n < 0x1C0 ∨ n = 0x1F0) (hs : n = 0x1F0 ∨ presetState s d ≠ 4) :
    (.next (onServed s pg fun s => captRead s k) : Host.Outcome State Fault Refusal) = .next (captRead s k) :=
  congrArg _ (if_pos (hpg ▸ pageServed_cdie_isSome s hd hn hs))

/-! ## CNT_CLEAR -/

theorem tabGet_of_mem {α : Type} (d : α) {t : Tab α} {k : Nat} {v : α} (ht : t.Pairwise fun a b => a.1 < b.1)
    (h : (k, v) ∈ t) : tabGet d k t = v := by
  induction t with
  | nil => simp at h
  | cons e t ih =>
    obtain ⟨hlt, ht⟩ := List.pairwise_cons.1 ht
    rcases List.mem_cons.1 h with rfl | h
    · exact if_pos rfl
    · exact (if_neg (hlt _ h).ne).trans (ih ht h)

theorem tabGet_of_not_mem {α : Type} (d : α) {t : Tab α} {k : Nat} (h : ∀ e ∈ t, e.1 ≠ k) : tabGet d k t = d := by
  simpa [tabGet] using tabGet_append d k t [] h

/-- One entry of CNT_CLEAR's pass over the registers. -/
def cntZeroEntry (b : Blk) (pg : Nat) (t : State) (e : Nat × Word) : State :=
  if pageOfKey e.1 = pg then regSet t e.1 (e.2 &&& ~~~(cntBits b (kOff e.1))) else t

theorem cntZero_eq_foldl (s : State) (b : Blk) (pg : Nat) : cntZero s b pg = s.regs.foldl (cntZeroEntry b pg) s := rfl

theorem cntZeroEntry_regs (b : Blk) (pg : Nat) (t : State) (e : Nat × Word) :
    cntZeroEntry b pg t e = { t with regs := (cntZeroEntry b pg t e).regs } := by
  unfold cntZeroEntry
  split <;> rfl

/-- CNT_CLEAR changes registers alone. -/
theorem cntZeroEntries_regs (b : Blk) (pg : Nat) (l : Tab Word) (t : State) :
    l.foldl (cntZeroEntry b pg) t = { t with regs := (l.foldl (cntZeroEntry b pg) t).regs } := by
  induction l generalizing t with
  | nil => rfl
  | cons e l ih =>
    rw [List.foldl_cons, ih, cntZeroEntry_regs]

/-- A register that no entry of its page names stays. -/
theorem regGet_cntZeroEntries_of_ne (b : Blk) (pg : Nat) (l : Tab Word) (t : State) (j : Nat)
    (h : ∀ e ∈ l, e.1 = j → pageOfKey j ≠ pg) : regGet (l.foldl (cntZeroEntry b pg) t) j = regGet t j := by
  induction l generalizing t with
  | nil => rfl
  | cons e l ih =>
    rw [List.foldl_cons, ih _ fun x hx => h x (List.mem_cons_of_mem e hx), cntZeroEntry]
    split
    · rename_i hpg
      exact regGet_regSet_of_ne t _ fun hj => h e List.mem_cons_self hj.symm (hj ▸ hpg)
    · rfl

/-- A register of the page that an entry names loses its counter bits. -/
theorem regGet_cntZeroEntries_of_mem (b : Blk) (pg : Nat) {l : Tab Word} (hl : l.Pairwise fun a b => a.1 < b.1)
    (t : State) {j : Nat} {v : Word} (hj : (j, v) ∈ l) (hpg : pageOfKey j = pg) :
    regGet (l.foldl (cntZeroEntry b pg) t) j = v &&& ~~~(cntBits b (kOff j)) := by
  induction l generalizing t with
  | nil => simp at hj
  | cons e l ih =>
    obtain ⟨hlt, hl⟩ := List.pairwise_cons.1 hl
    rw [List.foldl_cons]
    rcases List.mem_cons.1 hj with rfl | hj
    · rw [regGet_cntZeroEntries_of_ne b pg l _ j fun x hx hxj => absurd hxj (hlt x hx).ne', cntZeroEntry, if_pos hpg,
        regGet_regSet_self]
    · exact ih hl _ hj

/-- A register at its reset value has no counter bit set, so CNT_CLEAR leaves it (R8, R446). The registers whose reset
value depends on the die, CARVE and DIE_INFO, have no counter bits. -/
theorem regReset_and_not_cntBits (j : Nat) {b : Blk} {i : Nat}
    (h : pageAt (kDie (pageOfKey j)) (kPage (pageOfKey j)) = some (b, i)) :
    regReset j &&& ~~~(cntBits b (kOff j)) = regReset j := by
  have hdie : kDie (pageOfKey j) = j % 0x100000000 / 0x1000000 := by unfold kDie pageOfKey; omega
  have hpage : kPage (pageOfKey j) = j % 0x100000000 % 0x1000000 - j % 0x100000000 % 0x1000 := by
    unfold kPage pageOfKey; omega
  have hoff : kOff j = j % 0x100000000 % 0x1000 := by unfold kOff; omega
  rw [hdie, hpage] at h
  cases hr : regRow b (kOff j) with
  | none => simp [cntBits, hr, and_full]
  | some r =>
    by_cases hc : r.cnt = 0
    · simp [cntBits, hr, hc, and_full]
    · have hz : r.reset = 0 := (regRow_cnt_or_reset hr).resolve_left hc
      have hspecial : ∀ b' o r', b = b' → kOff j = o → regRow b' o = some r' → r'.cnt ≠ 0 := by
        rintro _ _ r' rfl rfl hr'
        exact Option.some.inj (hr.symm.trans hr') ▸ hc
      have h1 : ¬(b = .vlt ∧ kOff j = 0x44) := fun ⟨hb, ho⟩ => hspecial _ _ _ hb ho rfl rfl
      have h2 : ¬(kOff j = 0x40 ∧ b = .die) := fun ⟨ho, hb⟩ => hspecial _ _ _ hb ho rfl rfl
      have h3 : ¬(kOff j = 0x40 ∧ b = .dieS) := fun ⟨ho, hb⟩ => hspecial _ _ _ hb ho rfl rfl
      rw [hoff] at hr h1 h2 h3
      have hreset : regReset j = 0#32 := by
        simp only [regReset, h, hr, Bool.and_eq_true, decide_eq_true_eq, h1, h2, h3, if_false, hz]
      rw [hreset, BitVec.zero_and]

/-- CNT_CLEAR clears the counter bits of the page in every bank, and no other register (R446). -/
theorem regGet_cntZero (s : State) {b : Blk} {i pg : Nat} (hwf : regsWf s.regs = true)
    (hp : pageServed s pg = some (b, i)) (j : Nat) : regGet (cntZero s b pg) j =
      if pageOfKey j = pg then regGet s j &&& ~~~(cntBits b (kOff j)) else regGet s j := by
  obtain ⟨-, hrise⟩ := (regsWf_iff s.regs).1 hwf
  rw [cntZero_eq_foldl]
  split
  · rename_i hpg
    by_cases hm : ∃ v, (j, v) ∈ s.regs
    · obtain ⟨v, hv⟩ := hm
      rw [regGet_cntZeroEntries_of_mem b pg hrise s hv hpg, regGet, tabGet_of_mem _ hrise hv]
    · have hno : ∀ e ∈ s.regs, e.1 ≠ j := fun e he hj => hm ⟨e.2, hj ▸ he⟩
      have hat : pageAt (kDie (pageOfKey j)) (kPage (pageOfKey j)) = some (b, i) := by
        rw [pageServed] at hp
        rw [hpg]
        split at hp
        · cases hp
        · exact hp
      rw [regGet_cntZeroEntries_of_ne b pg _ s j fun e he hj => absurd hj (hno e he), regGet, tabGet_of_not_mem _ hno,
        regReset_and_not_cntBits j hat]
  · rename_i hpg
    exact regGet_cntZeroEntries_of_ne b pg _ s j fun _ _ _ => hpg

/-! ## Commands on a page by its name -/

theorem onPage_unserved (s : State) (pg : PageId) (f : Blk → Nat → Nat → State)
    (h : ∀ k, pageOfId pg = some k → pageServed s k = none) : onPage s pg f = emit s (.errorDone 0) := by
  unfold onPage
  split
  · rfl
  · rename_i k hpg
    rw [h k hpg]

theorem onPage_served {s : State} {pg : PageId} {k i : Nat} {b : Blk} (hpg : pageOfId pg = some k)
    (hp : pageServed s k = some (b, i)) (f : Blk → Nat → Nat → State) : onPage s pg f = f b i k := by
  unfold onPage
  split
  · rename_i h
    cases h.symm.trans hpg
  · rename_i h
    obtain rfl := Option.some.inj (h.symm.trans hpg)
    rw [hp]

theorem pageOfId_aligned {pg : PageId} {k : Nat} (h : pageOfId pg = some k) : k % 0x1000 = 0 := by
  obtain ⟨o, ho, rfl⟩ := Option.map_eq_some_iff.1 h
  obtain ⟨j, -, rfl⟩ := List.mem_map.1 (List.mem_of_find?_eq_some ho)
  unfold pageBase
  omega

/-- Each of the four commands is an error completion on a page that no die serves. -/
theorem exec_page_command_unserved {s : State} {pg : PageId} (w : Word) (on : Bool)
    (h : ∀ k, pageOfId pg = some k → pageServed s k = none) :
    ∀ i ∈ [Instr.errCapt0Read pg, .cntClear pg, .cntFreeze pg on, .irqForce pg w],
      exec i s = .next (emit s (.errorDone 0)) := by
  have hnext : ∀ f : Blk → Nat → Nat → State,
      (.next (onPage s pg f) : Host.Outcome State Fault Refusal) = .next (emit s (.errorDone 0)) :=
    fun f => congrArg _ (onPage_unserved s pg f h)
  simp only [List.forall_mem_cons, List.not_mem_nil, false_imp_iff, implies_true, and_true]
  exact ⟨hnext _, hnext _, hnext _, hnext _⟩

/-- Bit 1 of a register whose bit 1 is replaced. -/
theorem getLsbD_wset_bit_one (x : Word) (on : Bool) : (wset x 1 1 (b2n on)).getLsbD 1 = on := by
  cases on <;>
    simp [wset, setBits, bitsOf, b2n, Nat.testBit, Nat.shiftRight_eq_div_pow, Nat.shiftLeft_eq, BitVec.getLsbD] <;> omega

section
variable {s : State} {pg : PageId} {k i : Nat} {b : Blk} (hpg : pageOfId pg = some k) (hp : pageServed s k = some (b, i))
include hpg hp

theorem next_onPage_served (f : Blk → Nat → Nat → State) :
    (.next (onPage s pg f) : Host.Outcome State Fault Refusal) = .next (f b i k) :=
  congrArg _ (onPage_served hpg hp f)

/-- ERR_CAPT0 is given, latches its pair, and loses VALID and MORE (R448). -/
theorem exec_errCapt0Read_served : ∃ t, exec (.errCapt0Read pg) s = .next t ∧
    t = { s with regs := t.regs, latch := t.latch, out := s.out ++ [.value (regGet s (k + 0x1C))] } ∧
    regsBut s t [k + 0x1C] ∧ regGet t (k + 0x1C) = regGet s (k + 0x1C) &&& 0x3FFFFFFF ∧
    tabGet 0 (k + 0x20) t.latch = regGet s (k + 0x20) := by
  refine ⟨_, next_onPage_served hpg hp _, ?_⟩
  rw [regReadAt_errCapt0 s b i (pageOfId_aligned hpg)]
  exact ⟨rfl, (clrReg_only { s with latch := _ } (k + 0x1C) _).2, regGet_regSet_self _ _ _, tabGet_tabSet_self _ _ _ _⟩

theorem exec_cntClear_served (hwf : regsWf s.regs = true) :
    ∃ t, exec (.cntClear pg) s = .next t ∧ t = { s with regs := t.regs } ∧
      ∀ j, regGet t j = if pageOfKey j = k then regGet s j &&& ~~~(cntBits b (kOff j)) else regGet s j :=
  ⟨_, next_onPage_served hpg hp _, cntZeroEntries_regs b k s.regs s, regGet_cntZero s hwf hp⟩

theorem exec_cntFreeze_served (on : Bool) :
    ∃ t, exec (.cntFreeze pg on) s = .next t ∧ onlyRegs s t [k + 8] ∧ frozen t k = on := by
  refine ⟨_, next_onPage_served hpg hp _, regPut_only s _ _ _ _, ?_⟩
  rw [frozen, regBit, regPut, regGet_regSet_self, getLsbD_wset_bit_one]

/-- IRQ_FORCE sets the bits that the block defines (R447, log 77). -/
theorem exec_irqForce_served (w : Word) :
    ∃ t, exec (.irqForce pg w) s = .next t ∧ onlyRegs s t [k + 0x10] ∧
      regGet t (k + 0x10) = regGet s (k + 0x10) ||| (w &&& BitVec.ofNat 32 (irqDefined b)) := by
  refine ⟨_, next_onPage_served hpg hp _, orReg_only s _ _, ?_⟩
  rw [irqForceWrite, orReg, regGet_regSet_self, BitVec.ofNat_toNat, BitVec.setWidth_eq]

end

/-! ## Access codes, captures and commands together -/

/-- The captures that a read by name gives and clears. -/
theorem captures_read_and_clear (s : State) (v : Fin 1024) (e : Fin 3) (r : Fin 64) (d : Fin 16) :
    ∀ x ∈ ([(.errLogRead v, pgVlt v.val + 0x60, v.val / 64), (.ceLastRead v, pgVlt v.val + 0x64, v.val / 64),
            (.vcollLastRead v, pgVlt v.val + 0x74, v.val / 64), (.derrLastRead v, pgPln v.val + 0x58, v.val / 64),
            (.collLastRead v, pgClu v.val + 0x54, v.val / 64), (.scollLastRead e, pgSlt e.val + 0x40, 16),
            (.ovwLastRead e, bankKey (pgLnd e.val + 0x4C) (regField s (pgLnd e.val + 0x40) 0 8), 16),
            (.xcollLastRead r, pgXbr r.val + 0x40, r.val / 4), (.auditLastRead d, pgDbg d.val + 0x44, 16)] :
            List (Instr × Nat × Nat)),
      x.2.2 = 16 ∨ presetState s x.2.2 ≠ 4 → exec x.1 s = .next (captRead s x.2.1) := by
  have hvlt : pgVlt v.val = pageBase (v.val / 64) (0x1000 * (0x140 + v.val % 64)) := by simp only [pgVlt, pageBase]; omega
  have hpln : pgPln v.val = pageBase (v.val / 64) (0x1000 * (0x180 + v.val % 64)) := by simp only [pgPln, pageBase]; omega
  have hclu : pgClu v.val = pageBase (v.val / 64) (0x1000 * (0x100 + v.val % 64)) := by simp only [pgClu, pageBase]; omega
  have hxbr : pgXbr r.val = pageBase (r.val / 4) (0x1000 * (0x18 + r.val % 4)) := by simp only [pgXbr, pageBase]; omega
  have hv : v.val / 64 ≠ 16 := by omega
  have hr : r.val / 4 ≠ 16 := by omega
  simp only [List.forall_mem_cons, List.not_mem_nil, false_imp_iff, implies_true, and_true]
  refine ⟨fun h => ?_, fun h => ?_, fun h => ?_, fun h => ?_, fun h => ?_, fun _ => rfl, fun _ => rfl, fun h => ?_,
    fun _ => ?_⟩
  · exact next_captRead_onServed s _ hvlt (by omega) (by omega) (.inr (h.resolve_left hv))
  · exact next_captRead_onServed s _ hvlt (by omega) (by omega) (.inr (h.resolve_left hv))
  · exact next_captRead_onServed s _ hvlt (by omega) (by omega) (.inr (h.resolve_left hv))
  · exact next_captRead_onServed s _ hpln (by omega) (by omega) (.inr (h.resolve_left hv))
  · exact next_captRead_onServed s _ hclu (by omega) (by omega) (.inr (h.resolve_left hv))
  · exact next_captRead_onServed s _ hxbr (by omega) (by omega) (.inr (h.resolve_left hr))
  · exact next_captRead_onServed s _ (n := 0x1F0) rfl d.isLt (by omega) (.inl rfl)

/-- Settles O27: captures and the commands on a page by their registers' rules, accesses by address through the host
access of DRAM, the access codes of a page's common registers, and the shepherd SRAM. -/
theorem registersFollowTheirAccessCodes : Obligations.RegistersFollowTheirAccessCodes := by
  unfold Obligations.RegistersFollowTheirAccessCodes
  refine ⟨fun s v e r d x hx hs => ?captures, fun s a w => ⟨exec_access_dram s a w, fun k hk hwin => ?registers,
    fun hlo hhi h4 => ?sram, fun pg on => ⟨exec_page_command_unserved w on, fun k b i hpg hp => ?commands⟩⟩⟩
  case captures =>
    obtain ⟨hstate, hbut, hget⟩ := captRead_clears s x.2.1
    exact ⟨_, captures_read_and_clear s v e r d x hx hs, hstate, hbut, hget⟩
  case registers =>
    refine ⟨fun h4 => ?misaligned, fun hp h4 => ?unserved, fun b i hp h4 => ?served⟩
    case misaligned => exact ⟨exec_registerWrite_misaligned hk w h4, exec_latchedPairRead_misaligned hk h4⟩
    case unserved => exact ⟨exec_registerWrite_unserved hk h4 hwin w hp, exec_latchedPairRead_unserved hk h4 hwin hp⟩
    case served =>
      exact ⟨exec_registerWrite_reserved hk h4 hwin hp w, exec_latchedPairRead_reserved hk h4 hwin hp,
        fun ho => ⟨exec_registerWrite_irqEn hk h4 hwin hp w ho, exec_latchedPairRead_irqEn hk h4 hwin hp ho⟩,
        exec_registerWrite_irqStat hk h4 hwin hp w, exec_latchedPairRead_time hk hwin hp⟩
  case sram =>
    refine ⟨⟨_, exec_registerWrite_sram s hlo hhi h4 w, rfl, ?_, fun x hx => ?_⟩, exec_latchedPairRead_sram s hlo hhi h4⟩
    · exact (memNat_memWrite_self _ _ _ _).trans (Nat.mod_eq_of_lt w.isLt)
    · exact memNat_memWrite_outside _ _ _ _ _ _ (by omega)
  case commands =>
    exact ⟨exec_errCapt0Read_served hpg hp, exec_cntClear_served hpg hp, exec_cntFreeze_served hpg hp on,
      exec_irqForce_served hpg hp w⟩

end Sys2Proof.Proofs
end

section
/-! PROOF. A receive whose crossing slips in its own cycle, and was sound when the package last moved on (R98, R102, R106,
R155). -/
namespace Sys2Proof.Proofs
open Sys2Proof Sys2Proof.Machine Sys2Proof.Safety Sys2Proof.Laws

theorem clu_of_onlyRegs {s t : State} {ks : List Nat} (h : onlyRegs s t ks) : t.clu = s.clu := by rw [h.1]
theorem free_of_onlyRegs {s t : State} {ks : List Nat} (h : onlyRegs s t ks) : t.free = s.free := by rw [h.1]

/-! ## The input that a receive takes -/

/-- XCAL_LAG_MAX alone may change (R107). -/
theorem noteDrift_only (s : State) (x port : Nat) : onlyRegs s (noteDrift s x port) [xcalKey x port 8] := by
  simp only [noteDrift]
  split
  · exact regSet_only s _ _
  · exact onlyRegs_refl s _

theorem fault_clu (s : State) (code pg pos arg : Nat) (c : Option Nat) : (fault s code pg pos arg c).clu = s.clu := by
  rw [(fault_keeps s code pg pos arg c).2]
theorem fault_free (s : State) (code pg pos arg : Nat) (c : Option Nat) : (fault s code pg pos arg c).free = s.free := by
  rw [(fault_keeps s code pg pos arg c).2]

theorem takeSlip_keeps (s : State) (x port pos : Nat) (c : Option Nat) :
    (takeSlip s x port pos c).clu = s.clu ∧ (takeSlip s x port pos c).free = s.free := by
  have h := onlyRegs_trans (cntAdd_only s (xcalKey x port 4) 1) (regPut_only _ (xcalKey x port 0) 24 2 3)
  simp only [takeSlip]
  exact ⟨(fault_clu ..).trans (clu_of_onlyRegs h), (fault_free ..).trans (free_of_onlyRegs h)⟩

/-- What a read of a crossing that slips gives: nothing, or an undefined line (R106), whatever was sent. -/
def slippedLine (s : State) : Option Line :=
  let x : BitVec 513 := Config.freeValue s.free 513
  if x.getLsbD 512 then some (x.extractLsb' 0 512) else none

theorem takeInput_slip (s : State) (x : Option Nat) (pos t dst port lane : Nat) (hd : dst < 128)
    (hs : crossingSlips (noteDrift s dst port) dst port = true) :
    (takeInput s x pos t dst port lane).1 = slippedLine s ∧ (takeInput s x pos t dst port lane).2.clu = s.clu := by
  have hn := noteDrift_only s dst port
  obtain ⟨hclu, hfree⟩ := takeSlip_keeps (noteDrift s dst port) dst port pos x
  rw [clu_of_onlyRegs hn] at hclu
  rw [free_of_onlyRegs hn] at hfree
  simp only [takeInput, hd, hs, if_true, decide_true, Bool.and_self, drawFree, slippedLine, hfree, hclu, and_self]

/-! ## The cycle of a receive -/

/-- With one stage in flight, moving on past its cycle works that cycle off and no other. -/
theorem advance_one (s : State) (e : Ev) (hp : s.clu.pipe = [e]) (hc : s.clu.cyc ≤ e.stage)
    (hl : ∀ f ∈ (runCycle s e.stage).clu.pipe, e.stage < f.stage) :
    advance s (e.stage + 1) = { runCycle s e.stage with clu.cyc := max (runCycle s e.stage).clu.cyc (e.stage + 1) } := by
  have hnext : nextStage s (e.stage + 1) = some e.stage := by simp [nextStage, hp]
  obtain ⟨n, hn⟩ : ∃ n, e.stage + 1 + 1 - s.clu.cyc = n + 1 + 1 := ⟨e.stage - s.clu.cyc, by omega⟩
  unfold advance
  rw [hn]
  simp only [advanceN, hnext, nextStage_none _ _ hl]

/-- The state in which a stage that is alone in flight acts in its cycle. -/
def cycleBegun (s : State) (t : Nat) : State :=
  { s with
    clu.pipe := []
    clu.lanes := s.clu.lanes.filter fun x => t ≤ x.pos
    clu.cyc := max s.clu.cyc t }

/-- A receive that is alone in flight acts in its cycle, and nothing else does. -/
theorem runCycle_recvTake (s : State) (e : Ev) {port : BitVec 5} {lane : BitVec 3} {on : Bool} {a : BitVec 22}
    {peg : Option (BitVec 4)} (hact : e.act = .recvTake port lane on a peg) (hp : s.clu.pipe = [e])
    (ha : audited s e.unit = false) :
    (runCycle s e.stage).clu.pipe = (doAct (cycleBegun s e.stage) e false false).clu.pipe := by
  obtain ⟨c, k, n, t, act⟩ := e
  subst hact
  have hnow : dueNow s t = [⟨c, k, n, t, .recvTake port lane on a peg⟩] := by simp [dueNow, hp, sortRank, insRank]
  have hrest : (s.clu.pipe.filter fun e => e.stage ≠ t) = [] := by simp [hp]
  have haud : auditCycle (cycleBegun s t) [⟨c, k, n, t, .recvTake port lane on a peg⟩] t = cycleBegun s t := by
    have : audited (cycleBegun s t) c = false := ha
    simp [auditCycle, this]
  show (runCycle s t).clu.pipe = _
  unfold runCycle
  rw [hnow, hrest]
  generalize hnw : [(⟨c, k, n, t, .recvTake port lane on a peg⟩ : Ev)] = now at haud ⊢
  show (runPhase 3 now (pegCycle (runPhase 2 now (runPhase 1 now (runPhase 0 now (countBanks
    (auditCycle (lineCollisions (wbufCollisions (storeCollisions (cycleBegun s t) now t) now t) now t) now t)
    now)))) now t)).clu.pipe = _
  have hcoll : lineCollisions (wbufCollisions (storeCollisions (cycleBegun s t) now t) now t) now t = cycleBegun s t := by
    subst hnw
    rfl
  rw [hcoll, haud]
  subst hnw
  rfl

/-- What a receive puts under way: its write, of what it has taken (R155). -/
theorem doAct_recvTake (s : State) (e : Ev) {port : BitVec 5} {lane : BitVec 3} {a : BitVec 22}
    (hact : e.act = .recvTake port lane true a none) (b w : Bool) :
    let i := inputOf e.unit port.toNat
    let x := takeInput s (clusterCtx s e.unit) (posOf s e.unit e.stage) e.stage i.1 i.2 lane.toNat
    (doAct s e b w).clu.pipe = x.2.clu.pipe ++ [{ e with stage := e.stage + 2, act := .recvWrite a x.1 }] := by
  intro i x
  have hcount : (if true && x.1.isNone then cntAdd x.2 (pgXbr (e.unit / 16) + 0x48) 1 else x.2).clu = x.2.clu := by
    split
    · exact clu_of_onlyRegs (cntAdd_only ..)
    · rfl
  simp only [doAct, hact, if_true]
  split
  · contradiction
  · exact congrArg (·.pipe ++ _) hcount

/-- A receive that is alone in flight, on a crossing that slips in its cycle: what is written is what the slip gives. -/
theorem runCycle_recvTake_slips (s : State) (e : Ev) {port : BitVec 5} {lane : BitVec 3} {a : BitVec 22}
    (hact : e.act = .recvTake port lane true a none) (hp : s.clu.pipe = [e]) (ha : audited s e.unit = false)
    (hd : (inputOf e.unit port.toNat).1 < 128)
    (hs : let i := inputOf e.unit port.toNat
      crossingSlips (noteDrift (cycleBegun s e.stage) i.1 i.2) i.1 i.2 = true) :
    (runCycle s e.stage).clu.pipe = [{ e with stage := e.stage + 2, act := .recvWrite a (slippedLine s) }] := by
  obtain ⟨hline, hclu⟩ := takeInput_slip (cycleBegun s e.stage) (clusterCtx (cycleBegun s e.stage) e.unit)
    (posOf (cycleBegun s e.stage) e.unit e.stage) e.stage _ _ lane.toNat hd hs
  rw [runCycle_recvTake s e hact hp ha, doAct_recvTake (cycleBegun s e.stage) e hact, hline, hclu]
  rfl

/-! ## A crossing that slips between now and then -/

/-- The line that a slip of the reset state's first free value would give. -/
def undefinedLine : Line := (Config.freeValue 0 513).extractLsb' 0 512

/-- The receive of a line from region 1 of C0 by cluster 0, in cycle 7. -/
def lateReceive : Ev := ⟨0, 5, 7, 7, .recvTake 17 0 true 64 none⟩

/-- A receive across a crossing with no slack for drift: its arrival is 6, which fails calibration (R103, R105). The
package stands at the tick, where no domain has taken a stretch. Region 1 takes one in period 5 and region 0 owes it
from period 9 on (R98), so the drift is 1 in cycle 7. The line that is sent differs from the undefined one. -/
def slippingReceive : State :=
  { State.reset with
    regs := [(xcalKey 0 17 0, 0x2000006)]
    clu.pipe := [lateReceive]
    clu.lanes := [⟨0, 17, 0, 7, 80, some (~~~undefinedLine)⟩]
    time.starts := [5]
    time.domains := [(0, { Domain.init with owed := [(1, 5)] }), (1, { Domain.init with owed := [(1, 5)] })] }

/-- At the tick the drift is 0, and the tag is the expected one. -/
theorem slippingReceive_sound_now : crossingSlips slippingReceive 0 17 = false := by decide +kernel

/-- In cycle 7 the drift is 1, and the line has not arrived. -/
theorem slippingReceive_slips_then :
    crossingSlips (noteDrift (cycleBegun slippingReceive 7) 0 17) 0 17 = true := by decide +kernel

/-- The slip does not give the line that was sent. -/
theorem slippedLine_ne_sent : slippedLine slippingReceive ≠ some (~~~undefinedLine) := by
  have hne : undefinedLine ≠ ~~~undefinedLine := fun h => by
    have := congrArg (·.getLsbD 0) h
    simp at this
  show (if (Config.freeValue 0 513).getLsbD 512 then some undefinedLine else none) ≠ _
  split
  · exact fun h => hne (Option.some.inj h)
  · exact nofun

/-- Past cycle 7 the receive's write is under way, of what the slip gives. -/
theorem slippingReceive_advance : (advance slippingReceive 8).clu.pipe =
    [{ lateReceive with stage := 9, act := .recvWrite 64 (slippedLine slippingReceive) }] := by
  have hrun : (runCycle slippingReceive 7).clu.pipe = _ :=
    runCycle_recvTake_slips slippingReceive lateReceive rfl rfl rfl (by decide) slippingReceive_slips_then
  have hlater : ∀ f ∈ (runCycle slippingReceive 7).clu.pipe, 7 < f.stage := by
    rw [hrun]
    simp [lateReceive]
  exact (congrArg (·.clu.pipe) (advance_one slippingReceive lateReceive rfl (by decide) hlater)).trans hrun

/-- Refutes O18: the clause of a receive asks whether its crossing slips before the package moves on, where drift can
still grow until the receive's own cycle. `slippingReceive` is sound at cycle 0 and slips in cycle 7, so what is under
way then is undefined (R106), and is not the line that was sent. -/
theorem not_resultsLandInTheirCycle : ¬ Obligations.ResultsLandInTheirCycle := by
  unfold Obligations.ResultsLandInTheirCycle
  rintro ⟨-, -, -, -, -, htransfers⟩
  obtain ⟨hcluster, -⟩ := htransfers slippingReceive 5 7 7 (by decide)
  obtain ⟨-, -, -, -, hreceive, -⟩ := hcluster 0 lateReceive.act (by decide) rfl rfl
  obtain ⟨hclu, -⟩ := hreceive 17 0 64 none _ (~~~undefinedLine) rfl rfl rfl rfl rfl rfl rfl
    fun _ => slippingReceive_sound_now
  have hpipe : [{ lateReceive with stage := 9, act := Act.recvWrite 64 (slippedLine slippingReceive) }] =
      [{ lateReceive with stage := 9, act := Act.recvWrite 64 (some (~~~undefinedLine)) }] :=
    slippingReceive_advance.symm.trans (congrArg (·.pipe) hclu)
  simp only [List.cons.injEq, Ev.mk.injEq, Act.recvWrite.injEq, true_and, and_true] at hpipe
  exact slippedLine_ne_sent hpipe

end Sys2Proof.Proofs
end

section
/-! PROOF. The partition map and the rotation tables: PMAP_CMD, an apply at its tick, and rotation writes (R34, R451 to
R453). -/
namespace Sys2Proof.Proofs
open Sys2Proof Sys2Proof.Machine Sys2Proof.Safety Sys2Proof.Laws

/-! ## PMAP_CMD -/

/-- The command in the low bits of PMAP_CMD. -/
theorem wfield_wset_cmd (w : Word) {v : Nat} (hv : v < 4) : wfield (wset w 0 2 v) 0 2 = v := by
  simp only [wfield, wset, setBits, bitsOf, Nat.shiftRight_zero, Nat.shiftLeft_zero, BitVec.toNat_ofNat]
  omega

/-- The command leaves the partition that PMAP_CMD names. -/
theorem wfield_wset_part (w : Word) (v : Nat) : wfield (wset w 0 2 v) 4 4 = wfield w 4 4 := by
  have := w.isLt
  simp only [wfield, wset, setBits, bitsOf, Nat.shiftLeft_zero, BitVec.toNat_ofNat, Nat.shiftRight_eq_div_pow]
  omega

theorem getLsbD_wset_bit_zero (x : Word) : (wset x 0 1 1).getLsbD 0 = true := by
  simp only [wset, setBits, bitsOf, Nat.shiftRight_zero, Nat.shiftLeft_zero, BitVec.getLsbD_ofNat]
  simp [Nat.testBit_zero]
  omega

theorem pmapWrite_busy (s : State) (w : Word) (h : s.rai.pmap ≠ none) : pmapWrite s w = statSet s pgDieS 2 :=
  if_pos (Option.isSome_iff_ne_none.2 h)

theorem pmapWrite_apply (s : State) (w : Word) (h : s.rai.pmap = none) : pmapWrite s (wset w 0 2 1) =
    regPut { s with rai.pmap := some ⟨none, false⟩ } (pgDieS + 0x984) 0 1 1 := by
  simp only [pmapWrite, h, Option.isSome_none, wfield_wset_cmd w (v := 1) (by decide)]
  rfl

theorem pmapWrite_reraise (s : State) (w : Word) (h : s.rai.pmap = none) : pmapWrite s (wset w 0 2 2) =
    if mapCheck s (some (wfield w 4 4)) = 0 then
      regPut { s with rai.pmap := some ⟨some (wfield w 4 4), false⟩ } (pgDieS + 0x984) 0 1 1
    else pmapStat s false (mapCheck s (some (wfield w 4 4))) := by
  simp only [pmapWrite, h, Option.isSome_none, wfield_wset_cmd w (v := 2) (by decide), wfield_wset_part]
  rfl

/-- An apply that waits shows BUSY, and nothing else has changed. -/
theorem pmapWaits (s : State) (x : PmapPend) :
    let st := pgDieS + 0x984
    let t := regPut { s with rai.pmap := some x } st 0 1 1
    t = { s with regs := t.regs, rai.pmap := some x } ∧ regsBut s t [st] ∧ regBit t st 0 = true := by
  intro st t
  refine ⟨rfl, (regPut_only { s with rai.pmap := some x } st 0 1 1).2, ?_⟩
  simp only [t, regBit, regPut, regGet_regSet_self]
  exact getLsbD_wset_bit_zero _

/-- STAT bit `b` of a page is set. -/
theorem regBit_statSet (s : State) (pg : Nat) {b : Nat} (hb : b < 32) : regBit (statSet s pg b) (pg + 0xC) b = true := by
  simp only [regBit, statSet, orReg, regGet_regSet_self, BitVec.getLsbD_or, BitVec.getLsbD_ofNat]
  simp [hb, Nat.testBit_shiftLeft]

theorem regGet_pmapStat (s : State) (n : Nat) :
    regGet (pmapStat s false n) (pgDieS + 0x984) = BitVec.ofNat 32 (2 * n) := by
  simp [pmapStat, b2n]

/-! ## Registers copied in turn -/

theorem foldl_eq_self {α β : Type} {f : β → α → β} {s : β} {l : List α} (h : ∀ x ∈ l, f s x = s) : l.foldl f s = s := by
  induction l with
  | nil => rfl
  | cons x l ih =>
    rw [List.foldl_cons, h x (by simp)]
    exact ih fun y hy => h y (List.mem_cons_of_mem _ hy)

/-- Registers that take, one after another, what `f` makes of other registers, none of which is written. -/
theorem foldl_copy {α : Type} (dst src : α → Nat) (f : Word → Word) {l : List α} (hnd : (l.map dst).Nodup)
    (hsep : ∀ x ∈ l, ∀ y ∈ l, dst x ≠ src y) (s : State) :
    let t := l.foldl (fun s x => regSet s (dst x) (f (regGet s (src x)))) s
    onlyRegs s t (l.map dst) ∧ ∀ x ∈ l, regGet t (dst x) = f (regGet s (src x)) := by
  induction l generalizing s with
  | nil => exact ⟨onlyRegs_refl s _, by simp⟩
  | cons y l ih =>
    obtain ⟨hy, hnd⟩ := List.nodup_cons.1 hnd
    obtain ⟨honly, hget⟩ := ih hnd (fun x hx z hz => hsep x (List.mem_cons_of_mem _ hx) z (List.mem_cons_of_mem _ hz))
      (regSet s (dst y) (f (regGet s (src y))))
    refine ⟨onlyRegs_trans (regSet_only s (dst y) _) honly, fun x hx => ?_⟩
    rcases List.mem_cons.1 hx with rfl | hx
    · exact (honly.2 _ hy).trans (regGet_regSet_self ..)
    · rw [List.foldl_cons, hget x hx, regGet_regSet_of_ne _ _ (hsep y (by simp) x (List.mem_cons_of_mem _ hx)).symm]

/-! ## The staged map becomes the live one -/

/-- The ports and shares of the map, each with its row. -/
def mapCells : List ((Nat × Nat × Nat) × Nat) := mapRows.flatMap fun m => (List.range m.2.2).map fun n => (m, n)

theorem mem_mapCells {m : Nat × Nat × Nat} {n : Nat} : (m, n) ∈ mapCells ↔ m ∈ mapRows ∧ n < m.2.2 := by
  simp [mapCells]

/-- The live register of a port or share. -/
def liveKey (x : (Nat × Nat × Nat) × Nat) : Nat := pgDieS + x.1.2.1 + 4 * x.2

/-- The staged register of a port or share. -/
def stagedKey (x : (Nat × Nat × Nat) × Nat) : Nat := pgDieS + x.1.1 + 4 * x.2

theorem liveKey_nodup : (mapCells.map liveKey).Nodup := by decide +kernel

theorem mapCells_bounds : ∀ x ∈ mapCells,
    pgDieS + 0x840 ≤ liveKey x ∧ liveKey x < pgDieS + 0x980 ∧ stagedKey x < pgDieS + 0x800 := by decide +kernel

theorem dies_nodup : ((List.range 16).map fun p => pgDieS + 0x800 + 4 * p).Nodup := by decide +kernel

/-- The C-dies of the staged map, copied into the live one. -/
def copyDies (s : State) : State :=
  (List.range 16).foldl (fun s p => regSet s (pgDieS + 0x800 + 4 * p) (BitVec.ofNat 32 (stagedDies s p))) s

/-- The ports and shares of the staged map, copied into the live one. -/
def copyCells (s : State) : State :=
  mapCells.foldl (fun s x => regSet s (liveKey x) (regGet s (stagedKey x))) s

/-- Where no context exists in a partition that gains or loses a die, an apply copies the staged map, and changes no
key. -/
theorem mapApply_eq (s : State) (h : ∀ k < 16, liveDies s k ≠ stagedDies s k → createdIn s k = []) :
    mapApply s = copyCells (copyDies s) := by
  have hmoves : ∀ x ∈ ((List.range 16).flatMap fun p => (List.range 16).map fun d => (p, d)),
      bitOf (liveDies s x.1) x.2 ≠ bitOf (stagedDies s x.1) x.2 → createdIn s x.1 = [] := by
    intro x hx hbit
    simp only [List.mem_flatMap, List.mem_map, List.mem_range] at hx
    obtain ⟨p, hp, d, -, rfl⟩ := hx
    exact h p hp fun heq => hbit (congrArg (bitOf · d) heq)
  have hcells : ∀ u, mapRows.foldl (fun s m => (List.range m.2.2).foldl (fun s n =>
      regSet s (pgDieS + m.2.1 + 4 * n) (regGet s (pgDieS + m.1 + 4 * n))) s) u = copyCells u := fun u => by
    simp only [copyCells, mapCells, List.foldl_flatMap, List.foldl_map, liveKey, stagedKey]
  unfold mapApply
  simp only [hcells]
  rw [foldl_eq_self (s := s), foldl_eq_self (s := s)]
  · rfl
  · intro x hx
    obtain ⟨hx, hbit⟩ := List.mem_filter.1 hx
    rw [Bool.and_eq_true, Bool.not_eq_true'] at hbit
    rw [hmoves x hx (by simp [hbit]), List.foldl_nil]
  · intro x hx
    obtain ⟨hx, hbit⟩ := List.mem_filter.1 hx
    rw [Bool.and_eq_true, Bool.not_eq_true'] at hbit
    rw [dieKeysLost, hmoves x hx (by simp [hbit]), List.foldl_nil]

/-- The live dies are the staged ones, and no register outside the live dies has changed. -/
theorem copyDies_copies (s : State) :
    onlyRegs s (copyDies s) ((List.range 16).map fun p => pgDieS + 0x800 + 4 * p) ∧
    ∀ p < 16, liveDies (copyDies s) p = stagedDies s p := by
  obtain ⟨honly, hget⟩ := foldl_copy (fun p => pgDieS + 0x800 + 4 * p) (fun p => pgDieS + 0x100 + 4 * p)
    (fun w => BitVec.ofNat 32 (w.toNat % 0x10000)) dies_nodup (fun p _ q hq => by have := List.mem_range.1 hq; omega) s
  refine ⟨honly, fun p hp => (congrArg BitVec.toNat (hget p (List.mem_range.2 hp))).trans ?_⟩
  rw [BitVec.toNat_ofNat]
  exact Nat.mod_eq_of_lt (Nat.lt_trans (Nat.mod_lt _ (by decide)) (by decide))

/-- The live ports and shares are the staged ones, and no other register has changed. -/
theorem copyCells_copies (s : State) : onlyRegs s (copyCells s) (mapCells.map liveKey) ∧
    ∀ x ∈ mapCells, regGet (copyCells s) (liveKey x) = regGet s (stagedKey x) := by
  have hsep : ∀ x ∈ mapCells, ∀ y ∈ mapCells, liveKey x ≠ stagedKey y := by
    intro x hx y hy
    have := mapCells_bounds x hx
    have := mapCells_bounds y hy
    omega
  exact foldl_copy liveKey stagedKey (fun w => w) liveKey_nodup hsep s

theorem not_mem_live_dies {k : Nat} (h : k < pgDieS + 0x800 ∨ pgDieS + 0x840 ≤ k) :
    k ∉ (List.range 16).map fun p => pgDieS + 0x800 + 4 * p := by
  simp only [List.mem_map, List.mem_range, not_exists, not_and]
  omega

theorem not_mem_live_cells {k : Nat} (h : k < pgDieS + 0x840 ∨ pgDieS + 0x980 ≤ k) :
    k ∉ mapCells.map liveKey := fun hk => by
  obtain ⟨x, hx, rfl⟩ := List.mem_map.1 hk
  have := mapCells_bounds x hx
  omega

/-- What an apply leaves where no key is lost or made: the live map is the staged one, and no register outside the live
map has changed. -/
theorem mapApply_copies (s : State) (h : ∀ k < 16, liveDies s k ≠ stagedDies s k → createdIn s k = []) :
    mapApply s = { s with regs := (mapApply s).regs } ∧
    (∀ p < 16, liveDies (mapApply s) p = stagedDies s p) ∧
    (∀ m ∈ mapRows, ∀ n < m.2.2,
      regGet (mapApply s) (pgDieS + m.2.1 + 4 * n) = regGet s (pgDieS + m.1 + 4 * n)) ∧
    ∀ k, k < pgDieS + 0x800 ∨ pgDieS + 0x980 ≤ k → regGet (mapApply s) k = regGet s k := by
  rw [mapApply_eq s h]
  obtain ⟨hdies, hlive⟩ := copyDies_copies s
  obtain ⟨hcells, hget⟩ := copyCells_copies (copyDies s)
  refine ⟨(onlyRegs_trans hdies hcells).1, fun p hp => ?dies, fun m hm n hn => ?cells, fun k hk => ?others⟩
  case dies =>
    exact (congrArg BitVec.toNat (hcells.2 _ (not_mem_live_cells (by omega)))).trans (hlive p hp)
  case cells =>
    have hmem := mem_mapCells.2 ⟨hm, hn⟩
    exact (hget _ hmem).trans (hdies.2 _ (not_mem_live_dies (.inl (mapCells_bounds _ hmem).2.2)))
  case others =>
    have hc := not_mem_live_cells (k := k) (by omega)
    have hd := not_mem_live_dies (hk.imp_right (Nat.le_trans (Nat.add_le_add_left (by decide) _)))
    exact (hcells.2 k hc).trans (hdies.2 k hd)

/-! ## An apply at its tick -/

/-- Where no fault waits, none is acted on. -/
theorem actFaults_none (s : State) (h : s.rai.faults = []) : actFaults s = s := by
  unfold actFaults actThese
  rw [h]
  show { s with rai.faults := [] } = s
  rw [← h]

/-- What an apply that is due stores first: that none waits, and RESULT. -/
def mapResult (s : State) : State := pmapStat { s with rai.pmap := none } false (mapCheck s none)

theorem mapResult_keeps (s : State) : mapResult s = { s with regs := (mapResult s).regs, rai.pmap := none } ∧
    regsBut s (mapResult s) [pgDieS + 0x984] ∧
    regGet (mapResult s) (pgDieS + 0x984) = BitVec.ofNat 32 (2 * mapCheck s none) :=
  ⟨rfl, (regSet_only { s with rai.pmap := none } _ _).2, regGet_pmapStat _ _⟩

/-- RESULT leaves both maps. -/
theorem mapResult_maps (s : State) (p : Nat) (hp : p < 16) :
    liveDies (mapResult s) p = liveDies s p ∧ stagedDies (mapResult s) p = stagedDies s p := by
  obtain ⟨-, hregs, -⟩ := mapResult_keeps s
  have hl := hregs (pgDieS + 0x800 + 4 * p) (by rw [List.mem_singleton]; omega)
  have hs := hregs (pgDieS + 0x100 + 4 * p) (by rw [List.mem_singleton]; omega)
  exact ⟨congrArg BitVec.toNat hl, congrArg (·.toNat % 0x10000) hs⟩

theorem exec_partitionMapApply_due (s : State) (h : s.rai.pmap = some ⟨none, true⟩) : exec .partitionMapApply s =
    .next (actFaults (if mapCheck s none = 0 then mapApply (mapResult s) else mapResult s)) := by
  show Host.Outcome.next _ = _
  rw [h]
  rfl

/-- A map that passes is the live map from its tick on. -/
theorem exec_partitionMapApply_passes (s : State) (h : s.rai.pmap = some ⟨none, true⟩) (hc : mapCheck s none = 0)
    (hf : s.rai.faults = []) (hk : ∀ k < 16, liveDies s k ≠ stagedDies s k → createdIn s k = []) :
    exec .partitionMapApply s = .next (mapApply (mapResult s)) ∧
    mapApply (mapResult s) = { s with regs := (mapApply (mapResult s)).regs, rai.pmap := none } ∧
    (∀ k < 16, liveDies (mapApply (mapResult s)) k = stagedDies s k) ∧
    (∀ m ∈ mapRows, ∀ n < m.2.2,
      regGet (mapApply (mapResult s)) (pgDieS + m.2.1 + 4 * n) = regGet s (pgDieS + m.1 + 4 * n)) ∧
    regGet (mapApply (mapResult s)) (pgDieS + 0x984) = 0 ∧
    ∀ k, k ≠ pgDieS + 0x984 → k < pgDieS + 0x800 ∨ pgDieS + 0x980 ≤ k →
      regGet (mapApply (mapResult s)) k = regGet s k := by
  obtain ⟨hstate, hregs, hres⟩ := mapResult_keeps s
  obtain ⟨happ, hlive, hcells, hothers⟩ := mapApply_copies (mapResult s) fun k hk16 hne => by
    obtain ⟨hl, hs⟩ := mapResult_maps s k hk16
    exact hk k hk16 (by rwa [hl, hs] at hne)
  have hfaults : (mapApply (mapResult s)).rai.faults = [] := by
    rw [happ]
    exact hf
  refine ⟨?runs, ?state, fun k hk16 => ?dies, fun m hm n hn => ?cells, ?stat, fun k hne hk => ?others⟩
  case runs => rw [exec_partitionMapApply_due s h, if_pos hc, actFaults_none _ hfaults]
  case state => exact happ
  case dies => exact (hlive k hk16).trans (mapResult_maps s k hk16).2
  case cells =>
    have hb := (mapCells_bounds _ (mem_mapCells.2 ⟨hm, hn⟩)).2.2
    exact (hcells m hm n hn).trans (hregs (stagedKey (m, n)) (by rw [List.mem_singleton]; omega))
  case stat =>
    have h984 : pgDieS + 0x980 ≤ pgDieS + 0x984 := Nat.add_le_add_left (by decide) _
    rw [hothers _ (.inr h984), hres, hc]
    rfl
  case others => exact (hothers k hk).trans (hregs k (by simpa using hne))

/-- A map that fails leaves the live map, and RESULT says which check it fails. -/
theorem exec_partitionMapApply_fails (s : State) (h : s.rai.pmap = some ⟨none, true⟩) (hc : mapCheck s none ≠ 0)
    (hf : s.rai.faults = []) : exec .partitionMapApply s = .next (mapResult s) := by
  rw [exec_partitionMapApply_due s h, if_neg hc, actFaults_none (mapResult s) hf]

/-! ## Rotation writes -/

section
variable (s : State) (p : Nat) (w : Word)

/-- While a raising of several packages uses the partition's rotation, STAT bit 1 is set and nothing is written. -/
theorem rotWrite_held (j : Option Nat)
    (h : ((ctxList s).any fun c => (ctx s c).part = p && ((ctxLive s c && isMulti s c) || succMulti s c)) = true) :
    rotWrite s p j w = statSet s pgDieS 1 := if_pos h

theorem rotWrite_length
    (h : ((ctxList s).any fun c => (ctx s c).part = p && ((ctxLive s c && isMulti s c) || succMulti s c)) = false) :
    rotWrite s p none w = regSet s (pgDieS + 0x380 + 4 * p) (w &&& 0x1F) := if_neg (by rw [h]; decide)

theorem rotWrite_entry (j : Nat)
    (h : ((ctxList s).any fun c => (ctx s c).part = p && ((ctxLive s c && isMulti s c) || succMulti s c)) = false) :
    rotWrite s p (some j) w = regSet s (pgDieS + 0x400 + 0x40 * p + 4 * j) (w &&& 0x1FFFFFF) :=
  if_neg (by rw [h]; decide)

end

/-- Settles O47: PMAP_CMD, the apply at its tick by what its check finds, and the rotation writes. -/
theorem partitionMapIsApplied : Obligations.PartitionMapIsApplied := by
  unfold Obligations.PartitionMapIsApplied
  intro s w p j
  refine ⟨fun h => ?apply, fun h hc => ?reraise, fun n h hc hn => ?refused, fun i hi h => ?busy,
    fun h hc hf hk => ⟨_, exec_partitionMapApply_passes s h hc hf hk⟩, fun n h hc hn hf => ?fails,
    fun h => ⟨?length, ?entry⟩, fun h x hx => ?held⟩
  case apply => exact ⟨_, congrArg Host.Outcome.next (pmapWrite_apply s w h), pmapWaits s _⟩
  case reraise =>
    exact ⟨_, congrArg Host.Outcome.next ((pmapWrite_reraise s w h).trans (if_pos hc)), pmapWaits s _⟩
  case refused =>
    subst hc
    exact ⟨_, congrArg Host.Outcome.next ((pmapWrite_reraise s w h).trans (if_neg hn)), regSet_only s _ _,
      regGet_pmapStat s _⟩
  case busy =>
    refine ⟨_, ?_, statSet_only s pgDieS 2, regBit_statSet s pgDieS (by decide)⟩
    simp only [List.mem_cons, List.not_mem_nil, or_false] at hi
    rcases hi with rfl | rfl
    · exact congrArg Host.Outcome.next (pmapWrite_busy s (wset w 0 2 1) h)
    · exact congrArg Host.Outcome.next (pmapWrite_busy s (wset w 0 2 2) h)
  case fails =>
    subst hc
    exact ⟨_, exec_partitionMapApply_fails s h hn hf, mapResult_keeps s⟩
  case length =>
    exact ⟨_, congrArg Host.Outcome.next (rotWrite_length s p.val w h), regSet_only s _ _, regGet_regSet_self s _ _⟩
  case entry =>
    exact ⟨_, congrArg Host.Outcome.next (rotWrite_entry s p.val w j.val h), regSet_only s _ _,
      regGet_regSet_self s _ _⟩
  case held =>
    exact ⟨_, congrArg Host.Outcome.next (rotWrite_held s p.val w (x.map (·.val)) h), statSet_only s pgDieS 1,
      regBit_statSet s pgDieS (by decide)⟩

end Sys2Proof.Proofs
end

section
/-! PROOF. LOAD, LOAD_COMPLETE and UNLOAD: what PLAN_STAT and PLAN_ERR then say, and which plans are resident (R44,
R463). -/
namespace Sys2Proof.Proofs
open Sys2Proof Sys2Proof.Machine Sys2Proof.Safety Sys2Proof.Laws

/-! ## A field that is replaced in a register word -/

/-- Around the field stand the low and the high bits of the number. -/
theorem setBits_eq (x lo w v : Nat) :
    setBits x lo w v = 2 ^ lo * (2 ^ w * (x / 2 ^ lo / 2 ^ w) + v % 2 ^ w) + x % 2 ^ lo := by
  have hlow := Nat.div_add_mod x (2 ^ lo)
  have hfield := Nat.div_add_mod (x / 2 ^ lo) (2 ^ w)
  simp only [setBits, bitsOf, Nat.shiftLeft_eq, Nat.shiftRight_eq_div_pow]
  generalize x / 2 ^ lo = q at *
  rw [Nat.mul_comm _ (2 ^ lo), Nat.mul_comm _ (2 ^ lo), Nat.mul_add]
  have hq : 2 ^ lo * q = 2 ^ lo * (2 ^ w * (q / 2 ^ w)) + 2 ^ lo * (q % 2 ^ w) := by rw [← Nat.mul_add, hfield]
  omega

theorem testBit_setBits (x lo w v i : Nat) :
    (setBits x lo w v).testBit i = if lo ≤ i ∧ i < lo + w then v.testBit (i - lo) else x.testBit i := by
  have hlow : x % 2 ^ lo < 2 ^ lo := Nat.mod_lt _ (Nat.two_pow_pos lo)
  have hfield : v % 2 ^ w < 2 ^ w := Nat.mod_lt _ (Nat.two_pow_pos w)
  rw [setBits_eq, Nat.testBit_two_pow_mul_add _ hlow]
  by_cases h1 : i < lo
  · simp [h1, show ¬ lo ≤ i by omega, Nat.testBit_mod_two_pow]
  · rw [if_neg h1, Nat.testBit_two_pow_mul_add _ hfield]
    by_cases h2 : i - lo < w
    · simp [h2, show lo ≤ i ∧ i < lo + w by omega, Nat.testBit_mod_two_pow]
    · simp [h2, show ¬ (lo ≤ i ∧ i < lo + w) by omega, Nat.testBit_div_two_pow, show i - lo - w + w + lo = i by omega]

theorem getLsbD_wset (x : Word) (lo w v i : Nat) (hi : i < 32) :
    (wset x lo w v).getLsbD i = if lo ≤ i ∧ i < lo + w then v.testBit (i - lo) else x.getLsbD i := by
  simp only [wset, BitVec.getLsbD_ofNat, hi, testBit_setBits, decide_true, Bool.true_and]
  rfl

theorem testBit_wfield (x : Word) (lo w i : Nat) :
    (wfield x lo w).testBit i = (decide (i < w) && x.getLsbD (lo + i)) := by
  simp [wfield, bitsOf, Nat.testBit_mod_two_pow, Nat.testBit_shiftRight, BitVec.getLsbD]

theorem wfield_wset_self (x : Word) {lo w v : Nat} (hv : v < 2 ^ w) (hw : lo + w ≤ 32) :
    wfield (wset x lo w v) lo w = v := by
  refine Nat.eq_of_testBit_eq fun i => ?_
  rw [testBit_wfield]
  by_cases hi : i < w
  · simp [hi, getLsbD_wset x lo w v (lo + i) (by omega)]
  · have : v < 2 ^ i := Nat.lt_of_lt_of_le hv (Nat.pow_le_pow_right (by decide) (by omega))
    simp [hi, Nat.testBit_lt_two_pow this]

/-- A field apart from the one that is replaced. -/
theorem wfield_wset_of_disjoint (x : Word) {lo w v lo' w' : Nat} (hw : lo' + w' ≤ 32)
    (h : lo' + w' ≤ lo ∨ lo + w ≤ lo') : wfield (wset x lo w v) lo' w' = wfield x lo' w' := by
  refine Nat.eq_of_testBit_eq fun i => ?_
  rw [testBit_wfield, testBit_wfield]
  by_cases hi : i < w'
  · rw [getLsbD_wset x lo w v (lo' + i) (by omega), if_neg (by omega)]
  · simp [hi]

/-- A pair holds the 64 bits that were stored. -/
theorem regPair_regPairSet_self (s : State) (k : Nat) {v : Nat} (hv : v < 2 ^ 64) : regPair (regPairSet s k v) k = v := by
  simp only [regPair, regNat, regPairSet, regGet_regSet_self, regGet_regSet_of_ne _ _ (show k ≠ k + 4 by omega),
    BitVec.toNat_ofNat]
  omega

/-! ## PLAN_CMD -/

/-- The word that commands `c` on a slot names both (R475). -/
theorem wfield_planCmd (slot : BitVec 6) {c : Nat} (hc : c < 4) :
    wfield (BitVec.ofNat 32 (c + slot.toNat * 0x100)) 0 2 = c ∧
    wfield (BitVec.ofNat 32 (c + slot.toNat * 0x100)) 8 6 = slot.toNat := by
  have := slot.isLt
  simp only [wfield, bitsOf, BitVec.toNat_ofNat, Nat.shiftRight_eq_div_pow]
  omega

theorem planCmdWrite_busy (s : State) (w : Word) (h : regBit s planStatKey 0 = true) : planCmdWrite s w = s := if_pos h

/-- The state in which a load into a slot begins. -/
def loadBegun (s : State) (slot : Nat) : State :=
  { regPut (regPut s planStatKey 0 1 1) planStatKey 8 6 slot with
    rai.load := some ⟨slot, regPair s (pgDbgS + 0x48) % 2 ^ 48⟩ }

theorem loadBegun_keeps (s : State) (slot : Nat) : loadBegun s slot = { s with
      regs := (loadBegun s slot).regs
      rai.load := some ⟨slot, regPair s (pgDbgS + 0x48) % 2 ^ 48⟩ } ∧
    regsBut s (loadBegun s slot) [planStatKey] :=
  ⟨rfl, (onlyRegs_mono (onlyRegs_trans (regPut_only s planStatKey 0 1 1) (regPut_only _ planStatKey 8 6 slot))
    (by simp)).2⟩

/-- PLAN_STAT shows BUSY and the slot. -/
theorem loadBegun_stat (s : State) {slot : Nat} (h : slot < 64) :
    regBit (loadBegun s slot) planStatKey 0 = true ∧ regField (loadBegun s slot) planStatKey 8 6 = slot := by
  have hget : regGet (loadBegun s slot) planStatKey = wset (wset (regGet s planStatKey) 0 1 1) 8 6 slot := by
    show regGet (regPut (regPut s planStatKey 0 1 1) planStatKey 8 6 slot) planStatKey = _
    simp [regPut]
  have hbusy : (wset (wset (regGet s planStatKey) 0 1 1) 8 6 slot).getLsbD 0 = true := by
    rw [getLsbD_wset _ _ _ _ _ (by decide), if_neg (by decide), getLsbD_wset_bit_zero]
  rw [regBit, regField, hget]
  exact ⟨hbusy, wfield_wset_self _ h (by decide)⟩

theorem planCmdWrite_load (s : State) (slot : BitVec 6) (h : regBit s planStatKey 0 = false) :
    planCmdWrite s (BitVec.ofNat 32 (1 + slot.toNat * 0x100)) = loadBegun s slot.toNat := by
  obtain ⟨hcmd, hslot⟩ := wfield_planCmd slot (c := 1) (by decide)
  have haddr : regPair (regPut (regPut s planStatKey 0 1 1) planStatKey 8 6 slot.toNat) (pgDbgS + 0x48) =
      regPair s (pgDbgS + 0x48) := by
    have hkeep := (loadBegun_keeps s slot.toNat).2
    exact congrArg₂ (fun a b : Word => a.toNat + b.toNat * 0x100000000)
      (hkeep (pgDbgS + 0x48) (by simp [planStatKey])) (hkeep (pgDbgS + 0x48 + 4) (by simp [planStatKey]))
  simp only [planCmdWrite, h, hcmd, hslot, haddr]
  rfl

/-- What an UNLOAD leaves in PLAN_STAT and PLAN_ERR. -/
def unloadStat (s : State) (slot result : Nat) : State :=
  regPairSet (regPut (regPut s planStatKey 8 6 slot) planStatKey 4 4 result) (pgDbgS + 0x50) 0

theorem unloadStat_only (s : State) (slot result : Nat) :
    onlyRegs s (unloadStat s slot result) [planStatKey, pgDbgS + 0x50, pgDbgS + 0x54] :=
  onlyRegs_mono (onlyRegs_trans (onlyRegs_trans (regPut_only s planStatKey 8 6 slot) (regPut_only _ planStatKey 4 4 result))
    (regPairSet_only _ (pgDbgS + 0x50) 0)) (by simp)

theorem regGet_unloadStat (s : State) (slot result : Nat) :
    regGet (unloadStat s slot result) planStatKey = wset (wset (regGet s planStatKey) 8 6 slot) 4 4 result := by
  rw [unloadStat, (regPairSet_only _ (pgDbgS + 0x50) 0).2 planStatKey (by simp [planStatKey])]
  simp [regPut]

/-- PLAN_STAT shows the result and the slot, and PLAN_ERR is 0. -/
theorem unloadStat_shows (s : State) {slot result : Nat} (hs : slot < 64) (hr : result < 16) :
    regField (unloadStat s slot result) planStatKey 4 4 = result ∧
    regField (unloadStat s slot result) planStatKey 8 6 = slot ∧
    regPair (unloadStat s slot result) (pgDbgS + 0x50) = 0 := by
  rw [regField, regField, regGet_unloadStat]
  exact ⟨wfield_wset_self _ hr (by decide),
    (wfield_wset_of_disjoint _ (by decide) (.inr (by decide))).trans (wfield_wset_self _ hs (by decide)),
    regPair_regPairSet_self _ _ (by decide)⟩

/-- The state in which the plan of a slot is gone. -/
def unloaded (s : State) (slot : Nat) : State :=
  { unloadStat s slot 0 with rai.plans := tabErase slot s.rai.plans }

theorem unloaded_keeps (s : State) (slot : Nat) :
    unloaded s slot = { s with regs := (unloaded s slot).regs, rai.plans := tabErase slot s.rai.plans } := by
  unfold unloaded
  rw [(unloadStat_only s slot 0).1]

theorem regGet_unloaded (s : State) (slot k : Nat) : regGet (unloaded s slot) k = regGet (unloadStat s slot 0) k := by
  rw [regGet, unloaded, regGet]

theorem unloaded_but (s : State) (slot : Nat) :
    regsBut s (unloaded s slot) [planStatKey, pgDbgS + 0x50, pgDbgS + 0x54] := fun k hk =>
  (regGet_unloaded s slot k).trans ((unloadStat_only s slot 0).2 k hk)

theorem unloaded_shows (s : State) {slot : Nat} (h : slot < 64) :
    regField (unloaded s slot) planStatKey 4 4 = 0 ∧ regField (unloaded s slot) planStatKey 8 6 = slot ∧
    regPair (unloaded s slot) (pgDbgS + 0x50) = 0 := by
  have hshows := unloadStat_shows s h (result := 0) (by decide)
  simp only [regField, regPair, regNat, regGet_unloaded] at hshows ⊢
  exact hshows

theorem planCmdWrite_unload (s : State) (slot : BitVec 6) (h : regBit s planStatKey 0 = false) :
    planCmdWrite s (BitVec.ofNat 32 (2 + slot.toNat * 0x100)) =
      if planInUse s slot.toNat then unloadStat s slot.toNat 10 else unloaded s slot.toNat := by
  obtain ⟨hcmd, hslot⟩ := wfield_planCmd slot (c := 2) (by decide)
  have huse : planInUse (regPut s planStatKey 8 6 slot.toNat) slot.toNat = planInUse s slot.toNat := rfl
  simp only [planCmdWrite, h, hcmd, hslot, huse]
  cases planInUse s slot.toNat <;> rfl

/-! ## Reading the image changes no plan -/

theorem rai_of_onlyRegs {s t : State} {ks : List Nat} (h : onlyRegs s t ks) : t.rai = s.rai := by rw [h.1]

@[simp] theorem countPath_rai (s : State) (src d o : Nat) : (countPath s src d o).rai = s.rai :=
  rai_of_onlyRegs (countOn_only s (hostPath src d) o)

@[simp] theorem cntAdd_rai (s : State) (k n : Nat) : (cntAdd s k n).rai = s.rai := rai_of_onlyRegs (cntAdd_only s k n)

@[simp] theorem countCols_rai (s : State) (v n : Nat) : (countCols s v n).rai = s.rai := by
  simp [countCols, baseCols]

@[simp] theorem lastCapt_rai (s : State) (k v : Nat) : (lastCapt s k v).rai = s.rai :=
  rai_of_onlyRegs (regSet_only s k _)

@[simp] theorem noteLine_rai (s : State) (v u source : Nat) (k : Nat × Bool) : (noteLine s v u source k).rai = s.rai := by
  have hlog (t : State) (c l x b : Nat) : (irq (lastCapt (cntAdd t c 1) l x) (pgVlt v) b).rai = t.rai := by
    rw [irq_rai, lastCapt_rai, cntAdd_rai]
  simp only [noteLine, apply_ite State.rai, hlog, ite_self]

@[simp] theorem readLine_rai (s : State) (v u dom source : Nat) : (readLine s v u dom source).2.2.rai = s.rai :=
  noteLine_rai ..

@[simp] theorem outCipher_rai (s : State) (c v u a col : Nat) (k : BitVec 1024) :
    (outCipher s c v u a col k).2.rai = s.rai := by simp [outCipher]

@[simp] theorem maskedLine_rai (s : State) (c v u : Nat) : (maskedLine s c v u).2.rai = s.rai := by
  unfold maskedLine
  split
  · exact outCipher_rai ..
  · rfl

@[simp] theorem hostLine_rai (s : State) (who : Requester) (v u dom : Nat) : (hostLine s who v u dom).2.rai = s.rai := by
  unfold hostLine
  split
  · rfl
  · exact maskedLine_rai ..
  · simp

theorem engineLine_rai (s : State) (src : Nat) (who : Requester) (a : Nat) : (engineLine s src who a).2.rai = s.rai := by
  unfold engineLine
  split
  · rfl
  · simp only
    split
    · simp
    · split
      · simp
      · split <;> simp

theorem loadRead_rai (s : State) (a o n : Nat) : (loadRead s a o n).2.rai = s.rai := by
  induction n generalizing s o with
  | zero => rfl
  | succ n ih =>
    rw [loadRead]
    split
    · exact engineLine_rai ..
    · exact (ih _ _).trans (engineLine_rai ..)

/-! ## The plans in their slots -/

theorem planSlot_congr {s t : State} (h : t.rai.plans = s.rai.plans) (k : Nat) : planSlot t k = planSlot s k := by
  rw [planSlot, planSlot, h]

theorem find?_tabIns_self {α : Type} (k : Nat) (v : α) (t : Tab α) :
    (tabIns k v t).find? (fun e => e.1 = k) = some (k, v) := by
  induction t with
  | nil => simp [tabIns]
  | cons e t ih =>
    rw [tabIns]
    split
    · simp
    · split
      · simp
      · next h => simpa [Ne.symm h] using ih

theorem find?_tabIns_of_ne {α : Type} {j k : Nat} (v : α) (t : Tab α) (h : j ≠ k) :
    (tabIns k v t).find? (fun e => e.1 = j) = t.find? (fun e => e.1 = j) := by
  induction t with
  | nil => simp [tabIns, h.symm]
  | cons e t ih =>
    rw [tabIns]
    split
    · simp [h.symm]
    · split
      · next hk => simp [h.symm, ← hk]
      · simp [List.find?_cons, ih]

theorem planSlot_planKeep_self (p : Img) (s : State) (slot : Nat) : planSlot (planKeep p s slot) slot = some {
    addr := p.at_
    hdr := p.h
    size := imgSize p.h
    digest := sha512 (imgBytes p.st p.at_ 0 (imgSize p.h))
    signer := sha512 (planModulus p) } := by
  simp only [planSlot, planKeep, find?_tabIns_self]

theorem planSlot_planKeep_of_ne (p : Img) (s : State) {slot k : Nat} (h : k ≠ slot) :
    planSlot (planKeep p s slot) k = planSlot s k := by
  simp only [planSlot, planKeep, find?_tabIns_of_ne _ _ h]

/-! ## A load ends -/

/-- What a load that ends leaves in PLAN_STAT, PLAN_ERR and the interrupt status. -/
def LoadEnds (t : State) (result err : Nat) : Prop :=
  t.rai.load = none ∧ regField t planStatKey 4 4 = result ∧ regBit t planStatKey 0 = false ∧
  regPair t (pgDbgS + 0x50) = err ∧ regBit t (pgDbgS + 0x10) 0 = true

theorem loadEnd_but (s : State) (result err : Nat) :
    regsBut s (loadEnd s result err) [pgDbgS + 0x10, planStatKey, pgDbgS + 0x50, pgDbgS + 0x54] := by
  have hstat := onlyRegs_trans (regPut_only s planStatKey 4 4 result) (regPut_only _ planStatKey 0 1 0)
  have herr := onlyRegs_trans (regPairSet_only { regPut (regPut s planStatKey 4 4 result) planStatKey 0 1 0 with
    rai.load := none } (pgDbgS + 0x50) err) (irq_only _ pgDbgS 0)
  intro k hk
  simp only [List.mem_cons, List.not_mem_nil, or_false, not_or] at hk
  obtain ⟨hirq, hst, hlo, hhi⟩ := hk
  exact (herr.2 k (by simp [hlo, hhi, hirq])).trans (hstat.2 k (by simp [hst]))

theorem regGet_loadEnd_stat (s : State) (result err : Nat) :
    regGet (loadEnd s result err) planStatKey = wset (wset (regGet s planStatKey) 4 4 result) 0 1 0 := by
  rw [loadEnd, (irq_only _ pgDbgS 0).2 planStatKey (by simp [planStatKey]),
    (regPairSet_only _ (pgDbgS + 0x50) err).2 planStatKey (by simp [planStatKey])]
  show regGet (regPut (regPut s planStatKey 4 4 result) planStatKey 0 1 0) planStatKey = _
  simp [regPut]

/-- An interrupt event sets its bit of IRQ_STAT. -/
theorem regBit_irq (s : State) (pg : Nat) {b : Nat} (hb : b < 32) : regBit (irq s pg b) (pg + 0x10) b = true := by
  simp only [regBit, irq, orReg, regGet_regSet_self, BitVec.getLsbD_or, BitVec.getLsbD_ofNat]
  simp [hb, Nat.testBit_shiftLeft]

theorem regPair_irq (s : State) (pg b : Nat) {k : Nat} (h : k ≠ pg + 0x10 ∧ k + 4 ≠ pg + 0x10) :
    regPair (irq s pg b) k = regPair s k := by
  obtain ⟨hlo, hhi⟩ := h
  rw [regPair, regPair, regNat, regNat, (irq_only s pg b).2 k (by simpa using hlo),
    (irq_only s pg b).2 (k + 4) (by simpa using hhi)]
  rfl

theorem loadEnd_ends (s : State) {result err : Nat} (hr : result < 16) (he : err < 2 ^ 64) :
    LoadEnds (loadEnd s result err) result err := by
  refine ⟨rfl, ?result, ?idle, ?err, regBit_irq _ pgDbgS (by decide)⟩
  case result =>
    rw [regField, regGet_loadEnd_stat, wfield_wset_of_disjoint _ (by decide) (.inr (by decide))]
    exact wfield_wset_self _ hr (by decide)
  case idle =>
    rw [regBit, regGet_loadEnd_stat, getLsbD_wset _ _ _ _ _ (by decide), if_pos (by decide)]
    rfl
  case err => exact (regPair_irq _ pgDbgS 0 (by simp)).trans (regPair_regPairSet_self _ _ he)

theorem planSlot_loadEnd (s : State) (result err k : Nat) : planSlot (loadEnd s result err) k = planSlot s k :=
  planSlot_congr rfl k

/-- A load that ends with its plan in the slot, and the other slots keep theirs. -/
theorem loadEnd_planKeep (p : Img) (s : State) (slot : Nat) :
    let t := loadEnd (planKeep p s slot) 0 0
    LoadEnds t 0 0 ∧ t.rai.lastSlot = slot ∧ planSlot t slot = some {
      addr := p.at_
      hdr := p.h
      size := imgSize p.h
      digest := sha512 (imgBytes p.st p.at_ 0 (imgSize p.h))
      signer := sha512 (planModulus p) } ∧
    ∀ k, k ≠ slot → planSlot t k = planSlot s k := by
  refine ⟨loadEnd_ends _ (by decide) (by decide), rfl, ?_, fun k hk => ?_⟩
  · exact (planSlot_loadEnd ..).trans (planSlot_planKeep_self p s slot)
  · exact (planSlot_loadEnd ..).trans (planSlot_planKeep_of_ne p s hk)

/-! ## The steps of a load (R463) -/

/-- The state once the header's lines are read. -/
def headRead (s : State) (a : Nat) : State := (loadRead s a 0 4).2

/-- The header of the image at `a`. -/
def headOf (s : State) (a : Nat) : BitVec 2048 := BitVec.ofNat 2048 (dramNat (headRead s a) a 256)

/-- The read of the lines that follow the header. -/
def restRead (s : State) (a : Nat) : Option Nat × State :=
  loadRead (headRead s a) a 256 ((imgSize (headOf s a) + 63) / 64 - 4)

/-- The image as it is checked. -/
def imgRead (s : State) (a : Nat) : Img := { st := (restRead s a).2, at_ := a, h := headOf s a }

theorem headRead_plans (s : State) (a : Nat) : (headRead s a).rai.plans = s.rai.plans :=
  congrArg (·.plans) (loadRead_rai s a 0 4)

theorem restRead_plans (s : State) (a : Nat) : (restRead s a).2.rai.plans = s.rai.plans :=
  (congrArg (·.plans) (loadRead_rai (headRead s a) a 256 _)).trans (headRead_plans s a)

section
variable {s : State} {slot a : Nat}

theorem loadRun_full (h : (planSlot s slot).isSome = true ∨ 64 ≤ planCount s) : loadRun s slot a = loadEnd s 9 0 :=
  if_pos (by simpa using h)

variable (hslot : planSlot s slot = none) (hcount : planCount s < 64)
include hslot hcount

/-- There is room for the plan. -/
theorem loadRun_room : ¬ ((planSlot s slot).isSome || 64 ≤ planCount s) = true := by
  simp [hslot, hcount]

theorem loadRun_address (h : a % 64 ≠ 0 ∨ carveAll s a 256 = false) : loadRun s slot a = loadEnd s 12 0 :=
  (if_neg (loadRun_room hslot hcount)).trans (if_pos (by simpa using h))

variable (halign : a % 64 = 0) (hcarve : carveAll s a 256 = true)
include halign hcarve

omit hslot hcount in
/-- The header lies aligned in the carve-out. -/
theorem loadRun_placed : ¬ (a % 64 ≠ 0 || !carveAll s a 256) = true := by
  simp [halign, hcarve]

theorem loadRun_headUnreadable {o : Nat} (h : (loadRead s a 0 4).1 = some o) :
    loadRun s slot a = loadEnd (headRead s a) 11 o := by
  rw [loadRun, if_neg (loadRun_room hslot hcount), if_neg (loadRun_placed halign hcarve)]
  simp only [h]
  rfl

variable (hhead : (loadRead s a 0 4).1 = none)
include hhead

theorem loadRun_sigOff (h : sigOffOk (headOf s a) = false) : loadRun s slot a = loadEnd (headRead s a) 1 0x88 := by
  rw [loadRun, if_neg (loadRun_room hslot hcount), if_neg (loadRun_placed halign hcarve)]
  simp only [hhead]
  exact if_pos (by rw [Bool.not_eq_true']; exact h)

variable (hsig : sigOffOk (headOf s a) = true) (hall : carveAll (headRead s a) a (imgSize (headOf s a)) = true)
  (hrest : (restRead s a).1 = none)
include hsig hall hrest

/-- An image that fails a check ends its load with the check's RESULT and offset; one that passes is kept in its
slot. -/
theorem loadRun_checked :
    (∀ c o, imageCheck (imgRead s a) = some (c, o) → loadRun s slot a = loadEnd (restRead s a).2 c o) ∧
    (imageCheck (imgRead s a) = none → loadRun s slot a = loadEnd (planKeep (imgRead s a) (restRead s a).2 slot) 0 0) := by
  simp only [imgRead, restRead, headOf, headRead] at hsig hall hrest ⊢
  rw [loadRun, if_neg (loadRun_room hslot hcount), if_neg (loadRun_placed halign hcarve)]
  simp only [hhead, hsig, hall, hrest, Bool.not_true, Bool.false_eq_true, if_false]
  exact ⟨fun c o h => by simp only [h], fun h => by simp only [h]⟩

end

theorem exec_loadComplete (s : State) {j : LoadJob} (h : s.rai.load = some j) :
    exec .loadComplete s = .next (loadRun s j.slot j.addr) := by
  show Host.Outcome.next _ = _
  rw [h]

/-- Settles O48: LOAD and UNLOAD by PLAN_STAT.BUSY, and the end of a load by the first step of R463 that fails. -/
theorem plansAreLoadedAndUnloaded : Obligations.PlansAreLoadedAndUnloaded := by
  unfold Obligations.PlansAreLoadedAndUnloaded
  intro s slot st err
  refine ⟨fun hbusy => ?busy, fun hidle => ⟨?load, fun hfree => ?unload, fun hused => ?inUse⟩, fun j hj => ?completes⟩
  case busy =>
    exact ⟨congrArg Host.Outcome.next (planCmdWrite_busy s _ hbusy),
      congrArg Host.Outcome.next (planCmdWrite_busy s _ hbusy)⟩
  case load =>
    obtain ⟨hstate, hregs⟩ := loadBegun_keeps s slot.toNat
    exact ⟨_, congrArg Host.Outcome.next (planCmdWrite_load s slot hidle), hstate, hregs, loadBegun_stat s slot.isLt⟩
  case unload =>
    have hrun := (planCmdWrite_unload s slot hidle).trans (if_neg (by rw [hfree]; decide))
    exact ⟨_, congrArg Host.Outcome.next hrun, unloaded_keeps s slot.toNat, unloaded_but s slot.toNat,
      unloaded_shows s slot.isLt⟩
  case inUse =>
    have hrun := (planCmdWrite_unload s slot hidle).trans (if_pos hused)
    exact ⟨_, congrArg Host.Outcome.next hrun, unloadStat_only s slot.toNat 10,
      (unloadStat_shows s slot.isLt (by decide)).1⟩
  case completes =>
    intro a ends head h rest img
    have hruns {t : State} (ht : loadRun s j.slot a = t) : exec .loadComplete s = .next t :=
      (exec_loadComplete s hj).trans (congrArg Host.Outcome.next ht)
    refine ⟨fun hfull => ?full, fun hslot hcount => ⟨fun haddr => ?address, fun halign hcarve =>
      ⟨fun o ho hlt => ?unreadable, fun hhead hsig => ?sigOff, fun hhead hsig hall hrest => ?checked⟩⟩⟩
    case full => exact ⟨_, hruns (loadRun_full hfull), loadEnd_ends s (by decide) (by decide), loadEnd_but s 9 0⟩
    case address =>
      exact ⟨_, hruns (loadRun_address hslot hcount haddr), loadEnd_ends s (by decide) (by decide), rfl⟩
    case unreadable =>
      exact ⟨_, hruns (loadRun_headUnreadable hslot hcount halign hcarve ho), loadEnd_ends _ (by decide) hlt,
        headRead_plans s a⟩
    case sigOff =>
      exact ⟨_, hruns (loadRun_sigOff hslot hcount halign hcarve hhead hsig), loadEnd_ends _ (by decide) (by decide),
        headRead_plans s a⟩
    case checked =>
      obtain ⟨hrefused, hresident⟩ := loadRun_checked hslot hcount halign hcarve hhead hsig hall hrest
      refine ⟨_, hruns rfl, fun c o hbad hc ho => ?_, fun hgood => ?_⟩
      · rw [hrefused c o hbad]
        exact ⟨loadEnd_ends _ hc ho, restRead_plans s a⟩
      · rw [hresident hgood]
        obtain ⟨hends, hlast, hself, hothers⟩ := loadEnd_planKeep img (restRead s a).2 j.slot
        exact ⟨hends, hlast, hself, fun k hk => (hothers k hk).trans (planSlot_congr (restRead_plans s a) k)⟩

end Sys2Proof.Proofs
end

section
/-! PROOF. The state after reset, and a tick that works off a fault on the time base's page (R66, R70, R82, R448). -/
namespace Sys2Proof.Proofs
open Sys2Proof Sys2Proof.Machine Sys2Proof.Safety Sys2Proof.Laws

/-- Settles O6: each clause is about one closed state, and the model evaluates it. -/
theorem resetMeetsTheInvariants : Obligations.ResetMeetsTheInvariants := ⟨rfl, rfl, rfl, rfl, rfl, rfl⟩

/-- A package whose PLL runs, with one stage in flight: a fault with code 1 whose page is not a page but lies 88H beyond
the start of TIM page 0, so that its capture (page + 1CH) is RATE_ADJ, and bit 31, which marks the capture valid, makes
the rate negative. No command puts such a stage under way; the statement asks it of every state all the same. -/
def strayFault : State :=
  { State.reset with
    time.pllOn := true
    clu.pipe := [⟨0, 0, 0, 0, .fault 1 (pgTim0 + 0x88) 0⟩] }

/-- Wall time after FRAME_TICK. -/
def wallAfterTick (s : State) : Int :=
  match exec .frameTick s with
  | .next t => t.time.wall
  | _ => 0

/-- The tick works the stage off before it carries wall time on, at the rate that the stage has written. -/
theorem wallAfterTick_strayFault : wallAfterTick strayFault ≠ wallAt strayFault (tickPeriods strayFault) := by
  decide +kernel

/-- Refutes O22: the clause on wall time takes the rate from the registers before the tick, where a stage that the tick
works off may still write RATE_ADJ. `strayFault` has such a stage in flight. -/
theorem not_frameTickMovesTimeOn : ¬ Obligations.FrameTickMovesTimeOn := by
  unfold Obligations.FrameTickMovesTimeOn
  rintro ⟨hticks, -⟩
  obtain ⟨-, hon⟩ := hticks strayFault
  obtain ⟨t, hrun, -, -, hwall, -⟩ := hon rfl (by decide) rfl (by decide)
  refine wallAfterTick_strayFault ?_
  rw [wallAfterTick, hrun]
  exact hwall

end Sys2Proof.Proofs
end

section
/-! PROOF. The time base: its writes, captures and pulse per second, and the reference inputs (R66, R82, R85 to R88, R91
to R96, R480). -/
namespace Sys2Proof.Proofs
open Sys2Proof Sys2Proof.Machine Sys2Proof.Safety Sys2Proof.Laws

/-! ## Bits and fields of a register after a change -/

theorem regBit_regPut_self (s : State) (k lo w v : Nat) {i : Nat} (hi : i < 32) :
    regBit (regPut s k lo w v) k i = if lo ≤ i ∧ i < lo + w then v.testBit (i - lo) else regBit s k i := by
  rw [regBit, regPut, regGet_regSet_self, getLsbD_wset _ _ _ _ _ hi]
  rfl

theorem regBit_orReg_self (s : State) (k m : Nat) {i : Nat} (hi : i < 32) :
    regBit (orReg s k m) k i = (regBit s k i || m.testBit i) := by
  simp only [regBit, orReg, regGet_regSet_self, BitVec.getLsbD_or, BitVec.getLsbD_ofNat, hi, decide_true, Bool.true_and]

theorem regBit_clrReg_self (s : State) (k m : Nat) {i : Nat} (hi : i < 32) :
    regBit (clrReg s k m) k i = (regBit s k i && !m.testBit i) := by
  simp only [regBit, clrReg, regGet_regSet_self, BitVec.getLsbD_and, BitVec.getLsbD_not, BitVec.getLsbD_ofNat, hi,
    decide_true, Bool.true_and]

theorem regField_regPut_self (s : State) (k : Nat) {lo w v : Nat} (hv : v < 2 ^ w) (hw : lo + w ≤ 32) :
    regField (regPut s k lo w v) k lo w = v := by
  rw [regField, regPut, regGet_regSet_self, wfield_wset_self _ hv hw]

theorem regField_regPut_of_disjoint (s : State) (k : Nat) {lo w v lo' w' : Nat} (hw : lo' + w' ≤ 32)
    (h : lo' + w' ≤ lo ∨ lo + w ≤ lo') : regField (regPut s k lo w v) k lo' w' = regField s k lo' w' := by
  rw [regField, regPut, regGet_regSet_self, wfield_wset_of_disjoint _ hw h]
  rfl

/-- A field is made of the bits in its place. -/
theorem regField_congr {s t : State} {k lo w : Nat} (h : ∀ i < w, regBit t k (lo + i) = regBit s k (lo + i)) :
    regField t k lo w = regField s k lo w := by
  refine Nat.eq_of_testBit_eq fun i => ?_
  rw [regField, regField, testBit_wfield, testBit_wfield]
  by_cases hi : i < w
  · exact congrArg (decide (i < w) && ·) (h i hi)
  · simp [hi]

theorem wfield_bit (x : Word) (i : Nat) : wfield x i 1 = b2n (x.getLsbD i) := by
  refine Nat.eq_of_testBit_eq fun j => ?_
  rw [testBit_wfield]
  cases j <;> cases x.getLsbD i <;> simp [b2n, Nat.testBit_succ]

theorem wfield_lt (x : Word) (lo w : Nat) : wfield x lo w < 2 ^ w := Nat.mod_lt _ (Nat.two_pow_pos w)

section
variable {s t : State} {ks : List Nat} (h : regsBut s t ks) {k : Nat} (hk : k ∉ ks)
include h hk

theorem regBit_of_but (i : Nat) : regBit t k i = regBit s k i := congrArg (·.getLsbD i) (h k hk)
theorem regField_of_but (lo w : Nat) : regField t k lo w = regField s k lo w := congrArg (wfield · lo w) (h k hk)

end

/-! ## Writes to the time base (R66, R85, R86, R88) -/

theorem frameCfgWrite_taken {s : State} {v : Word} (hr : anyRaising s = false) (hlo : 10 ≤ wfield v 0 4)
    (hhi : wfield v 0 4 ≤ 14) : frameCfgWrite s v =
      regPut { s with time.pendLog2 := some (wfield v 0 4) } (pgTim0 + 0x40) 0 4 (wfield v 0 4) := by
  simp [frameCfgWrite, hr, Nat.not_lt.2 hlo, Nat.not_lt.2 hhi]

theorem frameCfgWrite_refused {s : State} {v : Word}
    (h : anyRaising s = true ∨ wfield v 0 4 < 10 ∨ 14 < wfield v 0 4) : frameCfgWrite s v = statSet s pgTim0 0 := by
  simp only [frameCfgWrite]
  exact if_pos (by simpa [or_assoc] using h)

/-- A whole load: wall time reads the loaded value in the period after the one that is under way. -/
theorem wallCmdWrite_loads {s : State} {v : Word} (hv : v.getLsbD 0 = true) :
    let t := wallCmdWrite s v
    t = { s with time.wall := t.time.wall, time.wallFrom := s.time.periods + elapsed s + 1 } ∧
      wallAt t (elapsed t + 1) = wallOf (taiRegs s (pgTim0 + 0x90)) := by
  intro t
  have ht : t = { s with
      time.wall := wallOf (taiRegs s (pgTim0 + 0x90)) - (elapsed s + 1 : Nat) * perInc s
      time.wallFrom := s.time.periods + (elapsed s + 1) } := if_pos hv
  rw [ht]
  exact ⟨rfl, Int.sub_add_cancel _ _⟩

/-- The mode that DISC_CTRL takes with any write. -/
def discMode (s : State) (v : Word) : State := regPut s (pgTim0 + 0x44) 0 2 (wfield v 0 2)

theorem discMode_field (s : State) (v : Word) : regField (discMode s v) (pgTim0 + 0x44) 0 2 = wfield v 0 2 :=
  regField_regPut_self s _ (wfield_lt v 0 2) (by decide)

section
variable {s : State} {v : Word} (hv : v.getLsbD 2 = true)
include hv

theorem discCtrlWrite_steps (hr : anyRaising s = false) :
    discCtrlWrite s v = { discMode s v with time.stepPend := true } := by
  have hr' : ¬ anyRaising (discMode s v) = true := ne_true_of_eq_false hr
  exact (if_pos hv).trans (if_neg hr')

theorem discCtrlWrite_refused (hr : anyRaising s = true) :
    discCtrlWrite s v = statSet (discMode s v) pgTim0 0 := by
  have hr' : anyRaising (discMode s v) = true := hr
  exact (if_pos hv).trans (if_pos hr')

end

/-- What arming leaves of START_CTRL: TARGET and ARMED are written, and FIRED is clear. -/
def startArmed (s : State) (v : Word) : State :=
  clrReg (regPut (regPut s (pgTim0 + 0x70) 4 4 (wfield v 4 4)) (pgTim0 + 0x70) 0 1 (wfield v 0 1)) (pgTim0 + 0x70) 0x100

section
variable {s : State} {v : Word} (hv : v.getLsbD 0 = true) (h9 : v.getLsbD 9 = false)
include hv h9

theorem startCtrlWrite_arms (h : regBit s (pgTim0 + 0x70) 0 = false) : startCtrlWrite s v = startArmed s v := by
  simp only [startCtrlWrite, hv, h9, h, startArmed, Bool.false_eq_true, if_false, if_true, Bool.and_false]

theorem startCtrlWrite_refused (h : regBit s (pgTim0 + 0x70) 0 = true) : startCtrlWrite s v = statSet s pgTim0 0 := by
  simp only [startCtrlWrite, hv, h9, h, Bool.false_eq_true, if_false, if_true, Bool.and_true]

end

theorem startArmed_arms (s : State) {v : Word} (hv : v.getLsbD 0 = true) :
    let t := startArmed s v
    onlyRegs s t [pgTim0 + 0x70] ∧ regBit t (pgTim0 + 0x70) 0 = true ∧ regBit t (pgTim0 + 0x70) 8 = false ∧
      regField t (pgTim0 + 0x70) 4 4 = wfield v 4 4 ∧ regBit t (pgTim0 + 0x70) 9 = regBit s (pgTim0 + 0x70) 9 := by
  intro t
  refine ⟨?only, ?armed, ?fired, ?target, ?bit9⟩
  case only =>
    exact onlyRegs_mono (onlyRegs_trans (onlyRegs_trans (regPut_only ..) (regPut_only ..)) (clrReg_only ..)) (by simp)
  case armed => simp [t, startArmed, regBit_clrReg_self, regBit_regPut_self, wfield_bit, hv, b2n]
  case fired => simp [t, startArmed, regBit_clrReg_self, Nat.testBit]
  case target =>
    have hclr : ∀ u, regField (clrReg u (pgTim0 + 0x70) 0x100) (pgTim0 + 0x70) 4 4 = regField u (pgTim0 + 0x70) 4 4 :=
      fun u => regField_congr fun i hi => by
        rw [regBit_clrReg_self _ _ _ (by omega), show Nat.testBit 0x100 (4 + i) = false by interval_cases i <;> rfl]
        exact Bool.and_true _
    rw [show t = startArmed s v from rfl, startArmed, hclr,
      regField_regPut_of_disjoint _ _ (by decide) (.inr (by decide))]
    exact regField_regPut_self s _ (wfield_lt v 4 4) (by decide)
  case bit9 => simp [t, startArmed, regBit_clrReg_self, regBit_regPut_self, Nat.testBit]

/-! ## Captures (R87, R480) -/

/-- The pins' new levels, at a selected edge of their combination. -/
def captEdge (s : State) (capt pps : Bool) : State :=
  { s with
    time.captPin := capt
    time.ppsPin := pps
    time.prevLevel := !s.time.prevLevel }

/-- At a selected edge the combined level is the opposite of the previous one, and the capture waits, unless 16 do. -/
theorem timeCapture_edge {s : State} {capt pps : Bool} (tp : Nat) (hon : regBit s (pgTim0 + 0xC0) 10 = true)
    (h : (regBit s (pgTim0 + 0xC0) 9 = false ∧ s.time.prevLevel = false ∧ (capt = true ∨ pps = true)) ∨
      (regBit s (pgTim0 + 0xC0) 9 = true ∧ s.time.prevLevel = true ∧ (capt = false ∨ pps = false))) :
    timeCapture s capt pps tp =
      if 16 ≤ s.time.capts.length then orReg (captEdge s capt pps) (pgTim0 + 0xC0) 0x100
      else { captEdge s capt pps with time.capts := s.time.capts ++ [(taiOf (wallAt s tp), s.time.tick)] } := by
  have hlevel : captLevel s capt pps = !s.time.prevLevel := by
    rcases h with ⟨h9, hprev, rfl | rfl⟩ | ⟨h9, hprev, rfl | rfl⟩ <;> simp [captLevel, h9, hprev]
  have hedge : (if regBit s (pgTim0 + 0xC0) 9 then s.time.prevLevel && !captLevel s capt pps
      else !s.time.prevLevel && captLevel s capt pps) = true := by
    rcases h with ⟨h9, hprev, -⟩ | ⟨h9, hprev, -⟩ <;> simp [hlevel, h9, hprev]
  have hcond : ((if regBit s (pgTim0 + 0xC0) 9 then s.time.prevLevel && !captLevel s capt pps
      else !s.time.prevLevel && captLevel s capt pps) && regBit s (pgTim0 + 0xC0) 10) = true := by
    rw [hedge, hon]
    rfl
  rw [captEdge, ← hlevel]
  exact if_pos hcond

theorem captEdge_overflows (s : State) (capt pps : Bool) :
    let t := orReg (captEdge s capt pps) (pgTim0 + 0xC0) 0x100
    regBit t (pgTim0 + 0xC0) 8 = true ∧ t.time.capts = s.time.capts ∧ regsBut s t [pgTim0 + 0xC0] :=
  ⟨(regBit_orReg_self _ _ _ (by decide)).trans (Bool.or_true _), rfl, (orReg_only (captEdge s capt pps) _ _).2⟩

theorem exec_ppsOutPulse_rises {s : State} {tp : Nat} (htp : 0 < tp) (hfrom : s.time.wallFrom < s.time.periods + tp)
    (hsec : wallAt s (tp - 1) / (1000000000 * 2 ^ 56) < wallAt s tp / (1000000000 * 2 ^ 56)) :
    exec (.ppsOutPulse tp) s = .next { s with
      brd.ppsUntil := s.time.periods + tp + 80000000
      out := s.out ++ [.pulse "PPS_OUT" 80000000] } := by
  have hcond : (decide (0 < tp) && decide (s.time.wallFrom < s.time.periods + tp) &&
      decide (wallAt s (tp - 1) / secUnits < wallAt s tp / secUnits)) = true := by
    rw [decide_eq_true htp, decide_eq_true hfrom]
    exact decide_eq_true hsec
  exact congrArg Host.Outcome.next (if_pos hcond)

/-! ## The input that the PLL follows (R91 to R96) -/

section
variable {s t : State} {ks : List Nat} (h : regsBut s t ks) (hk : pgTim1 + 0x40 ∉ ks)
include h hk

/-- What REF_CTRL selects. -/
theorem refSelects_of_but (b : Bool) : refSelects t b = refSelects s b := by
  rw [refSelects, refSelects, regField_of_but h hk]

theorem refPrefers_of_but : refPrefers t = refPrefers s := congrArg (bitOf · 0) (regField_of_but h hk 0 2)

end

/-- Holdover ends: both its bits fall, and its duration is recorded (R94). -/
def refResumed (s : State) : State :=
  if refHold s then
    regSet (clrReg s (pgTim1 + 0x44) 0x18) (pgTim1 + 0x54)
      (BitVec.ofNat 32 (satNat 32 ((s.time.periods + elapsed s - s.time.holdFrom) / 800000)))
  else s

/-- The PLL changes to the other input (R93). -/
def refSwitched (s : State) (b : Bool) : State :=
  irq (rawAdd (orReg (regPut s (pgTim1 + 0x44) 2 1 (b2n b)) (pgTim1 + 0x44) 0x100) (pgTim1 + 0x48) 1) pgTim1 0

theorem refFollow_eq (s : State) (b : Bool) :
    refFollow s b = if refActive s = b then refResumed s else refSwitched (refResumed s) b := rfl

theorem refResumed_only (s : State) : onlyRegs s (refResumed s) [pgTim1 + 0x44, pgTim1 + 0x54] := by
  unfold refResumed
  split
  · exact onlyRegs_trans (clrReg_only ..) (regSet_only ..)
  · exact onlyRegs_refl s _

theorem refResumed_locked {s : State} (h : refHold s = false) : refResumed s = s := if_neg (by rw [h]; decide)

theorem regBit_refResumed (s : State) {i : Nat} (hi : i < 32) : regBit (refResumed s) (pgTim1 + 0x44) i =
    (regBit s (pgTim1 + 0x44) i && !(refHold s && Nat.testBit 0x18 i)) := by
  unfold refResumed
  split
  · rename_i h
    rw [h, Bool.true_and, ← regBit_clrReg_self _ _ _ hi]
    exact regBit_of_but (regSet_only _ _ _).2 (by simp) i
  · rename_i h
    simp [h]

theorem refSwitched_only (s : State) (b : Bool) :
    onlyRegs s (refSwitched s b) [pgTim1 + 0x44, pgTim1 + 0x48, pgTim1 + 0x10] :=
  onlyRegs_mono (onlyRegs_trans (onlyRegs_trans (onlyRegs_trans (regPut_only ..) (orReg_only ..)) (rawAdd_only ..))
    (irq_only ..)) (by simp)

theorem regBit_refSwitched_stat (s : State) (b : Bool) {i : Nat} (hi : i < 8) :
    regBit (refSwitched s b) (pgTim1 + 0x44) i = if i = 2 then b else regBit s (pgTim1 + 0x44) i := by
  have hrest : regsBut (orReg (regPut s (pgTim1 + 0x44) 2 1 (b2n b)) (pgTim1 + 0x44) 0x100) (refSwitched s b) _ :=
    (onlyRegs_trans (rawAdd_only ..) (irq_only ..)).2
  have hswitch : Nat.testBit 0x100 i = false := by interval_cases i <;> rfl
  rw [regBit_of_but hrest (by simp), regBit_orReg_self _ _ _ (by omega), regBit_regPut_self _ _ _ _ _ (by omega),
    hswitch, Bool.or_false]
  by_cases h2 : i = 2
  · subst h2
    cases b <;> rfl
  · rw [if_neg h2, if_neg (by omega)]

theorem regGet_refSwitched_count (s : State) (b : Bool) :
    regGet (refSwitched s b) (pgTim1 + 0x48) = regGet s (pgTim1 + 0x48) + 1 := by
  have hbefore : regsBut s (orReg (regPut s (pgTim1 + 0x44) 2 1 (b2n b)) (pgTim1 + 0x44) 0x100) _ :=
    (onlyRegs_trans (regPut_only ..) (orReg_only ..)).2
  rw [refSwitched, (irq_only ..).2 _ (by simp), rawAdd, regGet_regSet_self, hbefore _ (by simp)]
  rfl

theorem regBit_refSwitched_irq (s : State) (b : Bool) {i : Nat} (hi : i < 32) :
    regBit (refSwitched s b) (pgTim1 + 0x10) i = (regBit s (pgTim1 + 0x10) i || decide (i = 0)) := by
  have hbefore : regsBut s
      (rawAdd (orReg (regPut s (pgTim1 + 0x44) 2 1 (b2n b)) (pgTim1 + 0x44) 0x100) (pgTim1 + 0x48) 1) _ :=
    (onlyRegs_trans (onlyRegs_trans (regPut_only ..) (orReg_only ..)) (rawAdd_only ..)).2
  rw [refSwitched, irq, regBit_orReg_self _ _ _ hi, regBit_of_but hbefore (by simp)]
  cases i <;> simp [Nat.testBit_succ]

theorem refFollow_only (s : State) (b : Bool) :
    onlyRegs s (refFollow s b) [pgTim1 + 0x44, pgTim1 + 0x48, pgTim1 + 0x10, pgTim1 + 0x54] := by
  rw [refFollow_eq]
  split
  · exact onlyRegs_mono (refResumed_only s) (by simp)
  · exact onlyRegs_mono (onlyRegs_trans (refResumed_only s) (refSwitched_only _ b)) (by simp)

theorem refFollow_only_of_locked {s : State} (h : refHold s = false) (b : Bool) :
    onlyRegs s (refFollow s b) [pgTim1 + 0x44, pgTim1 + 0x48, pgTim1 + 0x10] := by
  rw [refFollow_eq, refResumed_locked h]
  split
  · exact onlyRegs_refl s _
  · exact refSwitched_only s b

/-- REF_STAT afterwards: ACTIVE names the input, the holdover bits are clear, and the VALID bits stay. -/
theorem regBit_refFollow (s : State) (b : Bool) {i : Nat} (hi : i < 8) : regBit (refFollow s b) (pgTim1 + 0x44) i =
    if i = 2 then b else (regBit s (pgTim1 + 0x44) i && !(refHold s && Nat.testBit 0x18 i)) := by
  rw [refFollow_eq]
  split
  · rename_i h
    rw [regBit_refResumed s (by omega)]
    split
    · rename_i h2
      subst h2
      rw [← h]
      simp [refActive, Nat.testBit]
    · rfl
  · rw [regBit_refSwitched_stat _ b hi, regBit_refResumed s (by omega)]

theorem refFollow_active (s : State) (b : Bool) : refActive (refFollow s b) = b := regBit_refFollow s b (by decide)

theorem refFollow_hold (s : State) (b : Bool) : refHold (refFollow s b) = false := by
  have h := regBit_refFollow s b (i := 3) (by decide)
  rw [refHold, h, if_neg (by decide)]
  show (refHold s && !(refHold s && Nat.testBit 0x18 3)) = false
  cases refHold s <;> rfl

theorem refFollow_valid (s : State) (b x : Bool) : refValid (refFollow s b) x = refValid s x := by
  have h := regBit_refFollow s b (i := b2n x) (by cases x <;> decide)
  rw [refValid, h]
  cases x <;> simp [refValid, b2n, Nat.testBit]

/-- A change of input, while none is lost, counts and interrupts (R93). -/
theorem refFollow_changes {s : State} (h : refHold s = false) {b : Bool} (hne : refActive s ≠ b) :
    refFollow s b = refSwitched s b := by
  rw [refFollow_eq, if_neg hne, refResumed_locked h]

/-! ## Inputs that are lost and return -/

/-- The active input is found invalid (R92, R96). -/
def refLost (s : State) (b : Bool) : State :=
  irq (orReg (clrReg s (pgTim1 + 0x44) (1 <<< b2n b)) (pgTim1 + 0x44) 0x200) pgTim1 1

theorem refLost_only (s : State) (b : Bool) : onlyRegs s (refLost s b) [pgTim1 + 0x44, pgTim1 + 0x10] :=
  onlyRegs_mono (onlyRegs_trans (onlyRegs_trans (clrReg_only ..) (orReg_only ..)) (irq_only ..)) (by simp)

theorem regBit_refLost (s : State) (b : Bool) {i : Nat} (hi : i < 8) : regBit (refLost s b) (pgTim1 + 0x44) i =
    (regBit s (pgTim1 + 0x44) i && !decide (i = b2n b)) := by
  have hloss : Nat.testBit 0x200 i = false := by interval_cases i <;> rfl
  have hinput : Nat.testBit (1 <<< b2n b) i = decide (i = b2n b) := by
    cases b <;> interval_cases i <;> rfl
  rw [refLost, regBit_of_but (irq_only ..).2 (by simp), regBit_orReg_self _ _ _ (by omega),
    regBit_clrReg_self _ _ _ (by omega), hloss, hinput, Bool.or_false]

theorem refLost_valid (s : State) (b : Bool) :
    refValid (refLost s b) b = false ∧ refValid (refLost s b) (!b) = refValid s (!b) := by
  constructor
  · rw [refValid, regBit_refLost s b (by cases b <;> decide)]
    simp
  · rw [refValid, regBit_refLost s b (by cases b <;> decide)]
    cases b <;> simp [refValid, b2n]

theorem refLost_stays (s : State) (b : Bool) :
    refActive (refLost s b) = refActive s ∧ refHold (refLost s b) = refHold s := by
  constructor
  · rw [refActive, regBit_refLost s b (by decide)]
    cases b <;> simp [refActive, b2n]
  · rw [refHold, regBit_refLost s b (by decide)]
    cases b <;> simp [refHold, b2n]

/-- The loss of the active input: the PLL follows the other one where it may, and holds over where it may not (R92,
R94). -/
theorem exec_refInputInvalid_active {s : State} {b : Bool} (hon : s.time.pllOn = true) (hhold : refHold s = false)
    (hact : refActive s = b) : exec (.refInputInvalid b) s = .next (
      if refSelects s (!b) && refValid s (!b) then refFollow (refLost s b) (!b)
      else refHoldover (refLost s b)) := by
  let u := clrReg s (pgTim1 + 0x44) (1 <<< b2n b)
  have hstat {i : Nat} (hi : 2 ≤ i) (hi' : i < 32) : regBit u (pgTim1 + 0x44) i = regBit s (pgTim1 + 0x44) i := by
    have hother : Nat.testBit (1 <<< b2n b) i = false :=
      Nat.testBit_lt_two_pow (Nat.lt_of_lt_of_le (by cases b <;> decide) (Nat.pow_le_pow_right (by decide) hi))
    rw [regBit_clrReg_self s _ _ hi', hother]
    exact Bool.and_true _
  have hact' : refActive u = b := (hstat (by decide) (by decide)).trans hact
  have hhold' : refHold u = false := (hstat (by decide) (by decide)).trans hhold
  have hgo : ¬ (!u.time.pllOn || refHold u || decide (refActive u ≠ b)) = true := by
    rw [hact', hhold', show u.time.pllOn = true from hon]
    simp
  refine congrArg Host.Outcome.next ((if_neg hgo).trans ?_)
  show (if (refSelects (refLost s b) (!b) && refValid (refLost s b) (!b)) = true then _ else _) = _
  rw [refSelects_of_but (refLost_only s b).2 (by simp), (refLost_valid s b).2]
  rfl

/-- The PLL follows the other input: a switch, counted, with both interrupts. -/
theorem refLost_switches {s : State} {b : Bool} (hhold : refHold s = false) (hact : refActive s = b) :
    let t := refFollow (refLost s b) (!b)
    onlyRegs s t [pgTim1 + 0x44, pgTim1 + 0x48, pgTim1 + 0x10] ∧ refValid t b = false ∧ refActive t = !b ∧
      refHold t = false ∧ regGet t (pgTim1 + 0x48) = regGet s (pgTim1 + 0x48) + 1 ∧
      regBit t (pgTim1 + 0x10) 0 = true ∧ regBit t (pgTim1 + 0x10) 1 = true := by
  intro t
  obtain ⟨hactive, hholds⟩ := refLost_stays s b
  have hlocked := hholds.trans hhold
  have hswitch : t = refSwitched (refLost s b) (!b) :=
    refFollow_changes hlocked (by rw [hactive, hact]; cases b <;> decide)
  refine ⟨?only, (refFollow_valid ..).trans (refLost_valid s b).1, refFollow_active .., refFollow_hold .., ?count,
    ?switch, ?loss⟩
  case only => exact onlyRegs_mono (onlyRegs_trans (refLost_only s b) (refFollow_only_of_locked hlocked _)) (by simp)
  case count => rw [hswitch, regGet_refSwitched_count, (refLost_only s b).2 _ (by simp)]
  case switch => rw [hswitch, regBit_refSwitched_irq _ _ (by decide)]; exact Bool.or_true _
  case loss =>
    rw [hswitch, regBit_refSwitched_irq _ _ (by decide), refLost, regBit_irq _ _ (by decide)]
    rfl

/-- Neither input serves: holdover begins, with its interrupt and that of the loss. -/
theorem refLost_holds (s : State) (b : Bool) :
    let t := refHoldover (refLost s b)
    t = { s with regs := t.regs, time.holdFrom := s.time.periods + elapsed s } ∧
      regsBut s t [pgTim1 + 0x44, pgTim1 + 0x10] ∧ refValid t b = false ∧ refHold t = true ∧
      regBit t (pgTim1 + 0x10) 1 = true ∧ regBit t (pgTim1 + 0x10) 2 = true := by
  intro t
  let u := orReg (refLost s b) (pgTim1 + 0x44) 8
  have hu : onlyRegs (refLost s b) u [pgTim1 + 0x44] := orReg_only ..
  have ht : regsBut u t [pgTim1 + 0x10] :=
    (irq_only { u with time.holdFrom := (refLost s b).time.periods + elapsed (refLost s b) } pgTim1 2).2
  have hstat {i : Nat} (hi : i < 32) :
      regBit t (pgTim1 + 0x44) i = (regBit (refLost s b) (pgTim1 + 0x44) i || Nat.testBit 8 i) :=
    (regBit_of_but ht (by simp) i).trans (regBit_orReg_self _ _ _ hi)
  refine ⟨rfl, ?but, ?valid, ?hold, ?loss, regBit_irq _ _ (by decide)⟩
  case but =>
    intro k hk
    simp only [List.mem_cons, List.not_mem_nil, or_false, not_or] at hk
    rw [ht k (by simpa using hk.2), hu.2 k (by simpa using hk.1), (refLost_only s b).2 k (by simp [hk])]
  case valid =>
    rw [refValid, hstat (by cases b <;> decide)]
    show (refValid (refLost s b) b || _) = false
    rw [(refLost_valid s b).1]
    cases b <;> rfl
  case hold => rw [refHold, hstat (by decide)]; exact Bool.or_true _
  case loss =>
    have hirq : regBit (refLost s b) (pgTim1 + 0x10) 1 = true := regBit_irq _ _ (by decide)
    have hkept : regBit u (pgTim1 + 0x10) 1 = true := (regBit_of_but hu.2 (by simp) 1).trans hirq
    refine (regBit_orReg_self _ _ _ (by decide)).trans ?_
    show (regBit u (pgTim1 + 0x10) 1 || _) = true
    rw [hkept, Bool.true_or]

/-- In holdover, the PLL follows a selected input that returns (R94). -/
theorem exec_refInputValid_holdover {s : State} {b : Bool} (hon : s.time.pllOn = true) (hhold : refHold s = true)
    (hsel : refSelects s b = true) : exec (.refInputValid b) s =
      .next (refFollow (orReg s (pgTim1 + 0x44) (1 <<< b2n b)) b) := by
  let u := orReg s (pgTim1 + 0x44) (1 <<< b2n b)
  have hsel' : refSelects u b = true := (refSelects_of_but (orReg_only ..).2 (by simp) b).trans hsel
  have hgo : ¬ (!u.time.pllOn || !refSelects u b) = true := by
    rw [hsel', show u.time.pllOn = true from hon]
    decide
  have hhold' : refHold u = true := by
    have hh : regBit s (pgTim1 + 0x44) 3 = true := hhold
    rw [refHold, regBit_orReg_self _ _ _ (by decide), hh, Bool.true_or]
  exact congrArg Host.Outcome.next ((if_neg hgo).trans (if_pos hhold'))

theorem refReturned_followed (s : State) (b : Bool) :
    let t := refFollow (orReg s (pgTim1 + 0x44) (1 <<< b2n b)) b
    onlyRegs s t [pgTim1 + 0x44, pgTim1 + 0x48, pgTim1 + 0x10, pgTim1 + 0x54] ∧ refValid t b = true ∧
      refActive t = b ∧ refHold t = false := by
  refine ⟨onlyRegs_mono (onlyRegs_trans (orReg_only ..) (refFollow_only ..)) (by simp), ?valid, refFollow_active ..,
    refFollow_hold ..⟩
  rw [refFollow_valid, refValid, regBit_orReg_self _ _ _ (by cases b <;> decide)]
  cases b <;> exact Bool.or_true _

theorem exec_refRevert_reverts {s : State} (hon : s.time.pllOn = true) (hauto : refAuto s = true)
    (hrev : regBit s (pgTim1 + 0x40) 2 = true) (hvalid : refValid s (refPrefers s) = true) (hhold : refHold s = false) :
    exec .refRevert s = .next (refFollow s (refPrefers s)) :=
  congrArg Host.Outcome.next (if_pos (by rw [hon, hauto, hrev, hvalid, hhold]; rfl))

/-! ## REF_CTRL, and the start of the PLL -/

/-- What REF_CTRL then holds: SEL and REVERT. -/
def refChosen (s : State) (v : Word) : State := regPut s (pgTim1 + 0x40) 0 3 (wfield v 0 3)

theorem refChosen_field (s : State) (v : Word) : regField (refChosen s v) (pgTim1 + 0x40) 0 3 = wfield v 0 3 :=
  regField_regPut_self s _ (wfield_lt v 0 3) (by decide)

/-- A write that selects one valid input makes the PLL follow it. -/
theorem refCtrlWrite_selects {s : State} {v : Word} {b : Bool} (hon : s.time.pllOn = true)
    (hsel : wfield v 0 2 = b2n b) (hvalid : refValid s b = true) :
    refCtrlWrite s v = refFollow (refChosen s v) b := by
  have hfield : regField (refChosen s v) (pgTim1 + 0x40) 0 2 = b2n b := by
    rw [← hsel, regField, wfield, wfield, bitsOf, bitsOf, ← Nat.mod_mod_of_dvd _ (show 2 ^ 2 ∣ 2 ^ 3 by decide)]
    exact (congrArg (· % 2 ^ 2) (refChosen_field s v)).trans (Nat.mod_mod_of_dvd _ (by decide))
  have hauto : refAuto (refChosen s v) = false := by
    rw [refAuto, hfield]
    cases b <;> rfl
  have hpref : refPrefers (refChosen s v) = b := by
    rw [refPrefers, hfield]
    cases b <;> rfl
  have hvalid' : refValid (refChosen s v) (refPrefers (refChosen s v)) = true := by
    rw [hpref]
    exact (regBit_of_but (regPut_only ..).2 (by simp) _).trans hvalid
  have hon' : ¬ (!(refChosen s v).time.pllOn) = true := by
    rw [show (refChosen s v).time.pllOn = true from hon]
    decide
  exact (if_neg hon').trans ((if_neg (ne_true_of_eq_false hauto)).trans
    ((if_pos hvalid').trans (congrArg (refFollow (refChosen s v)) hpref)))

theorem exec_pllStart_starts {s : State} (hon : s.time.pllOn = false) (hsel : refSelects s (refPrefers s) = true)
    (hvalid : refValid s (refPrefers s) = true) : exec .pllStart s =
      .next { regPut s (pgTim1 + 0x44) 2 1 (b2n (refPrefers s)) with time.pllOn := true } :=
  congrArg Host.Outcome.next ((if_neg (by rw [hon]; decide)).trans (if_pos (by rw [hsel, hvalid]; rfl)))

/-- Settles O20: each write, capture and reference event by the rule that the model's function follows. -/
theorem timeBaseIsWrittenAndFollowed : Obligations.TimeBaseIsWrittenAndFollowed := by
  unfold Obligations.TimeBaseIsWrittenAndFollowed
  refine ⟨fun s v => ?writes, fun s a b tp v => ?captures, fun s b v => ?references⟩
  case writes =>
    refine ⟨fun hr hlo hhi => ?frame, fun h => ?frameRefused, fun hv => ?wall, fun hv hr => ?step,
      fun hv hr => ?stepRefused, fun hv h9 h => ?arm, fun hv h9 h => ?armRefused⟩
    case frame =>
      refine ⟨_, congrArg Host.Outcome.next (frameCfgWrite_taken hr hlo hhi), rfl,
        (regPut_only { s with time.pendLog2 := _ } ..).2, ?_⟩
      exact regField_regPut_self _ _ (wfield_lt v 0 4) (by decide)
    case frameRefused =>
      exact ⟨_, congrArg Host.Outcome.next (frameCfgWrite_refused h), statSet_only ..,
        regBit_statSet _ _ (by decide)⟩
    case wall => exact ⟨_, rfl, wallCmdWrite_loads hv⟩
    case step =>
      exact ⟨_, congrArg Host.Outcome.next (discCtrlWrite_steps hv hr), rfl, (regPut_only ..).2, discMode_field s v⟩
    case stepRefused =>
      refine ⟨_, congrArg Host.Outcome.next (discCtrlWrite_refused hv hr),
        onlyRegs_trans (regPut_only ..) (statSet_only ..), regBit_statSet _ _ (by decide), ?_⟩
      exact (regField_of_but (statSet_only ..).2 (by simp) 0 2).trans (discMode_field s v)
    case arm => exact ⟨_, congrArg Host.Outcome.next (startCtrlWrite_arms hv h9 h), startArmed_arms s hv⟩
    case armRefused =>
      exact ⟨_, congrArg Host.Outcome.next (startCtrlWrite_refused hv h9 h), statSet_only ..,
        regBit_statSet _ _ (by decide)⟩
  case captures =>
    refine ⟨fun hon h => ⟨fun hroom => ?taken, fun hfull => ?overflow⟩, fun x l h => ?pop,
      exec_ppsOutPulse_rises⟩
    case taken =>
      exact congrArg Host.Outcome.next ((timeCapture_edge tp hon h).trans (if_neg (Nat.not_le.2 hroom)))
    case overflow =>
      exact ⟨_, congrArg Host.Outcome.next ((timeCapture_edge tp hon h).trans (if_pos hfull)),
        captEdge_overflows s a b⟩
    case pop =>
      show Host.Outcome.next _ = _
      rw [h]
      rfl
  case references =>
    intro st n
    refine ⟨fun hon hhold hact => ⟨fun hsel hvalid => ?switches, fun h => ?holdsOver⟩,
      fun hon hhold hsel => ?returns, fun hon hauto hrev hvalid hhold hne => ?reverts, fun hhold => ?expires,
      fun hon hsel hvalid => ?selects, fun hon hsel hvalid => ?starts⟩
    case switches =>
      exact ⟨_, (exec_refInputInvalid_active hon hhold hact).trans (congrArg _ (if_pos (by rw [hsel, hvalid]; rfl))),
        refLost_switches hhold hact⟩
    case holdsOver =>
      refine ⟨_, (exec_refInputInvalid_active hon hhold hact).trans (congrArg _ (if_neg ?_)), refLost_holds s b⟩
      rcases h with h | h <;> simp [h]
    case returns => exact ⟨_, exec_refInputValid_holdover hon hhold hsel, refReturned_followed s b⟩
    case reverts =>
      refine ⟨_, exec_refRevert_reverts hon hauto hrev hvalid hhold, refFollow_only_of_locked hhold _,
        refFollow_active .., ?_⟩
      rw [refFollow_changes hhold hne, regGet_refSwitched_count]
    case expires =>
      exact ⟨_, congrArg Host.Outcome.next (if_pos hhold), orReg_only .., regGet_regSet_self ..⟩
    case selects =>
      refine ⟨_, congrArg Host.Outcome.next (refCtrlWrite_selects hon hsel hvalid),
        onlyRegs_trans (regPut_only ..) (refFollow_only ..), ?_, refFollow_active .., refFollow_hold ..⟩
      exact (regField_of_but (refFollow_only ..).2 (by simp) 0 3).trans (refChosen_field s v)
    case starts =>
      refine ⟨_, exec_pllStart_starts hon hsel hvalid, rfl, (regPut_only ..).2, ?_⟩
      exact (regBit_regPut_self s _ 2 1 _ (by decide)).trans (by cases refPrefers s <;> rfl)

end Sys2Proof.Proofs
end

section
/-! PROOF. The gate conditions at the decision point, the stall fault, and the end of a rotation entry (R53, R72, R78,
R453, R464 to R468). -/
namespace Sys2Proof.Proofs
open Sys2Proof Sys2Proof.Machine Sys2Proof.Safety Sys2Proof.Laws

/-! ## The decision point (R72) -/

/-- What a gate condition reads for partition `p`: its context's, once its raising has begun. -/
def gateOk (s : State) (p : Nat) (f : State → Nat → Bool) : Bool :=
  match gateCtx s p with
  | some c => !(raising s c).began || f s c
  | none => true

/-- Partition `p` with its gate conditions latched. -/
def gatesLatched (s : State) (p : Nat) : PartSt :=
  { part s p with inbound := gateOk s p inboundOk, lead := gateOk s p leadOk, thin := thinDue s p }

theorem decide1_eq (s : State) (p : Nat) : decide1 s p = setPart s p (gatesLatched s p) := rfl

/-- No gate condition of a partition looks at another partition. -/
theorem gatesLatched_setPart (s : State) {p q : Nat} (x : PartSt) (h : p ≠ q) :
    gatesLatched (setPart s q x) p = gatesLatched s p := by
  have hpart : part (setPart s q x) p = part s p := part_setPart_of_ne s x h
  have hctx : gateCtx (setPart s q x) p = gateCtx s p := by rw [gateCtx, gateCtx, hpart]
  have hthin : thinDue (setPart s q x) p = thinDue s p := by
    rw [thinDue, thinDue, hpart]
    rfl
  have hgate (f : State → Nat → Bool) (hf : ∀ c, f (setPart s q x) c = f s c) :
      gateOk (setPart s q x) p f = gateOk s p f := by
    rw [gateOk, gateOk, hctx]
    split
    · rw [hf]
      rfl
    · rfl
  rw [gatesLatched, gatesLatched, hpart, hthin, hgate inboundOk fun _ => rfl, hgate leadOk fun _ => rfl]

/-- The partitions of a list latch their gate conditions; nothing else changes. -/
theorem foldl_decide1 {l : List Nat} (hl : l.Nodup) (s : State) :
    let t := l.foldl decide1 s
    t = { s with rai.part := t.rai.part } ∧ (∀ p, p ∉ l → part t p = part s p) ∧
      ∀ p ∈ l, part t p = gatesLatched s p := by
  induction l generalizing s with
  | nil => exact ⟨rfl, fun _ _ => rfl, nofun⟩
  | cons q l ih =>
    obtain ⟨hq, hl⟩ := List.nodup_cons.1 hl
    obtain ⟨hstate, hout, hin⟩ := ih hl (setPart s q (gatesLatched s q))
    refine ⟨hstate, fun p hp => ?others, fun p hp => ?listed⟩
    case others =>
      rw [List.mem_cons, not_or] at hp
      exact (hout p hp.2).trans (part_setPart_of_ne s _ hp.1)
    case listed =>
      rcases List.mem_cons.1 hp with rfl | hp
      · exact (hout p hq).trans (part_setPart_self s p _)
      · exact (hin p hp).trans (gatesLatched_setPart s _ fun h => hq (h ▸ hp))

theorem mem_usedParts {s : State} {p : Nat} : p ∈ usedParts s ↔ p < 16 ∧ liveDies s p ≠ 0 := by
  simp [usedParts]

theorem usedParts_nodup (s : State) : (usedParts s).Nodup := List.nodup_range.filter _

/-- A raising that has begun has its conditions latched as they stand. -/
theorem gatesLatched_began {s : State} {p c : Nat} (hc : gateCtx s p = some c) (hb : (raising s c).began = true) :
    gatesLatched s p = { part s p with inbound := inboundOk s c, lead := leadOk s c, thin := thinDue s p } := by
  simp [gatesLatched, gateOk, hc, hb]

/-- A partition without a context, or whose raising has not begun, waits for nothing. -/
theorem gatesLatched_open {s : State} {p : Nat}
    (h : gateCtx s p = none ∨ ∃ c, gateCtx s p = some c ∧ (raising s c).began = false) :
    gatesLatched s p = { part s p with inbound := true, lead := true, thin := thinDue s p } := by
  rcases h with hc | ⟨c, hc, hb⟩
  · simp [gatesLatched, gateOk, hc]
  · simp [gatesLatched, gateOk, hc, hb]

theorem thinDue_eq (s : State) (p : Nat) :
    thinDue s p = decide ((part s p).account < 0 ∨ (s.nrg.account < 0 ∧ (part s p).lastKind = .contents)) := by
  simp [thinDue]

/-! ## Operations that leave the partitions, the contexts and the fault registers

The stall fault is read back from TIM page 0 and from the fault log. What is sent and stored on the way to them writes
neither. -/

/-- A key of TIM page 0 or of the fault log of R468. -/
def FaultKey (k : Nat) : Prop :=
  (pgTim0 ≤ k ∧ k < pgTim0 + 0x1000) ∨ (pgDbgS + 0x800 ≤ k ∧ k < pgDbgS + 0x1000)

/-- Raisings, partitions and fault registers are as before. -/
def LeavesFaults (s t : State) : Prop := t.rai = s.rai ∧ ∀ k, FaultKey k → regGet t k = regGet s k

theorem LeavesFaults.refl (s : State) : LeavesFaults s s := ⟨rfl, fun _ _ => rfl⟩

theorem LeavesFaults.trans {s t u : State} (h : LeavesFaults s t) (g : LeavesFaults t u) : LeavesFaults s u :=
  ⟨g.1.trans h.1, fun k hk => (g.2 k hk).trans (h.2 k hk)⟩

theorem LeavesFaults.of_onlyRegs {s t : State} {ks : List Nat} (h : onlyRegs s t ks) (hk : ∀ k ∈ ks, ¬FaultKey k) :
    LeavesFaults s t :=
  ⟨rai_of_onlyRegs h, fun k hf => h.2 k fun hm => hk k hm hf⟩

theorem LeavesFaults.of_onlyReg {s t : State} {k : Nat} (h : onlyRegs s t [k]) (hk : ¬FaultKey k) : LeavesFaults s t :=
  .of_onlyRegs h (by simpa using hk)

/-- The rest of the state may change. -/
theorem LeavesFaults.of_eq {s t : State} (hrai : t.rai = s.rai) (hregs : t.regs = s.regs) : LeavesFaults s t :=
  ⟨hrai, fun k _ => by rw [regGet, regGet, hregs]⟩

theorem LeavesFaults.foldl {α : Type} {f : State → α → State} {l : List α}
    (h : ∀ x ∈ l, ∀ s, LeavesFaults s (f s x)) (s : State) : LeavesFaults s (l.foldl f s) := by
  induction l generalizing s with
  | nil => exact .refl s
  | cons x l ih =>
    exact (h x List.mem_cons_self s).trans (ih (fun y hy => h y (List.mem_cons_of_mem x hy)) _)

/-- A register of a page of a die that is neither TIM page 0 nor a DBG page. -/
theorem not_faultKey {d o : Nat} (h : o < 0x1000 ∨ (0x2000 ≤ o ∧ o < 0x1F0000)) : ¬FaultKey (pageBase d o) := by
  simp only [FaultKey, pgTim0, pgDbgS, pgDbg, pageBase]
  omega

theorem pageBase_add (d o k : Nat) : pageBase d o + k = pageBase d (o + k) := Nat.add_assoc ..

theorem not_faultKey_vlt (v : Nat) {o : Nat} (h : o < 0x1000) : ¬FaultKey (pgVlt v + o) := by
  rw [pgVlt, pageBase_add]
  exact not_faultKey (by omega)

theorem not_faultKey_lse (e : Nat) {o : Nat} (h : o < 0x1000) : ¬FaultKey (pgLse e + o) := by
  rw [pgLse, pageBase_add]
  exact not_faultKey (by omega)

theorem not_faultKey_pln (c : Nat) {o : Nat} (h : o < 0x1000) : ¬FaultKey (pgPln c + o) := by
  rw [pgPln, pageBase_add]
  exact not_faultKey (by omega)

theorem not_faultKey_d2d (d : Nat) {j o : Nat} (hj : j < 8) (h : o < 0x1000) : ¬FaultKey (pgD2d d j + o) := by
  rw [pgD2d, pageBase_add]
  exact not_faultKey (by omega)

theorem leavesFaults_vlt (s : State) (x : Vaults) : LeavesFaults s { s with vlt := x } := .of_eq rfl rfl
theorem leavesFaults_loose (s : State) (x : Loose) : LeavesFaults s { s with loose := x } := .of_eq rfl rfl

/-! ### Lines written by an engine of edge die 1 -/

theorem dramMap_lt {s : State} {a v u : Nat} (h : dramMap s a = some (v, u)) : v < 1024 := by
  unfold dramMap at h
  split at h
  · cases h
  · rename_i ha
    have hdie : a / 0x1800000000 < 16 := by omega
    have hofs : a % 0x1800000000 / vaultSize < 64 := by unfold vaultSize; omega
    simp only at h
    split at h <;> cases h
    · omega
    · exact Nat.lt_of_lt_of_le (Nat.add_lt_add_left (Nat.mod_lt _ (by decide)) _) (by omega)

theorem countPath_leavesFaults (s : State) {d o : Nat} (hd : d < 16) (ho : o < 0x1000) :
    LeavesFaults s (countPath s 1 d o) := by
  refine .of_onlyRegs (countOn_only s (hostPath 1 d) o) fun k hk => ?_
  obtain ⟨pg, hpg, rfl⟩ := List.mem_map.1 hk
  rcases List.mem_cons.1 hpg with rfl | hpg
  · exact not_faultKey_d2d 17 (by omega) ho
  · obtain ⟨j, -, rfl⟩ := List.mem_map.1 hpg
    exact not_faultKey_d2d _ (by decide) ho

theorem baseCols_leavesFaults (s : State) (v n : Nat) : LeavesFaults s (baseCols s v n) :=
  .of_eq (countEv_rai ..) (countEv_regs ..)

theorem countCols_leavesFaults (s : State) (v n : Nat) : LeavesFaults s (countCols s v n) :=
  (LeavesFaults.of_onlyReg (cntAdd_only s _ n) (not_faultKey_vlt v (by decide))).trans (baseCols_leavesFaults ..)

theorem lastCapt_only (s : State) (k v : Nat) : onlyRegs s (lastCapt s k v) [k] := regSet_only ..

/-- What an event of a vault writes: a counter, a capture, and the interrupt. -/
theorem vaultEvent_leavesFaults (s : State) (v : Nat) {c k : Nat} (x b : Nat) (hc : c < 0x1000) (hk : k < 0x1000) :
    LeavesFaults s (irq (lastCapt (cntAdd s (pgVlt v + c) 1) (pgVlt v + k) x) (pgVlt v) b) :=
  .of_onlyRegs (onlyRegs_trans (onlyRegs_trans (cntAdd_only ..) (lastCapt_only ..)) (irq_only ..)) (by
    simp only [List.cons_append, List.nil_append, List.forall_mem_cons, List.not_mem_nil,
      false_imp_iff, implies_true, and_true]
    exact ⟨not_faultKey_vlt v hc, not_faultKey_vlt v hk, not_faultKey_vlt v (by decide)⟩)

theorem noteLine_leavesFaults (s : State) (v u source : Nat) (k : Nat × Bool) :
    LeavesFaults s (noteLine s v u source k) := by
  have hcorrected (t : State) (h : LeavesFaults s t) : LeavesFaults s (if k.1 = 0 then t else
      irq (lastCapt (cntAdd t (pgVlt v + (if k.1 = 3 then 0x5C else 0x58)) 1) (pgVlt v + 0x60) (lineLog u k.1 source))
        (pgVlt v) 0) := by
    split
    · exact h
    · exact h.trans (vaultEvent_leavesFaults t v _ _ (by split <;> decide) (by decide))
  refine hcorrected _ ?_
  split
  · exact (vaultEvent_leavesFaults s v _ 4 (by decide) (by decide)).trans (leavesFaults_vlt _ _)
  · exact .refl s

theorem putBytes_leavesFaults (s : State) (v u dom n data : Nat) (poison : Bool) :
    LeavesFaults s (putBytes s v u dom n data poison).2 := by
  have hread : LeavesFaults s (readLine (countCols s v 1) v u dom 1).2.2 :=
    (countCols_leavesFaults s v 1).trans (noteLine_leavesFaults ..)
  unfold putBytes
  dsimp only
  split
  · exact (countCols_leavesFaults s v 1).trans (leavesFaults_vlt _ _)
  · split
    · exact (hread.trans (countCols_leavesFaults _ v 1)).trans (leavesFaults_vlt _ _)
    · exact hread

theorem engineWrite_leavesFaults (s : State) (who : Requester) (a n data : Nat) :
    LeavesFaults s (engineWrite s 1 who a n data).2 := by
  unfold engineWrite
  split
  · exact .refl s
  · rename_i v u hmap
    have hd : v / 64 < 16 := by have := dramMap_lt hmap; omega
    have hreq : LeavesFaults s (countPath s 1 (v / 64) 0x44) := countPath_leavesFaults s hd (by decide)
    have hput := fun dom => hreq.trans (putBytes_leavesFaults (countPath s 1 (v / 64) 0x44) v u dom n data false)
    dsimp only
    split
    · exact hreq.trans (countPath_leavesFaults _ hd (by decide))
    · split
      · exact hreq.trans (countPath_leavesFaults _ hd (by decide))
      · split
        · exact hput _
        · exact (hput _).trans (countPath_leavesFaults _ hd (by decide))

theorem engineWrites_leavesFaults (who : Requester) (f : Nat) (s : State) (a n x : Nat) :
    LeavesFaults s (engineWrites s 1 who a n x f).2 := by
  induction f generalizing s a n x with
  | zero => exact .refl s
  | succ f ih =>
    unfold engineWrites
    split
    · exact .refl s
    · exact (engineWrite_leavesFaults s who ..).trans (ih ..)

/-! ### Commands sent -/

theorem carveWrites_leavesFaults (s : State) (a n x : Nat) : LeavesFaults s (carveWrites s 1 a n x) := by
  unfold carveWrites
  split
  · exact engineWrites_leavesFaults ..
  · exact .refl s

theorem deliverCmd_leavesFaults (s : State) (f : CmdFrame) : LeavesFaults s (deliverCmd s f) := by
  unfold deliverCmd epDeliver
  split
  · exact .refl s
  · exact (carveWrites_leavesFaults ..).trans
      (.of_onlyReg (regPut_only ..) (not_faultKey_lse 1 (o := 0x20C + 0x10 * 31) (by decide)))

theorem enqueueCmd_leavesFaults (s : State) (p : Nat) (f : CmdFrame) : LeavesFaults s (enqueueCmd s p f) := by
  unfold enqueueCmd
  dsimp only
  split
  · exact .of_onlyReg (cntAdd_only ..) (not_faultKey_lse _ (by decide))
  · exact leavesFaults_loose ..

theorem mkCmd_leavesFaults (s : State) (dst : Option Nat) (code : Nat) (ack : Bool) (raiseId len body : Nat) :
    LeavesFaults s (mkCmd s dst code ack raiseId len body).2 := leavesFaults_loose ..

theorem noteSeen_leavesFaults (s : State) (f : CmdFrame) : LeavesFaults s (noteSeen s f) := leavesFaults_loose ..

theorem directOn_leavesFaults (s : State) (e : Nat) (f : CmdFrame) : LeavesFaults s (directOn s e f) := by
  unfold directOn
  split
  · exact .refl s
  · exact enqueueCmd_leavesFaults ..

theorem directCmd_leavesFaults (s : State) (dst code : Nat) (ack : Bool) (raiseId len body : Nat) :
    LeavesFaults s (directCmd s dst code ack raiseId len body) := by
  refine LeavesFaults.trans ?_ (directOn_leavesFaults _ 1 _)
  have hseen (f : CmdFrame) :=
    (mkCmd_leavesFaults s (some dst) code ack raiseId len body).trans (noteSeen_leavesFaults _ f)
  split
  · exact (hseen _).trans (leavesFaults_loose ..)
  · exact hseen _

theorem sendTo_leavesFaults (s : State) (dst code : Nat) (ack : Bool) (raiseId len body : Nat) :
    LeavesFaults s (sendTo s dst code ack raiseId len body) := by
  unfold sendTo
  split
  · exact (mkCmd_leavesFaults ..).trans (deliverCmd_leavesFaults ..)
  · exact directCmd_leavesFaults ..

theorem floodOn_leavesFaults (s : State) (f : CmdFrame) (but : Option Nat) : LeavesFaults s (floodOn s f but) := by
  refine LeavesFaults.foldl (fun p _ t => ?_) s
  split
  · exact enqueueCmd_leavesFaults ..
  · exact .refl t

theorem floodActed_leavesFaults (s : State) (code raiseId len body : Nat) :
    LeavesFaults s (floodActed s code raiseId len body) :=
  (((mkCmd_leavesFaults ..).trans (noteSeen_leavesFaults ..)).trans (floodOn_leavesFaults ..)).trans
    (deliverCmd_leavesFaults ..)

theorem leavesFaults_edge (s : State) (x : Edge) : LeavesFaults s { s with edge := x } := .of_eq rfl rfl
theorem leavesFaults_ses (s : State) (x : Sessions) : LeavesFaults s { s with ses := x } := .of_eq rfl rfl

/-! ### A raising that ends -/

theorem edgeEnd_leavesFaults (s : State) (c : Nat) : LeavesFaults s (edgeEnd s c) :=
  (LeavesFaults.foldl (fun _ _ t => LeavesFaults.foldl (fun _ _ _ => leavesFaults_edge ..) t) s).trans
    (leavesFaults_edge ..)

theorem unbindCtx_leavesFaults (s : State) (c : Nat) : LeavesFaults s (unbindCtx s c) :=
  (leavesFaults_vlt s _).trans (LeavesFaults.foldl (fun _ _ t =>
    ((leavesFaults_ses t _).trans (leavesFaults_ses ..)).trans (leavesFaults_ses ..)) _)

/-- The clusters of a partition that served the raising are not ready any more. -/
theorem plansDropped_leavesFaults (s : State) (l : List Nat) :
    LeavesFaults s (l.foldl (fun s k => regPut s (pgPln k + 0x40) 1 1 0) s) :=
  LeavesFaults.foldl (fun k _ _ => .of_onlyReg (regPut_only ..) (not_faultKey_pln k (by decide))) s

/-- The raising of context `c` in its last state; nothing is ended with it yet. -/
def raisingOver (s : State) (c : Nat) (st : RaiseState) : State :=
  setRaising s c { raising s c with
    state := st
    stopAt := none
    holdAt := none
    resumeAt := none
    armedTrig := false }

/-- What served the raising is released: edge dies, sessions, and clusters. -/
def raisingReleased (s : State) (c : Nat) (st : RaiseState) : State :=
  let u := unbindCtx (edgeEnd (raisingOver s c st) c) c
  if partServes u (ctx u c).part c then (ctxClusters u c).foldl (fun s k => regPut s (pgPln k + 0x40) 1 1 0) u else u

/-- The trail records of context `c` are dropped. -/
def trailDropped (s : State) (c : Nat) : State :=
  { s with rai.trail := s.rai.trail.filter fun w => w.ctx ≠ c }

/-- Context `c` without its trail records, keyed again. -/
def ctxEnded (s : State) (c : Nat) : State :=
  let x := ctx (trailDropped s c) c
  setCtx (trailDropped s c) c { x with state := if x.state = .running then CtxState.keyed else x.state }

theorem endRaising_eq (s : State) (c : Nat) (st : RaiseState) : endRaising s c st =
    if isPredecessor s c then
      cancelPmap (ctxEnded (raisingReleased s c st) c) (ctx (trailDropped (raisingReleased s c st) c) c).part
    else ctxEnded (raisingReleased s c st) c := rfl

theorem raisingReleased_leavesFaults (s : State) (c : Nat) (st : RaiseState) :
    LeavesFaults (raisingOver s c st) (raisingReleased s c st) := by
  have hunbound := (edgeEnd_leavesFaults (raisingOver s c st) c).trans (unbindCtx_leavesFaults _ c)
  unfold raisingReleased
  dsimp only
  split
  · exact hunbound.trans (plansDropped_leavesFaults ..)
  · exact hunbound

/-- A cancelled apply changes the apply that waits and its status alone. -/
theorem cancelPmap_keeps (s : State) (p : Nat) :
    (cancelPmap s p).rai = { s.rai with pmap := (cancelPmap s p).rai.pmap } ∧
      ∀ k, FaultKey k → regGet (cancelPmap s p) k = regGet s k := by
  unfold cancelPmap
  split
  · split
    · exact ⟨rfl, (LeavesFaults.of_onlyReg (regSet_only { s with rai.pmap := none } _ _)
        (not_faultKey (d := 19) (o := 0x984) (by decide))).2⟩
    · exact ⟨rfl, fun _ _ => rfl⟩
  · exact ⟨rfl, fun _ _ => rfl⟩

theorem ctx_of_rai {s t : State} (h : t.rai = s.rai) (c : Nat) : ctx t c = ctx s c := by rw [ctx, ctx, h]

/-- `t` has the partitions, the faults that wait and the fault registers of `s`, and the raising of context `c` is in
state `st` with cause `cause`. -/
structure RaisingEnds (s t : State) (c : Nat) (st : RaiseState) (cause : BitVec 4) : Prop where
  parts : t.rai.part = s.rai.part
  faults : t.rai.faults = s.rai.faults
  regs : ∀ k, FaultKey k → regGet t k = regGet s k
  state : (raising t c).state = st
  cause : (ctx t c).faultCause = cause

section
variable {s t u : State} {c : Nat} {st : RaiseState} {cause : BitVec 4}

theorem RaisingEnds.after (h : LeavesFaults s u) (g : RaisingEnds u t c st cause) : RaisingEnds s t c st cause where
  parts := g.parts.trans (congrArg (·.part) h.1)
  faults := g.faults.trans (congrArg (·.faults) h.1)
  regs k hk := (g.regs k hk).trans (h.2 k hk)
  state := g.state
  cause := g.cause

theorem RaisingEnds.before (g : RaisingEnds s u c st cause) (h : LeavesFaults u t) : RaisingEnds s t c st cause where
  parts := (congrArg (·.part) h.1).trans g.parts
  faults := (congrArg (·.faults) h.1).trans g.faults
  regs k hk := (h.2 k hk).trans (g.regs k hk)
  state := by rw [raising, ctx_of_rai h.1]; exact g.state
  cause := by rw [ctx_of_rai h.1]; exact g.cause

theorem RaisingEnds.ctxEnded (g : RaisingEnds s u c st cause) : RaisingEnds s (ctxEnded u c) c st cause where
  parts := g.parts
  faults := g.faults
  regs := g.regs
  state := by rw [raising, Proofs.ctxEnded, ctx_setCtx_self]; exact g.state
  cause := by rw [Proofs.ctxEnded, ctx_setCtx_self]; exact g.cause

theorem RaisingEnds.cancelPmap (g : RaisingEnds s u c st cause) (p : Nat) :
    RaisingEnds s (cancelPmap u p) c st cause := by
  obtain ⟨hrai, hregs⟩ := cancelPmap_keeps u p
  have hctxs : (Machine.cancelPmap u p).rai.ctx = u.rai.ctx := congrArg (·.ctx) hrai
  have hctx : ctx (Machine.cancelPmap u p) c = ctx u c := congrArg (tabGet Ctx.init c) hctxs
  exact {
    parts := (congrArg (·.part) hrai).trans g.parts
    faults := (congrArg (·.faults) hrai).trans g.faults
    regs := fun k hk => (hregs k hk).trans (g.regs k hk)
    state := by rw [raising, hctx]; exact g.state
    cause := by rw [hctx]; exact g.cause }

end

theorem raisingOver_ends (s : State) (c : Nat) (st : RaiseState) :
    RaisingEnds s (raisingOver s c st) c st (ctx s c).faultCause where
  parts := rfl
  faults := rfl
  regs _ _ := rfl
  state := by rw [raising, raisingOver, setRaising, ctx_setCtx_self]
  cause := by rw [raisingOver, setRaising, ctx_setCtx_self]

theorem endRaising_ends (s : State) (c : Nat) (st : RaiseState) :
    RaisingEnds s (endRaising s c st) c st (ctx s c).faultCause := by
  have hended := ((raisingOver_ends s c st).before (raisingReleased_leavesFaults s c st)).ctxEnded
  rw [endRaising_eq]
  split
  · exact hended.cancelPmap _
  · exact hended

/-- The cause of an end that a fault brings (R466). -/
def causeNoted (s : State) (c cause : Nat) : State :=
  setCtx s c { ctx s c with faultCause := BitVec.ofNat 4 cause }

theorem causeNoted_ends (s : State) (c cause : Nat) (st : RaiseState) :
    RaisingEnds s (endRaising (causeNoted s c cause) c st) c st (BitVec.ofNat 4 cause) := by
  have h := endRaising_ends (causeNoted s c cause) c st
  have hcause : (ctx (causeNoted s c cause) c).faultCause = BitVec.ofNat 4 cause := by rw [causeNoted, ctx_setCtx_self]
  rw [hcause] at h
  exact ⟨h.parts, h.faults, h.regs, h.state, h.cause⟩

theorem faultRaising_ends (s : State) (c cause cls : Nat) :
    RaisingEnds s (faultRaising s c cause cls) c .faulted (BitVec.ofNat 4 cause) :=
  .after ((floodActed_leavesFaults s 1 (raising s c).raiseId.toNat 8 0).trans (sendTo_leavesFaults ..))
    ((causeNoted_ends _ c cause .faulted).before
      (.of_onlyReg (irq_only _ pgTim2 1) (not_faultKey (d := 19) (o := 0x3010) (by decide))))

/-! ## The stall fault (R78, R464, R468) -/

/-- The log entry that the next fault takes. -/
def nextLogKey (s : State) : Nat := pgDbgS + 0x800 + 0x10 * regField s (pgDbgS + 0x60) 0 6

theorem logFault_only (s : State) (f : FaultRec) : onlyRegs s (logFault s f) [pgDbgS + 0x64, nextLogKey s,
    nextLogKey s + 4, nextLogKey s + 8, nextLogKey s + 12, pgDbgS + 0x60, pgDbgS + 0x10] := by
  have hfull : onlyRegs s (if regBit s (nextLogKey s) 31 then cntAdd s (pgDbgS + 0x64) 1 else s) [pgDbgS + 0x64] := by
    split
    · exact cntAdd_only ..
    · exact onlyRegs_refl s _
  exact onlyRegs_trans hfull (onlyRegs_trans (regSet_only ..) (onlyRegs_trans (regSet_only ..)
    (onlyRegs_trans (regSet_only ..) (onlyRegs_trans (regSet_only ..)
      (onlyRegs_trans (regPut_only ..) (irq_only ..))))))

theorem vlt_of_onlyRegs {s t : State} {ks : List Nat} (h : onlyRegs s t ks) : t.vlt = s.vlt := by rw [h.1]

theorem faultKey_nextLogKey (s : State) : FaultKey (nextLogKey s) := by
  have : regField s (pgDbgS + 0x60) 0 6 < 2 ^ 6 := wfield_lt _ 0 6
  unfold FaultKey nextLogKey
  omega

/-- The log entry names the code and the context (R468). -/
theorem logFault_names (s : State) (f : FaultRec) :
    wfield (regGet (logFault s f) (nextLogKey s)) 0 24 = f.code.toNat + 0x10000 * (f.ctx.getD 0 % 256) := by
  let base := if regBit s (nextLogKey s) 31 then cntAdd s (pgDbgS + 0x64) 1 else s
  let w := BitVec.ofNat 32 (f.code.toNat + f.ctx.getD 0 <<< 16 + recAction s f <<< 24 + 0x80000000)
  have hrest : onlyRegs (regSet base (nextLogKey s) w) (logFault s f) ([nextLogKey s + 4] ++ ([nextLogKey s + 8] ++
      ([nextLogKey s + 12] ++ ([pgDbgS + 0x60] ++ [pgDbgS + 0x10])))) :=
    onlyRegs_trans (regSet_only ..) (onlyRegs_trans (regSet_only ..) (onlyRegs_trans (regSet_only ..)
      (onlyRegs_trans (regPut_only ..) (irq_only ..))))
  have hword : regGet (logFault s f) (nextLogKey s) = w := by
    have hout : nextLogKey s ∉ [nextLogKey s + 4] ++ ([nextLogKey s + 8] ++ ([nextLogKey s + 12] ++ ([pgDbgS + 0x60] ++
        [pgDbgS + 0x10]))) := by
      simp only [List.cons_append, List.nil_append, List.mem_cons, List.not_mem_nil, or_false, not_or, nextLogKey]
      omega
    rw [hrest.2 _ hout, regGet_regSet_self]
  have hcode := f.code.isLt
  rw [hword]
  simp only [w, wfield, bitsOf, BitVec.toNat_ofNat, Nat.shiftRight_zero, Nat.shiftLeft_eq]
  omega

/-- A page's first capture is valid, and stays so (R448). -/
theorem capture_valid (s : State) (pg code pos arg : Nat) :
    regBit (capture s pg code pos arg) (pg + 0x1C) 31 = true := by
  unfold capture
  split
  · rename_i h
    rw [regBit_orReg_self _ _ _ (by decide), h, Bool.true_or]
  · refine (regBit_of_but (regSet_only _ (pg + 0x20) _).2 (by simp) 31).trans ?_
    rw [regBit, regGet_regSet_self, BitVec.getLsbD_ofNat]
    simp only [Nat.testBit_eq_decide_div_mod_eq, Bool.and_eq_true, decide_eq_true_eq]
    omega

/-- A stall ends a raising that lives: its fault is fixed (R464, R465). -/
theorem actOn_stall (s : State) {f : FaultRec} {c : Nat} (hcode : f.code = 0x13) (hctx : f.ctx = some c) :
    actOn s [f] c = if ctxLive s c then faultRaising s c 1 0x13 else s := by
  have hend : recAction s f = 2 := by
    rw [recAction, hctx]
    simp [hcode, faultAction, faultGroup]
  simp [actOn, hctx, hcode, hend, reportCode, faultCause]

/-- The fault that a stall of partition `p` detects. -/
def stallRec (p c : Nat) : FaultRec := ⟨0x13, some c, BitVec.ofNat 32 pgTim0, BitVec.ofNat 32 p⟩

/-- The count of held frames begins again. -/
def holdsCleared (s : State) (p : Nat) : State := setPart s p { part s p with holds := 0 }

/-- The time base has captured the stall. -/
def stalled (s : State) (p : Nat) : State := capture (holdsCleared s p) pgTim0 0x13 0 p

theorem stalled_only (s : State) (p : Nat) :
    onlyRegs (holdsCleared s p) (stalled s p) [pgTim0 + 0x1C, pgTim0 + 0x20] := capture_only ..

theorem actFaults_one {s : State} {f : FaultRec} {c : Nat} (hf : s.rai.faults = [f]) (hc : f.ctx = some c) :
    actFaults s = actOn (logFault { s with rai.faults := [] } f) [f] c := by
  rw [actFaults, hf, actThese]
  simp only [List.filterMap_cons, List.filterMap_nil, hc]
  rfl

theorem exec_stall_due {s : State} {p : Fin 16} {c : Nat}
    (hdue : max 16 (regNat s (pgTim0 + 0x54)) ≤ (part s p.val).holds) (hrun : (part s p.val).run = some c)
    (hfaults : s.rai.faults = []) :
    exec (.stall p) s = .next (actOn (logFault (stalled s p.val) (stallRec p.val c)) [stallRec p.val c] c) := by
  have hrai : (stalled s p.val).rai.faults = [] :=
    (congrArg (·.faults) (rai_of_onlyRegs (stalled_only s p.val))).trans hfaults
  have hwaits : (fault (holdsCleared s p.val) 0x13 pgTim0 0 p.val (some c)).rai.faults = [stallRec p.val c] :=
    congrArg (· ++ [stallRec p.val c]) hrai
  have hcleared : { stalled s p.val with rai.faults := [] } = stalled s p.val := by rw [← hrai]
  have hacts := actFaults_one hwaits (c := c) rfl
  have hgo : exec (.stall p) s = .next (match (part s p.val).run with
      | some c => actFaults (fault (holdsCleared s p.val) 0x13 pgTim0 0 p.val (some c))
      | none => s) := congrArg Host.Outcome.next (if_pos hdue)
  rw [hgo, hrun]
  refine congrArg Host.Outcome.next (hacts.trans ?_)
  conv_rhs => rw [← hcleared]
  rfl

theorem exec_stall_none {s : State} {p : Fin 16}
    (h : ¬max 16 (regNat s (pgTim0 + 0x54)) ≤ (part s p.val).holds ∨ (part s p.val).run = none) :
    exec (.stall p) s = .next s := by
  show Host.Outcome.next (if _ then _ else _) = _
  rcases h with h | h
  · rw [if_neg h]
  · rw [h, ite_self]

/-- What a stall fault leaves: the count begins again, the fault is captured and logged, and a raising that lives ends
with cause 1. -/
theorem stall_ends (s : State) (p c : Nat) :
    let t := actOn (logFault (stalled s p) (stallRec p c)) [stallRec p c] c
    (part t p).holds = 0 ∧ t.rai.faults = s.rai.faults ∧ regBit t (pgTim0 + 0x1C) 31 = true ∧
      wfield (regGet t (nextLogKey s)) 0 24 = 0x13 + 0x10000 * (c % 256) ∧
      (ctxLive s c = false → t.clu = s.clu ∧ t.vlt = s.vlt ∧ t.rai.ctx = s.rai.ctx) ∧
      (ctxLive s c = true → (raising t c).state = .faulted ∧ (ctx t c).faultCause = 1) := by
  intro t
  let u := logFault (stalled s p) (stallRec p c)
  have hcapt := stalled_only s p
  have hlog := logFault_only (stalled s p) (stallRec p c)
  have hkey : nextLogKey (stalled s p) = nextLogKey s :=
    congrArg (pgDbgS + 0x800 + 0x10 * ·) (regField_of_but hcapt.2 (k := pgDbgS + 0x60) (by decide) 0 6)
  have hrai : u.rai = (holdsCleared s p).rai :=
    (rai_of_onlyRegs hlog).trans (rai_of_onlyRegs hcapt)
  have hlive : ctxLive u c = ctxLive s c := by rw [ctxLive, raising, ctx_of_rai hrai]; rfl
  have ht : t = if ctxLive s c then faultRaising u c 1 0x13 else u := by
    rw [← hlive]
    exact actOn_stall u rfl rfl
  have hends := faultRaising_ends u c 1 0x13
  have hkept : t.rai.part = u.rai.part ∧ t.rai.faults = u.rai.faults ∧ ∀ k, FaultKey k → regGet t k = regGet u k := by
    rw [ht]
    split
    · exact ⟨hends.parts, hends.faults, hends.regs⟩
    · exact ⟨rfl, rfl, fun _ _ => rfl⟩
  obtain ⟨hparts, hfaults, hregs⟩ := hkept
  have hcaptured : regBit u (pgTim0 + 0x1C) 31 = true := by
    refine (regBit_of_but hlog.2 ?_ 31).trans (capture_valid ..)
    simp only [List.mem_cons, List.not_mem_nil, or_false, not_or, nextLogKey, pgTim0, pgDbgS, pgDbg, pageBase]
    omega
  refine ⟨?holds, hfaults.trans (congrArg (·.faults) hrai), ?captured, ?logged, fun hdead => ?logs, fun hl => ?ends⟩
  case holds =>
    have hpart : part t p = part (holdsCleared s p) p :=
      congrArg (tabGet PartSt.init p) (hparts.trans (congrArg (·.part) hrai))
    rw [hpart, holdsCleared, part_setPart_self]
  case captured => exact (congrArg (·.getLsbD 31) (hregs _ (by unfold FaultKey; omega))).trans hcaptured
  case logged =>
    rw [hregs _ (faultKey_nextLogKey s), ← hkey]
    exact logFault_names (stalled s p) (stallRec p c)
  case logs =>
    rw [ht, if_neg (ne_true_of_eq_false hdead)]
    exact ⟨(clu_of_onlyRegs hlog).trans ((clu_of_onlyRegs hcapt).trans rfl),
      (vlt_of_onlyRegs hlog).trans ((vlt_of_onlyRegs hcapt).trans rfl),
      congrArg (·.ctx) hrai⟩
  case ends =>
    rw [ht, if_pos hl]
    exact ⟨hends.state, hends.cause⟩

/-! ## A rotation entry that ends (R453) -/

theorem actTick_deferred {s : State} (h : ∀ f ∈ s.rai.faults, switchFault s f = true) : actTick s = s := by
  have hacted : s.rai.faults.filter (fun f => !switchFault s f) = [] := by
    simpa [List.filter_eq_nil_iff] using h
  rw [actTick, hacted, List.filter_eq_self.2 h]
  rfl

/-- Where every raising that runs lives, no partition stops. -/
theorem faultedParts_live {s : State}
    (h : ∀ q < 16, ∀ c, (part s q).kind = .contents → (part s q).run = some c → ctxLive s c = true) :
    faultedParts s = s := by
  refine foldl_eq_self fun q hq => ?_
  split
  · rename_i c hkind hrun
    exact if_pos (h q (mem_usedParts.1 hq).1 c hkind hrun)
  · rfl

/-- The entry of partition `p` is over, and the next one is due. -/
def entryPassed (s : State) (p : Nat) : State :=
  setPart s p { part s p with began := false, entry := ((part s p).entry + 1) % max 1 (rotCount s p) }

/-- Partition `p` at the beginning of entry `j` of its rotation table. -/
def partAtEntry (s : State) (p j : Nat) : PartSt :=
  { part s p with
    entry := j
    entryRun := (rotEntry s p j).1
    entryCtx := (rotEntry s p j).2.1
    done := 0
    began := true
    idleEnt := (rotEntry s p j).2.2 }

/-- Partition `p` begins entry `j` of its rotation table. -/
def entryTaken (s : State) (p j : Nat) : State := setPart s p (partAtEntry s p j)

theorem exec_rotationEntryEnd_not_over {s : State} {p : Fin 16} (h : ¬((part s p.val).began = true ∧
    (part s p.val).kind = .none ∧ entryOver s p.val = true)) : exec (.rotationEntryEnd p) s = .next s :=
  congrArg Host.Outcome.next (if_neg (by simpa [and_assoc] using h))

/-- With a rotation table, the partition takes the entry that is due. -/
theorem exec_rotationEntryEnd_over {s : State} {p : Fin 16} (h : (part s p.val).began = true ∧
    (part s p.val).kind = .none ∧ entryOver s p.val = true) (hn : rotCount s p.val ≠ 0) :
    exec (.rotationEntryEnd p) s = .next (faultedParts (actTick (takeEntry (entryPassed s p.val) p.val))) := by
  obtain ⟨hbegan, hkind, hover⟩ := h
  have hn' : ¬rotCount (entryPassed s p.val) p.val = 0 := hn
  have hcond : ((part s p.val).began && decide ((part s p.val).kind = .none) && entryOver s p.val) = true := by
    rw [hbegan, hkind, hover]
    rfl
  exact congrArg Host.Outcome.next ((if_pos hcond).trans
    (congrArg (fun t => faultedParts (actTick t)) (if_neg hn')))

section
variable {s : State} {p j : Nat}

/-- The entry that is due is taken where it can run. -/
theorem nextEntry_due (hj : (part s p).entry = j) (hn : j < rotCount s p)
    (hruns : ((rotEntry s p j).2.2 || runnable s p (rotEntry s p j).2.1) = true) : nextEntry s p = some j := by
  obtain ⟨n, hcount⟩ : ∃ n, rotCount s p = n + 1 := ⟨rotCount s p - 1, by omega⟩
  have hfirst : (j + 0) % (n + 1) = j := Nat.mod_eq_of_lt (by omega)
  rw [hcount] at hn
  simp only [nextEntry, hj, hcount, if_pos hn, List.range_succ_eq_map, List.map_cons, hfirst]
  exact List.find?_cons_of_pos hruns

theorem nextEntry_none
    (h : ∀ j < rotCount s p, (rotEntry s p j).2.2 = false ∧ runnable s p (rotEntry s p j).2.1 = false) :
    nextEntry s p = none := by
  refine List.find?_eq_none.2 fun j hj => ?_
  obtain ⟨k, hk, rfl⟩ := List.mem_map.1 hj
  have hk := List.mem_range.1 hk
  have hskips (i : Nat) := h (i % rotCount s p) (Nat.mod_lt i (by omega))
  simp only [(hskips _).1, (hskips _).2]
  decide

theorem takeEntry_idle (hnext : nextEntry s p = some j) (hidle : (rotEntry s p j).2.2 = true) :
    takeEntry s p = quiet (entryTaken s p j) p .idle := by
  rw [takeEntry, hnext]
  exact if_pos hidle

theorem takeEntry_serves (hnext : nextEntry s p = some j) (hidle : (rotEntry s p j).2.2 = false) :
    takeEntry s p = serve (entryTaken s p j) p (rotEntry s p j).2.1 := by
  rw [takeEntry, hnext]
  exact if_neg (ne_true_of_eq_false hidle)

theorem takeEntry_skips (hnext : nextEntry s p = none) : takeEntry s p = quiet s p .none := by rw [takeEntry, hnext]

end

/-- A partition that is quiet changes the register of its gate alone. -/
theorem quiet_frames (s : State) (p : Nat) (k : PeriodKind) :
    (quiet s p k).clu = s.clu ∧ (quiet s p k).vlt = s.vlt ∧ regsBut s (quiet s p k) [pgTim0 + 0x108 + 0x10 * p] := by
  have hgate (t : State) : onlyRegs t (setGate t p 0) [pgTim0 + 0x108 + 0x10 * p] := regSet_only ..
  exact ⟨(clu_of_onlyRegs (hgate _)).trans (setPart_clu ..), (vlt_of_onlyRegs (hgate _)).trans (setPart_vlt ..),
    (hgate (setPart s p _)).2⟩

/-! ### Loads for a context -/

/-- From `s` to `t` no partition and no context changes, and every fault that is raised is one of context `c`. -/
structure LoadsFor (c : Nat) (s t : State) : Prop where
  parts : t.rai.part = s.rai.part
  ctxs : t.rai.ctx = s.rai.ctx
  faults : (∀ f ∈ s.rai.faults, f.ctx = some c) → ∀ f ∈ t.rai.faults, f.ctx = some c

section
variable {c : Nat} {s t u : State}

theorem LoadsFor.of_rai (h : t.rai = s.rai) : LoadsFor c s t :=
  ⟨congrArg (·.part) h, congrArg (·.ctx) h, fun hf => by rwa [h]⟩

theorem LoadsFor.refl (s : State) : LoadsFor c s s := .of_rai rfl

theorem LoadsFor.trans (h : LoadsFor c s t) (g : LoadsFor c t u) : LoadsFor c s u :=
  ⟨g.parts.trans h.parts, g.ctxs.trans h.ctxs, fun hf => g.faults (h.faults hf)⟩

theorem LoadsFor.foldl {α : Type} {f : State → α → State} {l : List α} (h : ∀ s x, LoadsFor c s (f s x)) (s : State) :
    LoadsFor c s (l.foldl f s) := by
  induction l generalizing s with
  | nil => exact .refl s
  | cons x l ih => exact (h s x).trans (ih _)

theorem fault_loadsFor (s : State) (code pg pos arg : Nat) : LoadsFor c s (fault s code pg pos arg (some c)) := by
  have hcapt : (capture s pg code pos arg).rai = s.rai := rai_of_onlyRegs (capture_only ..)
  have hfaults : (fault s code pg pos arg (some c)).rai.faults =
      s.rai.faults ++ [⟨BitVec.ofNat 16 code, some c, BitVec.ofNat 32 pg, BitVec.ofNat 32 arg⟩] :=
    congrArg (·.faults ++ _) hcapt
  refine ⟨congrArg (·.part) hcapt, congrArg (·.ctx) hcapt, fun hf f hm => ?_⟩
  rw [hfaults, List.mem_append, List.mem_singleton] at hm
  rcases hm with hm | rfl
  · exact hf f hm
  · rfl

theorem loadFault_loadsFor (s : State) (k : Nat) (bad : Option (Nat × Nat)) : LoadsFor c s (loadFault s c k bad) := by
  unfold loadFault
  split
  · exact .refl s
  · exact fault_loadsFor ..

end

theorem loadLines_rai (s : State) (x c u n : Nat) : (loadLines s x c u n).2.2.rai = s.rai := by
  induction n generalizing s u with
  | zero => rfl
  | succ n ih =>
    have hnext : (loadLines s x c u (n + 1)).2.2 = (loadLines (readLine s c u x 3).2.2 x c (u + 64) n).2.2 := rfl
    rw [hnext, ih, readLine_rai]

theorem emptyTables_rai (s : State) (c : Nat) : (emptyTables s c).rai = s.rai := by
  rw [emptyTables, regSet_rai, regPut_rai]

theorem clearCluster_rai (s : State) (c : Nat) : (clearCluster s c).rai = s.rai := by
  have hempty := emptyTables_rai (clearRegs s c) c
  rw [clearCluster]
  exact hempty

theorem loadEntryOn_loadsFor (s : State) (x c : Nat) (prep : Bool) : LoadsFor x s (loadEntryOn s x c prep) := by
  unfold loadEntryOn
  extract_lets u d idx len descErr b s' bad q
  have hlines : LoadsFor x s s' := by
    have hdesc : d.2.2.rai = s.rai := loadLines_rai ..
    refine .of_rai (show b.2.2.rai = s.rai from ?_)
    simp only [b]
    split
    · exact hdesc
    · exact (loadLines_rai ..).trans hdesc
  have hend (t : State) (h : LoadsFor x s t) : LoadsFor x s (if prep then t else loadFault t x c bad) := by
    split
    · exact h
    · exact h.trans (loadFault_loadsFor ..)
  split
  · exact hend _ (hlines.trans (.of_rai (setSeq_rai ..)))
  · exact hend _ (((hlines.trans (.foldl (fun _ _ => .of_rai (setBundle_rai ..)) s')).trans
      (.of_rai (setTag_rai ..))).trans (.of_rai (setSeq_rai ..)))

theorem loadEntry_loadsFor (s : State) (x c : Nat) (prep : Bool) : LoadsFor x s (loadEntry s x c prep) := by
  unfold loadEntry
  split
  · exact loadEntryOn_loadsFor ..
  · exact .of_rai (setSeq_rai ..)

/-- A fold whose accumulator carries the state in front. -/
theorem rai_foldl_fst {α β : Type} {f : State × β → α → State × β} (h : ∀ x a, (f x a).1.rai = x.1.rai) (l : List α)
    (x : State × β) : (l.foldl f x).1.rai = x.1.rai := by
  induction l generalizing x with
  | nil => rfl
  | cons a l ih => rw [List.foldl_cons, ih, h]

theorem loadTables_loadsFor (s : State) (x c : Nat) (decode prep : Bool) :
    LoadsFor x s (loadTables s x c decode prep) := by
  unfold loadTables
  split
  · exact .of_rai ((regSet_rai ..).trans (emptyTables_rai ..))
  · split
    · exact .of_rai ((regSet_rai ..).trans (emptyTables_rai ..))
    · extract_lets pg u one
      have hone (acc : State × Option (Nat × Nat) × Option Nat × Option Nat × Nat) (n : Nat) :
          (one acc n).1.rai = acc.1.rai := by
        simp only [one, loadLines_rai]
      have hfold := rai_foldl_fst hone (List.range 32) (s, none, none, none, 0)
      generalize (List.range 32).foldl one (s, none, none, none, 0) = acc at hfold
      obtain ⟨t, line, mal, first, valid⟩ := acc
      dsimp only at hfold ⊢
      have hnoted (v w : Word) (b : Bool) : LoadsFor x s
          (if b then irq (regSet (regSet t (pg + 0x44) v) (pg + 0x40) w) pg 1
          else regSet (regSet t (pg + 0x44) v) (pg + 0x40) w) := by
        have hregs : (regSet (regSet t (pg + 0x44) v) (pg + 0x40) w).rai = s.rai :=
          (regSet_rai ..).trans ((regSet_rai ..).trans hfold)
        split
        · exact .of_rai ((irq_rai ..).trans hregs)
        · exact .of_rai hregs
      split
      · exact hnoted ..
      · split
        · exact (hnoted ..).trans (loadFault_loadsFor ..)
        · exact (hnoted ..).trans (fault_loadsFor ..)
        · exact hnoted ..

/-! ### The switch frame -/

/-- Partition `p` with a switch frame begun; its counts of held frames are `holds` and `thinRun`. -/
def switching (s : State) (p holds thinRun : Nat) : PartSt :=
  { part s p with kind := .switch_, holds := holds, thinRun := thinRun }

/-- From `s` to `t` partition `p` becomes `x`, and no other partition, no context and no fault changes. -/
structure PartBecomes (s t : State) (p : Nat) (x : PartSt) : Prop where
  self : part t p = x
  others : ∀ q, q ≠ p → part t q = part s q
  ctxs : t.rai.ctx = s.rai.ctx
  faults : t.rai.faults = s.rai.faults

theorem setPart_becomes (s : State) (p : Nat) (x : PartSt) : PartBecomes s (setPart s p x) p x :=
  ⟨part_setPart_self s p x, fun _ hq => part_setPart_of_ne s x hq, rfl, rfl⟩

theorem PartBecomes.trans {s t u : State} {p : Nat} {x y : PartSt} (h : PartBecomes s t p x) (g : PartBecomes t u p y) :
    PartBecomes s u p y :=
  ⟨g.self, fun q hq => (g.others q hq).trans (h.others q hq), g.ctxs.trans h.ctxs, g.faults.trans h.faults⟩

theorem PartBecomes.of_rai {s t u : State} {p : Nat} {x : PartSt} (h : PartBecomes s t p x) (hrai : u.rai = t.rai) :
    PartBecomes s u p x := by
  have hpart (q : Nat) : part u q = part t q := congrArg (tabGet PartSt.init q) (congrArg (·.part) hrai)
  exact ⟨(hpart p).trans h.self, fun q hq => (hpart q).trans (h.others q hq), (congrArg (·.ctx) hrai).trans h.ctxs,
    (congrArg (·.faults) hrai).trans h.faults⟩

theorem quiet_becomes (s : State) (p : Nat) (k : PeriodKind) :
    PartBecomes s (quiet s p k) p { part s p with kind := k, holds := 0, thinRun := 0 } :=
  (setPart_becomes s p _).of_rai (regSet_rai ..)

/-- A held frame sets the partition's kind and its counts of held frames. -/
theorem holdFrame_becomes (s : State) (p : Nat) (k : PeriodKind) (g : Nat) :
    PartBecomes s (holdFrame s p k g) p { part s p with
      kind := k
      holds := if bitsOf g 1 2 ≠ 0 then (part s p).holds + 1 else 0
      thinRun := if bitOf g 3 then (part s p).thinRun + 1 else 0 } := by
  refine (setPart_becomes s p _).of_rai ?_
  unfold holdFrame
  dsimp only
  split
  · rw [irq_rai, cntAdd_rai, rawAdd, regSet_rai, setGate, regSet_rai]
  · rw [rawAdd, regSet_rai, setGate, regSet_rai]

/-- The period of a switch frame begins: a thinning hold with it where the ledger orders one. -/
def switchBegun (s : State) (p : Nat) : State :=
  if (part s p).thin then holdFrame s p .switch_ 8 else quiet s p .switch_

theorem switchBegun_becomes (s : State) (p : Nat) :
    ∃ holds thinRun, PartBecomes s (switchBegun s p) p (switching s p holds thinRun) := by
  unfold switchBegun
  split
  · exact ⟨_, _, holdFrame_becomes s p .switch_ 8⟩
  · exact ⟨_, _, quiet_becomes s p .switch_⟩

/-- The partition's next context is known. -/
def switchNamed (s : State) (p c : Nat) : State :=
  setPart (switchBegun s p) p { part (switchBegun s p) p with switchTo := some c }

/-- The partition's clusters are clear. -/
def switchCleared (s : State) (p c : Nat) : State :=
  (partClusters (switchNamed s p c) p).foldl clearCluster (switchNamed s p c)

theorem switchFrame_eq (s : State) (p c : Nat) : switchFrame s p c =
    (ctxClusters (switchCleared s p c) c).foldl (fun t k => loadTables (loadEntry t c k false) c k
      (hFeature (ctxImg (switchCleared s p c) c).2 0) false) (switchCleared s p c) := rfl

/-- A switch frame clears the partition's clusters and loads those of its context. -/
theorem switchFrame_loads (s : State) (p c : Nat) : LoadsFor c (switchNamed s p c) (switchFrame s p c) := by
  have hcleared : LoadsFor c (switchNamed s p c) (switchCleared s p c) :=
    LoadsFor.foldl (f := clearCluster) (fun t k => .of_rai (clearCluster_rai t k)) _
  have hload (decode : Bool) (t : State) (k : Nat) :
      LoadsFor c t (loadTables (loadEntry t c k false) c k decode false) :=
    (loadEntry_loadsFor t c k false).trans (loadTables_loadsFor ..)
  rw [switchFrame_eq]
  exact hcleared.trans (LoadsFor.foldl (hload _) _)

/-- A switch frame of partition `p` to context `c`: where no fault waits, those that the loads raise are the
context's. -/
theorem switchFrame_switches (s : State) (p c : Nat) (hf : s.rai.faults = []) :
    let t := switchFrame s p c
    (∃ holds thinRun, part t p = { switching s p holds thinRun with switchTo := some c }) ∧
      (∀ q, q ≠ p → part t q = part s q) ∧ t.rai.ctx = s.rai.ctx ∧ ∀ f ∈ t.rai.faults, f.ctx = some c := by
  obtain ⟨holds, thinRun, hbegun⟩ := switchBegun_becomes s p
  have hnamed : PartBecomes s (switchNamed s p c) p { switching s p holds thinRun with switchTo := some c } := by
    rw [← hbegun.self]
    exact hbegun.trans (setPart_becomes ..)
  have hloads := switchFrame_loads s p c
  generalize switchFrame s p c = t at hloads ⊢
  have hpart (q : Nat) : part t q = part (switchNamed s p c) q := congrArg (tabGet PartSt.init q) hloads.parts
  refine ⟨⟨holds, thinRun, (hpart p).trans hnamed.self⟩, fun q hq => (hpart q).trans (hnamed.others q hq),
    hloads.ctxs.trans hnamed.ctxs, hloads.faults ?_⟩
  rw [hnamed.faults, hf]
  exact nofun

/-- A partition that runs another context begins a switch frame. -/
theorem serve_switches {s : State} {p c : Nat} (h : (part s p).run ≠ some c) : serve s p c = switchFrame s p c :=
  if_pos h

/-! ### The tick goes on -/

section
variable {s t : State} {p : Nat} (hothers : ∀ q, q ≠ p → part t q = part s q) (hctx : t.rai.ctx = s.rai.ctx)
  (hkind : (part t p).kind ≠ .contents)
  (hlive : ∀ q < 16, ∀ c, (part s q).kind = .contents → (part s q).run = some c → ctxLive s c = true)
include hothers hctx hkind hlive

/-- Where only partition `p` has changed, and begins no frame, none has lost its raising. -/
theorem faultedParts_after : faultedParts t = t := by
  refine faultedParts_live fun q hq c hk hr => ?_
  have hne : q ≠ p := fun h => hkind (h ▸ hk)
  rw [hothers q hne] at hk hr
  have hc : ctx t c = ctx s c := congrArg (tabGet Ctx.init c) hctx
  rw [ctxLive, raising, hc]
  exact hlive q hq c hk hr

end

theorem rotCount_le (s : State) (p : Nat) : rotCount s p ≤ 16 := Nat.min_le_left ..

section
variable {s : State} {p : Fin 16} {j : Nat}
  (hdone : (part s p.val).began = true ∧ (part s p.val).kind = .none ∧ entryOver s p.val = true)
  (hlive : ∀ q < 16, ∀ c, (part s q).kind = .contents → (part s q).run = some c → ctxLive s c = true)
  (hn : rotCount s p.val ≠ 0)
include hdone hlive hn

/-- The entry that is over passes; no fault is acted on, and no frame is lost. -/
theorem exec_rotationEntryEnd_takes {t : State} (ht : takeEntry (entryPassed s p.val) p.val = t)
    (hf : ∀ f ∈ t.rai.faults, switchFault t f = true) (hothers : ∀ q, q ≠ p.val → part t q = part s q)
    (hctx : t.rai.ctx = s.rai.ctx) (hkind : (part t p.val).kind ≠ .contents) :
    exec (.rotationEntryEnd p) s = .next t := by
  rw [exec_rotationEntryEnd_over hdone hn, ht, actTick_deferred hf, faultedParts_after hothers hctx hkind hlive]

end

theorem entryPassed_becomes (s : State) (p : Nat) (hn : rotCount s p ≠ 0) : PartBecomes s (entryPassed s p) p
    { part s p with began := false, entry := ((part s p).entry + 1) % rotCount s p } := by
  have hmax : max 1 (rotCount s p) = rotCount s p := by omega
  rw [entryPassed, hmax]
  exact setPart_becomes ..

theorem entryTaken_becomes (s : State) (p j : Nat) (hn : rotCount s p ≠ 0) :
    PartBecomes s (entryTaken (entryPassed s p) p j) p (partAtEntry (entryPassed s p) p j) :=
  (entryPassed_becomes s p hn).trans (setPart_becomes ..)

/-- The entry after the one that is over is the next, where it can run. -/
theorem nextEntry_passed {s : State} {p j : Nat} (hn : rotCount s p ≠ 0) (hj : j < rotCount s p)
    (hdue : j = ((part s p).entry + 1) % rotCount s p)
    (hruns : ((rotEntry s p j).2.2 || runnable s p (rotEntry s p j).2.1) = true) :
    nextEntry (entryPassed s p) p = some j := by
  refine nextEntry_due ?_ hj hruns
  rw [(entryPassed_becomes s p hn).self, hdue]

section
variable {s : State} {p : Fin 16} {j : Nat}
  (hdone : (part s p.val).began = true ∧ (part s p.val).kind = .none ∧ entryOver s p.val = true)
  (hfaults : s.rai.faults = [])
  (hlive : ∀ q < 16, ∀ c, (part s q).kind = .contents → (part s q).run = some c → ctxLive s c = true)
  (hn : rotCount s p.val ≠ 0)
include hdone hfaults hlive hn

/-- Where no entry can run, the partition runs nothing. -/
theorem exec_rotationEntryEnd_none (h : ∀ j < rotCount s p.val,
    (rotEntry s p.val j).2.2 = false ∧ runnable s p.val (rotEntry s p.val j).2.1 = false) :
    let t := quiet (entryPassed s p.val) p.val .none
    exec (.rotationEntryEnd p) s = .next t ∧ (part t p.val).kind = .none ∧ (part t p.val).began = false ∧
      t.clu = s.clu ∧ t.vlt = s.vlt ∧ ∀ q, q ≠ p.val → part t q = part s q := by
  intro t
  have hpassed := entryPassed_becomes s p.val hn
  have hquiet := hpassed.trans (quiet_becomes (entryPassed s p.val) p.val .none)
  have hself : part t p.val = _ := hquiet.self
  have hnext : nextEntry (entryPassed s p.val) p.val = none := nextEntry_none h
  obtain ⟨hclu, hvlt, -⟩ := quiet_frames (entryPassed s p.val) p.val .none
  refine ⟨exec_rotationEntryEnd_takes hdone hlive hn (takeEntry_skips hnext) ?_ hquiet.others hquiet.ctxs ?_, ?_, ?_,
    hclu, hvlt, hquiet.others⟩
  · rw [hquiet.faults, hfaults]
    exact nofun
  · rw [hself]
    exact nofun
  · rw [hself]
  · rw [hself, hpassed.self]

section
variable (hj : j < rotCount s p.val) (hdue : j = ((part s p.val).entry + 1) % rotCount s p.val)
include hj hdue

/-- An IDLE entry: the partition idles. -/
theorem exec_rotationEntryEnd_idle (hidle : (rotEntry s p.val j).2.2 = true) :
    let t := quiet (entryTaken (entryPassed s p.val) p.val j) p.val .idle
    exec (.rotationEntryEnd p) s = .next t ∧ (part t p.val).kind = .idle ∧ (part t p.val).entry = j ∧
      (part t p.val).done = 0 ∧ (part t p.val).began = true ∧ regsBut s t [pgTim0 + 0x108 + 0x10 * p.val] ∧
      t.clu = s.clu ∧ t.vlt = s.vlt ∧ ∀ q, q ≠ p.val → part t q = part s q := by
  intro t
  have htaken := entryTaken_becomes s p.val j hn
  have hquiet := htaken.trans (quiet_becomes (entryTaken (entryPassed s p.val) p.val j) p.val .idle)
  have hself : part t p.val = _ := hquiet.self
  have hnext := nextEntry_passed hn hj hdue (by rw [hidle, Bool.true_or])
  obtain ⟨hclu, hvlt, hregs⟩ := quiet_frames (entryTaken (entryPassed s p.val) p.val j) p.val .idle
  refine ⟨exec_rotationEntryEnd_takes hdone hlive hn (takeEntry_idle hnext hidle) ?_ hquiet.others hquiet.ctxs ?_,
    ?_, ?_, ?_, ?_, hregs, hclu, hvlt, hquiet.others⟩
  · rw [hquiet.faults, hfaults]
    exact nofun
  · rw [hself]
    exact nofun
  · rw [hself]
  all_goals rw [hself, htaken.self, partAtEntry]

/-- An entry of another context: the partition begins a switch frame to it, and the faults of its loads wait. -/
theorem exec_rotationEntryEnd_switches (hidle : (rotEntry s p.val j).2.2 = false)
    (hruns : runnable s p.val (rotEntry s p.val j).2.1 = true)
    (hother : (part s p.val).run ≠ some (rotEntry s p.val j).2.1) :
    ∃ t, exec (.rotationEntryEnd p) s = .next t ∧ (part t p.val).kind = .switch_ ∧ (part t p.val).entry = j ∧
      (part t p.val).switchTo = some (rotEntry s p.val j).2.1 ∧ (part t p.val).done = 0 ∧
      (part t p.val).began = true ∧ ∀ q, q ≠ p.val → part t q = part s q := by
  have htaken := entryTaken_becomes s p.val j hn
  have hrun : (part (entryTaken (entryPassed s p.val) p.val j) p.val).run = (part s p.val).run := by
    rw [htaken.self, partAtEntry, (entryPassed_becomes s p.val hn).self]
  have hnext := nextEntry_passed hn hj hdue (by rw [hruns, Bool.or_true])
  obtain ⟨⟨holds, thinRun, hself⟩, hothers, hctx, hwait⟩ :=
    switchFrame_switches (entryTaken (entryPassed s p.val) p.val j) p.val (rotEntry s p.val j).2.1
      (htaken.faults.trans hfaults)
  generalize hframe : switchFrame _ p.val (rotEntry s p.val j).2.1 = t at hself hothers hctx hwait
  have hkind : (part t p.val).kind = .switch_ := by rw [hself, switching]
  have hto : (part t p.val).switchTo = some (rotEntry s p.val j).2.1 := by rw [hself]
  have hothers' (q : Nat) (hq : q ≠ p.val) : part t q = part s q := (hothers q hq).trans (htaken.others q hq)
  have htakes : takeEntry (entryPassed s p.val) p.val = t :=
    (takeEntry_serves hnext hidle).trans ((serve_switches (by rw [hrun]; exact hother)).trans hframe)
  refine ⟨t, exec_rotationEntryEnd_takes hdone hlive hn htakes ?_ hothers' (hctx.trans htaken.ctxs) ?_, hkind, ?_, hto,
    ?_, ?_, hothers'⟩
  · intro f hf
    rw [switchFault, hwait f hf]
    exact List.any_eq_true.2 ⟨p.val, List.mem_range.2 p.isLt, by rw [hkind, hto]; simp⟩
  · rw [hkind]
    exact nofun
  all_goals rw [hself, switching, htaken.self, partAtEntry]

end

end

/-- Settles O23: the gate conditions by the fold over the partitions in use, the stall by the action on its one fault,
and a rotation entry that is over by the entry that follows it. -/
theorem conditionsStallsAndRotation : Obligations.ConditionsStallsAndRotation := by
  unfold Obligations.ConditionsStallsAndRotation
  refine ⟨fun s0 => ?decision, fun s p => ?stall, fun s p => ?rotation⟩
  case decision =>
    intro s
    obtain ⟨hstate, hothers, hlatched⟩ := foldl_decide1 (usedParts_nodup s) s
    refine ⟨_, rfl, hstate, fun p hp => ⟨fun hdie => ?unused, fun hdie => ?used⟩⟩
    case unused => exact hothers p fun h => (mem_usedParts.1 h).2 hdie
    case used =>
      have hpart := hlatched p (mem_usedParts.2 ⟨hp, hdie⟩)
      rw [← thinDue_eq s p]
      exact ⟨fun c hc hb => hpart.trans (gatesLatched_began hc hb), fun h => hpart.trans (gatesLatched_open h)⟩
  case stall =>
    intro due
    refine ⟨fun h => ?nothing, fun c hdue hrun hf => ?faults⟩
    case nothing => exact exec_stall_none h
    case faults =>
      have hends := stall_ends s p.val c
      rw [hf] at hends
      exact ⟨_, exec_stall_due hdue hrun hf, hends⟩
  case rotation =>
    intro st n done ends
    refine ⟨exec_rotationEntryEnd_not_over, fun j he hn hj hidle hdue => ?idle,
      fun j he hn hj hidle hdue hruns hother => ?switches, fun he h hn => ?none⟩
    case idle =>
      obtain ⟨hdone, hf, hlive⟩ := he
      exact ⟨_, exec_rotationEntryEnd_idle hdone hf hlive hn hj hdue hidle⟩
    case switches =>
      obtain ⟨hdone, hf, hlive⟩ := he
      exact exec_rotationEntryEnd_switches hdone hf hlive hn hj hdue hidle hruns hother
    case none =>
      obtain ⟨hdone, hf, hlive⟩ := he
      exact ⟨_, exec_rotationEntryEnd_none hdone hf hlive hn h⟩

end Sys2Proof.Proofs
end

section
/-! PROOF. Every step keeps the frame length legal (R66). No command but a tick and the writes of the time base's page
changes the time base of the package, so there is a lemma for every state function that a command runs, in the order of
the model's files: `time_f` says that `f` leaves the time base as it is. Few functions remain, and of those it is shown
that the frame length in force and the one that waits stay among 2^10 to 2^14 cycles. -/
namespace Sys2Proof.Proofs
open Sys2Proof Sys2Proof.Machine Sys2Proof.Safety Sys2Proof.Laws

/-! ## The time base left as it is -/

/-- `t` is in the same state of the time base as `s`. -/
def SameTime (s t : State) : Prop := t.time = s.time

theorem SameTime.foldl {α : Type} {f : State → α → State} (h : ∀ s a, SameTime s (f s a)) (l : List α) (s : State) :
    SameTime s (l.foldl f s) := by
  induction l generalizing s with
  | nil => exact rfl
  | cons a l ih => exact (ih _).trans (h s a)

theorem SameTime.of_fn_eq {α : Type} {f g : State → α → State} (h : f = g) {s : State} {a : α}
    (hg : SameTime s (g s a)) : SameTime s (f s a) := h ▸ hg

theorem SameTime.of_fn_eq₃ {α β γ : Type} {f g : State → α → β → γ → State} (h : f = g) {s : State} {a : α} {b : β}
    {c : γ} (hg : SameTime s (g s a b c)) : SameTime s (f s a b c) := h ▸ hg

theorem time_foldl {α : Type} {f : State → α → State} (h : ∀ s a, (f s a).time = s.time) (l : List α) (s : State) :
    (l.foldl f s).time = s.time := SameTime.foldl h l s

/-- A fold whose accumulator carries the state in front. -/
theorem time_foldl_fst {α β : Type} {f : State × β → α → State × β} (h : ∀ x a, (f x a).1.time = x.1.time) (l : List α)
    (x : State × β) : (l.foldl f x).1.time = x.1.time := by
  induction l generalizing x with
  | nil => rfl
  | cons a l ih => rw [List.foldl_cons, ih, h]

theorem time_getD {o : Option State} {s t : State} (h : ∀ u ∈ o, u.time = s.time) (ht : t.time = s.time) :
    (o.getD t).time = s.time := by
  cases o with
  | none => exact ht
  | some u => exact h u rfl

/-- Where the command goes on, the next state has the time base of the present one. -/
structure KeepsTime (s : State) (o : Host.Outcome State Fault Refusal) : Prop where
  next : ∀ t, o = .next t → t.time = s.time

theorem keepsTime_next {s t : State} : KeepsTime s (.next t) ↔ t.time = s.time :=
  ⟨fun h => h.next t rfl, fun h => ⟨fun _ hu => by cases hu; exact h⟩⟩

/-! ### Regs -/

theorem time_regSet (s : State) (k : Nat) (v : Word) : (regSet s k v).time = s.time := by
  simp only [regSet]

theorem time_regPut (s : State) (k lo w v : Nat) : (regPut s k lo w v).time = s.time := by
  simp only [regPut, time_regSet]

theorem time_regPairSet (s : State) (k v : Nat) : (regPairSet s k v).time = s.time := by
  simp only [regPairSet, time_regSet]

/-! ### Ops -/

theorem time_setCtx (s : State) (c : Nat) (x : Ctx) : (setCtx s c x).time = s.time := by
  simp only [setCtx]

theorem time_setPart (s : State) (p : Nat) (x : PartSt) : (setPart s p x).time = s.time := by
  simp only [setPart]

theorem time_setRaising (s : State) (c : Nat) (r : Raising) : (setRaising s c r).time = s.time := by
  simp only [setRaising, time_setCtx]

theorem time_setSeq (s : State) (c : Nat) (q : Seq) : (setSeq s c q).time = s.time := by
  simp only [setSeq]

theorem time_drawFree (s : State) (w : Nat) : (drawFree s w).2.time = s.time := by
  simp only [drawFree]

theorem time_emit (s : State) (o : Out) : (emit s o).time = s.time := by
  simp only [emit]

theorem time_cntAdd (s : State) (k n : Nat) : (cntAdd s k n).time = s.time := by
  simp only [cntAdd, apply_ite State.time, time_regSet, ite_self]

theorem time_rawAdd (s : State) (k n : Nat) : (rawAdd s k n).time = s.time := by
  simp only [rawAdd, time_regSet]

theorem time_cntMax (s : State) (k n : Nat) : (cntMax s k n).time = s.time := by
  simp only [cntMax, apply_ite State.time, time_regSet, ite_self]

theorem time_cntAdd64 (s : State) (k n : Nat) : (cntAdd64 s k n).time = s.time := by
  simp only [cntAdd64, apply_ite State.time, time_regPairSet, ite_self]

theorem time_countEv (s : State) (pg : Nat) (p : Option Nat) (k : EventKind) (n : Nat) :
    (countEv s pg p k n).time = s.time := by
  simp only [countEv, apply_ite State.time, ite_self]

theorem time_rollEvents (s : State) (n : Nat) : (rollEvents s n).time = s.time := by
  simp only [rollEvents]

theorem time_setVreg (s : State) (c r : Nat) (v : VecReg) : (setVreg s c r v).time = s.time := by
  simp only [setVreg]

theorem time_setSreg (s : State) (c r : Nat) (v : BitVec 64) : (setSreg s c r v).time = s.time := by
  simp only [setSreg]

theorem time_setPreg (s : State) (c r : Nat) (v : BitVec 256) : (setPreg s c r v).time = s.time := by
  simp only [setPreg, apply_ite State.time, ite_self]

theorem time_setXreg (s : State) (c r : Nat) (v : BitVec 64) : (setXreg s c r v).time = s.time := by
  simp only [setXreg]

theorem time_setTile (s : State) (c t : Nat) (v : BitVec 131072) : (setTile s c t v).time = s.time := by
  simp only [setTile]

theorem time_setRun (s : State) (c t : Nat) (r : Run) : (setRun s c t r).time = s.time := by
  simp only [setRun]

theorem time_setLc (s : State) (c k : Nat) (v : BitVec 16) : (setLc s c k v).time = s.time := by
  simp only [setLc]

theorem time_setPeg (s : State) (c g : Nat) (v : BitVec 32) : (setPeg s c g v).time = s.time := by
  simp only [setPeg]

theorem time_setPegCmp (s : State) (c g : Nat) (v : BitVec 32) : (setPegCmp s c g v).time = s.time := by
  simp only [setPegCmp]

theorem time_setStore (s : State) (c a n x : Nat) : (setStore s c a n x).time = s.time := by
  simp only [setStore]

theorem time_setWbuf (s : State) (c o n x : Nat) : (setWbuf s c o n x).time = s.time := by
  simp only [setWbuf]

theorem time_setBundle (s : State) (c h a : Nat) (v : BitVec 256) : (setBundle s c h a v).time = s.time := by
  simp only [setBundle]

theorem time_setTag (s : State) (c h : Nat) (t : BentTag) : (setTag s c h t).time = s.time := by
  simp only [setTag]

theorem time_entryGone (s : State) (c h : Nat) : (entryGone s c h).time = s.time := by
  simp only [entryGone, apply_ite State.time, time_setSeq, ite_self]

theorem time_freeBytes (s : State) (n : Nat) : (freeBytes s n).2.time = s.time := by
  simp only [freeBytes, time_drawFree]

theorem time_pauseClear (s : State) (k n : Nat) : (pauseClear s k n).time = s.time := by
  simp only [pauseClear]

/-! ### Flags -/

theorem time_orReg (s : State) (k m : Nat) : (orReg s k m).time = s.time := by
  simp only [orReg, time_regSet]

theorem time_clrReg (s : State) (k m : Nat) : (clrReg s k m).time = s.time := by
  simp only [clrReg, time_regSet]

theorem time_statSet (s : State) (pg b : Nat) : (statSet s pg b).time = s.time := by
  simp only [statSet, time_orReg]

theorem time_irq (s : State) (pg b : Nat) : (irq s pg b).time = s.time := by
  simp only [irq, time_orReg]

theorem time_capture (s : State) (pg code pos arg : Nat) : (capture s pg code pos arg).time = s.time := by
  simp only [capture, apply_ite State.time, time_orReg, time_regSet, ite_self]

theorem time_fault (s : State) (code pg pos arg : Nat) (c : Option Nat) :
    (fault s code pg pos arg c).time = s.time := by
  simp only [fault, time_capture]

theorem time_firstCapt (s : State) (k v : Nat) : (firstCapt s k v).time = s.time := by
  simp only [firstCapt, apply_ite State.time, time_orReg, time_regSet, ite_self]

theorem time_collCapt (s : State) (c v : Nat) : (collCapt s c v).time = s.time := by
  simp only [collCapt, apply_ite State.time, time_orReg, time_regSet, ite_self]

theorem time_lastCapt (s : State) (k v : Nat) : (lastCapt s k v).time = s.time := by
  simp only [lastCapt, time_regSet]

theorem time_captClear (s : State) (k : Nat) : (captClear s k).time = s.time := by
  simp only [captClear, time_clrReg]

theorem time_refusePower (s : State) (pg refuser cause : Nat) : (refusePower s pg refuser cause).time = s.time := by
  simp only [refusePower, time_rawAdd, time_regSet]

theorem time_countMasked (s : State) (n : Nat) : (countMasked s n).time = s.time := by
  simp only [countMasked, time_rawAdd]

/-! ### Vault -/

theorem time_storeLine (s : State) (v u dom data : Nat) (poison : Bool) :
    (storeLine s v u dom data poison).time = s.time := by
  simp only [storeLine]

theorem time_noteLine (s : State) (v u source : Nat) (k : Nat × Bool) : (noteLine s v u source k).time = s.time := by
  simp only [noteLine, apply_ite State.time, time_lastCapt, time_cntAdd, time_irq, ite_self]

theorem time_readLine (s : State) (v u dom source : Nat) : (readLine s v u dom source).2.2.time = s.time := by
  simp only [readLine, time_noteLine]

theorem time_setOpenRow (s : State) (v b : Nat) (r : Option Nat) : (setOpenRow s v b r).time = s.time := by
  simp only [setOpenRow]

theorem time_noteCmd (s : State) (v : Nat) (k : VCmdKind) (b t : Nat) : (noteCmd s v k b t).time = s.time := by
  simp only [noteCmd]

theorem time_vaultBreach (s : State) (v code b p : Nat) : (vaultBreach s v code b p).time = s.time := by
  simp only [vaultBreach, time_irq, time_firstCapt, time_fault]

theorem time_vaultActivate (s : State) (v b row t : Nat) : (vaultActivate s v b row t).time = s.time := by
  unfold vaultActivate
  split <;> simp only [apply_ite State.time, time_fault, time_vaultBreach, time_setOpenRow, time_countEv, time_noteCmd,
    ite_self]

theorem time_vaultPrecharge (s : State) (v b t : Nat) (implied : Bool) :
    (vaultPrecharge s v b t implied).time = s.time := by
  simp only [vaultPrecharge, apply_ite State.time, time_vaultBreach, time_setOpenRow, time_noteCmd, ite_self]

/-! ### Engine -/

theorem time_onServed (s : State) (pg : Nat) (f : State → State) (hf : ∀ s, (f s).time = s.time) :
    (onServed s pg f).time = s.time := by
  unfold onServed
  split
  · exact hf s
  · exact time_emit ..

theorem time_countPath (s : State) (src d o : Nat) : (countPath s src d o).time = s.time := by
  simp only [countPath, time_cntAdd, time_foldl, implies_true]

theorem time_countOn (s : State) (l : List Nat) (o : Nat) : (countOn s l o).time = s.time := by
  simp only [countOn, time_cntAdd, time_foldl, implies_true]

theorem time_countAccess (s : State) (l : List Nat) (ok : Bool) : (countAccess s l ok).time = s.time := by
  simp only [countAccess, apply_ite State.time, time_countOn, ite_self]

theorem time_baseCols (s : State) (v n : Nat) : (baseCols s v n).time = s.time := by
  simp only [baseCols, time_countEv]

theorem time_countCols (s : State) (v n : Nat) : (countCols s v n).time = s.time := by
  simp only [countCols, time_baseCols, time_cntAdd]

theorem time_putBytes (s : State) (v u dom n data : Nat) (poison : Bool) :
    (putBytes s v u dom n data poison).2.time = s.time := by
  simp only [putBytes]
  repeat' split
  all_goals simp only [time_countCols, time_storeLine, time_readLine]

theorem time_engineWrite (s : State) (src : Nat) (who : Requester) (a n data : Nat) :
    (engineWrite s src who a n data).2.time = s.time := by
  simp only [engineWrite]
  repeat' split
  all_goals simp only [time_countPath, time_putBytes]

theorem time_engineWrites (s : State) (src : Nat) (who : Requester) (a n x f : Nat) :
    (engineWrites s src who a n x f).2.time = s.time := by
  induction f generalizing s a n x with
  | zero => rfl
  | succ f ih =>
    unfold engineWrites
    split
    · rfl
    · exact (ih ..).trans (time_engineWrite ..)

theorem time_carveWrites (s : State) (src a n x : Nat) : (carveWrites s src a n x).time = s.time := by
  unfold carveWrites
  split
  · exact time_engineWrites ..
  · rfl

theorem time_carveLine (s : State) (src a : Nat) : (carveLine s src a).2.time = s.time := by
  simp only [carveLine]
  repeat' split
  all_goals simp only [time_countPath, time_readLine, time_countCols]

theorem time_carveRead (s : State) (src a n : Nat) : (carveRead s src a n).2.time = s.time := by
  induction n generalizing s a with
  | zero => rfl
  | succ n ih => exact (ih ..).trans (time_carveLine ..)

/-! ### Topology -/

theorem time_takeSlip (s : State) (x port pos : Nat) (c : Option Nat) : (takeSlip s x port pos c).time = s.time := by
  simp only [takeSlip, time_cntAdd, time_regPut, time_fault]

theorem time_noteDrift (s : State) (x port : Nat) : (noteDrift s x port).time = s.time := by
  simp only [noteDrift, apply_ite State.time, time_regSet, ite_self]

theorem time_placeXfer (s : State) (src dst port lane t : Nat) (v : Line) :
    (placeXfer s src dst port lane t v).1.time = s.time := by
  simp only [placeXfer]
  repeat' split
  all_goals rfl

/-! ### LinkOps -/

theorem time_setLink (s : State) (p : Nat) (k : Link) : (setLink s p k).time = s.time := by
  simp only [setLink]

theorem time_noteState (s : State) (pg : Nat) : (noteState s pg).time = s.time := by
  simp only [noteState]

theorem time_sendRaw (s : State) (p kind aux : Nat) (replay : Bool) (ext : BitVec 176) (body : List Byte)
    (stomped : Bool) : (sendRaw s p kind aux replay ext body stomped).time = s.time := by
  simp only [sendRaw, apply_ite State.time, time_cntAdd, time_setLink, time_emit, ite_self]

theorem time_sendFrame (s : State) (p kind aux : Nat) (replay : Bool) (ext : BitVec 176) (body : List Byte) :
    (sendFrame s p kind aux replay ext body).time = s.time := by
  simp only [sendFrame, time_sendRaw]

theorem time_sendIdle (s : State) (p n : Nat) : (sendIdle s p n).time = s.time := by
  simp only [sendIdle, time_sendFrame]

theorem time_sendSeq (s : State) (p kind : Nat) (ext : BitVec 176) (body : List Byte) (vc : Nat) :
    (sendSeq s p kind ext body vc).time = s.time := by
  simp only [sendSeq, apply_ite State.time, time_sendFrame, time_setLink, time_regPut, ite_self]

theorem time_oweCredit (s : State) (p vc : Nat) : (oweCredit s p vc).time = s.time := by
  simp only [oweCredit, time_setLink]

/-! ### CmdOps -/

theorem time_lseCount (s : State) (e o : Nat) : (lseCount s e o).time = s.time := by
  simp only [lseCount, time_cntAdd]

theorem time_enqueueCmd (s : State) (p : Nat) (f : CmdFrame) : (enqueueCmd s p f).time = s.time := by
  simp only [enqueueCmd, apply_ite State.time, time_lseCount, ite_self]

theorem time_floodOn (s : State) (f : CmdFrame) (but : Option Nat) : (floodOn s f but).time = s.time := by
  simp only [floodOn, apply_ite State.time, time_enqueueCmd, time_foldl, ite_self, implies_true]

theorem time_directOn (s : State) (e : Nat) (f : CmdFrame) : (directOn s e f).time = s.time := by
  unfold directOn
  split <;> simp only [time_enqueueCmd]

theorem time_noteSeen (s : State) (f : CmdFrame) : (noteSeen s f).time = s.time := by
  simp only [noteSeen]

theorem time_mkCmd (s : State) (dst : Option Nat) (code : Nat) (ack : Bool) (raiseId len body : Nat) :
    (mkCmd s dst code ack raiseId len body).2.time = s.time := by
  simp only [mkCmd]

theorem time_directCmd (s : State) (dst code : Nat) (ack : Bool) (raiseId len body : Nat) :
    (directCmd s dst code ack raiseId len body).time = s.time := by
  simp only [directCmd, apply_ite State.time, time_mkCmd, time_noteSeen, time_directOn, ite_self]

theorem time_epDeliver (s : State) (q hdr payload : Nat) : (epDeliver s q hdr payload).time = s.time := by
  simp only [epDeliver, apply_ite State.time, time_regPut, time_carveWrites, ite_self]

theorem time_deliverCmd (s : State) (f : CmdFrame) : (deliverCmd s f).time = s.time := by
  simp only [deliverCmd, time_epDeliver]

theorem time_floodActed (s : State) (code raiseId len body : Nat) :
    (floodActed s code raiseId len body).time = s.time := by
  simp only [floodActed, time_mkCmd, time_deliverCmd, time_floodOn, time_noteSeen]

/-! ### ClusterOps -/

theorem time_clearRegs (s : State) (c : Nat) : (clearRegs s c).time = s.time := by
  simp only [clearRegs]

theorem time_emptyTables (s : State) (c : Nat) : (emptyTables s c).time = s.time := by
  simp only [emptyTables, time_regSet, time_regPut]

theorem time_clearCluster (s : State) (c : Nat) : (clearCluster s c).time = s.time := by
  simp only [clearCluster, time_emptyTables, time_clearRegs]

theorem loadLines_succ_state (s : State) (x c u n : Nat) :
    (loadLines s x c u (n + 1)).2.2 = (loadLines (readLine s c u x 3).2.2 x c (u + 64) n).2.2 := rfl

theorem time_loadLines (s : State) (x c u n : Nat) : (loadLines s x c u n).2.2.time = s.time := by
  induction n generalizing s u with
  | zero => rfl
  | succ n ih => rw [loadLines_succ_state, ih, time_readLine]

theorem time_loadFault (s : State) (x c : Nat) (bad : Option (Nat × Nat)) : (loadFault s x c bad).time = s.time := by
  unfold loadFault
  split <;> simp only [time_fault]

theorem time_loadEntryOn (s : State) (x c : Nat) (prep : Bool) : (loadEntryOn s x c prep).time = s.time := by
  simp only [loadEntryOn, apply_ite State.time, time_setSeq, time_loadFault, time_setBundle, time_setTag, time_foldl,
    ite_self, implies_true]
  repeat' split
  all_goals simp only [time_loadLines]

theorem time_loadEntry (s : State) (x c : Nat) (prep : Bool) : (loadEntry s x c prep).time = s.time := by
  simp only [loadEntry, apply_ite State.time, time_loadEntryOn, time_setSeq, ite_self]

theorem time_loadTables (s : State) (x c : Nat) (decode prep : Bool) :
    (loadTables s x c decode prep).time = s.time := by
  unfold loadTables
  split
  · simp only [time_regSet, time_emptyTables]
  · split
    · simp only [time_regSet, time_emptyTables]
    · extract_lets pg u one
      have hone (acc : State × Option (Nat × Nat) × Option Nat × Option Nat × Nat) (n : Nat) :
          (one acc n).1.time = acc.1.time := by
        simp only [one, time_loadLines]
      have hfold := time_foldl_fst hone (List.range 32) (s, none, none, none, 0)
      generalize (List.range 32).foldl one (s, none, none, none, 0) = acc at hfold
      obtain ⟨t, line, mal, first, valid⟩ := acc
      simp only at hfold ⊢
      split
      · simp only [apply_ite State.time, time_irq, time_regSet, ite_self, hfold]
      · split <;> simp only [apply_ite State.time, time_loadFault, time_fault, time_irq, time_regSet, ite_self, hfold]

theorem time_selectBent (s : State) (x c : Nat) : (selectBent s x c).time = s.time := by
  simp only [selectBent, apply_ite State.time, time_setSeq, time_fault, ite_self]

theorem time_nullBent (s : State) (c : Nat) : (nullBent s c).time = s.time := by
  simp only [nullBent, time_setSeq]

/-! ### SessionOps -/

theorem time_entSet (s : State) (d e o n x : Nat) : (entSet s d e o n x).time = s.time := by
  simp only [entSet]

theorem time_setBound (s : State) (d e : Nat) (x : Option (Nat × Nat)) : (setBound s d e x).time = s.time := by
  simp only [setBound]

theorem time_readCol (s : State) (c v u : Nat) : (readCol s c v u).2.time = s.time := by
  unfold readCol
  dsimp only
  rw [time_readLine, time_readLine]

theorem time_writeCol (s : State) (c v u data : Nat) : (writeCol s c v u data).time = s.time := by
  simp only [writeCol, apply_ite State.time, time_baseCols, time_storeLine, ite_self]

theorem time_nextBank (s : State) (c v p c0 c1 o : Nat) : (nextBank s c v p c0 c1 o).2.2.time = s.time := by
  simp only [nextBank, time_readCol]

theorem time_setHostQ (s : State) (v : Nat) (l : List HostQ) : (setHostQ s v l).time = s.time := by
  simp only [setHostQ]

theorem time_queueJob (s : State) (v : Nat) (j : HostJob) : (queueJob s v j).time = s.time := by
  simp only [queueJob, time_setHostQ]

theorem time_clearLate (s : State) : (clearLate s).time = s.time := by
  simp only [clearLate]

theorem time_unbindCtx (s : State) (c : Nat) : (unbindCtx s c).time = s.time := by
  simp only [unbindCtx, time_entSet, time_setBound, time_foldl, implies_true]

/-! ### RaiseOps -/

theorem time_releaseRing (s : State) (c d e : Nat) : (releaseRing s c d e).time = s.time := by
  simp only [releaseRing]

theorem time_putSet (s : State) (e k : Nat) (t : SetSt) : (putSet s e k t).time = s.time := by
  simp only [putSet]

theorem time_cancelPmap (s : State) (p : Nat) : (cancelPmap s p).time = s.time := by
  unfold cancelPmap
  split <;> simp only [apply_ite State.time, time_regSet, ite_self]

theorem time_edgeEnd (s : State) (c : Nat) : (edgeEnd s c).time = s.time := by
  simp only [edgeEnd, time_releaseRing, time_foldl, implies_true]

theorem time_endRaising (s : State) (c : Nat) (st : RaiseState) : (endRaising s c st).time = s.time := by
  simp only [endRaising, apply_ite State.time, time_setRaising, time_unbindCtx, time_edgeEnd, time_regPut, time_setCtx,
    time_cancelPmap, time_foldl, ite_self, implies_true]

theorem time_sendTo (s : State) (dst code : Nat) (ack : Bool) (raiseId len body : Nat) :
    (sendTo s dst code ack raiseId len body).time = s.time := by
  simp only [sendTo, apply_ite State.time, time_mkCmd, time_deliverCmd, time_directCmd, ite_self]

theorem time_faultReport (s : State) (c cause cls : Nat) : (faultReport s c cause cls).time = s.time := by
  simp only [faultReport, time_sendTo]

theorem time_faultRaising (s : State) (c cause cls : Nat) : (faultRaising s c cause cls).time = s.time := by
  simp only [faultRaising, time_floodActed, time_faultReport, time_setCtx, time_irq, time_endRaising]

theorem time_pstStore (s : State) (i : Nat) (v : Word) : (pstStore s i v).time = s.time := by
  simp only [pstStore, apply_ite State.time, time_regSet, time_statSet, time_irq, ite_self]

/-! ### Certs -/

theorem time_certIssue (s : State) (issuer : BitVec 4096 × BitVec 4096)
    (issuerName subjectName subject ext : List Byte) :
    (certIssue s issuer issuerName subjectName subject ext).2.time = s.time := by
  simp only [certIssue, time_drawFree, time_freeBytes]

theorem time_aliasIssue (s : State) : (aliasIssue s).time = s.time := by
  simp only [aliasIssue, time_certIssue]

theorem time_ctxCertOf (s : State) (c : Nat) (nonce : List Byte) : (ctxCertOf s c nonce).2.time = s.time := by
  simp only [ctxCertOf, time_certIssue]

/-! ### Pipe -/

theorem time_pushEv (s : State) (e : Ev) : (pushEv s e).time = s.time := by
  simp only [pushEv]

theorem time_pushAt (s : State) (e : Ev) (stage : Nat) (a : Act) : (pushAt s e stage a).time = s.time := by
  simp only [pushAt, time_pushEv]

theorem time_storeLines (s : State) (c a n : Nat) (on : Nat → Bool) (x : Nat) :
    (storeLines s c a n on x).time = s.time := by
  simp only [storeLines, apply_ite State.time, time_setStore, time_foldl, ite_self, implies_true]

theorem time_storeCollisions (s : State) (now : List Ev) (t : Nat) : (storeCollisions s now t).time = s.time := by
  simp only [storeCollisions, time_fault, time_collCapt, time_foldl, implies_true]

theorem time_wbufCollisions (s : State) (now : List Ev) (t : Nat) : (wbufCollisions s now t).time = s.time := by
  simp only [wbufCollisions, time_fault, time_collCapt, time_foldl, implies_true]

theorem time_auditEvent (s : State) (c t kind slot : Nat) : (auditEvent s c t kind slot).time = s.time := by
  simp only [auditEvent, apply_ite State.time, time_irq, time_cntAdd, time_firstCapt, time_fault, ite_self]

theorem time_auditCycle (s : State) (now : List Ev) (t : Nat) : (auditCycle s now t).time = s.time := by
  simp only [auditCycle]
  refine time_foldl (fun s a => ?_) _ _
  repeat' split
  all_goals simp only [time_auditEvent]

theorem time_fillContrib (s : State) (c seq : Nat) (f : Contrib → Contrib) : (fillContrib s c seq f).time = s.time := by
  simp only [fillContrib]

theorem time_xbarCollision (s : State) (r port lane pos : Nat) (c : Option Nat) :
    (xbarCollision s r port lane pos c).time = s.time := by
  simp only [xbarCollision, time_irq, time_firstCapt, time_fault]

theorem time_regionOut (s : State) (c port lane t : Nat) (v : Line) : (regionOut s c port lane t v).time = s.time := by
  simp only [regionOut, apply_ite State.time, time_cntAdd, time_placeXfer, time_xbarCollision, time_countEv, ite_self]
  repeat' split
  all_goals simp only [time_cntAdd, time_placeXfer, time_xbarCollision, time_countEv]

theorem time_deliverCol (s : State) (e : Ev) (lines : BitVec 2) (dst : ColDest) (data : BitVec 1024) (bad : Bool) :
    (deliverCol s e lines dst data bad).time = s.time := by
  unfold deliverCol
  split <;> simp only [apply_ite State.time, time_pushAt, time_cntAdd, ite_self]

theorem time_planeCol (s : State) (e : Ev) (o : BitVec 15) (lines : BitVec 2) (data : BitVec 1024) :
    (planeCol s e o lines data).time = s.time := by
  simp only [planeCol, apply_ite State.time, time_pushAt, time_cntAdd64, time_cntAdd]
  repeat' split
  all_goals simp only [time_pushAt, time_cntAdd64, time_cntAdd, time_countEv, time_irq, time_firstCapt, time_fault]

theorem time_checkCol (s : State) (e : Ev) (u : Nat) (lines : BitVec 2) (k0 k1 : Nat × Bool) (dst : ColDest)
    (data : BitVec 1024) : (checkCol s e u lines k0 k1 dst data).time = s.time := by
  simp only [checkCol, apply_ite State.time, time_noteLine, time_fault, time_deliverCol, ite_self]

theorem time_vaultReadCol (s : State) (e : Ev) (bank : BitVec 5) (col : BitVec 4) (ap : Bool) (lines : BitVec 2)
    (dst : ColDest) : (vaultReadCol s e bank col ap lines dst).time = s.time := by
  simp only [vaultReadCol, apply_ite State.time, time_drawFree, time_vaultBreach, time_pushAt]
  repeat' split
  all_goals simp only [time_pushAt, time_countEv, time_noteCmd]

theorem time_vaultWriteCol (s : State) (e : Ev) (bank : BitVec 5) (col : BitVec 4) (ap : Bool) (lines : BitVec 2)
    (data : BitVec 1024) : (vaultWriteCol s e bank col ap lines data).time = s.time := by
  simp only [vaultWriteCol, apply_ite State.time, time_vaultBreach]
  repeat' split
  all_goals simp only [apply_ite State.time, time_countEv, time_noteCmd, time_pushAt, time_storeLine, time_foldl,
    ite_self, implies_true]

theorem time_readStore (s : State) (c a n : Nat) (bad : Bool) : (readStore s c a n bad).2.time = s.time := by
  unfold readStore
  split <;> simp only [time_drawFree]

theorem time_writeData (s : State) (n x : Nat) (bad : Bool) : (writeData s n x bad).2.time = s.time := by
  unfold writeData
  split <;> simp only [time_drawFree]

theorem time_pegApply (s : State) (c g t : Nat) (d : Int) : (pegApply s c g t d).time = s.time := by
  simp only [pegApply, apply_ite State.time, time_fault, time_setPeg, ite_self]

theorem time_takeInput (s : State) (x : Option Nat) (pos t dst port lane : Nat) :
    (takeInput s x pos t dst port lane).2.time = s.time := by
  simp only [takeInput]
  repeat' split
  all_goals simp only [time_noteDrift, time_takeSlip, time_drawFree]

theorem time_slotCollision (s : State) (x port pos : Nat) (lane : Bool) (c : Option Nat) :
    (slotCollision s x port pos lane c).time = s.time := by
  simp only [slotCollision, time_irq, time_firstCapt, time_fault]

theorem time_doAct (s : State) (e : Ev) (bad : Bool) (wbad : Bool) : (doAct s e bad wbad).time = s.time := by
  simp only [doAct, time_countEv, time_writeData]
  repeat' split
  all_goals simp only [apply_ite State.time, time_setVreg, time_setSreg, time_setPreg, time_setXreg, time_setLc,
    time_setSeq, time_fault, time_auditEvent, time_countEv, time_setPegCmp, time_entryGone, time_setTag, time_setRun,
    time_fillContrib, time_readStore, time_setTile, time_pushAt, time_writeData, time_storeLines, time_setWbuf,
    time_setStore, time_vaultActivate, time_vaultPrecharge, time_vaultReadCol, time_vaultWriteCol, time_checkCol,
    time_planeCol, time_setBundle, time_regionOut, time_takeInput, time_cntAdd, time_placeXfer, time_slotCollision,
    time_foldl, ite_self, implies_true]

theorem time_pegArrive (s : State) (g t : Nat) : (pegArrive s g t).time = s.time := by
  simp only [pegArrive, time_pushEv]

theorem time_lineCollisions (s : State) (now : List Ev) (t : Nat) : (lineCollisions s now t).time = s.time := by
  simp only [lineCollisions, time_slotCollision, time_foldl, implies_true]

theorem time_pegCycle (s : State) (now : List Ev) (t : Nat) : (pegCycle s now t).time = s.time := by
  simp only [pegCycle, time_pegApply, time_foldl, implies_true]

theorem time_countBanks (s : State) (now : List Ev) : (countBanks s now).time = s.time := by
  simp only [countBanks, time_countEv, time_foldl, implies_true]

theorem time_runPhase (ph : Nat) (now : List Ev) (s : State) : (runPhase ph now s).time = s.time := by
  simp only [runPhase, time_doAct, time_foldl, implies_true]

theorem time_runCycle (s : State) (t : Nat) : (runCycle s t).time = s.time := by
  simp only [runCycle, time_storeCollisions, time_wbufCollisions, time_lineCollisions, time_auditCycle, time_countBanks,
    time_runPhase, time_pegCycle]

theorem time_advanceN (n target : Nat) (s : State) : (advanceN n target s).time = s.time := by
  induction n generalizing s with
  | zero => rfl
  | succ n ih =>
    unfold advanceN
    split
    · rfl
    · exact (ih _).trans (time_runCycle ..)

theorem time_advance (s : State) (target : Nat) : (advance s target).time = s.time := by
  simp only [advance, time_advanceN]

theorem time_encodingFault (s : State) (c t slot : Nat) : (encodingFault s c t slot).time = s.time := by
  simp only [encodingFault, time_setSeq, time_pushEv]

theorem time_issueAt (s : State) (c t : Nat) (o : OpInfo) : (issueAt s c t o).time = s.time := by
  simp only [issueAt, apply_ite State.time, time_encodingFault, ite_self]

theorem time_issueOp (s : State) (i : Issue) (op : State → Nat → OpInfo) : (issueOp s i op).time = s.time := by
  simp only [issueOp, time_advance, time_issueAt]

/-! ### EdgeOps -/

theorem time_carry (s : State) (p : Nat) (u : PortUnit) (n : Nat) : (carry s p u n).time = s.time := by
  simp only [carry, apply_ite State.time, time_emit, ite_self]

theorem time_lateAdd (s : State) (p c : Nat) (x : Leashed) : (lateAdd s p c x).time = s.time := by
  simp only [lateAdd, apply_ite State.time, time_fault, time_cntMax, ite_self]

theorem time_divert (s : State) (p c : Nat) (x : Leashed) : (divert s p c x).time = s.time := by
  simp only [divert]
  repeat' split
  all_goals simp only [time_lateAdd]

theorem time_sendIn (s : State) (p : Nat) (u : PortUnit) (x : Leashed) : (sendIn s p u x).time = s.time := by
  simp only [sendIn, time_carry, time_sendSeq]

theorem time_sendLeashed (s : State) (p c : Nat) (u : PortUnit) (x : Leashed) :
    (sendLeashed s p c u x).time = s.time := by
  simp only [sendLeashed, apply_ite State.time, time_divert, time_sendIn, time_lateAdd, ite_self]

theorem time_noteReport (s : State) (p c b : Nat) : (noteReport s p c b).time = s.time := by
  simp only [noteReport]

theorem time_countLanding (s : State) (e c d n : Nat) (pegEn : Bool) (peg : BitVec 14) :
    (countLanding s e c d n pegEn peg).time = s.time := by
  simp only [countLanding, apply_ite State.time, ite_self]

/-! ### Leashed -/

theorem time_slotSend (s : State) (p : Nat) (short : Bool) (slot : BitVec 11) :
    (slotSend s p short slot).time = s.time := by
  simp only [slotSend, time_advance]
  repeat' split
  all_goals simp only [time_advance, time_sendLeashed]

theorem time_deferredSend (s : State) (p : Nat) : (deferredSend s p).time = s.time := by
  simp only [deferredSend]
  repeat' split
  all_goals simp only [time_lateAdd, time_divert]

theorem time_sendPlaced (s : State) (p kind d : Nat) (body : List Byte) :
    (sendPlaced s p kind d body).time = s.time := by
  simp only [sendPlaced]
  repeat' split
  all_goals simp only [time_sendFrame, time_carry]

theorem time_sendTrain (s : State) (p : Nat) (body : Nat) : (sendTrain s p body).time = s.time := by
  simp only [sendTrain, time_sendPlaced]

theorem time_sendCmds (p : Nat) (u : PortUnit) (l : List (CmdFrame × Nat)) (s : State) :
    (sendCmds p u l s).1.time = s.time := by
  induction l generalizing s with
  | nil => rfl
  | cons x l ih =>
    unfold sendCmds
    split
    · exact (ih _).trans ((time_carry ..).trans (time_sendFrame ..))
    · rfl

theorem time_resend (s : State) (p : Nat) (x : ReplayEnt) : (resend s p x).time = s.time := by
  simp only [resend, apply_ite State.time, time_sendFrame, time_setLink, time_cntAdd, ite_self]

theorem time_replayUnit (p : Nat) (u : PortUnit) (n : Nat) (s : State) : (replayUnit p u n s).time = s.time := by
  induction n generalizing s with
  | zero => rfl
  | succ n ih =>
    unfold replayUnit
    split
    · rfl
    · split
      · exact (ih _).trans ((time_carry ..).trans (time_resend ..))
      · rfl

theorem time_sendQueued (s : State) (p : Nat) (u : PortUnit) : (sendQueued s p u).time = s.time := by
  simp only [sendQueued, apply_ite State.time, time_sendCmds, ite_self]

theorem time_lateSend (s : State) (p : Nat) (u : PortUnit) : (lateSend s p u).time = s.time := by
  unfold lateSend
  split <;> simp only [apply_ite State.time, time_sendIn, time_cntAdd, ite_self]

theorem keepsTime_execLatePacketSend (u : UnitStart) (s : State) : KeepsTime s (execLatePacketSend u s) := by
  simp only [execLatePacketSend, keepsTime_next, time_lateSend, time_sendQueued, time_replayUnit]

theorem time_laneMove (s : State) (e : Nat) (pos : Nat) (x : BitVec 64) : (laneMove s e pos x).time = s.time := by
  simp only [laneMove]
  repeat' split
  all_goals simp only [time_advance, time_pushEv]

theorem keepsTime_execLaneTake (e : Fin 3) (pos : BitVec 14) (ent : BitVec 64) (s : State) :
    KeepsTime s (execLaneTake e pos ent s) := by
  simp only [execLaneTake, keepsTime_next, apply_ite State.time, time_laneMove, ite_self]

theorem keepsTime_execLaneDrive (e : Fin 3) (pos : BitVec 14) (ent : BitVec 64) (s : State) :
    KeepsTime s (execLaneDrive e pos ent s) := by
  simp only [execLaneDrive, keepsTime_next, apply_ite State.time, time_laneMove, ite_self]

theorem time_combineStep (s : State) (e c gi due : Nat) : (combineStep s e c gi due).time = s.time := by
  simp only [combineStep, time_countEv]
  repeat' split
  all_goals simp only [time_cntAdd, time_countLanding]

theorem time_setCheck (s : State) (e k : Nat) : (setCheck s e k).time = s.time := by
  simp only [setCheck, apply_ite State.time, time_putSet, time_regPut, time_irq, ite_self]

theorem time_setRelease (s : State) (e k : Nat) : (setRelease s e k).time = s.time := by
  unfold setRelease
  split <;> simp only [time_putSet]

theorem time_setCfgWrite (s : State) (e k : Nat) (w : Word) : (setCfgWrite s e k w).time = s.time := by
  simp only [setCfgWrite, apply_ite State.time, time_statSet, time_regSet, ite_self]

theorem time_areaWrite (s : State) (e o n : Nat) (w : Word) : (areaWrite s e o n w).time = s.time := by
  simp only [areaWrite, apply_ite State.time, time_statSet, time_regSet, ite_self]

theorem time_captRead (s : State) (k : Nat) : (captRead s k).time = s.time := by
  simp only [captRead, time_captClear, time_emit]

/-! ### TimeOps -/

theorem time_taiSet (s : State) (k : Nat) (v : BitVec 128) : (taiSet s k v).time = s.time := by
  simp only [taiSet, time_regSet]

theorem time_startCtrlWrite (s : State) (v : Word) : (startCtrlWrite s v).time = s.time := by
  simp only [startCtrlWrite, apply_ite State.time, time_clrReg, time_statSet, time_regPut, ite_self]

theorem time_triggerFire (s : State) : (triggerFire s).time = s.time := by
  simp only [triggerFire, apply_ite State.time, time_orReg, time_clrReg, ite_self]

theorem keepsTime_execPpsOutPulse (tp : Nat) (s : State) : KeepsTime s (execPpsOutPulse tp s) := by
  simp only [execPpsOutPulse, keepsTime_next, apply_ite State.time, time_emit, ite_self]

theorem time_refFollow (s : State) (b : Bool) : (refFollow s b).time = s.time := by
  simp only [refFollow, apply_ite State.time, time_regSet, time_clrReg, time_irq, time_rawAdd, time_orReg, time_regPut,
    ite_self]

theorem keepsTime_execRefInputValid (b : Bool) (s : State) : KeepsTime s (execRefInputValid b s) := by
  simp only [execRefInputValid, keepsTime_next, apply_ite State.time, time_orReg, time_refFollow, ite_self]

theorem keepsTime_execRefRevert (s : State) : KeepsTime s (execRefRevert s) := by
  simp only [execRefRevert, keepsTime_next, apply_ite State.time, time_refFollow, ite_self]

theorem keepsTime_execHoldoverExpired (s : State) : KeepsTime s (execHoldoverExpired s) := by
  simp only [execHoldoverExpired, keepsTime_next, apply_ite State.time, time_orReg, ite_self]

theorem time_refCtrlWrite (s : State) (v : Word) : (refCtrlWrite s v).time = s.time := by
  simp only [refCtrlWrite, apply_ite State.time, time_regPut, time_refFollow, ite_self]

theorem time_freeLag (s : State) : (freeLag s).2.time = s.time := by
  simp only [freeLag, time_drawFree]

/-! ### FaultOps -/

theorem time_logFault (s : State) (f : FaultRec) : (logFault s f).time = s.time := by
  simp only [logFault, apply_ite State.time, time_cntAdd, time_regSet, time_irq, time_regPut, ite_self]

theorem time_actOn (s : State) (l : List FaultRec) (c : Nat) : (actOn s l c).time = s.time := by
  simp only [actOn, apply_ite State.time, time_faultRaising, time_floodActed, time_faultReport, ite_self]
  repeat' split
  all_goals simp only [time_setRaising]

theorem time_actThese (s : State) (l wait : List FaultRec) : (actThese s l wait).time = s.time := by
  simp only [actThese, time_logFault, time_actOn, time_foldl, implies_true]

theorem time_actFaults (s : State) : (actFaults s).time = s.time := by
  simp only [actFaults, time_actThese]

theorem time_actTick (s : State) : (actTick s).time = s.time := by
  simp only [actTick, time_actThese]

theorem time_setInit (s : State) (v : Nat) (x : Option InitRun) : (setInit s v x).time = s.time := by
  simp only [setInit]

theorem time_abortMark (s : State) (a : AbortReq) : (abortMark s a).time = s.time := by
  simp only [abortMark, apply_ite State.time, time_setInit, time_setHostQ, time_foldl, ite_self, implies_true]

theorem time_abortWrite (s : State) (d job target : Nat) : (abortWrite s d job target).time = s.time := by
  simp only [abortWrite, apply_ite State.time, time_abortMark, time_irq, time_regPut, ite_self]

theorem time_abortJob (s : State) (a : AbortReq) : (abortJob s a).time = s.time := by
  simp only [abortJob, apply_ite State.time, time_setInit, time_setHostQ, time_setBound, time_entSet, time_foldl,
    ite_self, implies_true]

theorem time_resolveAbort (s : State) (a : AbortReq) : (resolveAbort s a).time = s.time := by
  simp only [resolveAbort, apply_ite State.time, time_abortJob, time_irq, time_regPut, ite_self]

theorem time_resolveAborts (s : State) : (resolveAborts s).time = s.time := by
  simp only [resolveAborts, time_resolveAbort, time_foldl, implies_true]

/-! ### Sessions -/

theorem time_commitWrite (s : State) (d : Nat) (w : BitVec 32) : (commitWrite s d w).time = s.time := by
  simp only [commitWrite, apply_ite State.time, time_regPut, time_irq]
  repeat' split
  all_goals simp only [time_regPut, time_setBound, time_entSet, time_queueJob]

theorem time_bucketWrite (s : State) (d : Nat) (w : BitVec 32) : (bucketWrite s d w).time = s.time := by
  simp only [bucketWrite, apply_ite State.time, time_regPut, time_irq]
  repeat' split
  all_goals simp only [time_regPut, time_queueJob]

theorem time_trailNote (s : State) (c : Nat) (rcd : Nat) : (trailNote s c rcd).time = s.time := by
  simp only [trailNote, apply_ite State.time, ite_self]

theorem time_noteLatched (s : State) (d job target : Nat) : (noteLatched s d job target).time = s.time := by
  simp only [noteLatched]

theorem time_noteDone (s : State) (d job target : Nat) : (noteDone s d job target).time = s.time := by
  simp only [noteDone, time_noteLatched, time_irq, time_cntAdd]

theorem time_completeCommit (s : State) (d e : Nat) (k : CommitKind) (reason : BitVec 8) :
    (completeCommit s d e k reason).time = s.time := by
  unfold completeCommit
  split <;> simp only [apply_ite State.time, time_trailNote, time_entSet, time_setBound, time_noteDone, time_regSet,
    ite_self]

theorem time_completeBucket (s : State) (d c : Nat) (b : BitVec 4) : (completeBucket s d c b).time = s.time := by
  simp only [completeBucket, time_noteDone, time_trailNote]

theorem keepsTime_execCommitComplete (v : Fin 1024) (s : State) : KeepsTime s (execCommitComplete v s) := by
  simp only [execCommitComplete, keepsTime_next]
  repeat' split
  all_goals simp only [time_setHostQ, time_completeCommit, time_completeBucket]

theorem time_entryWindowWrite (s : State) (d off n data : Nat) :
    ∀ t ∈ entryWindowWrite s d off n data, t.time = s.time := by
  intro t ht
  unfold entryWindowWrite at ht
  simp only [Option.mem_def, Option.ite_none_left_eq_some, Option.some.injEq] at ht
  obtain ⟨-, rfl⟩ := ht
  simp only [apply_ite State.time, time_foldl, time_entSet, time_statSet, ite_self, implies_true]

theorem keepsTime_execEntryWindowWrite (d : Fin 16) (off : BitVec 22) (size : AccSize) (data : BitVec 512) (s : State) :
    KeepsTime s (execEntryWindowWrite d off size data s) :=
  keepsTime_next.2 (time_getD (time_entryWindowWrite _ _ _ _ _) (time_emit ..))

/-! ### TrailOps -/

theorem time_trailWrite (s : State) (rcd : BitVec 8192) : (trailWrite s rcd).time = s.time := by
  simp only [trailWrite, apply_ite State.time, time_irq, time_cntAdd, time_orReg, time_carveWrites, time_regPut,
    ite_self]

theorem time_doneTick (s : State) : (doneTick s).time = s.time := by
  simp only [doneTick, time_entSet, time_foldl, implies_true]

theorem time_trailStep (s : State) (c : Nat) (n f : BitVec 64) : (trailStep s c n f).time = s.time := by
  simp only [trailStep, apply_ite State.time, time_trailWrite, time_foldl, ite_self, implies_true]

theorem time_trailStart (s : State) (c : Nat) : (trailStart s c).time = s.time := by
  simp only [trailStart, apply_ite State.time, time_trailWrite, ite_self]

theorem time_replayQueue (s : State) (c : Nat) (r : BitVec 8192) : (replayQueue s c r).time = s.time := by
  simp only [replayQueue]
  repeat' split
  all_goals simp only [time_orReg, time_queueJob]

theorem time_replayTake (s : State) : (replayTake s).time = s.time := by
  simp only [replayTake, time_cntAdd, time_regPut]

theorem time_replayFeed (n : Nat) (s : State) : (replayFeed n s).time = s.time := by
  induction n generalizing s with
  | zero => rfl
  | succ n ih =>
    simp only [replayFeed, apply_ite State.time, ih, time_replayTake, time_orReg, time_replayQueue, time_carveRead,
      ite_self]

theorem time_replayRun (s : State) : (replayRun s).time = s.time := by
  simp only [replayRun, apply_ite State.time, time_replayFeed, ite_self]

/-! ### FrameOps -/

theorem time_stepOn (s : State) (c : Nat) : (stepOn s c).time = s.time := by
  simp only [stepOn, apply_ite State.time, time_setRaising, ite_self]

theorem time_deferredEnd (s : State) (c p : Nat) : (deferredEnd s c p).time = s.time := by
  simp only [deferredEnd, apply_ite State.time, time_lateAdd, time_divert, time_foldl, ite_self, implies_true]

theorem time_frameEnd (s : State) (c : Nat) : (frameEnd s c).time = s.time := by
  simp only [frameEnd, time_deferredEnd, time_releaseRing, time_foldl, implies_true]

theorem time_periodEnd (s : State) (p : Nat) : (periodEnd s p).time = s.time := by
  simp only [periodEnd]
  repeat' split
  all_goals simp only [time_setPart, time_frameEnd]

theorem time_dropPartition (s : State) (p : Nat) : (dropPartition s p).time = s.time := by
  simp only [dropPartition]

theorem time_setGate (s : State) (p g : Nat) : (setGate s p g).time = s.time := by
  simp only [setGate, time_regSet]

theorem time_holdFrame (s : State) (p : Nat) (k : PeriodKind) (g : Nat) : (holdFrame s p k g).time = s.time := by
  simp only [holdFrame, apply_ite State.time, time_setPart, time_rawAdd, time_setGate, time_irq, time_cntAdd, ite_self]

theorem time_quiet (s : State) (p : Nat) (k : PeriodKind) : (quiet s p k).time = s.time := by
  simp only [quiet, time_setPart, time_setGate]

theorem time_switchFrame (s : State) (p c : Nat) : (switchFrame s p c).time = s.time := by
  simp only [switchFrame, apply_ite State.time, time_holdFrame, time_quiet, time_setPart, time_clearCluster,
    time_loadTables, time_loadEntry, time_foldl, ite_self, implies_true]

theorem time_braceFrame (s : State) (c : Nat) : (braceFrame s c).time = s.time := by
  simp only [braceFrame]
  refine time_foldl (fun s a => ?_) _ _
  repeat' split
  all_goals simp only [time_irq]

theorem time_pegFrame (s : State) (c : Nat) : (pegFrame s c).time = s.time := by
  simp only [pegFrame, time_pegArrive, time_foldl, implies_true]

theorem time_edgeFrame (s : State) (c : Nat) : (edgeFrame s c).time = s.time := by
  simp only [edgeFrame]
  refine time_foldl (fun s a => ?_) _ _
  repeat' split
  all_goals simp only [time_fault]

theorem time_frameBegun (s : State) (p c : Nat) : (frameBegun s p c).time = s.time := by
  simp only [frameBegun, apply_ite State.time, time_stepOn, time_setPart, time_setGate, time_trailStep, time_replayRun,
    time_pegFrame, time_braceFrame, time_edgeFrame, time_selectBent, time_nullBent, time_foldl, ite_self, implies_true]

theorem time_refault (s : State) (l : List FaultRec) : (refault s l).time = s.time := by
  simp only [refault, time_fault, time_foldl, implies_true]

theorem time_beginFrame (s : State) (p c : Nat) : (beginFrame s p c).time = s.time := by
  simp only [beginFrame, apply_ite State.time, time_frameBegun, time_holdFrame, time_refault, time_quiet, ite_self]

theorem time_serve (s : State) (p c : Nat) : (serve s p c).time = s.time := by
  simp only [serve, apply_ite State.time, time_switchFrame]
  repeat' split
  all_goals simp only [time_quiet, time_holdFrame, time_irq, time_beginFrame]

theorem time_takeEntry (s : State) (p : Nat) : (takeEntry s p).time = s.time := by
  unfold takeEntry
  split <;> simp only [apply_ite State.time, time_quiet, time_setPart, time_serve, ite_self]

theorem time_choose (s : State) (p : Nat) : (choose s p).time = s.time := by
  simp only [choose, apply_ite State.time, time_holdFrame, time_quiet, time_serve, ite_self]
  repeat' split
  all_goals simp only [time_quiet, time_serve, time_takeEntry]

/-! ### LooseOps -/

theorem time_stage (s : State) (x : Staged) : (stage s x).time = s.time := by
  simp only [stage, time_countEv]

theorem time_stageLoose (s : State) (e : Nat) (inPort : Option Nat) (r : LooseReq) :
    (stageLoose s e inPort r).time = s.time := by
  simp only [stageLoose, time_stage]

theorem time_unstage (s : State) (x : Staged) : (unstage s x).time = s.time := by
  unfold unstage
  split <;> simp only [time_oweCredit]

theorem time_looseArrive (s : State) (p t : Nat) (r : LooseReq) : (looseArrive s p t r).time = s.time := by
  simp only [looseArrive, apply_ite State.time, time_oweCredit, time_lseCount, time_stage, ite_self]

theorem time_dropLoose (s : State) (x : Staged) (count status : Nat) : (dropLoose s x count status).time = s.time := by
  simp only [dropLoose, apply_ite State.time, time_lseCount, time_unstage, time_stageLoose, ite_self]

theorem time_sendLoose (s : State) (x : Staged) (o : Nat) (u : PortUnit) (t how : Nat) :
    (sendLoose s x o u t how).time = s.time := by
  simp only [sendLoose, apply_ite State.time, time_dropLoose, time_setLink, time_carry, time_sendSeq, time_unstage,
    time_lseCount, time_cntMax, ite_self]

theorem time_sortStaged (s : State) (e : Nat) : (sortStaged s e).time = s.time := by
  simp only [sortStaged, time_dropLoose, time_foldl, implies_true]

theorem time_noteWaits (s : State) (p : Nat) (u : PortUnit) : (noteWaits s p u).time = s.time := by
  simp only [noteWaits, apply_ite State.time, time_cntAdd, ite_self]

theorem time_unitFrame (s : State) (p : Nat) (u : PortUnit) : ∀ t ∈ unitFrame s p u, t.time = s.time := by
  intro t ht
  unfold unitFrame at ht
  split at ht
  any_goals contradiction
  all_goals
    split at ht
    · contradiction
    · split at ht
      · cases ht
        exact time_lateSend ..
      · obtain ⟨x, -, rfl⟩ := Option.map_eq_some_iff.1 ht
        exact time_sendLoose ..

theorem time_fillUnit (p : Nat) (u : PortUnit) (n : Nat) (s : State) : (fillUnit p u n s).time = s.time := by
  induction n generalizing s with
  | zero => rfl
  | succ n ih =>
    unfold fillUnit
    split
    next t ht => exact (ih t).trans (time_unitFrame s p u t ht)
    next => rfl

theorem time_idleUnit (s : State) (p : Nat) (u : PortUnit) : (idleUnit s p u).time = s.time := by
  simp only [idleUnit, apply_ite State.time, time_carry, time_sendIdle, ite_self]

theorem time_serveUnit (s : State) (p : Nat) (u : PortUnit) : (serveUnit s p u).time = s.time := by
  simp only [serveUnit, apply_ite State.time, time_idleUnit, time_replayUnit, time_noteWaits, time_fillUnit,
    time_sendQueued, ite_self]

theorem keepsTime_execLooseForward (e : Fin 3) (units : List UnitStart) (s : State) :
    KeepsTime s (execLooseForward e units s) := by
  simp only [execLooseForward, keepsTime_next, time_serveUnit, time_sortStaged, time_foldl, implies_true]

theorem time_cutLoose (s : State) (p start n : Nat) (r : LooseReq) : (cutLoose s p start n r).time = s.time := by
  simp only [cutLoose, apply_ite State.time]
  repeat' split
  all_goals simp only [time_sendRaw, time_cntAdd, time_carry]

theorem time_routeHiWrite (s : State) (e : Nat) (w : Word) : (routeHiWrite s e w).time = s.time := by
  simp only [routeHiWrite, apply_ite State.time, time_regSet, time_statSet, ite_self]

theorem time_portDimWrite (s : State) (e k : Nat) (w : Word) : (portDimWrite s e k w).time = s.time := by
  simp only [portDimWrite, apply_ite State.time, time_regSet, time_statSet, ite_self]

theorem time_deflectMaskWrite (s : State) (e : Nat) (hi : Bool) (w : Word) :
    (deflectMaskWrite s e hi w).time = s.time := by
  simp only [deflectMaskWrite, apply_ite State.time, time_regSet, time_statSet, ite_self]

theorem keepsTime_execDrained (e : Fin 3) (s : State) : KeepsTime s (execDrained e s) := by
  simp only [execDrained, keepsTime_next, apply_ite State.time, time_irq, ite_self]

theorem keepsTime_execCmdRetry (seq : BitVec 32) (s : State) : KeepsTime s (execCmdRetry seq s) := by
  unfold execCmdRetry
  split <;> simp only [keepsTime_next, apply_ite State.time, time_directOn, time_irq, time_orReg, ite_self]

theorem time_cackTake (s : State) (f : CmdFrame) : (cackTake s f).time = s.time := by
  simp only [cackTake]

/-! ### LinkDown -/

theorem time_scheduleBrace (s : State) (c : Nat) (id : BitVec 16) (f : BitVec 64) :
    (scheduleBrace s c id f).time = s.time := by
  simp only [scheduleBrace]
  refine time_foldl (fun s a => ?_) _ _
  repeat' split
  all_goals rfl

theorem time_braceSearch (s : State) (p c : Nat) : (braceSearch s p c).time = s.time := by
  simp only [braceSearch]
  repeat' split
  all_goals simp only [time_fault, time_floodActed, time_scheduleBrace]

theorem time_takeBack (s : State) (p : Nat) (x : ReplayEnt) : (takeBack s p x).time = s.time := by
  simp only [takeBack, apply_ite State.time, time_stageLoose]
  repeat' split
  all_goals simp only [time_divert]

theorem time_holdOff (s : State) (p : Nat) : (holdOff s p).time = s.time := by
  simp only [holdOff, time_setLink]

theorem time_loseTo (s : State) (p : Nat) : (loseTo s p).time = s.time := by
  simp only [loseTo, time_foldl, implies_true]

theorem time_emptyPort (s : State) (p : Nat) (rbuf : List ReplayEnt) : (emptyPort s p rbuf).time = s.time := by
  simp only [emptyPort]
  refine (time_foldl (fun s a => ?_) _ _).trans ?_ <;> repeat' split
  all_goals simp only [time_takeBack, time_divert, time_foldl, implies_true]

theorem time_linkDown (s : State) (p code : Nat) (frames : Bool) : (linkDown s p code frames).time = s.time := by
  simp only [linkDown]
  repeat' split
  all_goals simp only [time_setLink, time_sendTrain, time_holdOff, time_irq, time_cntAdd, time_braceSearch, time_loseTo,
    time_emptyPort, time_foldl, implies_true]

/-! ### FrameRx -/

theorem time_stray (s : State) (p : Nat) : (stray s p).time = s.time := by
  simp only [stray, time_cntAdd]

theorem time_landRefused (s : State) (p c route : Nat) (window : Bool) :
    (landRefused s p c route window).time = s.time := by
  simp only [landRefused, time_irq, time_firstCapt, time_fault]

theorem time_landAt (s : State) (p c : Nat) (x : Leashed) (line : Nat) : (landAt s p c x line).time = s.time := by
  simp only [landAt, time_countEv]

theorem time_notLanded (s : State) (p c : Nat) (x : Leashed) (n : LandCase) : (notLanded s p c x n).time = s.time := by
  unfold notLanded
  split <;> simp only [time_cntAdd, time_landRefused]

theorem time_landPacket (s : State) (t : TableSet) (p c : Nat) (x : Leashed) (w : Nat) :
    (landPacket s t p c x w).time = s.time := by
  simp only [landPacket]
  repeat' split
  all_goals simp only [time_countLanding, time_landAt, time_notLanded]

theorem time_holdPacket (s : State) (t : TableSet) (p c : Nat) (x : Leashed) (w : Nat) :
    (holdPacket s t p c x w).time = s.time := by
  simp only [holdPacket, time_landAt]
  repeat' split
  all_goals simp only [time_notLanded]

theorem time_forwardPacket (s : State) (p c : Nat) (x : Leashed) (w start : Nat) (replay ok : Bool) :
    (forwardPacket s p c x w start replay ok).time = s.time := by
  simp only [forwardPacket, apply_ite State.time, time_sendIn, time_slotCollision, time_lateAdd, time_divert,
    time_sendRaw, time_cntAdd, time_carry, ite_self]

theorem time_srcReports (s : State) (c : Nat) (x : Leashed) : (srcReports s c x).time = s.time := by
  simp only [srcReports, apply_ite State.time, time_noteReport, time_foldl, ite_self, implies_true]

theorem time_leashedRx (s : State) (p : Nat) (x : Leashed) (start : Nat) (replay ok : Bool) :
    (leashedRx s p x start replay ok).time = s.time := by
  simp only [leashedRx, apply_ite State.time, time_stray, time_srcReports, ite_self]
  repeat' split
  all_goals simp only [time_stray, time_srcReports, time_forwardPacket, time_landPacket, time_holdPacket]

theorem time_countFailed (s : State) (p t : Nat) (f : RxView) : (countFailed s p t f).time = s.time := by
  unfold countFailed
  split <;> simp only [apply_ite State.time, time_cntAdd, time_irq, time_setLink, time_linkDown, ite_self]

theorem time_askReplay (s : State) (p t : Nat) : (askReplay s p t).time = s.time := by
  simp only [askReplay, apply_ite State.time, time_setLink, ite_self]

theorem time_notePassed (s : State) (p : Nat) (f : RxView) : (notePassed s p f).time = s.time := by
  simp only [notePassed]
  repeat' split
  all_goals simp only [time_setLink, time_noteReport]

theorem time_passOn (s : State) (p start : Nat) (f : RxView) (ok : Bool) : (passOn s p start f ok).time = s.time := by
  simp only [passOn, apply_ite State.time, time_looseArrive, time_cutLoose, time_leashedRx, ite_self]

theorem time_seqRx (s : State) (p start : Nat) (f : RxView) : (seqRx s p start f).time = s.time := by
  simp only [seqRx, apply_ite State.time, time_askReplay, time_passOn, time_setLink, time_cntAdd, ite_self]

theorem time_viewRx (s : State) (p start : Nat) (f : RxView) : (viewRx s p start f).time = s.time := by
  simp only [viewRx, apply_ite State.time, time_notePassed, time_countFailed, time_seqRx, time_askReplay, ite_self]

theorem time_frameRx (s : State) (p : Nat) (f : RxFrame) : (frameRx s p f).time = s.time := by
  simp only [frameRx, apply_ite State.time, time_cntAdd]
  repeat' split
  all_goals simp only [time_cntAdd, time_viewRx]

/-! ### Link -/

theorem time_enterPhy (s : State) (p : Nat) : (enterPhy s p).time = s.time := by
  simp only [enterPhy, apply_ite State.time, time_noteState, time_setLink, ite_self]

theorem time_portStart (s : State) (p : Nat) : (portStart s p).time = s.time := by
  simp only [portStart, apply_ite State.time, time_enterPhy, ite_self]

theorem time_openOff (s : State) (p : Nat) : (openOff s p).time = s.time := by
  simp only [openOff, apply_ite State.time, time_pauseClear, time_irq, time_regSet, ite_self]

theorem time_portOff (s : State) (p : Nat) : (portOff s p).time = s.time := by
  simp only [portOff, apply_ite State.time, time_linkDown, time_setLink, time_noteState, ite_self]

theorem time_portForced (s : State) (p : Nat) : (portForced s p).time = s.time := by
  simp only [portForced, apply_ite State.time, time_irq, time_cntAdd, time_setLink, time_noteState, time_linkDown,
    ite_self]

theorem time_portCfgWrite (s : State) (p : Nat) (w : Word) : (portCfgWrite s p w).time = s.time := by
  simp only [portCfgWrite, apply_ite State.time, time_statSet, time_regSet, time_openOff, time_portOff, time_portForced,
    time_portStart, ite_self]

theorem time_trainLane (s : State) (i : Nat) : (trainLane s i).time = s.time := by
  simp only [trainLane, apply_ite State.time, time_drawFree, time_pstStore, ite_self]

theorem time_trainLanes (s : State) (p : Nat) : (trainLanes s p).time = s.time := by
  simp only [trainLanes, time_trainLane, time_foldl, implies_true]

theorem keepsTime_execPhyAligned (p : Fin 48) (s : State) : KeepsTime s (execPhyAligned p s) := by
  simp only [execPhyAligned, keepsTime_next, apply_ite State.time, time_setLink, time_trainLanes, ite_self]

theorem keepsTime_execHelloSend (p : Fin 48) (s : State) : KeepsTime s (execHelloSend p s) := by
  simp only [execHelloSend, keepsTime_next, apply_ite State.time, time_sendTrain, ite_self]

theorem time_sendKey (s : State) (p msg : Nat) (m : List Byte) : (sendKey s p msg m).time = s.time := by
  simp only [sendKey, time_sendPlaced, time_foldl, implies_true]

theorem time_setKx (s : State) (p : Nat) (x : KeyEx) : (setKx s p x).time = s.time := by
  simp only [setKx, time_setLink]

theorem time_sendSecret (s : State) (p msg : Nat) : (sendSecret s p msg).time = s.time := by
  unfold sendSecret
  split <;> simp only [time_freeBytes, time_sendKey, time_setKx]

theorem time_sendFinish (s : State) (p msg : Nat) : (sendFinish s p msg).time = s.time := by
  unfold sendFinish
  split <;> simp only [time_freeBytes, time_sendKey, time_setKx]

theorem time_installKeys (s : State) (p : Nat) (phase : BitVec 2) (keys : BitVec 288 × BitVec 288) :
    (installKeys s p phase keys).time = s.time := by
  simp only [installKeys, time_setLink]

theorem time_enterKey (s : State) (p : Nat) : (enterKey s p).time = s.time := by
  simp only [enterKey, apply_ite State.time, time_sendKey, time_setLink, ite_self]

theorem time_helloTake (s : State) (p : Nat) (src : BitVec 48) (b : BitVec 112) :
    (helloTake s p src b).time = s.time := by
  simp only [helloTake]
  repeat' split
  all_goals simp only [time_regSet, time_setLink, time_linkDown, time_enterKey]

theorem keepsTime_execProbe (p : Fin 48) (b : BitVec 112) (hold : BitVec 32) (s : State) :
    KeepsTime s (execProbe p b hold s) := by
  unfold execProbe
  split <;> simp only [keepsTime_next, time_sendTrain]

theorem time_delayDone (s : State) (p : Nat) : (delayDone s p).time = s.time := by
  simp only [delayDone, apply_ite State.time, time_regSet, time_linkDown, time_setLink, ite_self]

theorem time_echoTake (s : State) (p : Nat) (b : BitVec 112) (tripPs : Nat) (agree : Bool) :
    (echoTake s p b tripPs agree).time = s.time := by
  simp only [echoTake, apply_ite State.time, time_setLink, time_delayDone, ite_self]

theorem keepsTime_execReadySend (p : Fin 48) (s : State) : KeepsTime s (execReadySend p s) := by
  simp only [execReadySend, keepsTime_next, apply_ite State.time, time_sendTrain, ite_self]

theorem keepsTime_execReady (p : Fin 48) (s : State) : KeepsTime s (execReady p s) := by
  simp only [execReady, keepsTime_next, apply_ite State.time, time_irq, time_setLink, ite_self]

theorem keepsTime_execDown (p : Fin 48) (b : BitVec 112) (s : State) : KeepsTime s (execDown p b s) := by
  unfold execDown
  split <;> simp only [keepsTime_next, time_linkDown]

theorem keepsTime_execTrainTimeout (p : Fin 48) (s : State) : KeepsTime s (execTrainTimeout p s) := by
  unfold execTrainTimeout
  split <;> simp only [keepsTime_next, time_linkDown]

theorem keepsTime_execPhyLockLoss (x : LockLoss) (s : State) : KeepsTime s (execPhyLockLoss x s) := by
  simp only [execPhyLockLoss, keepsTime_next, apply_ite State.time, time_linkDown, time_cntAdd, time_setLink, ite_self]

theorem keepsTime_execRetrain (p : Fin 48) (s : State) : KeepsTime s (execRetrain p s) := by
  simp only [execRetrain, keepsTime_next, apply_ite State.time, time_enterPhy, ite_self]

theorem time_ackTake (s : State) (p : Nat) (ack : BitVec 16) : (ackTake s p ack).time = s.time := by
  simp only [ackTake, apply_ite State.time, time_setLink, ite_self]

theorem keepsTime_execNakRx (p : Fin 48) (ack : BitVec 16) (s : State) : KeepsTime s (execNakRx p ack s) := by
  simp only [execNakRx, keepsTime_next, apply_ite State.time, time_ackTake, time_cntAdd, time_setLink, ite_self]

theorem time_replayAll (s : State) (p : Nat) : (replayAll s p).time = s.time := by
  unfold replayAll
  split
  · refine time_foldl (fun t u => ?_) _ s
    split
    · rfl
    · simp only [apply_ite State.time, time_replayUnit, ite_self]
  · rfl

theorem keepsTime_execReplayTimeout (p : Fin 48) (s : State) : KeepsTime s (execReplayTimeout p s) := by
  simp only [execReplayTimeout, keepsTime_next, apply_ite State.time, time_irq, time_cntAdd, time_linkDown,
    time_setLink, ite_self]

theorem keepsTime_execAckTimer (p : Fin 48) (s : State) : KeepsTime s (execAckTimer p s) := by
  simp only [execAckTimer, keepsTime_next, apply_ite State.time, time_setLink, ite_self]

theorem keepsTime_execCreditRx (p : Fin 48) (vc : BitVec 2) (count : BitVec 5) (s : State) :
    KeepsTime s (execCreditRx p vc count s) := by
  simp only [execCreditRx, keepsTime_next, apply_ite State.time, time_linkDown, time_setLink, ite_self]

theorem time_updateStart (s : State) (p : Nat) : (updateStart s p).time = s.time := by
  simp only [updateStart, time_sendSecret, time_setKx]

theorem keepsTime_execLinkRekey (p : Fin 48) (s : State) : KeepsTime s (execLinkRekey p s) := by
  simp only [execLinkRekey, keepsTime_next, apply_ite State.time, time_updateStart, ite_self]

theorem time_updateTake (s : State) (p : Nat) (secret fin : List Byte) : (updateTake s p secret fin).time = s.time := by
  unfold updateTake
  dsimp only
  split <;> simp only [apply_ite State.time, time_installKeys, time_linkDown, time_setKx, time_sendFinish,
    time_updateStart, ite_self]

theorem keepsTime_execKeyUpdate (m : KeyUpdateMsgs) (s : State) : KeepsTime s (execKeyUpdate m s) := by
  simp only [execKeyUpdate, keepsTime_next, apply_ite State.time, time_updateTake, ite_self]

theorem keepsTime_execKeyCerts (p : Fin 48) (m : List (BitVec 8)) (s : State) : KeepsTime s (execKeyCerts p m s) := by
  simp only [execKeyCerts, keepsTime_next, apply_ite State.time, time_linkDown, time_sendSecret, time_setKx, ite_self]

theorem keepsTime_execKeySecret (p : Fin 48) (m : List (BitVec 8)) (s : State) : KeepsTime s (execKeySecret p m s) := by
  simp only [execKeySecret, keepsTime_next, apply_ite State.time, time_sendFinish, time_setKx, ite_self]

theorem time_enterDelay (s : State) (p : Nat) (keys : BitVec 288 × BitVec 288) :
    (enterDelay s p keys).time = s.time := by
  simp only [enterDelay, time_installKeys, time_setLink, time_sendPlaced, time_foldl, implies_true]

theorem keepsTime_execKeyFinish (p : Fin 48) (m : List (BitVec 8)) (s : State) : KeepsTime s (execKeyFinish p m s) := by
  simp only [execKeyFinish, keepsTime_next, apply_ite State.time]
  repeat' split
  all_goals simp only [time_enterDelay, time_linkDown]

theorem time_keyResend (s : State) (p : Nat) : (keyResend s p).time = s.time := by
  simp only [keyResend, apply_ite State.time]
  repeat' split
  all_goals simp only [time_sendKey]

/-! ### Raise -/

theorem time_putR (s : State) (c : Nat) (su : Bool) (r : Raising) : (putR s c su r).time = s.time := by
  simp only [putR, apply_ite State.time, time_setCtx, time_setRaising, ite_self]

theorem time_rRefuse (s : State) : (rRefuse s).time = s.time := by
  simp only [rRefuse, time_statSet]

theorem time_rFail (s : State) (c code : Nat) : (rFail s c code).time = s.time := by
  simp only [rFail, time_irq, time_setCtx]

theorem keepsTime_execRaisingPreparation (c : Fin 256) (s : State) : KeepsTime s (execRaisingPreparation c s) := by
  have hload (decode : Bool) (t : State) (k : Nat) :
      SameTime t (loadTables (loadEntry (clearCluster t k) c.val k true) c.val k decode true) :=
    (time_loadTables ..).trans ((time_loadEntry ..).trans (time_clearCluster ..))
  delta execRaisingPreparation
  split
  · exact keepsTime_next.2 rfl
  · dsimp only
    split
    · exact keepsTime_next.2 rfl
    · rw [keepsTime_next, time_setPart]
      exact SameTime.foldl (hload _) _ s

theorem time_armAs (s : State) (c rid : Nat) (replay su : Bool) : (armAs s c rid replay su).time = s.time := by
  unfold armAs
  split <;> simp only [apply_ite State.time, time_rFail, time_setCtx, time_putR, time_replayRun, ite_self]

theorem time_rcmdArm (s : State) (c rid : Nat) (replay : Bool) : (rcmdArm s c rid replay).time = s.time := by
  unfold rcmdArm
  split <;> simp only [apply_ite State.time, time_armAs, time_rRefuse, ite_self]

theorem keepsTime_execRcmdArm (c : Fin 256) (raiseId : BitVec 16) (s : State) :
    KeepsTime s (execRcmdArm c raiseId s) := by
  simp only [execRcmdArm, keepsTime_next, time_rcmdArm, time_regSet]

theorem keepsTime_execArmReplay (c : Fin 256) (raiseId : BitVec 16) (s : State) :
    KeepsTime s (execArmReplay c raiseId s) := by
  simp only [execArmReplay, keepsTime_next, time_rcmdArm, time_regSet]

theorem time_rcmdStart (s : State) (c : Nat) : (rcmdStart s c).time = s.time := by
  simp only [rcmdStart, apply_ite State.time, time_rRefuse, time_orReg, time_setRaising, ite_self]

theorem time_promote (s : State) (c : Nat) : (promote s c).time = s.time := by
  unfold promote
  split <;> simp only [time_setCtx]

theorem time_commitAct (s : State) (c : Nat) (su : Bool) (digest : BitVec 256) (start : BitVec 64) :
    (commitAct s c su digest start).time = s.time := by
  simp only [commitAct, apply_ite State.time, time_putR, time_promote, ite_self]

theorem time_abortAct (s : State) (c : Nat) (su : Bool) (code : Nat) : (abortAct s c su code).time = s.time := by
  simp only [abortAct, apply_ite State.time, time_rFail, time_putR, time_cancelPmap, ite_self]

theorem time_commitRaise (s : State) (c : Nat) (su : Bool) : (commitRaise s c su).time = s.time := by
  simp only [commitRaise, apply_ite State.time, time_floodActed, time_commitAct, ite_self]

theorem time_abortRaise (s : State) (c : Nat) (su : Bool) (code member : Nat) :
    (abortRaise s c su code member).time = s.time := by
  simp only [abortRaise, apply_ite State.time, time_floodActed, time_abortAct, time_rFail, time_cancelPmap, ite_self]

theorem time_sendPhase (s : State) (r : Raising) : (sendPhase s r).time = s.time := by
  simp only [sendPhase, time_sendTo, time_foldl, implies_true]

theorem time_sendAck (s : State) (r : Raising) (dst code member count : Nat) :
    (sendAck s r dst code member count).time = s.time := by
  simp only [sendAck, time_sendTo]

theorem time_answerUp (s : State) (c : Nat) (su : Bool) (code member count : Nat) :
    (answerUp s c su code member count).time = s.time := by
  simp only [answerUp, apply_ite State.time, time_putR, time_sendAck, time_abortRaise, time_commitRaise, time_drawFree,
    ite_self]

theorem time_settle (s : State) (c : Nat) (su : Bool) : (settle s c su).time = s.time := by
  simp only [settle, apply_ite State.time, time_answerUp, ite_self]

theorem time_prepare (s : State) (c : Nat) (su : Bool) (m : Prep) : (prepare s c su m).time = s.time := by
  simp only [prepare, time_setCtx, time_settle, time_sendPhase, time_putR]

theorem time_phaseTake (s : State) (c : Nat) (su : Bool) (origin : Nat) (m : Prep) :
    (phaseTake s c su origin m).time = s.time := by
  simp only [phaseTake, apply_ite State.time, time_prepare, time_setCtx, time_sendAck, ite_self]

theorem time_phaseRoot (s : State) (c : Nat) (su : Bool) (old stop : Nat) :
    (phaseRoot s c su old stop).time = s.time := by
  simp only [phaseRoot, apply_ite State.time, time_rRefuse, time_prepare, time_abortRaise, ite_self]

theorem time_rcmdPrepare (s : State) (c : Nat) : (rcmdPrepare s c).time = s.time := by
  simp only [rcmdPrepare, time_phaseRoot]

theorem time_rcmdReRaise (s : State) (c : Nat) : (rcmdReRaise s c).time = s.time := by
  simp only [rcmdReRaise, time_phaseRoot]

theorem time_prepAckTake (s : State) (c : Nat) (su : Bool) (origin code member count : Nat) :
    (prepAckTake s c su origin code member count).time = s.time := by
  simp only [prepAckTake, apply_ite State.time]
  repeat' split
  all_goals simp only [time_answerUp, time_settle, time_putR]

theorem time_prepLate (s : State) (c : Nat) (su : Bool) : (prepLate s c su).time = s.time := by
  simp only [prepLate, apply_ite State.time]
  repeat' split
  all_goals simp only [time_answerUp]

theorem keepsTime_execPrepTimeout (c : Fin 256) (s : State) : KeepsTime s (execPrepTimeout c s) := by
  simp only [execPrepTimeout, keepsTime_next, time_prepLate]

theorem time_noCommit (s : State) (c : Nat) (su : Bool) : (noCommit s c su).time = s.time := by
  simp only [noCommit, apply_ite State.time, time_setCtx, time_putR, time_cancelPmap, time_sendTo, ite_self]

theorem keepsTime_execNoCommit (c : Fin 256) (s : State) : KeepsTime s (execNoCommit c s) := by
  simp only [execNoCommit, keepsTime_next, time_noCommit]

theorem time_stopAct (s : State) (c : Nat) (su : Bool) (f : BitVec 64) : (stopAct s c su f).time = s.time := by
  simp only [stopAct, apply_ite State.time, time_cancelPmap, time_setCtx, time_setRaising, ite_self]

theorem time_holdAct (s : State) (c : Nat) (f : BitVec 64) : (holdAct s c f).time = s.time := by
  simp only [holdAct, apply_ite State.time, time_setRaising, ite_self]

theorem time_resumeAct (s : State) (c : Nat) (t : BitVec 64) : (resumeAct s c t).time = s.time := by
  simp only [resumeAct, apply_ite State.time, time_setRaising, ite_self]

theorem time_floodOwn (s : State) (c code len body : Nat) : (floodOwn s c code len body).time = s.time := by
  simp only [floodOwn, apply_ite State.time, time_floodActed, ite_self]

theorem time_rcmdStop (s : State) (c : Nat) : (rcmdStop s c).time = s.time := by
  simp only [rcmdStop, apply_ite State.time, time_stopAct, time_floodOwn, time_rRefuse, ite_self]

theorem time_rcmdHold (s : State) (c : Nat) : (rcmdHold s c).time = s.time := by
  simp only [rcmdHold, apply_ite State.time, time_holdAct, time_floodOwn, time_rRefuse, ite_self]

theorem time_rcmdResume (s : State) (c : Nat) : (rcmdResume s c).time = s.time := by
  simp only [rcmdResume, apply_ite State.time, time_resumeAct, time_floodOwn, time_rRefuse, ite_self]

theorem time_rcmdDiscard (s : State) (c : Nat) : (rcmdDiscard s c).time = s.time := by
  simp only [rcmdDiscard]
  repeat' split
  all_goals simp only [time_setCtx, time_rRefuse]

theorem time_rcmdWrite (s : State) (w : Word) : (rcmdWrite s w).time = s.time := by
  unfold rcmdWrite
  split <;> simp only [time_rcmdArm, time_rcmdStart, time_rcmdPrepare, time_rcmdReRaise, time_rcmdStop, time_rcmdHold,
    time_rcmdResume, time_rcmdDiscard, time_rRefuse]

theorem time_nodeIdWrite (s : State) (w : Word) : (nodeIdWrite s w).time = s.time := by
  simp only [nodeIdWrite, apply_ite State.time, time_statSet, time_sendTrain, time_setLink, time_regSet, time_foldl,
    ite_self, implies_true]

theorem time_trlCfgWrite (s : State) (w : Word) : (trlCfgWrite s w).time = s.time := by
  simp only [trlCfgWrite, apply_ite State.time, time_statSet, time_replayRun, time_regPut, ite_self]

/-! ### KeyOps -/

theorem time_makeKeys (s : State) (d dom : Nat) : (makeKeys s d dom).time = s.time := by
  simp only [makeKeys]

theorem time_dropKeys (s : State) (d dom : Nat) : (dropKeys s d dom).time = s.time := by
  simp only [dropKeys]

theorem time_eraseStore (s : State) (d : Nat) : (eraseStore s d).time = s.time := by
  simp only [eraseStore]

theorem time_keysLost (s : State) (c d : Nat) : (keysLost s c d).time = s.time := by
  simp only [keysLost, apply_ite State.time, time_regPut, time_setCtx, time_fault, ite_self]

theorem time_dieKeysLost (s : State) (p d : Nat) : (dieKeysLost s p d).time = s.time := by
  simp only [dieKeysLost, time_keysLost, time_dropKeys, time_foldl, implies_true]

/-! ### RaiseCmd -/

theorem time_braceAct (s : State) (c : Nat) (su : Bool) (id : Nat) (f : BitVec 64) :
    (braceAct s c su id f).time = s.time := by
  simp only [braceAct, apply_ite State.time, time_setRaising, time_fault, time_scheduleBrace, ite_self]
  repeat' split
  all_goals simp only [time_setCtx]

theorem time_cmdEffect (s : State) (f : CmdFrame) (c : Nat) (su : Bool) : (cmdEffect s f c su).time = s.time := by
  unfold cmdEffect
  split <;> simp only [apply_ite State.time, time_stopAct, time_holdAct, time_resumeAct, time_phaseTake, time_braceAct,
    time_prepAckTake, time_commitAct, time_abortAct, ite_self]

theorem time_cmdAct (s : State) (f : CmdFrame) : (cmdAct s f).time = s.time := by
  simp only [cmdAct, apply_ite State.time, time_cackTake]
  repeat' split
  all_goals simp only [time_cmdEffect, time_deliverCmd]

theorem time_sendCack (s : State) (f : CmdFrame) : (sendCack s f).time = s.time := by
  simp only [sendCack, apply_ite State.time, time_directCmd, ite_self]

theorem time_commandRx (s : State) (p : Option Nat) (f : CmdFrame) : (commandRx s p f).time = s.time := by
  simp only [commandRx, apply_ite State.time, time_lseCount, time_noteSeen, time_cmdAct, time_floodOn, time_sendCack,
    time_directOn, ite_self]

/-! ### VaultHost -/

theorem keepsTime_execRefresh (v : Fin 1024) (s : State) : KeepsTime s (execRefresh v s) := by
  simp only [execRefresh, keepsTime_next, apply_ite State.time, time_advance, time_vaultBreach, time_setOpenRow,
    time_countEv, time_foldl, ite_self, implies_true]

theorem time_scrubLine (s : State) (v u : Nat) : (scrubLine s v u).time = s.time := by
  unfold scrubLine
  split <;> simp only [apply_ite State.time, time_noteLine, time_storeLine, ite_self]

theorem time_scrubLines (s : State) (v x i n : Nat) : (scrubLines s v x i n).time = s.time := by
  simp only [scrubLines, time_baseCols, time_countEv, time_scrubLine, time_foldl, implies_true]

theorem time_patrolOn (s : State) (v x : Nat) : (patrolOn s v x).time = s.time := by
  simp only [patrolOn, apply_ite State.time, time_regSet, time_irq, time_cntAdd, ite_self]

theorem time_patrolSegment (s : State) (v : Nat) : (patrolSegment s v).time = s.time := by
  simp only [patrolSegment, apply_ite State.time, time_scrubLines, time_patrolOn, ite_self]

theorem time_revisitSegment (s : State) (v x : Nat) : (revisitSegment s v x).time = s.time := by
  simp only [revisitSegment, apply_ite State.time, time_scrubLines, ite_self]

theorem time_scrubSegment (s : State) (v x : Nat) : (scrubSegment s v x).time = s.time := by
  simp only [scrubSegment, apply_ite State.time, time_revisitSegment, time_patrolSegment, ite_self]

theorem time_setScrubOpen (s : State) (v : Nat) (x : Option Nat) : (setScrubOpen s v x).time = s.time := by
  simp only [setScrubOpen]

theorem keepsTime_execScrub (v : Fin 1024) (s : State) : KeepsTime s (execScrub v s) := by
  simp only [execScrub, keepsTime_next]
  repeat' split
  all_goals simp only [time_setScrubOpen, time_scrubSegment]

theorem time_outCipher (s : State) (c v u a col : Nat) (k : BitVec 1024) :
    (outCipher s c v u a col k).2.time = s.time := by
  unfold outCipher
  dsimp only
  rw [time_readLine, time_readLine, time_countCols]

theorem time_maskedLine (s : State) (c v u : Nat) : (maskedLine s c v u).2.time = s.time := by
  unfold maskedLine
  split
  · exact time_outCipher ..
  · exact time_countMasked ..

theorem time_hostLine (s : State) (who : Requester) (v u dom : Nat) : (hostLine s who v u dom).2.time = s.time := by
  unfold hostLine
  split <;> simp only [time_maskedLine, time_readLine, time_countCols]

theorem time_engineLine (s : State) (src : Nat) (who : Requester) (a : Nat) :
    (engineLine s src who a).2.time = s.time := by
  simp only [engineLine]
  repeat' split
  all_goals simp only [time_countPath, time_hostLine]

theorem time_engineLines (s : State) (src : Nat) (who : Requester) (a n : Nat) :
    (engineLines s src who a n).2.time = s.time := by
  induction n generalizing s a with
  | zero => rfl
  | succ n ih => exact (ih ..).trans (time_engineLine ..)

theorem time_engineBytes (s : State) (src : Nat) (who : Requester) (a n : Nat) :
    (engineBytes s src who a n).2.time = s.time := by
  unfold engineBytes
  exact time_engineLines ..

theorem time_hostError (s : State) (d : Nat) (r : HostReq) : (hostError s d r).time = s.time := by
  simp only [hostError, time_emit, time_countPath]

theorem time_hostRead (s : State) (v u dom : Nat) (r : HostReq) : (hostRead s v u dom r).time = s.time := by
  simp only [hostRead]
  repeat' split
  all_goals simp only [time_hostLine, time_hostError, time_emit]

theorem time_hostWrite (s : State) (v u dom : Nat) (r : HostReq) : (hostWrite s v u dom r).time = s.time := by
  simp only [hostWrite, apply_ite State.time, time_hostError, time_putBytes, time_emit, ite_self]

theorem time_serveAccess (s : State) (v u : Nat) (r : HostReq) : (serveAccess s v u r).time = s.time := by
  unfold serveAccess
  split <;> simp only [apply_ite State.time, time_hostError, time_hostWrite, time_hostRead, ite_self]

theorem time_writeCommit (s : State) (v c p session seq : Nat) (release : Bool) (img col u : Nat) :
    (writeCommit s v c p session seq release img col u).time = s.time := by
  simp only [writeCommit, apply_ite State.time, time_writeCol, ite_self]

theorem time_jobWrite (s : State) (v u : Nat) (n : HostJob) : (jobWrite s v u n).1.time = s.time := by
  simp only [jobWrite]
  repeat' split
  all_goals simp only [time_serveAccess, time_nextBank, time_writeCommit, time_cntAdd, time_writeCol]

theorem time_initWrite (s : State) (v : Nat) (i : InitRun) : (initWrite s v i).time = s.time := by
  simp only [initWrite, time_baseCols, time_setInit, time_storeLine]

theorem time_serveBurst (v first last n : Nat) (x : Burst) (s : State) :
    (serveBurst v first last n x s).time = s.time := by
  induction n generalizing x s with
  | zero => rfl
  | succ n ih =>
    unfold serveBurst
    split
    · split
      · rw [ih, time_setHostQ]
      · split
        · rfl
        · rw [ih, time_setHostQ, time_jobWrite, time_countEv]
    · split
      · rfl
      · split
        · rfl
        · dsimp only
          split
          · rfl
          · rw [ih, time_initWrite, time_countEv]

theorem time_scrubGuard (s : State) (v periods : Nat) : (scrubGuard s v periods).time = s.time := by
  simp only [scrubGuard, time_setScrubOpen]

theorem keepsTime_execHostEngineGuard (v : Fin 1024) (periods : Nat) (hostOpen : Bool) (s : State) :
    KeepsTime s (execHostEngineGuard v periods hostOpen s) := by
  simp only [execHostEngineGuard, keepsTime_next, apply_ite State.time, time_scrubGuard, time_serveBurst, ite_self]

theorem time_ctxRowsWrite (s : State) (v c : Nat) (w : Word) : (ctxRowsWrite s v c w).time = s.time := by
  simp only [ctxRowsWrite, apply_ite State.time, time_regSet, time_statSet, ite_self]

theorem time_carveWrite (s : State) (v : Nat) (w : Word) : (carveWrite s v w).time = s.time := by
  simp only [carveWrite, apply_ite State.time, time_regSet, time_statSet, ite_self]

theorem time_imapWrite (s : State) (d : Nat) (w : Word) : (imapWrite s d w).time = s.time := by
  simp only [imapWrite, apply_ite State.time, time_regSet, time_statSet, ite_self]

theorem time_retireAdd (s : State) (v row bank : Nat) : (retireAdd s v row bank).1.time = s.time := by
  simp only [retireAdd]
  repeat' split
  all_goals simp only [time_regPut, time_regSet]

theorem time_retireWrite (s : State) (v : Nat) (w : Word) : (retireWrite s v w).time = s.time := by
  simp only [retireWrite, time_retireAdd, time_regPut]

theorem time_initCtrlWrite (s : State) (v : Nat) (w : Word) : (initCtrlWrite s v w).time = s.time := by
  simp only [initCtrlWrite, apply_ite State.time, time_statSet, time_regPut, time_setInit, ite_self]

theorem time_initRest (v n : Nat) (s : State) : (initRest v n s).time = s.time := by
  induction n generalizing s with
  | zero => rfl
  | succ n ih =>
    unfold initRest
    split
    · rfl
    · split
      · rfl
      · rw [ih, time_initWrite]

theorem keepsTime_execInitComplete (v : Fin 1024) (s : State) : KeepsTime s (execInitComplete v s) := by
  unfold execInitComplete
  split <;> simp only [keepsTime_next, apply_ite State.time, time_setInit, time_initRest, time_noteLatched, time_irq,
    ite_self]

/-! ### Open -/

theorem time_pfcSend (s : State) (i : OpenIf) (on : Bool) : (pfcSend s i on).time = s.time := by
  simp only [pfcSend, time_emit, time_cntAdd]

theorem keepsTime_execOpenIfUp (i : OpenIf) (s : State) : KeepsTime s (execOpenIfUp i s) := by
  simp only [execOpenIfUp, keepsTime_next, apply_ite State.time, time_drawFree, time_regSet, time_orReg, time_pfcSend,
    ite_self]

theorem time_ifDown (s : State) (i : OpenIf) : (ifDown s i).time = s.time := by
  simp only [ifDown, apply_ite State.time, time_pauseClear, time_irq, time_clrReg, ite_self]

theorem time_ifCfgWrite (s : State) (pg : Nat) (w : Word) : (ifCfgWrite s pg w).time = s.time := by
  simp only [ifCfgWrite, apply_ite State.time, time_statSet, time_regSet, ite_self]

theorem time_steerHiWrite (s : State) (b : Nat) (w : Word) : (steerHiWrite s b w).time = s.time := by
  simp only [steerHiWrite, apply_ite State.time, time_regSet, time_statSet, ite_self]

theorem time_openDrop (s : State) (pg o : Nat) : (openDrop s pg o).time = s.time := by
  simp only [openDrop, time_irq, time_cntAdd]

theorem time_sendPfc (s : State) (e : Nat) (on : Bool) : (sendPfc s e on).time = s.time := by
  simp only [sendPfc, time_pfcSend, time_foldl, implies_true]

theorem time_pfcCheck (s : State) (b : Nat) : (pfcCheck s b).time = s.time := by
  simp only [pfcCheck, apply_ite State.time, time_sendPfc, ite_self]

theorem time_pfcTake (s : State) (i : OpenIf) (f : EthFrame) : (pfcTake s i f).time = s.time := by
  simp only [pfcTake, apply_ite State.time, time_foldl, ite_self, implies_true]

theorem time_openRx (s : State) (i : OpenIf) (f : EthFrame) : (openRx s i f).time = s.time := by
  simp only [openRx, apply_ite State.time, time_irq, time_pfcTake, time_openDrop, time_pfcCheck, ite_self]

theorem keepsTime_execOpenRxDeliver (b : OpenBlk) (q : BitVec 6) (s : State) :
    KeepsTime s (execOpenRxDeliver b q s) := by
  simp only [execOpenRxDeliver, keepsTime_next]
  repeat' split
  all_goals simp only [time_pfcCheck, time_openDrop, time_carveWrites, time_regPut]

theorem time_txComplete (s : State) (b : Nat) (t : BitVec 128) (tag : Nat) : (txComplete s b t tag).time = s.time := by
  simp only [txComplete, time_regPut, time_carveWrites]

theorem time_txNext (s : State) (b q : Nat) : (txNext s b q).2.time = s.time := by
  simp only [txNext, time_engineBytes]

theorem time_txServed (s : State) (b q : Nat) : (txServed s b q).time = s.time := by
  simp only [txServed, apply_ite State.time, ite_self]

theorem time_openTx (s : State) (b q tp : Nat) : (openTx s b q tp).time = s.time := by
  apply SameTime.of_fn_eq₃
  · delta openTx
    rfl
  have hnext := time_txNext s b q
  generalize txNext s b q = d at hnext ⊢
  obtain ⟨line, u⟩ := d
  dsimp only at hnext ⊢
  have hdrop (t : State) (pg o n : Nat) : (regPut (openDrop t pg o) (txqKey b q + 12) 0 16 n).time = t.time :=
    (time_regPut ..).trans (time_openDrop ..)
  cases line with
  | none => exact (hdrop ..).trans hnext
  | some l =>
    dsimp only
    split
    · exact (hdrop ..).trans hnext
    · have hread := time_engineBytes u b .openPort (byteFld (bytesNat l) 0 6) (byteFld (bytesNat l) 6 2)
      generalize engineBytes u b .openPort (byteFld (bytesNat l) 0 6) (byteFld (bytesNat l) 6 2) = x at hread ⊢
      obtain ⟨frame, v⟩ := x
      dsimp only at hread ⊢
      have hv : v.time = s.time := hread.trans hnext
      cases frame with
      | none => exact (hdrop ..).trans hv
      | some fr =>
        have hsent (n : Nat) (o : Out) : (emit (txServed (regPut v (txqKey b q + 12) 0 16 n) b q) o).time = s.time :=
          (time_emit ..).trans ((time_txServed ..).trans ((time_regPut ..).trans hv))
        dsimp only
        split
        · exact (time_txComplete ..).trans (hsent ..)
        · exact hsent ..

theorem keepsTime_execOpenTx (b : OpenBlk) (q : BitVec 6) (tp : Nat) (s : State) :
    KeepsTime s (execOpenTx b q tp s) := by
  simp only [execOpenTx, keepsTime_next, apply_ite State.time, time_openTx, ite_self]

theorem keepsTime_execMgmtCommand (d : MgmtDatagram) (s : State) : KeepsTime s (execMgmtCommand d s) := by
  simp only [execMgmtCommand, keepsTime_next, apply_ite State.time, time_commandRx, time_openDrop, ite_self]

/-! ### Persist -/

theorem time_pstStoreN (s : State) (i n v : Nat) : (pstStoreN s i n v).time = s.time := by
  simp only [pstStoreN, time_pstStore, time_foldl, implies_true]

theorem time_pstWrite (s : State) (who : Requester) (i : Nat) (v : Word) : (pstWrite s who i v).time = s.time := by
  simp only [pstWrite, apply_ite State.time, time_irq, time_statSet, time_orReg, ite_self]

theorem time_pstDone (s : State) (inst : Nat) : (pstDone s inst).time = s.time := by
  unfold pstDone
  split <;> simp only [time_clrReg, time_pstStore]

theorem time_bankStore (s : State) (lo b : Nat) (v : Option (BitVec 512)) : (bankStore s lo b v).time = s.time := by
  simp only [bankStore, time_pstStore, time_pstStoreN]

theorem time_ownerStore (s : State) (v : Option (BitVec 512)) : (ownerStore s v).time = s.time := by
  simp only [ownerStore, time_bankStore]

theorem time_anchorStore (s : State) (v : Option (BitVec 512)) : (anchorStore s v).time = s.time := by
  simp only [anchorStore, time_bankStore]

theorem time_sealStore (s : State) (state kind : Nat) : (sealStore s state kind).time = s.time := by
  simp only [sealStore, time_pstStore]

/-! ### Trust -/

theorem time_secDone (s : State) (result : Nat) : (secDone s result).time = s.time := by
  simp only [secDone, time_irq, time_regPut]

theorem time_secRespond (s : State) (l : List Byte) : (secRespond s l).time = s.time := by
  unfold secRespond
  split
  · exact time_secDone ..
  · rw [time_secDone]
    exact time_engineWrites ..

theorem time_askReissue (s : State) : (askReissue s).time = s.time := by
  simp only [askReissue]

theorem keepsTime_execAliasReissue (s : State) : KeepsTime s (execAliasReissue s) := by
  simp only [execAliasReissue, keepsTime_next, apply_ite State.time, time_irq, time_aliasIssue, time_rawAdd, ite_self]

theorem keepsTime_execCertChain (s : State) : KeepsTime s (execCertChain s) := by
  simp only [execCertChain, keepsTime_next, apply_ite State.time, time_secDone, time_secRespond, ite_self]

theorem keepsTime_execCtxCert (c : Fin 256) (nonce : BitVec 256) (s : State) : KeepsTime s (execCtxCert c nonce s) := by
  simp only [execCtxCert, keepsTime_next, apply_ite State.time, time_secDone, time_ctxCertOf, time_secRespond, ite_self]

theorem time_ctxCreate (s : State) (c p : Nat) (conf : Bool) : (ctxCreate s c p conf).time = s.time := by
  simp only [ctxCreate, apply_ite State.time, time_secDone, time_makeKeys, time_drawFree, time_setCtx, time_foldl,
    ite_self, implies_true]

theorem time_dropCtxKeys (s : State) (c : Nat) : (dropCtxKeys s c).time = s.time := by
  simp only [dropCtxKeys]

theorem time_ctxDestroy (s : State) (c : Nat) : (ctxDestroy s c).time = s.time := by
  simp only [ctxDestroy, apply_ite State.time, time_secDone, time_setCtx, time_dropCtxKeys, ite_self]

theorem time_sessionOpen (s : State) (c : Nat) (nt : BitVec 256) (modulus : List Byte) :
    (sessionOpen s c nt modulus).time = s.time := by
  simp only [sessionOpen, apply_ite State.time, time_secDone, time_ctxCertOf, time_freeBytes, time_secRespond,
    time_setCtx, ite_self]

theorem time_sessionFinish (s : State) (c : Nat) (m : List Byte) : (sessionFinish s c m).time = s.time := by
  simp only [sessionFinish, apply_ite State.time, time_secDone]
  repeat' split
  all_goals simp only [time_secDone, time_freeBytes, time_secRespond, time_setCtx]

theorem time_sealedNext (s : State) (c : Nat) : (sealedNext s c).time = s.time := by
  simp only [sealedNext, time_setCtx]

theorem keepsTime_execIoKeys (c : Fin 256) (m : SealedMsg) (s : State) : KeepsTime s (execIoKeys c m s) := by
  simp only [execIoKeys, keepsTime_next, apply_ite State.time, time_secDone, time_sealedNext, time_setCtx, ite_self]

theorem keepsTime_execAccess (c : Fin 256) (m : SealedMsg) (s : State) : KeepsTime s (execAccess c m s) := by
  simp only [execAccess, keepsTime_next, apply_ite State.time, time_secDone, time_sealedNext, time_setCtx, ite_self]

theorem keepsTime_execHostSessionClose (c : Fin 256) (m : SealedMsg) (s : State) :
    KeepsTime s (execHostSessionClose c m s) := by
  simp only [execHostSessionClose, keepsTime_next, apply_ite State.time, time_secDone, time_setCtx, ite_self]

theorem keepsTime_execImportBegin (c : Fin 256) (hdr : List (BitVec 8)) (set : List (BitVec 8)) (s : State) :
    KeepsTime s (execImportBegin c hdr set s) := by
  unfold execImportBegin
  split <;> simp only [keepsTime_next, time_secDone, time_setCtx]

theorem time_importStop (s : State) (c : Nat) : (importStop s c).time = s.time := by
  simp only [importStop, time_setCtx]

theorem time_chunkWrite (s : State) (c v u n x : Nat) : (chunkWrite s c v u n x).time = s.time := by
  induction n generalizing s u x with
  | zero => rfl
  | succ n ih => rw [chunkWrite, ih, time_putBytes, time_countPath]

theorem time_importChunk (s : State) (c a : Nat) (x : Import) : (importChunk s c a x).1.time = s.time := by
  simp only [importChunk]
  repeat' split
  all_goals simp only [time_engineBytes, time_chunkWrite, time_setCtx]

theorem time_importChunks (c n a : Nat) (s : State) : (importChunks c n a s).time = s.time := by
  induction n generalizing a s with
  | zero => exact time_secDone ..
  | succ n ih =>
    unfold importChunks
    split
    · exact time_secDone ..
    · dsimp only
      split
      · rw [ih, time_importChunk]
      · rw [time_secDone, time_importStop, time_importChunk]

theorem keepsTime_execImportChunks (c : Fin 256) (addr : BitVec 48) (count : Nat) (s : State) :
    KeepsTime s (execImportChunks c addr count s) := by
  simp only [execImportChunks, keepsTime_next, apply_ite State.time, time_secDone, time_importChunks, ite_self]

theorem keepsTime_execImportEnd (e : ImportTail) (s : State) : KeepsTime s (execImportEnd e s) := by
  simp only [execImportEnd, keepsTime_next, apply_ite State.time, time_secDone]
  repeat' split
  all_goals simp only [time_secDone, time_importStop, time_setCtx]

theorem time_renewNonce (s : State) : (renewNonce s).time = s.time := by
  simp only [renewNonce, time_drawFree, time_regSet, time_foldl, implies_true]

theorem time_presenceCount (s : State) : (presenceCount s).time = s.time := by
  simp only [presenceCount, time_pstStore]

theorem time_ownerRun (s : State) (cmd : Nat) (who : Signer) (pres : Bool) (r : OwnerReq) (f : State → State × Nat)
    (hf : ∀ s, (f s).1.time = s.time) : (ownerRun s cmd who pres r f).time = s.time := by
  unfold ownerRun
  dsimp only
  split
  · rw [time_renewNonce, time_secDone]
  · simp only [time_renewNonce, time_secDone, apply_ite State.time, time_presenceCount, hf, ite_self]

theorem time_ownerEnrol (s : State) (r : OwnerReq) : (ownerEnrol s r).time = s.time := by
  simp only [ownerEnrol, time_ownerRun, time_askReissue, time_ownerStore, implies_true]

theorem time_ownerTransfer (s : State) (r : OwnerReq) : (ownerTransfer s r).time = s.time := by
  simp only [ownerTransfer, time_ownerRun, time_askReissue, time_ownerStore, implies_true]

theorem time_ownerRollback (s : State) (r : OwnerReq) : (ownerRollback s r).time = s.time :=
  time_ownerRun _ _ _ _ _ _ fun s => by
    dsimp only
    split
    · rfl
    · exact time_pstStore ..

theorem time_faultContexts (s : State) : (faultContexts s).time = s.time := by
  simp only [faultContexts, time_keysLost, time_dropCtxKeys, time_setCtx, time_foldl, implies_true]

theorem time_dropLinks (s : State) : (dropLinks s).time = s.time := by
  simp only [dropLinks, apply_ite State.time, time_linkDown, time_foldl, ite_self, implies_true]

theorem time_deriveKeys (s : State) : (deriveKeys s).time = s.time := by
  simp only [deriveKeys]

theorem time_identityRequest (s : State) : (identityRequest s).2.time = s.time := by
  simp only [identityRequest, time_freeBytes]

theorem time_identityDestroy (s : State) (r : OwnerReq) : (identityDestroy s r).time = s.time := by
  simp only [identityDestroy, apply_ite State.time, time_ownerRun, time_dropLinks, time_setCtx, time_faultRaising,
    time_drawFree, time_deriveKeys, time_identityRequest, time_askReissue, time_ownerStore, time_emit, time_foldl,
    ite_self, implies_true]

theorem time_sealArm (s : State) (r : OwnerReq) : (sealArm s r).time = s.time :=
  time_ownerRun _ _ _ _ _ _ fun s => by
    split
    · exact (time_askReissue _).trans (time_sealStore ..)
    · rfl

theorem time_sealDisarm (s : State) (r : OwnerReq) : (sealDisarm s r).time = s.time :=
  time_ownerRun _ _ _ _ _ _ fun s => by
    split
    · exact (time_askReissue _).trans (time_sealStore ..)
    · rfl

theorem time_sealClear (s : State) (r : OwnerReq) : (sealClear s r).time = s.time :=
  time_ownerRun _ _ _ _ _ _ fun s => by
    split
    · exact (time_askReissue _).trans (time_sealStore ..)
    · rfl

theorem time_mgmtKey (s : State) (r : OwnerReq) : (mgmtKey s r).time = s.time := by
  simp only [mgmtKey, time_ownerRun, implies_true]

theorem time_fabricAnchor (s : State) (r : OwnerReq) : (fabricAnchor s r).time = s.time := by
  simp only [fabricAnchor, time_ownerRun, time_anchorStore, implies_true]

theorem time_ownerCommand (s : State) (l : List Byte) : (ownerCommand s l).time = s.time := by
  simp only [ownerCommand, apply_ite State.time, time_renewNonce, time_secDone]
  repeat' split
  all_goals simp only [time_renewNonce, time_secDone, time_ownerEnrol, time_ownerTransfer, time_ownerRollback,
    time_identityDestroy, time_sealArm, time_sealDisarm, time_sealClear, time_mgmtKey, time_fabricAnchor]

theorem time_secAbort (s : State) : (secAbort s).time = s.time := by
  simp only [secAbort, apply_ite State.time, time_drawFree, time_regPut, ite_self]

theorem time_sealBreakAct (s : State) : (sealBreakAct s).time = s.time := by
  simp only [sealBreakAct, time_dropLinks, time_faultContexts, time_askReissue, time_irq, time_sealStore, time_secAbort]

theorem keepsTime_execSealBreak (ns : Nat) (s : State) : KeepsTime s (execSealBreak ns s) := by
  simp only [execSealBreak, keepsTime_next, apply_ite State.time, time_sealBreakAct, ite_self]

theorem keepsTime_execPresenceAsserted (ms : Nat) (s : State) : KeepsTime s (execPresenceAsserted ms s) := by
  simp only [execPresenceAsserted, keepsTime_next, apply_ite State.time, ite_self]

theorem keepsTime_execPresenceAbort (s : State) : KeepsTime s (execPresenceAbort s) := by
  simp only [execPresenceAbort, keepsTime_next]

theorem keepsTime_execDebugAttach (s : State) : KeepsTime s (execDebugAttach s) := by
  simp only [execDebugAttach, keepsTime_next]

theorem time_secCmdWrite (s : State) (w : Word) : (secCmdWrite s w).time = s.time := by
  simp only [secCmdWrite, apply_ite State.time]
  repeat' split
  all_goals simp only [time_secDone, time_secRespond, time_ctxCreate, time_ctxDestroy, time_engineBytes,
    time_ownerCommand, time_renewNonce]

/-! ### ResetOps -/

theorem time_linkStat (s : State) (d k v : Nat) : (linkStat s d k v).time = s.time := by
  simp only [linkStat, apply_ite State.time, time_irq, time_regPut, ite_self]

theorem time_hostStat (s : State) (d k : Nat) (up reset : Bool) : (hostStat s d k up reset).time = s.time := by
  simp only [hostStat, apply_ite State.time, time_irq, time_regSet, ite_self]

theorem time_linkEnd (s : State) (d k : Nat) : (linkEnd s d k).time = s.time := by
  simp only [linkEnd, apply_ite State.time, time_linkStat, ite_self]

theorem time_linkByXcal (s : State) (d n : Nat) : (linkByXcal s d n).time = s.time := by
  simp only [linkByXcal, apply_ite State.time, time_linkEnd, ite_self]

theorem time_calibrate (s : State) (r : XcalResult) : (calibrate s r).time = s.time := by
  simp only [calibrate, apply_ite State.time, time_regSet, time_linkByXcal, time_pstStore, ite_self]

theorem time_calibrateAll (s : State) (l : List (Nat × Nat)) (found : List XcalResult) :
    (calibrateAll s l found).time = s.time := by
  simp only [calibrateAll]
  refine time_foldl (fun s a => ?_) _ _
  repeat' split
  all_goals simp only [time_calibrate, time_drawFree]

theorem time_dieLinks (s : State) (d : Nat) (up : Bool) : (dieLinks s d up).time = s.time := by
  simp only [dieLinks, time_linkByXcal, time_hostStat, time_foldl, implies_true]

theorem time_retireLoad (s : State) (d : Nat) : (retireLoad s d).time = s.time := by
  simp only [retireLoad, apply_ite State.time, time_retireAdd, time_foldl, ite_self, implies_true]

theorem time_dropQueue (s : State) (v : Nat) : (dropQueue s v).time = s.time := by
  simp only [dropQueue]
  refine time_foldl (fun s a => ?_) _ _
  repeat' split
  all_goals simp only [time_hostError]

theorem time_dieWipe (s : State) (d : Nat) : (dieWipe s d).time = s.time := by
  simp only [dieWipe, time_dropQueue, time_clearCluster, time_noteState, time_foldl, implies_true]

theorem time_setPreset (s : State) (d v : Nat) : (setPreset s d v).time = s.time := by
  simp only [setPreset, time_regPut]

theorem time_enterPreset (s : State) (d : Nat) : (enterPreset s d).time = s.time := by
  unfold enterPreset
  split <;> simp only [apply_ite State.time, time_dieKeysLost, time_dieLinks, time_setPreset, time_dieWipe,
    time_eraseStore, time_regPut, time_askReissue, time_foldl, ite_self, implies_true]

theorem time_leavePreset (s : State) (d : Nat) (xcal : List XcalResult) : (leavePreset s d xcal).time = s.time := by
  simp only [leavePreset, time_calibrateAll, time_setPreset, time_makeKeys, time_askReissue, time_retireLoad,
    time_dieLinks]

theorem time_presetWrite (s : State) (w : Word) : (presetWrite s w).time = s.time := by
  unfold presetWrite
  split <;> simp only [apply_ite State.time, time_statSet, time_setPreset, ite_self]

theorem time_presetAbort (s : State) (d : Nat) : (presetAbort s d).time = s.time := by
  simp only [presetAbort, time_refusePower, time_regPut]

theorem keepsTime_execPartialResetEntry (d : Fin 16) (s : State) : KeepsTime s (execPartialResetEntry d s) := by
  simp only [execPartialResetEntry, keepsTime_next, apply_ite State.time, time_enterPreset, time_actFaults,
    time_presetAbort, ite_self]

theorem keepsTime_execPartialResetReturn (d : Fin 16) (xcal : List XcalResult) (s : State) :
    KeepsTime s (execPartialResetReturn d xcal s) := by
  simp only [execPartialResetReturn, keepsTime_next, apply_ite State.time, time_leavePreset, ite_self]

/-! ### Energy -/

theorem time_carryEnergy (s : State) (k x : Nat) : (carryEnergy s k x).2.time = s.time := by
  simp only [carryEnergy]

theorem time_addEnergy (s : State) (pg x : Nat) : (addEnergy s pg x).time = s.time := by
  simp only [addEnergy, time_carryEnergy, time_regPairSet]

theorem time_partLedger (s : State) (l : List Amount) (p : Nat) : (partLedger s l p).time = s.time := by
  simp only [partLedger, time_carryEnergy, time_regPut, time_setPart]

theorem time_windowAdd (s : State) (l : List Amount) : (windowAdd s l).time = s.time := by
  simp only [windowAdd]

theorem keepsTime_execLedgerUpdate (others : List EnergyEvents) (s : State) :
    KeepsTime s (execLedgerUpdate others s) := by
  simp only [execLedgerUpdate, keepsTime_next, time_windowAdd, time_addEnergy, time_carryEnergy, time_regPairSet,
    time_partLedger, time_foldl, implies_true]

theorem time_correction (s : State) (m : GroupMeas) : (correction s m).2.2.time = s.time := by
  simp only [correction, apply_ite State.time, time_drawFree, ite_self]

theorem keepsTime_execCorrectionUpdate (meas : List GroupMeas) (s : State) :
    KeepsTime s (execCorrectionUpdate meas s) := by
  simp only [execCorrectionUpdate, keepsTime_next, apply_ite State.time, time_correction, time_regSet, time_irq,
    time_statSet, time_foldl, ite_self, implies_true]

theorem keepsTime_execThinStuck (p : Fin 16) (s : State) : KeepsTime s (execThinStuck p s) := by
  simp only [execThinStuck, keepsTime_next, apply_ite State.time, time_irq, time_statSet, ite_self]

theorem time_coefWrite (s : State) (o : Nat) (w : Word) : (coefWrite s o w).time = s.time := by
  simp only [coefWrite, apply_ite State.time, time_statSet, time_regSet, ite_self]

/-! ### Power -/

theorem time_setPower (s : State) (b : PowerBlk) (v : Nat) : (setPower s b v).time = s.time := by
  simp only [setPower, apply_ite State.time, time_noteState, time_regPut, ite_self]

theorem time_setTarget (s : State) (b : PowerBlk) (v : Nat) : (setTarget s b v).time = s.time := by
  simp only [setTarget, apply_ite State.time, time_regPut, ite_self]

theorem time_setBusy (s : State) (b : PowerBlk) (v : Bool) : (setBusy s b v).time = s.time := by
  simp only [setBusy, time_regPut]

theorem time_setIso (s : State) (b : PowerBlk) (v : Bool) : (setIso s b v).time = s.time := by
  unfold setIso
  split <;> simp only [time_regPut]

theorem time_maskCluster (s : State) (b : PowerBlk) (on : Bool) : (maskCluster s b on).time = s.time := by
  unfold maskCluster
  split <;> simp only [time_regPut]

theorem time_powerBegin (s : State) (b : PowerBlk) (v : Nat) : (powerBegin s b v).time = s.time := by
  simp only [powerBegin, apply_ite State.time, time_setBusy, time_setTarget, time_maskCluster, ite_self]

theorem time_targetWrite (s : State) (b : PowerBlk) (v : Nat) : (targetWrite s b v).time = s.time := by
  simp only [targetWrite, apply_ite State.time, time_refusePower, time_powerBegin]
  repeat' split
  all_goals simp only [time_refusePower, time_powerBegin]

theorem time_refuseBare (s : State) (pg : Nat) : (refuseBare s pg).time = s.time := by
  simp only [refuseBare, apply_ite State.time, time_refusePower, time_regSet, time_rawAdd, ite_self]

theorem time_pstateWrite (s : State) (pg : Nat) (w : Word) : (pstateWrite s pg w).time = s.time := by
  unfold pstateWrite
  split <;> simp only [apply_ite State.time, time_targetWrite, time_refuseBare, ite_self]

theorem keepsTime_execPstateWrite (pg : PageId) (w : BitVec 32) (s : State) : KeepsTime s (execPstateWrite pg w s) := by
  unfold execPstateWrite
  split
  · exact keepsTime_next.2 (time_onServed _ _ _ fun _ => time_pstateWrite ..)
  · exact keepsTime_next.2 (time_emit ..)

theorem time_unitStateWrite (s : State) (c : Fin 1024) (w : Word) : (unitStateWrite s c w).time = s.time := by
  simp only [unitStateWrite, apply_ite State.time, time_refusePower, time_powerBegin, time_foldl, ite_self,
    implies_true]

theorem time_powerEnd (s : State) (b : PowerBlk) : (powerEnd s b).time = s.time := by
  simp only [powerEnd, time_setBusy]

theorem time_unitWipe (s : State) (b : PowerBlk) : (unitWipe s b).time = s.time := by
  unfold unitWipe
  split <;> simp only [time_emptyTables, time_clearCluster]

theorem time_recheck (s : State) (d n : Nat) : (recheck s d n).time = s.time := by
  simp only [recheck, apply_ite State.time, time_drawFree, time_linkByXcal, time_regPut, ite_self]

theorem time_powerTo (s : State) (b : PowerBlk) (v : Nat) : (powerTo s b v).time = s.time := by
  simp only [powerTo, apply_ite State.time, time_unitWipe, time_maskCluster, time_setPower, time_powerEnd, ite_self]

theorem keepsTime_execPowerEntryDone (b : PowerBlk) (s : State) : KeepsTime s (execPowerEntryDone b s) := by
  simp only [execPowerEntryDone, keepsTime_next]
  repeat' split
  all_goals simp only [time_powerTo, time_setIso, time_actFaults, time_enterPreset, time_leavePreset]

theorem keepsTime_execHostPending (d : Fin 16) (s : State) : KeepsTime s (execHostPending d s) := by
  simp only [execHostPending, keepsTime_next, time_setTarget, time_refusePower]
  repeat' split
  all_goals rfl

theorem time_isoWrite (s : State) (d : Nat) (w : Word) : (isoWrite s d w).time = s.time := by
  simp only [isoWrite, apply_ite State.time, time_setIso, time_foldl, ite_self, implies_true]

/-! ### Board -/

theorem time_setStage (s : State) (n : Nat) : (setStage s n).time = s.time := by
  simp only [setStage, time_regPut]

theorem time_sramPut (s : State) (a : Nat) (l : List Byte) : (sramPut s a l).time = s.time := by
  simp only [sramPut, apply_ite State.time, ite_self]

theorem time_extendMr (s : State) (i : Nat) (data : List Byte) : (extendMr s i data).time = s.time := by
  simp only [extendMr]

theorem time_noteSlot (s : State) (k n : Nat) : (noteSlot s k n).time = s.time := by
  simp only [noteSlot, apply_ite State.time, time_regPut, ite_self]

theorem time_bootStop (s : State) : (bootStop s).time = s.time := by
  simp only [bootStop, time_setStage]

theorem time_bootDies (s : State) (o : BootOutcome) : (bootDies s o).time = s.time := by
  simp only [bootDies, apply_ite State.time, time_regSet, time_setPreset, time_calibrateAll, time_retireLoad,
    time_dieLinks, time_hostStat, time_foldl, ite_self, implies_true]

theorem time_bootCarve (s : State) (v : Nat) : (bootCarve s v).time = s.time := by
  simp only [bootCarve, apply_ite State.time, time_setInit, time_initRest, ite_self]

theorem time_bootRecord (s : State) (cal : List Byte) : (bootRecord s cal).time = s.time := by
  simp only [bootRecord, time_regSet, time_foldl, implies_true]

theorem time_bootConfig (s : State) : (bootConfig s).time = s.time := by
  simp only [bootConfig, apply_ite State.time, time_nodeIdWrite, time_regSet, ite_self]

theorem time_raiseMinimum (s : State) (k : Nat) : (raiseMinimum s k).time = s.time := by
  simp only [raiseMinimum, apply_ite State.time, time_regPut, time_pstStore, ite_self]

theorem time_bootZenber (s : State) (n : Nat) : (bootZenber s n).time = s.time := by
  simp only [bootZenber, time_setStage, time_extendMr, time_noteSlot, time_raiseMinimum, time_renewNonce,
    time_aliasIssue, time_foldl, implies_true]

theorem time_bootFirmware (s : State) (o : BootOutcome) (cal : List Byte) : (bootFirmware s o cal).time = s.time := by
  unfold bootFirmware
  split
  · simp only [time_bootStop, time_regPut, time_bootDies, time_setStage]
  · dsimp only
    split <;> simp only [time_bootStop, time_bootZenber, time_engineWrites, time_bootConfig, time_bootRecord,
      time_foldl, time_bootCarve, time_bootDies, time_setStage, implies_true]

theorem time_bootSec (s : State) (o : BootOutcome) : (bootSec s o).time = s.time := by
  unfold bootSec
  extract_lets s1 s2
  have hs : s2.time = s.time := by
    simp only [s2, s1, apply_ite State.time, time_sealBreakAct, time_deriveKeys, time_setStage, ite_self]
  clear_value s2
  split
  · rw [time_bootStop, hs]
  · dsimp only
    split
    · simp only [time_bootFirmware, time_sramPut, time_extendMr, time_noteSlot, time_setStage, hs]
    · simp only [time_bootStop, time_extendMr, time_noteSlot, time_setStage, hs]

theorem keepsTime_execBoot (o : BootOutcome) (s : State) : KeepsTime s (execBoot o s) := by
  simp only [execBoot, keepsTime_next, apply_ite State.time, time_setStage, time_bootSec, ite_self]

theorem time_flashPut (s : State) (a : Nat) (l : List Byte) : (flashPut s a l).time = s.time := by
  simp only [flashPut]

theorem time_shepherdCheck (s : State) : (shepherdCheck s).2.time = s.time := by
  unfold shepherdCheck
  split <;> simp only [time_engineBytes]

theorem time_wdtRestart (s : State) : (wdtRestart s).time = s.time := by
  simp only [wdtRestart]

theorem time_wdtCfgWrite (s : State) (w : Word) : (wdtCfgWrite s w).time = s.time := by
  simp only [wdtCfgWrite, apply_ite State.time, time_wdtRestart, time_regSet, ite_self]

theorem keepsTime_execShepherdTimerCompare (core : Fin 32) (w : TimerWrite) (s : State) :
    KeepsTime s (execShepherdTimerCompare core w s) := by
  unfold execShepherdTimerCompare
  split <;> simp only [keepsTime_next, apply_ite State.time, ite_self]

theorem time_flashCmdWrite (s : State) (w : Word) : (flashCmdWrite s w).time = s.time := by
  simp only [flashCmdWrite, apply_ite State.time, time_regPut, ite_self]

theorem time_flashJob (s : State) (cmd a src n : Nat) : (flashJob s cmd a src n).2.2.2.time = s.time := by
  simp only [flashJob]
  repeat' split
  all_goals simp only [time_engineBytes]

theorem keepsTime_execFlashDone (ok : Bool) (s : State) : KeepsTime s (execFlashDone ok s) := by
  simp only [execFlashDone, keepsTime_next, apply_ite State.time, time_flashPut, time_freeBytes, ite_self]
  repeat' split
  all_goals simp only [time_flashJob, time_flashPut, time_irq, time_regPut]

theorem time_vrTake (rs : List VrReply) (s : State) (d : Nat) : (vrTake rs s d).time = s.time := by
  simp only [vrTake, apply_ite State.time, time_emit, time_regSet, time_irq, ite_self]

theorem time_vrRead (rs : List VrReply) (s : State) : (vrRead rs s).time = s.time := by
  simp only [vrRead, time_vrTake, time_foldl, implies_true]

theorem keepsTime_execVrPoll (rs : List VrReply) (s : State) : KeepsTime s (execVrPoll rs s) := by
  simp only [execVrPoll, keepsTime_next, apply_ite State.time, time_vrRead, ite_self]

theorem keepsTime_execVrAlert (rs : List VrReply) (s : State) : KeepsTime s (execVrAlert rs s) := by
  simp only [execVrAlert, keepsTime_next, time_vrRead, time_irq]

theorem time_tempSet (s : State) (t : TempReading) : (tempSet s t).time = s.time := by
  simp only [tempSet, apply_ite State.time, time_regSet, time_irq, ite_self]

theorem time_tripNow (s : State) (d : Nat) : (tripNow s d).time = s.time := by
  simp only [tripNow, apply_ite State.time, time_regPut, time_irq, ite_self]

theorem keepsTime_execTempUpdate (ts : List TempReading) (s : State) : KeepsTime s (execTempUpdate ts s) := by
  simp only [execTempUpdate, keepsTime_next, apply_ite State.time, time_tempSet, time_regPut, time_irq, time_foldl,
    ite_self, implies_true]
  repeat' split
  all_goals simp only [time_tempSet, time_tripNow, time_foldl, implies_true]

theorem time_tripCtx (s : State) (c : Nat) : (tripCtx s c).time = s.time := by
  simp only [tripCtx]
  repeat' split
  all_goals simp only [time_faultReport, time_endRaising, time_setCtx, time_abortAct, time_stopAct]

theorem keepsTime_execThermalTrip (s : State) : KeepsTime s (execThermalTrip s) := by
  simp only [execThermalTrip, keepsTime_next, apply_ite State.time, time_tripCtx, time_foldl, ite_self, implies_true]

/-! ### Operands -/

theorem time_vecOp (i : Issue) (u : VUnit) (o : VOp) (l : VLat) (enc : Bool) (srcs : List Dest)
    (f : State → Nat → VecReg) (s : State) : (vecOp i u o l enc srcs f s).time = s.time := by
  simp only [vecOp, time_issueOp]

theorem time_vUnary (i : Issue) (u : VUnit) (o : VOp) (l : VLat) (f : Nat → Nat → Nat) (s : State) :
    (vUnary i u o l f s).time = s.time := by
  simp only [vUnary, time_vecOp]

theorem time_vBinary (i : Issue) (u : VUnit) (o : VOp) (l : VLat) (scalar : Bool) (f : Nat → Nat → Nat → Nat)
    (s : State) : (vBinary i u o l scalar f s).time = s.time := by
  simp only [vBinary, time_vecOp]

theorem time_vTernary (i : Issue) (u : VUnit) (o : VOp) (l : VLat) (scalar : Bool) (f : Nat → Nat → Nat → Nat → Nat)
    (s : State) : (vTernary i u o l scalar f s).time = s.time := by
  simp only [vTernary, time_vecOp]

theorem time_vCompare (i : Issue) (u : VUnit) (o : VOp) (l : VLat) (f : Nat → Nat → Nat → Bool) (s : State) :
    (vCompare i u o l f s).time = s.time := by
  simp only [vCompare, time_issueOp]

theorem time_vScalarOut (i : Issue) (u : VUnit) (o : VOp) (l : VLat) (enc : Bool) (srcs : List Dest)
    (f : State → Nat → BitVec 256 → Nat → Act) (s : State) : (vScalarOut i u o l enc srcs f s).time = s.time := by
  simp only [vScalarOut, time_issueOp]

/-! ### Control -/

theorem time_cScalar (i : Issue) (sd : BitVec 5) (srcs : List Dest) (f : State → Nat → BitVec 64) (s : State) :
    (cScalar i sd srcs f s).time = s.time := by
  simp only [cScalar, time_issueOp]

theorem time_cBinary (i : Issue) (sd sa sb : BitVec 5) (f : BitVec 64 → BitVec 64 → BitVec 64) (s : State) :
    (cBinary i sd sa sb f s).time = s.time := by
  simp only [cBinary, time_cScalar]

theorem keepsTime_execBentEnd (i : Issue) (s : State) : KeepsTime s (execBentEnd i s) := by
  simp only [execBentEnd, keepsTime_next, apply_ite State.time, time_advance, time_setSeq, ite_self]

/-! ### Tick -/

theorem time_frameMark (s : State) : (frameMark s).time = s.time := by
  simp only [frameMark, apply_ite State.time, time_emit, ite_self]

theorem time_refMeasure (s : State) : (refMeasure s).time = s.time := by
  simp only [refMeasure, apply_ite State.time, time_drawFree, time_regSet, time_foldl, ite_self, implies_true]

theorem time_periodClear (s : State) : (periodClear s).time = s.time := by
  simp only [periodClear, time_clearLate]

theorem time_dropEdges (s : State) (missed : List Nat) : (dropEdges s missed).time = s.time := by
  simp only [dropEdges]

theorem time_haltTick (s : State) (p : Nat) : (haltTick s p).time = s.time := by
  simp only [haltTick]
  repeat' split
  all_goals simp only [time_setPart, time_regPut, time_foldl, implies_true]

theorem time_pmapTick (s : State) : (pmapTick s).time = s.time := by
  unfold pmapTick
  split <;> rfl

theorem time_missTick (s : State) (p : Nat) : (missTick s p).time = s.time := by
  simp only [missTick, time_setPart, time_holdFrame]

theorem time_partIdle (s : State) (p : Nat) : (partIdle s p).time = s.time := by
  simp only [partIdle, time_setPart]

theorem time_partTick (s : State) (missed : List Nat) (p : Nat) : (partTick s missed p).time = s.time := by
  simp only [partTick, apply_ite State.time, time_haltTick, time_missTick, time_quiet, time_periodEnd, time_choose,
    ite_self]

theorem time_faultedParts (s : State) : (faultedParts s).time = s.time := by
  simp only [faultedParts]
  refine time_foldl (fun s a => ?_) _ _
  repeat' split
  all_goals simp only [time_quiet]

theorem time_decide1 (s : State) (p : Nat) : (decide1 s p).time = s.time := by
  simp only [decide1, time_setPart]

theorem keepsTime_execDecisionPoint (s : State) : KeepsTime s (execDecisionPoint s) := by
  simp only [execDecisionPoint, keepsTime_next, time_advance, time_decide1, time_foldl, implies_true]

theorem keepsTime_execStall (p : Fin 16) (s : State) : KeepsTime s (execStall p s) := by
  simp only [execStall, keepsTime_next, apply_ite State.time]
  repeat' split
  all_goals simp only [time_setPart, time_actFaults, time_fault]

theorem keepsTime_execRotationEntryEnd (p : Fin 16) (s : State) : KeepsTime s (execRotationEntryEnd p s) := by
  simp only [execRotationEntryEnd, keepsTime_next, apply_ite State.time, time_setPart, time_faultedParts, time_actTick,
    time_takeEntry]
  repeat' split
  all_goals simp only [time_setPart, time_serve]

/-! ### RaiseTick -/

theorem keepsTime_execStopEffect (c : Fin 256) (s : State) : KeepsTime s (execStopEffect c s) := by
  simp only [execStopEffect, keepsTime_next, apply_ite State.time, time_endRaising, ite_self]

theorem keepsTime_execHoldEffect (c : Fin 256) (s : State) : KeepsTime s (execHoldEffect c s) := by
  simp only [execHoldEffect, keepsTime_next, apply_ite State.time, time_setRaising, ite_self]

theorem keepsTime_execResumeTick (c : Fin 256) (s : State) : KeepsTime s (execResumeTick c s) := by
  simp only [execResumeTick, keepsTime_next, apply_ite State.time, time_irq, time_setRaising, time_faultedParts,
    time_actTick, time_serve, ite_self]

theorem time_freshClusters (s : State) (c : Nat) : (freshClusters s c).time = s.time := by
  simp only [freshClusters, time_loadTables, time_loadEntry, time_clearRegs, time_foldl, implies_true]

theorem time_succeed (s : State) (c : Nat) (q : Raising) : (succeed s c q).time = s.time := by
  simp only [succeed, apply_ite State.time, time_edgeEnd, time_promote, time_freshClusters, time_quiet, ite_self]
  repeat' split
  all_goals simp only [time_edgeEnd]

theorem keepsTime_execPredecessorStop (c : Fin 256) (s : State) : KeepsTime s (execPredecessorStop c s) := by
  unfold execPredecessorStop
  split <;> simp only [keepsTime_next, apply_ite State.time, time_succeed, ite_self]

theorem time_startSets (s : State) (c : Nat) : (startSets s c).time = s.time := by
  simp only [startSets]
  refine time_foldl (fun s a => ?_) _ _
  repeat' split
  all_goals simp only [time_putSet]

theorem time_startRaising (s : State) (c : Nat) : (startRaising s c).time = s.time := by
  simp only [startRaising, apply_ite State.time, time_triggerFire, time_startSets, time_clearRegs, time_trailStart,
    time_irq, time_serve, time_foldl, ite_self, implies_true]
  repeat' split
  all_goals simp only [time_clearRegs, time_setCtx, time_scheduleBrace, time_foldl, implies_true]

theorem keepsTime_execRaisingStart (c : Fin 256) (s : State) : KeepsTime s (execRaisingStart c s) := by
  simp only [execRaisingStart, keepsTime_next, apply_ite State.time, time_faultedParts, time_actTick, time_startRaising,
    ite_self]

/-! ### Partition -/

theorem time_mapApply (s : State) : (mapApply s).time = s.time := by
  simp only [mapApply, time_dieKeysLost, time_makeKeys, time_regSet, time_foldl, implies_true]

theorem time_pmapStat (s : State) (pending : Bool) (result : Nat) : (pmapStat s pending result).time = s.time := by
  simp only [pmapStat, time_regSet]

theorem time_pmapWrite (s : State) (w : Word) : (pmapWrite s w).time = s.time := by
  simp only [pmapWrite, apply_ite State.time, time_statSet]
  repeat' split
  all_goals simp only [time_regPut, time_pmapStat]

theorem time_mapTick (s : State) (x : PmapPend) : (mapTick s x).time = s.time := by
  simp only [mapTick]
  repeat' split
  all_goals simp only [time_pmapStat, time_mapApply, time_actFaults, time_freshClusters, time_fault]

theorem keepsTime_execPartitionMapApply (s : State) : KeepsTime s (execPartitionMapApply s) := by
  unfold execPartitionMapApply
  split <;> simp only [keepsTime_next, apply_ite State.time, time_mapTick, ite_self]

theorem time_stagedWrite (s : State) (k : Nat) (v : Word) : (stagedWrite s k v).time = s.time := by
  simp only [stagedWrite, apply_ite State.time, time_statSet, time_regSet, ite_self]

theorem time_rotWrite (s : State) (p : Nat) (j : Option Nat) (w : Word) : (rotWrite s p j w).time = s.time := by
  simp only [rotWrite, apply_ite State.time, time_statSet]
  repeat' split
  all_goals simp only [time_regSet]

theorem time_haltWrite (s : State) (d : Nat) (on : Bool) : (haltWrite s d on).time = s.time := by
  unfold haltWrite
  split <;> simp only [time_setPart]

theorem time_haltConf (s : State) (p d c : Nat) : (haltConf s p d c).time = s.time := by
  simp only [haltConf, apply_ite State.time, time_drawFree, time_actFaults, time_fault, time_clearCluster, time_foldl,
    ite_self, implies_true]

theorem keepsTime_execHaltEffect (d : Fin 16) (s : State) : KeepsTime s (execHaltEffect d s) := by
  simp only [execHaltEffect, keepsTime_next]
  repeat' split
  all_goals simp only [time_haltConf, time_regPut]

theorem time_haltCtlWrite (s : State) (d : Nat) (w : Word) : (haltCtlWrite s d w).time = s.time := by
  simp only [haltCtlWrite, apply_ite State.time, time_haltWrite, ite_self]

/-! ### Debug -/

theorem time_tracePut (s : State) (r : BitVec 256) : (tracePut s r).time = s.time := by
  simp only [tracePut, apply_ite State.time, time_irq, time_cntAdd, time_carveWrites, time_regPut, ite_self]

theorem keepsTime_execTraceRecord (s : State) : KeepsTime s (execTraceRecord s) := by
  unfold execTraceRecord
  split <;> simp only [keepsTime_next, time_tracePut]

theorem time_fpolicyWrite (s : State) (c : Nat) (w : Word) : (fpolicyWrite s c w).time = s.time := by
  simp only [fpolicyWrite, apply_ite State.time, time_statSet, time_regSet, ite_self]

theorem time_auditWrite (s : State) (d : Nat) (w : Word) : (auditWrite s d w).time = s.time := by
  simp only [auditWrite, time_regSet]

theorem time_maskedWord (s : State) (on : Bool) (w : Word) : (maskedWord s on w).2.time = s.time := by
  unfold maskedWord
  split <;> simp only [time_countMasked]

theorem time_peekDie (s : State) (d : Nat) : (peekDie s d).2.time = s.time := by
  unfold peekDie
  split <;> simp only [time_drawFree, time_maskedWord]

theorem time_peekEdge (s : State) (e : Nat) : (peekEdge s e).2.time = s.time := by
  simp only [peekEdge]
  repeat' split
  all_goals simp only [time_maskedWord, time_drawFree]

/-! ### Bundle -/

theorem keepsTime_execReservedOpcode (i : Issue) (slot : SlotId) (w : BitVec 44) (s : State) :
    KeepsTime s (execReservedOpcode i slot w s) := by
  simp only [execReservedOpcode, keepsTime_next, apply_ite State.time, time_advance, time_issueOp, ite_self]

/-! ### Load -/

theorem time_loadEnd (s : State) (result err : Nat) : (loadEnd s result err).time = s.time := by
  simp only [loadEnd, time_regPut, time_irq, time_regPairSet]

theorem time_loadRead (s : State) (a o n : Nat) : (loadRead s a o n).2.time = s.time := by
  induction n generalizing s o with
  | zero => rfl
  | succ n ih =>
    unfold loadRead
    dsimp only
    split
    · exact time_engineLine ..
    · rw [ih, time_engineLine]

theorem time_planKeep (p : Img) (s : State) (slot : Nat) : (planKeep p s slot).time = s.time := by
  simp only [planKeep]

theorem time_loadRun (s : State) (slot a : Nat) : (loadRun s slot a).time = s.time := by
  unfold loadRun
  split
  · exact time_loadEnd ..
  split
  · exact time_loadEnd ..
  dsimp only
  split
  · rw [time_loadEnd, time_loadRead]
  split
  · rw [time_loadEnd, time_loadRead]
  split
  · rw [time_loadEnd, time_loadRead]
  split
  · rw [time_loadEnd, time_loadRead, time_loadRead]
  split
  · rw [time_loadEnd, time_loadRead, time_loadRead]
  · rw [time_loadEnd, time_planKeep, time_loadRead, time_loadRead]

theorem time_planCmdWrite (s : State) (w : Word) : (planCmdWrite s w).time = s.time := by
  simp only [planCmdWrite, apply_ite State.time, time_regPut, time_regPairSet]
  repeat' split
  all_goals simp only [time_regPut, time_regPairSet]

theorem keepsTime_execLoadComplete (s : State) : KeepsTime s (execLoadComplete s) := by
  unfold execLoadComplete
  split <;> simp only [keepsTime_next, time_loadRun]

/-! ### RegRead -/

theorem time_loadLatch (s : State) (b : Blk) (i k n : Nat) : (loadLatch s b i k n).time = s.time := by
  simp only [loadLatch, time_foldl, implies_true]

theorem time_errCapt0Clear (s : State) (pg : Nat) : (errCapt0Clear s pg).time = s.time := by
  simp only [errCapt0Clear, time_clrReg]

theorem time_readElse (s : State) (b : Blk) (k : Nat) : ∀ x ∈ readElse s b k, x.2.time = s.time := by
  intro x hx
  unfold readElse at hx
  dsimp only at hx
  split at hx
  · obtain ⟨-, hx⟩ := Option.ite_none_right_eq_some.1 hx
    cases hx
    exact time_peekDie ..
  · obtain ⟨-, hx⟩ := Option.ite_none_right_eq_some.1 hx
    cases hx
    exact time_peekEdge ..
  · cases hx

theorem time_regReadAt (s : State) (b : Blk) (i k : Nat) : (regReadAt s b i k).2.time = s.time := by
  unfold regReadAt
  dsimp only
  split
  · exact time_errCapt0Clear ..
  split
  · rfl
  split
  · next hx => exact time_readElse _ _ _ _ hx
  split
  · exact time_countMasked ..
  split
  · exact time_captClear ..
  split
  · exact time_loadLatch ..
  · rfl
  · rfl

/-! ### RegOps -/

theorem time_cntZero (s : State) (b : Blk) (pg : Nat) : (cntZero s b pg).time = s.time := by
  simp only [cntZero, apply_ite State.time, time_regSet, time_foldl, ite_self, implies_true]

theorem time_ctrlWrite (s : State) (b : Blk) (pg : Nat) (w : Word) : (ctrlWrite s b pg w).time = s.time := by
  simp only [ctrlWrite, apply_ite State.time, time_cntZero, time_regSet, ite_self]

theorem time_irqForceWrite (s : State) (b : Blk) (pg : Nat) (w : Word) : (irqForceWrite s b pg w).time = s.time := by
  simp only [irqForceWrite, time_orReg]

theorem time_plainWrite (s : State) (r : RegRow) (k : Nat) (w : Word) : (plainWrite s r k w).time = s.time := by
  simp only [plainWrite, time_regSet]

theorem time_ringWrite (s : State) (pg : Nat) (r : RegRow) (k : Nat) (w : Word) :
    (ringWrite s pg r k w).time = s.time := by
  simp only [ringWrite, apply_ite State.time, time_plainWrite, time_statSet, time_regPut, ite_self]

theorem time_dieSWrite (s : State) (r : RegRow) (k : Nat) (w : Word) : (dieSWrite s r k w).time = s.time := by
  simp only [dieSWrite, apply_ite State.time, time_stagedWrite, time_presetWrite, time_rotWrite, time_pmapWrite,
    time_plainWrite, ite_self]

theorem time_vltWrite (s : State) (v i : Nat) (r : RegRow) (k : Nat) (w : Word) :
    (vltWrite s v i r k w).time = s.time := by
  simp only [vltWrite, apply_ite State.time, time_imapWrite, time_carveWrite, time_retireWrite, time_initCtrlWrite,
    time_ctxRowsWrite, time_plainWrite, ite_self]

theorem time_sltWrite (s : State) (e : Nat) (r : RegRow) (k : Nat) (w : Word) : (sltWrite s e r k w).time = s.time := by
  simp only [sltWrite, apply_ite State.time, time_setCfgWrite, time_setCheck, time_setRelease, time_plainWrite,
    ite_self]

theorem time_lseWrite (s : State) (e : Nat) (r : RegRow) (k : Nat) (w : Word) : (lseWrite s e r k w).time = s.time := by
  simp only [lseWrite, apply_ite State.time, time_deflectMaskWrite, time_routeHiWrite, time_portDimWrite,
    time_plainWrite, ite_self]

theorem time_opnWrite (s : State) (b : Blk) (blk : Nat) (r : RegRow) (k : Nat) (w : Word) :
    (opnWrite s b blk r k w).time = s.time := by
  simp only [opnWrite, apply_ite State.time, time_ifCfgWrite, time_plainWrite, time_ringWrite, time_steerHiWrite,
    ite_self]

theorem time_dbgWrite (s : State) (d : Nat) (r : RegRow) (k : Nat) (w : Word) : (dbgWrite s d r k w).time = s.time := by
  simp only [dbgWrite, apply_ite State.time, time_auditWrite, time_haltCtlWrite, time_abortWrite, time_plainWrite,
    ite_self]

theorem time_trlWrite (s : State) (r : RegRow) (k : Nat) (w : Word) : (trlWrite s r k w).time = s.time := by
  simp only [trlWrite, apply_ite State.time, time_trlCfgWrite, time_replayRun, time_regPut, time_plainWrite, ite_self]

theorem time_slotWindowWrite (s : State) (e off n data : Nat) :
    ∀ t ∈ slotWindowWrite s e off n data, t.time = s.time := by
  intro t ht
  obtain ⟨-, ht⟩ := Option.ite_none_left_eq_some.1 ht
  cases ht
  rfl

theorem keepsTime_execSlotTableWindowWrite (e : Fin 3) (off : BitVec 23) (size : AccSize) (data : BitVec 512)
    (s : State) : KeepsTime s (execSlotTableWindowWrite e off size data s) :=
  keepsTime_next.2 (time_getD (time_slotWindowWrite _ _ _ _ _) (time_emit ..))

theorem time_regionRead (s : State) (k n : Nat) : ∀ x ∈ regionRead s k n, x.2.time = s.time := by
  intro x hx
  unfold regionRead at hx
  split at hx
  · obtain ⟨-, hx⟩ := Option.ite_none_left_eq_some.1 hx
    split at hx <;> cases hx <;> rfl
  · split at hx
    · cases hx
    · obtain ⟨-, hx⟩ := Option.ite_none_left_eq_some.1 hx
      cases hx
      exact time_regReadAt ..

theorem time_s0Write (s : State) (x n data : Nat) : ∀ t ∈ s0Write s x n data, t.time = s.time := by
  intro t ht
  obtain ⟨-, ht⟩ := Option.ite_none_left_eq_some.1 ht
  split at ht <;> cases ht <;> rfl

theorem time_hostGet (s : State) (a n : Nat) : (hostGet s a n).2.time = s.time := by
  unfold hostGet
  split
  · refine (time_countAccess ..).trans (time_getD (fun u hu => ?_) rfl)
    obtain ⟨x, hx, rfl⟩ := Option.map_eq_some_iff.1 hu
    exact time_regionRead _ _ _ _ hx
  · rfl

theorem time_hostDram (s : State) (r : HostReq) (v u : Nat) : (hostDram s r v u).time = s.time := by
  simp only [hostDram, apply_ite State.time, time_countPath, time_hostError, time_queueJob, ite_self]

theorem keepsTime_execLatchedPairRead (a : BitVec 48) (s : State) : KeepsTime s (execLatchedPairRead a s) := by
  simp only [execLatchedPairRead, keepsTime_next]
  repeat' split
  all_goals simp only [time_hostDram, time_hostGet, time_emit]

theorem time_onPage (s : State) (pg : PageId) (f : Blk → Nat → Nat → State) (hf : ∀ b i k, (f b i k).time = s.time) :
    (onPage s pg f).time = s.time := by
  unfold onPage
  split
  · exact time_emit ..
  · split
    · exact time_emit ..
    · exact hf ..

theorem keepsTime_execErrCapt0Read (pg : PageId) (s : State) : KeepsTime s (execErrCapt0Read pg s) := by
  simp only [execErrCapt0Read, keepsTime_next, time_onPage, time_regReadAt, time_emit, implies_true]

theorem keepsTime_execCntClear (pg : PageId) (s : State) : KeepsTime s (execCntClear pg s) := by
  simp only [execCntClear, keepsTime_next, time_onPage, time_cntZero, implies_true]

theorem keepsTime_execCntFreeze (pg : PageId) (on : Bool) (s : State) : KeepsTime s (execCntFreeze pg on s) := by
  simp only [execCntFreeze, keepsTime_next, time_onPage, time_regPut, implies_true]

theorem keepsTime_execIrqForce (pg : PageId) (w : BitVec 32) (s : State) : KeepsTime s (execIrqForce pg w s) := by
  simp only [execIrqForce, keepsTime_next, time_onPage, time_irqForceWrite, implies_true]

/-! ### Endpoint -/

theorem time_complete (s : State) (r : LooseReq) (status len data : Nat) :
    (complete s r status len data).time = s.time := by
  simp only [complete, time_stageLoose]

theorem time_looseRead (s : State) (a : Nat) : (looseRead s a).2.2.time = s.time := by
  simp only [looseRead]
  repeat' split
  all_goals simp only [time_countPath, time_hostLine]

theorem time_looseWrite (s : State) (a n data : Nat) : (looseWrite s a n data).2.time = s.time := by
  simp only [looseWrite]
  repeat' split
  all_goals simp only [time_countPath, time_putBytes]

theorem time_performRd (s : State) (r : LooseReq) : (performRd s r).time = s.time := by
  unfold performRd
  dsimp only
  split
  · split
    · exact time_complete ..
    · split
      · next hx => rw [time_complete, time_countAccess, time_regionRead _ _ _ _ hx]
      · rw [time_complete, time_countAccess]
  · simp only [apply_ite State.time, time_complete, time_looseRead, ite_self]

theorem time_performMsg (s : State) (r : LooseReq) : (performMsg s r).time = s.time := by
  simp only [performMsg, apply_ite State.time, time_complete, time_epDeliver, ite_self]

theorem time_setRecv (s : State) (x : RecvCtx) : (setRecv s x).time = s.time := by
  simp only [setRecv]

theorem time_freeRecv (s : State) (src : BitVec 16) (stream : BitVec 4) : (freeRecv s src stream).time = s.time := by
  simp only [freeRecv]

theorem time_dupDrop (s : State) : (dupDrop s).time = s.time := by
  simp only [dupDrop, time_lseCount]

theorem time_unstagePkt (s : State) (r : LooseReq) : (unstagePkt s r).time = s.time := by
  unfold unstagePkt
  split <;> simp only [time_unstage]

theorem keepsTime_execClosedContextFree (src : BitVec 16) (stream : BitVec 4) (s : State) :
    KeepsTime s (execClosedContextFree src stream s) := by
  unfold execClosedContextFree
  split <;> simp only [keepsTime_next, apply_ite State.time, time_freeRecv, ite_self]

theorem keepsTime_execRxIdle (src : BitVec 16) (stream : BitVec 4) (s : State) :
    KeepsTime s (execRxIdle src stream s) := by
  unfold execRxIdle
  split <;> simp only [keepsTime_next, apply_ite State.time, time_freeRecv, ite_self]

theorem time_setSend (s : State) (x : SendCtx) : (setSend s x).time = s.time := by
  simp only [setSend]

theorem time_sendReq (s : State) (x : SendCtx) (i op flags len addr data : Nat) :
    (sendReq s x i op flags len addr data).time = s.time := by
  simp only [sendReq, time_setSend, time_stageLoose]

theorem time_takeSend (s : State) (dst : BitVec 16) (stream : BitVec 4) :
    ∀ x ∈ takeSend s dst stream, x.2.time = s.time := by
  intro x hx
  unfold takeSend at hx
  split at hx <;> obtain ⟨-, hx⟩ := Option.ite_none_left_eq_some.1 hx <;> cases hx <;> rfl

theorem time_headOn (s : State) (q : Nat) : (headOn s q).time = s.time := by
  simp only [headOn, time_regPut]

theorem time_originateLoose (s : State) (q : Nat) : (originateLoose s q).time = s.time := by
  apply SameTime.of_fn_eq
  · delta originateLoose
    rfl
  generalize freeTag s = tag
  have hread := time_engineLines s 1 .dma (epRecord s q (epHead s q)) 2
  generalize engineLines s 1 .dma (epRecord s q (epHead s q)) 2 = x at hread ⊢
  have hsend := time_takeSend x.2
  obtain ⟨line, u⟩ := x
  dsimp only at hread hsend ⊢
  generalize takeSend u = send at hsend ⊢
  generalize line.bind originReq = req
  cases req with
  | none => exact (time_headOn ..).trans ((time_lseCount ..).trans hread)
  | some r =>
    dsimp only
    have htaken := hsend (BitVec.ofNat 16 (oDst r)) (BitVec.ofNat 4 q)
    generalize send (BitVec.ofNat 16 (oDst r)) (BitVec.ofNat 4 q) = taken at htaken ⊢
    split
    · exact (time_headOn ..).trans ((time_sendReq ..).trans ((htaken _ rfl).trans hread))
    · rfl

theorem keepsTime_execLooseOriginate (q : Fin 16) (s : State) : KeepsTime s (execLooseOriginate q s) := by
  simp only [execLooseOriginate, keepsTime_next, apply_ite State.time, time_originateLoose, ite_self]

theorem keepsTime_execSendContextIdle (dst : BitVec 16) (stream : BitVec 4) (s : State) :
    KeepsTime s (execSendContextIdle dst stream s) := by
  unfold execSendContextIdle
  split <;> simp only [keepsTime_next, apply_ite State.time, time_sendReq, ite_self]

theorem keepsTime_execSendContextFree (dst : BitVec 16) (stream : BitVec 4) (s : State) :
    KeepsTime s (execSendContextFree dst stream s) := by
  unfold execSendContextFree
  split <;> simp only [keepsTime_next, apply_ite State.time, ite_self]

theorem time_finishReq (s : State) (q : OutReq) (cpl : LooseReq) : (finishReq s q cpl).time = s.time := by
  simp only [finishReq, apply_ite State.time, time_irq, time_epDeliver, time_lseCount, ite_self]
  repeat' split
  all_goals simp only [time_setSend]

theorem keepsTime_execCpl (r : LooseReq) (s : State) : KeepsTime s (execCpl r s) := by
  simp only [execCpl, keepsTime_next, apply_ite State.time, time_lseCount]
  repeat' split
  all_goals simp only [time_lseCount, time_unstagePkt, time_finishReq]

theorem keepsTime_execReqTimeout (tag : BitVec 16) (s : State) : KeepsTime s (execReqTimeout tag s) := by
  unfold execReqTimeout
  split <;> simp only [keepsTime_next, time_finishReq]

/-! ## The two lengths -/

/-- `t` has legal frame lengths if `s` has. -/
structure KeepsLegal (s t : State) : Prop where
  legal : legalFrame s = true → legalFrame t = true

theorem KeepsLegal.refl (s : State) : KeepsLegal s s := ⟨id⟩

theorem KeepsLegal.trans {s t u : State} (h : KeepsLegal s t) (g : KeepsLegal t u) : KeepsLegal s u :=
  ⟨fun hs => g.legal (h.legal hs)⟩

theorem KeepsLegal.of_lengths {s t : State} (hn : t.time.frameLog2 = s.time.frameLog2)
    (hp : t.time.pendLog2 = s.time.pendLog2) : KeepsLegal s t := by
  refine ⟨fun h => ?_⟩
  rw [legalFrame, hn, hp]
  exact h

theorem KeepsLegal.of_time {s t : State} (h : t.time = s.time) : KeepsLegal s t :=
  .of_lengths (congrArg (·.frameLog2) h) (congrArg (·.pendLog2) h)

theorem KeepsLegal.foldl {α : Type} {f : State → α → State} (h : ∀ s x, KeepsLegal s (f s x)) (l : List α) (s : State) :
    KeepsLegal s (l.foldl f s) := by
  induction l generalizing s with
  | nil => exact .refl s
  | cons x l ih => exact (h s x).trans (ih _)

/-- A choice between two states that keep the lengths. -/
theorem KeepsLegal.ite {s t u : State} {p : Prop} [Decidable p] (h : KeepsLegal s t) (g : KeepsLegal s u) :
    KeepsLegal s (if p then t else u) := by
  split
  · exact h
  · exact g

/-! ### Writes to the time base -/

theorem frameCfgWrite_keepsLegal (s : State) (v : Word) : KeepsLegal s (frameCfgWrite s v) := by
  unfold frameCfgWrite
  dsimp only
  split
  · exact .of_time (time_statSet ..)
  · rename_i hok
    refine KeepsLegal.trans (t := { s with time.pendLog2 := some (wfield v 0 4) }) ⟨fun hs => ?_⟩
      (.of_time (time_regPut ..))
    simp only [legalFrame, Bool.and_eq_true, Bool.or_eq_true, decide_eq_true_eq, not_or] at hs hok ⊢
    omega

theorem wallCmdWrite_keepsLegal (s : State) (v : Word) : KeepsLegal s (wallCmdWrite s v) :=
  .ite (.of_lengths rfl rfl) (.refl s)

theorem rateAdjWrite_keepsLegal (s : State) (v : Word) : KeepsLegal s (rateAdjWrite s v) :=
  (KeepsLegal.of_time (time_regSet s (pgTim0 + 0xA4) v)).trans (.of_lengths rfl rfl)

theorem discCtrlWrite_keepsLegal (s : State) (v : Word) : KeepsLegal s (discCtrlWrite s v) := by
  have hmode := KeepsLegal.of_time (time_regPut s (pgTim0 + 0x44) 0 2 (wfield v 0 2))
  exact .ite (.ite (hmode.trans (.of_time (time_statSet ..))) (hmode.trans (.of_lengths rfl rfl))) hmode

theorem timeCapture_keepsLegal (s : State) (capt pps : Bool) (tp : Nat) : KeepsLegal s (timeCapture s capt pps tp) := by
  have hpins : KeepsLegal s
      { s with time.captPin := capt, time.ppsPin := pps, time.prevLevel := captLevel s capt pps } := .of_lengths rfl rfl
  exact .ite (.ite (hpins.trans (.of_time (time_orReg ..))) (hpins.trans (.of_lengths rfl rfl))) hpins

theorem captStatWrite_keepsLegal (s : State) (v : Word) : KeepsLegal s (captStatWrite s v) := by
  have hclear : KeepsLegal s (if v.getLsbD 8 then clrReg s (pgTim0 + 0xC0) 0x100 else s) :=
    .ite (.of_time (time_clrReg ..)) (.refl s)
  have hedge := hclear.trans (.of_time (time_regPut _ (pgTim0 + 0xC0) 9 2 (wfield v 9 2)))
  exact .ite (hedge.trans (.of_lengths rfl rfl)) hedge

/-! ### Reference inputs -/

theorem refHoldover_keepsLegal (s : State) : KeepsLegal s (refHoldover s) :=
  (KeepsLegal.trans (t := { orReg s (pgTim1 + 0x44) 8 with time.holdFrom := s.time.periods + elapsed s })
    ((KeepsLegal.of_time (time_orReg s (pgTim1 + 0x44) 8)).trans (.of_lengths rfl rfl)) (.of_time (time_irq ..)))

/-! ### Droop stretches -/

theorem setDomain_keepsLegal (s : State) (d : Nat) (x : Domain) : KeepsLegal s (setDomain s d x) := .of_lengths rfl rfl

theorem takeFirst_keepsLegal (s : State) (d k : Nat) (free : Int) : KeepsLegal s (takeFirst s d k free) := by
  refine .ite (.refl s) ?_
  have htaken := (setDomain_keepsLegal s d
    { owed := (domainOf s d).owed.drop k, taken := (domainOf s d).taken + k, next := free }).trans
    (.of_time (time_cntAdd _ (pgRgn d + 0x48) k))
  exact .ite htaken ((htaken.trans (.of_time (time_freeLag _))).trans (.of_time (time_cntMax ..)))

theorem catchUp_keepsLegal (s : State) (tp : Int) : KeepsLegal s (catchUp s tp) :=
  KeepsLegal.foldl (fun s _ => .ite (.refl s) (takeFirst_keepsLegal ..)) _ s

theorem stretch1_keepsLegal (d : Nat) (s : State) (x : Int) : KeepsLegal s (stretch1 d s x) :=
  KeepsLegal.foldl (fun s _ => .ite (.refl s) (setDomain_keepsLegal ..)) _ s

theorem droop_keepsLegal (s : State) (d mv p : Nat) (second : Bool) (tp : Nat) :
    KeepsLegal s (droop s d mv p second tp) := by
  refine .ite (.refl s) ?_
  have hcounted : KeepsLegal s
      (cntAdd { s with time.starts := s.time.starts ++ droopStarts p second tp } (pgRgn d + 0x44)
        (droopStarts p second tp).length) :=
    KeepsLegal.trans (t := { s with time.starts := s.time.starts ++ droopStarts p second tp }) (.of_lengths rfl rfl)
      (.of_time (time_cntAdd ..))
  exact (hcounted.trans (KeepsLegal.foldl (stretch1_keepsLegal d) _ _)).trans (catchUp_keepsLegal ..)

theorem takeStretch_keepsLegal (s : State) (d tp : Nat) : KeepsLegal s (takeStretch s d tp) := by
  have hcaught := catchUp_keepsLegal s tp
  unfold takeStretch
  dsimp only
  split
  · exact hcaught
  · exact .ite hcaught (hcaught.trans (takeFirst_keepsLegal ..))

theorem closeDomains_keepsLegal (s : State) (n : Nat) (corr : Int) : KeepsLegal s (closeDomains s n corr) :=
  KeepsLegal.foldl (fun s d => ((KeepsLegal.of_time (time_cntAdd s (pgRgn d + 0x48) _)).trans
    (setDomain_keepsLegal _ d _)).trans (.of_time (time_regSet ..))) _ s

/-! ### Resets -/

/-- A package reset brings the length at reset into force, 2^11 cycles, and none waits (R66). -/
theorem packageReset_keepsLegal (s : State) : KeepsLegal s (packageReset s) := ⟨fun _ => rfl⟩

theorem shepherdReset_keepsLegal (s : State) : KeepsLegal s (shepherdReset s) := by
  have hcheck : KeepsLegal s (shepherdCheck { s with brd.sram := [], brd.timerCmp := [], brd.timerPend := [] }).2 :=
    .of_time (time_shepherdCheck _)
  exact .ite ((hcheck.trans (.of_lengths rfl rfl)).trans (.of_time (time_sramPut ..)))
    (hcheck.trans (packageReset_keepsLegal _))

theorem resetWrite_keepsLegal (s : State) (w : Word) : KeepsLegal s (resetWrite s w) := by
  unfold resetWrite
  split
  · exact .refl s
  · split
    · exact packageReset_keepsLegal s
    · exact shepherdReset_keepsLegal s
    · exact .refl s

/-! ### The tick -/

/-- A length that waits comes into force (R66). -/
theorem pendLog2_keepsLegal (s : State) :
    KeepsLegal s { s with time.frameLog2 := s.time.pendLog2.getD s.time.frameLog2, time.pendLog2 := none } := by
  refine ⟨fun hs => ?_⟩
  simp only [legalFrame, Bool.and_eq_true, decide_eq_true_eq] at hs ⊢
  cases hp : s.time.pendLog2 with
  | none => simpa [hp] using hs
  | some n => simpa [hp] using hs.2

/-- The clock and the cycles of the new period begin. -/
def periodBegun (s : State) (n : Nat) (w : Int) (tick : BitVec 64) : State :=
  { s with
    clu.tickCyc := s.clu.cyc
    time.periods := s.time.periods + n
    time.wall := w
    time.tick := tick
    time.stepPend := false
    time.starts := (s.time.starts.filter fun x => !(x + 4 ≤ (n : Int))).map fun x => x - n }

theorem periodBegun_keepsLegal (s : State) (n : Nat) (w : Int) (tick : BitVec 64) :
    KeepsLegal s (periodBegun s n w tick) := .of_lengths rfl rfl

theorem timeTick_keepsLegal (s : State) (n k : Nat) : KeepsLegal s (timeTick s n k) :=
  ((((((closeDomains_keepsLegal s n _).trans (periodBegun_keepsLegal _ n (wallAt s n) (tickCount s (wallAt s n)))).trans
    (.of_time (time_regPut ..))).trans (.of_time (time_regSet ..))).trans (.of_time (time_taiSet ..))).trans
    (pendLog2_keepsLegal _)).trans (.of_time ((time_frameMark _).trans (time_refMeasure _)))

/-- The part of a tick before time moves on. -/
def tickEnded (s : State) (t : Nat) : State :=
  let s := advance s t
  let late := (usedParts s).filter fun p => missesTick s p t
  let missed := late.filter fun p => !tripsNow s p
  let s := (usedParts s).foldl (fun s p => if missed.contains p then s else dropPartition s p) s
  let s := dropEdges s missed
  let s := if late.isEmpty then s else rawAdd s (pgTim0 + 0x78) 1
  resolveAborts s

theorem time_tickEnded (s : State) (t : Nat) : (tickEnded s t).time = s.time := by
  simp only [tickEnded, apply_ite State.time, time_resolveAborts, time_rawAdd, time_dropEdges, time_dropPartition,
    time_advance, time_foldl, ite_self, implies_true]

/-- The part of a tick after time has moved on, where the partitions of `missed` have missed it. -/
def periodDecided (s : State) (missed : List Nat) (n : Nat) : State :=
  let s := periodClear s
  let s := doneTick s
  let s := actFaults s
  let s := pmapTick s
  let s := (List.range 16).foldl (fun s p => if liveDies s p ≠ 0 then partTick s missed p else partIdle s p) s
  rollEvents (faultedParts (actTick s)) n

theorem time_periodDecided (s : State) (missed : List Nat) (n : Nat) : (periodDecided s missed n).time = s.time := by
  simp only [periodDecided, apply_ite State.time, time_rollEvents, time_faultedParts, time_actTick, time_partTick,
    time_partIdle, time_pmapTick, time_actFaults, time_doneTick, time_periodClear, time_foldl, ite_self, implies_true]

/-- The partitions that miss the tick in cycle `t`. -/
def missedAt (s : State) (t : Nat) : List Nat :=
  ((usedParts (advance s t)).filter fun p => missesTick (advance s t) p t).filter fun p => !tripsNow (advance s t) p

theorem frameTick_eq (s : State) (n k : Nat) : frameTick s n k =
    periodDecided (timeTick (tickEnded s (s.clu.tickCyc + (n - k))) n k) (missedAt s (s.clu.tickCyc + (n - k))) n := rfl

theorem frameTick_keepsLegal (s : State) (n k : Nat) : KeepsLegal s (frameTick s n k) := by
  rw [frameTick_eq]
  exact ((KeepsLegal.of_time (time_tickEnded ..)).trans (timeTick_keepsLegal ..)).trans
    (.of_time (time_periodDecided ..))

/-! ### Register writes by address -/

theorem timWrite_keepsLegal (s : State) (b : Blk) (r : RegRow) (k : Nat) (w : Word) :
    KeepsLegal s (timWrite s b r k w) :=
  .ite
    (.ite (frameCfgWrite_keepsLegal ..) (.ite (discCtrlWrite_keepsLegal ..) (.ite (.of_time (time_startCtrlWrite ..))
      (.ite (wallCmdWrite_keepsLegal ..) (.ite (rateAdjWrite_keepsLegal ..) (.ite (captStatWrite_keepsLegal ..)
        (.ite (.of_lengths rfl rfl) (.of_time (time_plainWrite ..)))))))))
    (.ite (.ite (.of_time (time_refCtrlWrite ..)) (.of_time (time_plainWrite ..)))
      (.ite (.of_time (time_nodeIdWrite ..)) (.ite (.of_time (time_rcmdWrite ..))
        (.ite (.of_time (time_plainWrite ..)) (.of_time (time_plainWrite ..))))))

theorem brdWrite_keepsLegal (s : State) (r : RegRow) (k : Nat) (w : Word) : KeepsLegal s (brdWrite s r k w) :=
  .ite (resetWrite_keepsLegal s w) (.ite (.of_time (time_wdtCfgWrite ..)) (.ite (.of_time (time_wdtRestart ..))
    (.ite (.of_time (time_flashCmdWrite ..)) (.of_time (time_plainWrite ..)))))

theorem blockWrite_keepsLegal (s : State) (who : Requester) (b : Blk) (i : Nat) (r : RegRow) (k : Nat) (w : Word) :
    KeepsLegal s (blockWrite s who b i r k w) := by
  cases b with
  | tim0 | tim1 | tim2 =>
    unfold blockWrite
    exact timWrite_keepsLegal s _ r k w
  | brd => exact brdWrite_keepsLegal s r k w
  | _ =>
    refine .of_time ?_
    simp only [blockWrite, apply_ite State.time, time_plainWrite, time_dieSWrite, time_vltWrite, time_sltWrite,
      time_areaWrite, time_lseWrite, time_opnWrite, time_portCfgWrite, time_portStart, time_coefWrite, time_isoWrite,
      time_unitStateWrite, time_secCmdWrite, time_pstWrite, time_trlWrite, time_commitWrite, time_bucketWrite,
      time_dbgWrite, time_planCmdWrite, time_fpolicyWrite, ite_self]

theorem regWriteAt_keepsLegal (s : State) (who : Requester) (b : Blk) (i k : Nat) (w : Word) :
    KeepsLegal s (regWriteAt s who b i k w) := by
  unfold regWriteAt
  dsimp only
  split
  · exact .refl s
  · exact .ite (.of_time (time_ctrlWrite ..)) (.ite (.of_time (time_irqForceWrite ..))
      (.ite (.of_time (time_pstateWrite ..)) (.ite (.of_time (time_plainWrite ..)) (blockWrite_keepsLegal ..))))

theorem regionWrite_keepsLegal (s : State) (who : Requester) (k n data : Nat) :
    ∀ t ∈ regionWrite s who k n data, KeepsLegal s t := by
  intro t ht
  unfold regionWrite at ht
  split at ht
  · obtain ⟨-, ht⟩ := Option.ite_none_left_eq_some.1 ht
    split at ht
    · exact .of_time (time_entryWindowWrite _ _ _ _ _ _ ht)
    · exact .of_time (time_slotWindowWrite _ _ _ _ _ _ ht)
  · split at ht
    · cases ht
    · obtain ⟨-, ht⟩ := Option.ite_none_left_eq_some.1 ht
      cases ht
      exact regWriteAt_keepsLegal ..

/-- A write that may be refused. -/
theorem KeepsLegal.getD {s : State} {x : Option State} (h : ∀ t ∈ x, KeepsLegal s t) : KeepsLegal s (x.getD s) := by
  cases x with
  | none => exact .refl s
  | some t => exact h t rfl

theorem hostPut_keepsLegal (s : State) (who : Requester) (a n data : Nat) :
    KeepsLegal s (hostPut s who a n data).2 := by
  unfold hostPut
  split
  · rename_i k _
    exact (KeepsLegal.getD (regionWrite_keepsLegal s who k n data)).trans (.of_time (time_countAccess ..))
  · refine KeepsLegal.getD fun t ht => ?_
    obtain ⟨-, ht⟩ := Option.ite_none_right_eq_some.1 ht
    exact .of_time (time_s0Write _ _ _ _ _ ht)

theorem hostElse_keepsLegal (s : State) (r : HostReq) : KeepsLegal s (hostElse s r) := by
  refine .ite (.of_time (time_emit ..)) (.ite ?_ ?_)
  · exact (hostPut_keepsLegal ..).trans (.of_time (time_emit ..))
  · exact .of_time ((time_emit ..).trans (time_hostGet ..))

/-! ### Loose requests -/

theorem performWr_keepsLegal (s : State) (r : LooseReq) : KeepsLegal s (performWr s r) := by
  unfold performWr
  dsimp only
  split
  · rename_i k _
    refine .ite (.of_time (time_complete ..)) ?_
    have hwrite := regionWrite_keepsLegal s .loose k (oLen r) (oData r)
    split
    · rename_i t ht
      exact (hwrite t ht).trans (.of_time ((time_complete ..).trans (time_countAccess ..)))
    · exact .of_time ((time_complete ..).trans (time_countAccess ..))
  · exact .of_time ((time_complete ..).trans (time_looseWrite ..))

theorem perform_keepsLegal (s : State) (r : LooseReq) : KeepsLegal s (perform s r) := by
  unfold perform
  split
  · exact .of_time (time_performMsg ..)
  · exact .of_time (time_performRd ..)
  · exact performWr_keepsLegal s r
  · exact .of_time (time_complete ..)

theorem drainWindow_keepsLegal (src : BitVec 16) (stream : BitVec 4) (n : Nat) (s : State) :
    KeepsLegal s (drainWindow src stream n s) := by
  induction n generalizing s with
  | zero => exact .refl s
  | succ n ih =>
    unfold drainWindow
    split
    · exact .refl s
    · split
      · exact .refl s
      · exact ((KeepsLegal.of_time (time_setRecv ..)).trans (perform_keepsLegal ..)).trans (ih _)

theorem recvTake_keepsLegal (s : State) (x : RecvCtx) (r : LooseReq) : KeepsLegal s (recvTake s x r) :=
  .ite (.of_time (time_dupDrop s)) ((KeepsLegal.of_time (time_setRecv ..)).trans (drainWindow_keepsLegal ..))

theorem recvAdded_keepsLegal (s : State) (x : RecvCtx) :
    KeepsLegal s { s with loose.recvCtx := s.loose.recvCtx ++ [x] } := .of_lengths rfl rfl

theorem requestRx_keepsLegal (s : State) (r : LooseReq) : KeepsLegal s (requestRx s r) := by
  refine .ite (.of_time (time_lseCount ..)) (.ite (.refl s) ?_)
  have hunstaged : KeepsLegal s (unstagePkt s r) := .of_time (time_unstagePkt ..)
  generalize unstagePkt s r = u at hunstaged ⊢
  dsimp only
  split
  · exact hunstaged.trans (recvTake_keepsLegal ..)
  · exact .ite (hunstaged.trans (.of_time (time_complete ..))) (.ite (hunstaged.trans (.of_time (time_complete ..)))
      (hunstaged.trans ((recvAdded_keepsLegal u _).trans (recvTake_keepsLegal ..))))

/-! ## Commands -/

/-- Where the command goes on, the next state has legal lengths if the present one has. -/
structure StaysLegal (s : State) (o : Host.Outcome State Fault Refusal) : Prop where
  next : ∀ t, o = .next t → KeepsLegal s t

theorem staysLegal_next {s t : State} : StaysLegal s (.next t) ↔ KeepsLegal s t :=
  ⟨fun h => h.next t rfl, fun h => ⟨fun _ hu => by cases hu; exact h⟩⟩

theorem staysLegal_fault {s : State} {f : Fault} : StaysLegal s (.fault f) := ⟨fun _ h => nomatch h⟩

theorem KeepsTime.staysLegal {s : State} {o : Host.Outcome State Fault Refusal} (h : KeepsTime s o) : StaysLegal s o :=
  ⟨fun t ht => .of_time (h.next t ht)⟩

theorem execRefInputInvalid_staysLegal (b : Bool) (s : State) : StaysLegal s (execRefInputInvalid b s) := by
  have hclear := KeepsLegal.of_time (time_clrReg s (pgTim1 + 0x44) (1 <<< b2n b))
  have hlost := (hclear.trans (.of_time (time_orReg _ (pgTim1 + 0x44) 0x200))).trans (.of_time (time_irq _ pgTim1 1))
  exact staysLegal_next.2 (.ite hclear
    (.ite (hlost.trans (.of_time (time_refFollow ..))) (hlost.trans (refHoldover_keepsLegal _))))

theorem execPllStart_staysLegal (s : State) : StaysLegal s (execPllStart s) := by
  have hfollows (b : Bool) : KeepsLegal s { regPut s (pgTim1 + 0x44) 2 1 (b2n b) with time.pllOn := true } :=
    (KeepsLegal.of_time (time_regPut ..)).trans (.of_lengths rfl rfl)
  exact staysLegal_next.2 (.ite (.refl s) (.ite (hfollows _) (.ite (hfollows _) (.refl s))))

theorem execDroopStretch_staysLegal (dom : Fin 67) (mv periods : Nat) (second : Bool) (tp : Nat) (s : State) :
    StaysLegal s (execDroopStretch dom mv periods second tp s) := by
  unfold execDroopStretch
  split
  · exact staysLegal_fault
  · exact staysLegal_next.2 (droop_keepsLegal ..)

theorem execPowerExitDone_staysLegal (b : PowerBlk) (s : State) : StaysLegal s (execPowerExitDone b s) := by
  have hto : KeepsLegal s (powerTo s b 0) := .of_time (time_powerTo ..)
  refine staysLegal_next.2 ?_
  split
  · exact .refl s
  · refine .ite (.refl s) ?_
    split
    · have hchecked (l : List (Nat × Nat)) :=
        hto.trans (.of_time (time_foldl (fun u x => time_recheck u x.1 x.2) l _))
      exact .ite ((hchecked _).trans (setDomain_keepsLegal ..)) hto
    · exact .ite (hto.trans (.of_time (time_leavePreset ..))) hto
    · exact hto

theorem execPackageReset_staysLegal (ns : Nat) (s : State) : StaysLegal s (execPackageReset ns s) := by
  have hdrawn : KeepsLegal s (drawFree s 1).2 := .of_time (time_drawFree ..)
  exact staysLegal_next.2 (.ite (packageReset_keepsLegal s) (.ite (.refl s)
    (.ite (hdrawn.trans (packageReset_keepsLegal _)) hdrawn)))

/-- What the always-on supply leaves after a loss of power. -/
def powerLost (s : State) (aon : Bool) : State :=
  { s with brd.aonOut := aon, sec.sealLatch := s.sec.sealLatch && !aon }

theorem powerLost_keepsLegal (s : State) (aon : Bool) : KeepsLegal s (powerLost s aon) := .of_lengths rfl rfl

theorem execPowerLoss_staysLegal (keepNew aon : Bool) (s : State) : StaysLegal s (execPowerLoss keepNew aon s) := by
  have hkept : KeepsLegal s (if keepNew then s else { s with brd.pstPend := [] }) :=
    .ite (.refl s) (.of_lengths rfl rfl)
  exact staysLegal_next.2 ((hkept.trans (packageReset_keepsLegal _)).trans (powerLost_keepsLegal _ aon))

theorem execRecoveryImage_staysLegal (kind : BitVec 2) (img : List (BitVec 8)) (s : State) :
    StaysLegal s (execRecoveryImage kind img s) :=
  staysLegal_next.2 (.ite ((KeepsLegal.of_time (time_flashPut ..)).trans (packageReset_keepsLegal _)) (.refl s))

theorem execWatchdogExpiry_staysLegal (s : State) : StaysLegal s (execWatchdogExpiry s) :=
  staysLegal_next.2 (.ite (((KeepsLegal.of_time (time_wdtRestart s)).trans (.of_time (time_cntAdd ..))).trans
    (shepherdReset_keepsLegal _)) (.refl s))

theorem execFrameTick_staysLegal (s : State) : StaysLegal s (execFrameTick s) := by
  unfold execFrameTick
  dsimp only
  split
  · exact staysLegal_next.2 (.refl s)
  · split
    · exact staysLegal_fault
    · exact staysLegal_next.2 (frameTick_keepsLegal ..)

theorem execHostAccess_staysLegal (r : HostReq) (s : State) : StaysLegal s (execHostAccess r s) := by
  unfold execHostAccess
  refine staysLegal_next.2 ?_
  split
  · exact hostElse_keepsLegal s r
  · exact .of_time (time_hostDram ..)

theorem execRegisterWrite_staysLegal (a : BitVec 48) (w : BitVec 32) (s : State) :
    StaysLegal s (execRegisterWrite a w s) := by
  refine staysLegal_next.2 ?_
  split
  · exact .of_time (time_hostDram ..)
  · have hput : KeepsLegal s (if a.toNat % 4 = 0 then hostPut s .core a.toNat 4 w.toNat else (false, s)).2 := by
      split
      · exact hostPut_keepsLegal ..
      · exact .refl s
    exact .ite hput (hput.trans (.of_time (time_emit ..)))

theorem execReorderTimeout_staysLegal (src : BitVec 16) (stream : BitVec 4) (s : State) :
    StaysLegal s (execReorderTimeout src stream s) := by
  refine staysLegal_next.2 ?_
  split
  · exact .refl s
  · exact .ite (.refl s) (((KeepsLegal.of_time (time_lseCount ..)).trans (.of_time (time_setRecv ..))).trans
      (drainWindow_keepsLegal ..))

/-- What every command does to the two lengths. -/
theorem exec_staysLegal (c : Instr) (s : State) : StaysLegal s (exec c s) := by
  cases c with
  | frameTick => exact execFrameTick_staysLegal ..
  | decisionPoint => exact (keepsTime_execDecisionPoint ..).staysLegal
  | stall => exact (keepsTime_execStall ..).staysLegal
  | frameCfgWrite => exact staysLegal_next.2 (frameCfgWrite_keepsLegal ..)
  | wallCmdLoad => exact staysLegal_next.2 (wallCmdWrite_keepsLegal ..)
  | discCtrlStep => exact staysLegal_next.2 (discCtrlWrite_keepsLegal ..)
  | startCtrlArm => exact staysLegal_next.2 (.of_time (time_startCtrlWrite ..))
  | timeCapture => exact staysLegal_next.2 (timeCapture_keepsLegal ..)
  | captPop => exact staysLegal_next.2 (.of_lengths rfl rfl)
  | ppsOutPulse => exact (keepsTime_execPpsOutPulse ..).staysLegal
  | refInputInvalid => exact execRefInputInvalid_staysLegal ..
  | refInputValid => exact (keepsTime_execRefInputValid ..).staysLegal
  | refRevert => exact (keepsTime_execRefRevert ..).staysLegal
  | holdoverExpired => exact (keepsTime_execHoldoverExpired ..).staysLegal
  | refSelWrite => exact staysLegal_next.2 (.of_time (time_refCtrlWrite ..))
  | pllStart => exact execPllStart_staysLegal ..
  | droopStretch => exact execDroopStretch_staysLegal ..
  | stretchEcho => exact staysLegal_next.2 (takeStretch_keepsLegal ..)
  | bentEnd => exact (keepsTime_execBentEnd ..).staysLegal
  | rotationEntryEnd => exact (keepsTime_execRotationEntryEnd ..).staysLegal
  | mnop | vnop | lnop | snop | fnop | cnop => exact staysLegal_next.2 (.of_time (time_advance ..))
  | mma | mzero | mdrain | mfill | vclass | vcvt | vins | vact | vrd | vwr | vrdp | bentld | vpre | smovl | smovs | swb
  | sld | sst | xld | fsend | frecv | ffwd | smul | lset | loopb | bseal | bnext | xset | xadv | xmov | gadd | gsub |
  gcmps | gcmp | gtest | tmark =>
    exact staysLegal_next.2 (.of_time (time_issueOp ..))
  | vadd | vsub | vmul | vmax | vmin | vand | vor | vxor | vshl | vshr | vsra | vdiv | scalarVadd | scalarVsub |
  scalarVmul | scalarVmax | scalarVmin =>
    exact staysLegal_next.2 (.of_time (time_vBinary ..))
  | vfma | vfms | scalarVfma | scalarVfms => exact staysLegal_next.2 (.of_time (time_vTernary ..))
  | vabs | vneg | vrcp | vrsq | vsqrt | vexp | vlog | vsin | vcos | vtanh | verf | vmov =>
    exact staysLegal_next.2 (.of_time (time_vUnary ..))
  | vcmpeq | vcmplt | vcmple => exact staysLegal_next.2 (.of_time (time_vCompare ..))
  | vsel | vpack | vunpk | vscan | vperm | vrot | vbcast | viota | vrng =>
    exact staysLegal_next.2 (.of_time (time_vecOp ..))
  | vrsum | vrmax | vrmin | vargmx | vext => exact staysLegal_next.2 (.of_time (time_vScalarOut ..))
  | sli | slis | saddi | grd => exact staysLegal_next.2 (.of_time (time_cScalar ..))
  | sadd | ssub | sand | sor | sxor | sshl | sshr | ssra => exact staysLegal_next.2 (.of_time (time_cBinary ..))
  | traceRecord => exact (keepsTime_execTraceRecord ..).staysLegal
  | refresh => exact (keepsTime_execRefresh ..).staysLegal
  | scrub => exact (keepsTime_execScrub ..).staysLegal
  | hostAccess => exact execHostAccess_staysLegal ..
  | hostEngineGuard => exact (keepsTime_execHostEngineGuard ..).staysLegal
  | ctxRowsWrite => exact staysLegal_next.2 (.of_time (time_onServed _ _ _ fun _ => time_ctxRowsWrite ..))
  | carveWrite => exact staysLegal_next.2 (.of_time (time_onServed _ _ _ fun _ => time_carveWrite ..))
  | imapWrite => exact staysLegal_next.2 (.of_time (time_onServed _ _ _ fun _ => time_imapWrite ..))
  | retire => exact staysLegal_next.2 (.of_time (time_onServed _ _ _ fun _ => time_retireWrite ..))
  | initCtrlStart => exact staysLegal_next.2 (.of_time (time_onServed _ _ _ fun _ => time_initCtrlWrite ..))
  | initComplete => exact (keepsTime_execInitComplete ..).staysLegal
  | errLogRead | ceLastRead | vcollLastRead | derrLastRead | collLastRead | xcollLastRead | auditLastRead =>
    exact staysLegal_next.2 (.of_time (time_onServed _ _ _ fun _ => time_captRead ..))
  | bind | update | release => exact staysLegal_next.2 (.of_time (time_onServed _ _ _ fun _ => time_commitWrite ..))
  | bucketCommit => exact staysLegal_next.2 (.of_time (time_onServed _ _ _ fun _ => time_bucketWrite ..))
  | commitComplete => exact (keepsTime_execCommitComplete ..).staysLegal
  | entryWindowWrite => exact (keepsTime_execEntryWindowWrite ..).staysLegal
  | leashedSend => exact staysLegal_next.2 (.of_time (time_slotSend ..))
  | deferredSend => exact staysLegal_next.2 (.of_time (time_deferredSend ..))
  | latePacketSend => exact (keepsTime_execLatePacketSend ..).staysLegal
  | laneTake => exact (keepsTime_execLaneTake ..).staysLegal
  | laneDrive => exact (keepsTime_execLaneDrive ..).staysLegal
  | seqFrameRx => exact staysLegal_next.2 (.of_time (time_frameRx ..))
  | combineStep => exact staysLegal_next.2 (.of_time (time_combineStep ..))
  | setCheck => exact staysLegal_next.2 (.of_time (time_setCheck ..))
  | setRelease => exact staysLegal_next.2 (.of_time (time_setRelease ..))
  | setCfgWrite => exact staysLegal_next.2 (.of_time (time_setCfgWrite ..))
  | ringCfgWrite | stageCfgWrite => exact staysLegal_next.2 (.of_time (time_areaWrite ..))
  | scollLastRead | ovwLastRead => exact staysLegal_next.2 (.of_time (time_captRead ..))
  | linkDown => exact staysLegal_next.2 (.of_time (time_linkDown ..))
  | brace | cack | prepare | reRaise | prepareAck | commit | abort | stop | hold | resume | faultReport =>
    exact staysLegal_next.2 (.of_time (time_cmdAct ..))
  | portEnable | portDisable | forceDown | kindWrite => exact staysLegal_next.2 (.of_time (time_portCfgWrite ..))
  | phyAligned => exact (keepsTime_execPhyAligned ..).staysLegal
  | helloSend => exact (keepsTime_execHelloSend ..).staysLegal
  | hello => exact staysLegal_next.2 (.of_time (time_helloTake ..))
  | probe => exact (keepsTime_execProbe ..).staysLegal
  | echo => exact staysLegal_next.2 (.of_time (time_echoTake ..))
  | readySend => exact (keepsTime_execReadySend ..).staysLegal
  | ready => exact (keepsTime_execReady ..).staysLegal
  | down => exact (keepsTime_execDown ..).staysLegal
  | trainTimeout => exact (keepsTime_execTrainTimeout ..).staysLegal
  | phyLockLoss => exact (keepsTime_execPhyLockLoss ..).staysLegal
  | retrain => exact (keepsTime_execRetrain ..).staysLegal
  | nakRx => exact (keepsTime_execNakRx ..).staysLegal
  | replay => exact staysLegal_next.2 (.of_time (time_replayAll ..))
  | replayTimeout => exact (keepsTime_execReplayTimeout ..).staysLegal
  | ackTimer => exact (keepsTime_execAckTimer ..).staysLegal
  | ackRx => exact staysLegal_next.2 (.of_time (time_ackTake ..))
  | creditRx => exact (keepsTime_execCreditRx ..).staysLegal
  | linkRekey => exact (keepsTime_execLinkRekey ..).staysLegal
  | keyUpdate => exact (keepsTime_execKeyUpdate ..).staysLegal
  | keyCerts => exact (keepsTime_execKeyCerts ..).staysLegal
  | keySecret => exact (keepsTime_execKeySecret ..).staysLegal
  | keyFinish => exact (keepsTime_execKeyFinish ..).staysLegal
  | keyResend => exact staysLegal_next.2 (.of_time (time_keyResend ..))
  | authHoldoffEnd => exact staysLegal_next.2 (.of_time (time_setLink ..))
  | looseForward => exact (keepsTime_execLooseForward ..).staysLegal
  | looseOriginate => exact (keepsTime_execLooseOriginate ..).staysLegal
  | msg | rd | wr | close => exact staysLegal_next.2 (requestRx_keepsLegal ..)
  | cpl => exact (keepsTime_execCpl ..).staysLegal
  | reorderTimeout => exact execReorderTimeout_staysLegal ..
  | reqTimeout => exact (keepsTime_execReqTimeout ..).staysLegal
  | sendContextIdle => exact (keepsTime_execSendContextIdle ..).staysLegal
  | sendContextFree => exact (keepsTime_execSendContextFree ..).staysLegal
  | closedContextFree => exact (keepsTime_execClosedContextFree ..).staysLegal
  | rxIdle => exact (keepsTime_execRxIdle ..).staysLegal
  | commandRx => exact staysLegal_next.2 (.of_time (time_commandRx ..))
  | cmdRetry => exact (keepsTime_execCmdRetry ..).staysLegal
  | routeHiWrite => exact staysLegal_next.2 (.of_time (time_routeHiWrite ..))
  | portDimWrite => exact staysLegal_next.2 (.of_time (time_portDimWrite ..))
  | deflectMaskWrite => exact staysLegal_next.2 (.of_time (time_deflectMaskWrite ..))
  | pause => exact staysLegal_next.2 (.of_time (time_regSet ..))
  | drained => exact (keepsTime_execDrained ..).staysLegal
  | openFrameRx => exact staysLegal_next.2 (.of_time (time_openRx ..))
  | openRxDeliver => exact (keepsTime_execOpenRxDeliver ..).staysLegal
  | openTx => exact (keepsTime_execOpenTx ..).staysLegal
  | ifCfgWrite => exact staysLegal_next.2 (.of_time (time_ifCfgWrite ..))
  | steerHiWrite => exact staysLegal_next.2 (.of_time (time_steerHiWrite ..))
  | openIfDown => exact staysLegal_next.2 (.of_time (time_ifDown ..))
  | mgmtCommand => exact (keepsTime_execMgmtCommand ..).staysLegal
  | rcmdArm => exact (keepsTime_execRcmdArm ..).staysLegal
  | armReplay => exact (keepsTime_execArmReplay ..).staysLegal
  | rcmdStart => exact staysLegal_next.2 (.of_time (time_rcmdStart ..))
  | rcmdPrepare => exact staysLegal_next.2 (.of_time (time_rcmdPrepare ..))
  | rcmdReRaise => exact staysLegal_next.2 (.of_time (time_rcmdReRaise ..))
  | rcmdStop => exact staysLegal_next.2 (.of_time (time_rcmdStop ..))
  | rcmdHold => exact staysLegal_next.2 (.of_time (time_rcmdHold ..))
  | rcmdResume => exact staysLegal_next.2 (.of_time (time_rcmdResume ..))
  | rcmdDiscard => exact staysLegal_next.2 (.of_time (time_rcmdDiscard ..))
  | prepTimeout => exact (keepsTime_execPrepTimeout ..).staysLegal
  | noCommit => exact (keepsTime_execNoCommit ..).staysLegal
  | raisingStart => exact (keepsTime_execRaisingStart ..).staysLegal
  | stopEffect => exact (keepsTime_execStopEffect ..).staysLegal
  | holdEffect => exact (keepsTime_execHoldEffect ..).staysLegal
  | resumeTick => exact (keepsTime_execResumeTick ..).staysLegal
  | predecessorStop => exact (keepsTime_execPredecessorStop ..).staysLegal
  | nodeIdWrite => exact staysLegal_next.2 (.of_time (time_nodeIdWrite ..))
  | trlCfgWrite => exact staysLegal_next.2 (.of_time (time_trlCfgWrite ..))
  | certChain => exact (keepsTime_execCertChain ..).staysLegal
  | ctxCreate => exact staysLegal_next.2 (.of_time (time_ctxCreate ..))
  | ctxDestroy => exact staysLegal_next.2 (.of_time (time_ctxDestroy ..))
  | ctxCert => exact (keepsTime_execCtxCert ..).staysLegal
  | sessionOpen => exact staysLegal_next.2 (.of_time (time_sessionOpen ..))
  | sessionFinish => exact staysLegal_next.2 (.of_time (time_sessionFinish ..))
  | ioKeys => exact (keepsTime_execIoKeys ..).staysLegal
  | access => exact (keepsTime_execAccess ..).staysLegal
  | hostSessionClose => exact (keepsTime_execHostSessionClose ..).staysLegal
  | importBegin => exact (keepsTime_execImportBegin ..).staysLegal
  | importChunks => exact (keepsTime_execImportChunks ..).staysLegal
  | importEnd => exact (keepsTime_execImportEnd ..).staysLegal
  | ownerEnrol => exact staysLegal_next.2 (.of_time (time_ownerEnrol ..))
  | ownerTransfer => exact staysLegal_next.2 (.of_time (time_ownerTransfer ..))
  | rollback => exact staysLegal_next.2 (.of_time (time_ownerRollback ..))
  | identityDestroy => exact staysLegal_next.2 (.of_time (time_identityDestroy ..))
  | sealArm => exact staysLegal_next.2 (.of_time (time_sealArm ..))
  | sealDisarm => exact staysLegal_next.2 (.of_time (time_sealDisarm ..))
  | sealClear => exact staysLegal_next.2 (.of_time (time_sealClear ..))
  | mgmtKey => exact staysLegal_next.2 (.of_time (time_mgmtKey ..))
  | fabricAnchor => exact staysLegal_next.2 (.of_time (time_fabricAnchor ..))
  | nonceRenewal => exact staysLegal_next.2 (.of_time (time_renewNonce ..))
  | sealBreak => exact (keepsTime_execSealBreak ..).staysLegal
  | presenceAsserted => exact (keepsTime_execPresenceAsserted ..).staysLegal
  | presenceAbort => exact (keepsTime_execPresenceAbort ..).staysLegal
  | aliasReissue => exact (keepsTime_execAliasReissue ..).staysLegal
  | debugAttach => exact (keepsTime_execDebugAttach ..).staysLegal
  | ledgerUpdate => exact (keepsTime_execLedgerUpdate ..).staysLegal
  | correctionUpdate => exact (keepsTime_execCorrectionUpdate ..).staysLegal
  | thinStuck => exact (keepsTime_execThinStuck ..).staysLegal
  | pstateWrite pg w => exact (keepsTime_execPstateWrite pg w s).staysLegal
  | powerEntryDone => exact (keepsTime_execPowerEntryDone ..).staysLegal
  | powerExitDone => exact execPowerExitDone_staysLegal ..
  | hostPending => exact (keepsTime_execHostPending ..).staysLegal
  | unitStateWrite => exact staysLegal_next.2 (.of_time (time_onServed _ _ _ fun _ => time_unitStateWrite ..))
  | isoRelease => exact staysLegal_next.2 (.of_time (time_onServed _ _ _ fun _ => time_isoWrite ..))
  | packageReset => exact execPackageReset_staysLegal ..
  | resetPackage | resetShepherd => exact staysLegal_next.2 (resetWrite_keepsLegal ..)
  | watchdogExpiry => exact execWatchdogExpiry_staysLegal ..
  | wdtKick => exact staysLegal_next.2 (.of_time (time_wdtRestart ..))
  | shepherdTimerCompare => exact (keepsTime_execShepherdTimerCompare ..).staysLegal
  | boot => exact (keepsTime_execBoot ..).staysLegal
  | recoveryImage => exact execRecoveryImage_staysLegal ..
  | presetEnter | presetRelease => exact staysLegal_next.2 (.of_time (time_presetWrite ..))
  | partialResetEntry => exact (keepsTime_execPartialResetEntry ..).staysLegal
  | partialResetReturn => exact (keepsTime_execPartialResetReturn ..).staysLegal
  | pstWrite => exact staysLegal_next.2 (.of_time (time_pstWrite ..))
  | pstWriteDone => exact staysLegal_next.2 (.of_time (time_pstDone ..))
  | flashErase | flashProgram => exact staysLegal_next.2 (.of_time (time_flashCmdWrite ..))
  | flashDone => exact (keepsTime_execFlashDone ..).staysLegal
  | vrPoll => exact (keepsTime_execVrPoll ..).staysLegal
  | vrAlert => exact (keepsTime_execVrAlert ..).staysLegal
  | tempUpdate => exact (keepsTime_execTempUpdate ..).staysLegal
  | thermalTrip => exact (keepsTime_execThermalTrip ..).staysLegal
  | registerWrite => exact execRegisterWrite_staysLegal ..
  | latchedPairRead => exact (keepsTime_execLatchedPairRead ..).staysLegal
  | errCapt0Read => exact (keepsTime_execErrCapt0Read ..).staysLegal
  | cntClear => exact (keepsTime_execCntClear ..).staysLegal
  | cntFreeze => exact (keepsTime_execCntFreeze ..).staysLegal
  | irqForce => exact (keepsTime_execIrqForce ..).staysLegal
  | apply | applyAtReraise => exact staysLegal_next.2 (.of_time (time_pmapWrite ..))
  | partitionMapApply => exact (keepsTime_execPartitionMapApply ..).staysLegal
  | rotationWrite => exact staysLegal_next.2 (.of_time (time_rotWrite ..))
  | slotTableWindowWrite => exact (keepsTime_execSlotTableWindowWrite ..).staysLegal
  | load | unload => exact staysLegal_next.2 (.of_time (time_planCmdWrite ..))
  | loadComplete => exact (keepsTime_execLoadComplete ..).staysLegal
  | fpolicyWrite => exact staysLegal_next.2 (.of_time (time_fpolicyWrite ..))
  | auditCtrlWrite => exact staysLegal_next.2 (.of_time (time_auditWrite ..))
  | halt | haltRelease => exact staysLegal_next.2 (.of_time (time_haltWrite ..))
  | haltEffect => exact (keepsTime_execHaltEffect ..).staysLegal
  | abortSessionCommit | abortBucketCommit | abortInitCtrl => exact staysLegal_next.2 (.of_time (time_abortWrite ..))
  | raisingPreparation => exact (keepsTime_execRaisingPreparation ..).staysLegal
  | reservedOpcode => exact (keepsTime_execReservedOpcode ..).staysLegal
  | openIfUp => exact (keepsTime_execOpenIfUp ..).staysLegal
  | powerLoss => exact execPowerLoss_staysLegal ..

/-- Settles O5: no command brings an illegal length into force or into waiting. -/
theorem frameLengthStaysLegal : Obligations.FrameLengthStaysLegal := by
  unfold Obligations.FrameLengthStaysLegal
  intro s t hs hstep
  unfold step at hstep
  split at hstep
  · cases hstep
    exact hs
  · next c rest hpend => exact ((exec_staysLegal c { s with pending := rest }).next t hstep).legal hs

end Sys2Proof.Proofs
end

section
/-! PROOF. Droop stretches and their echoes (R97 to R100, R483). A run of the model over the 67 domains touches each of
them once, so what a domain is seen to do is what its own turn does: `StretchView` is what the statement says of one
domain, and `foldl_turns` carries each turn through the run. -/
namespace Sys2Proof.Proofs
open Sys2Proof Sys2Proof.Machine Sys2Proof.Safety Sys2Proof.Laws

/-! ## The stretches that are due -/

/-- Nothing is taken while the stretch owed first is not due, or the domain not free. -/
theorem tookDue_refl {d : Nat} {tp lim : Int} {m : Domain}
    (h : ∀ y ∈ m.owed.head?, y.2 + 4 ≤ lim → tp < max m.next (owedFrom d y)) : tookDue d tp lim m m :=
  ⟨0, Nat.zero_le _, rfl, rfl, by simp, fun _ => rfl, by simp, h⟩

/-- A stretch that is due by `tp` is taken, and then what is due after it. -/
theorem tookDue_cons {d n : Nat} {tp lim free : Int} {y : Nat × Int} {l : List (Nat × Int)} {m : Domain}
    (hlim : y.2 + 4 ≤ lim) (hdue : max free (owedFrom d y) ≤ tp)
    (h : tookDue d tp lim ⟨l, n + 1, max free (owedFrom d y) + 2⟩ m) : tookDue d tp lim ⟨y :: l, n, free⟩ m := by
  obtain ⟨k, hk, howed, htaken, hnext, -, hall, hhead⟩ := h
  dsimp only at hk howed htaken hnext hall
  refine ⟨k + 1, Nat.succ_le_succ hk, howed, by dsimp only; omega, by dsimp only; omega, nofun, ?_, hhead⟩
  intro z hz
  rcases List.mem_cons.1 hz with rfl | hz
  · exact ⟨hlim, (le_max_right ..).trans hdue⟩
  · exact hall z hz

/-- A domain takes by `tp` what is due by then. -/
theorem tookDue_dueTakes (d : Nat) (tp lim : Int) (l : List (Nat × Int)) (n : Nat) (free : Int) :
    tookDue d tp lim ⟨l, n, free⟩
      ⟨l.drop (dueTakes d tp lim l free).1, n + (dueTakes d tp lim l free).1, (dueTakes d tp lim l free).2⟩ := by
  induction l generalizing n free with
  | nil => exact tookDue_refl (by simp)
  | cons y l ih =>
    rw [dueTakes]
    by_cases h : y.2 + 4 ≤ lim ∧ max free (owedFrom d y) ≤ tp
    · rw [if_pos (by simpa using h)]
      refine tookDue_cons h.1 h.2 ?_
      have hrest := ih (n + 1) (max free (owedFrom d y) + 2)
      rwa [Nat.add_right_comm n 1] at hrest
    · rw [if_neg (by simpa using h)]
      refine tookDue_refl ?_
      rintro _ ⟨⟩ hlim
      exact lt_of_not_ge fun hdue => h ⟨hlim, hdue⟩

/-- A domain that takes nothing is free when it was. -/
theorem dueTakes_free {d : Nat} {tp lim free : Int} {l : List (Nat × Int)} (h : (dueTakes d tp lim l free).1 = 0) :
    (dueTakes d tp lim l free).2 = free := by
  cases l with
  | nil => rfl
  | cons y l =>
    rw [dueTakes] at h ⊢
    dsimp only at h ⊢
    split at h
    · cases h
    · next hstay => rw [if_neg hstay]

/-! ## The registers of the stretched domains -/

/-- Two registers of the stretched domains are one only if domain and offset agree. -/
theorem pgRgn_add_inj {x y o q : Nat} (ho : o < 0x1000) (hq : q < 0x1000) (h : pgRgn x + o = pgRgn y + q) :
    x = y ∧ o = q := by
  unfold pgRgn pageBase at h
  split at h <;> split at h <;> omega

/-- No register of a stretched domain is one of TIM page 0. -/
theorem pgTim0_add_ne_pgRgn {x o q : Nat} (ho : o < 0x1000) (hq : q < 0x1000) : pgTim0 + o ≠ pgRgn x + q := by
  unfold pgTim0 pgRgn pageBase
  split <;> omega

theorem pageOfKey_pgRgn {x o : Nat} (hx : x < 67) (ho : o < 0x1000) : pageOfKey (pgRgn x + o) = pgRgn x := by
  unfold pageOfKey pgRgn pageBase
  split <;> omega

/-- STRETCH_TAKEN and LAG_MAX of a domain. -/
def takenKeys (x : Nat) : List Nat := [pgRgn x + 0x48, pgRgn x + 0x4C]

/-- The registers that an echo may change. -/
def allTakenKeys : List Nat := (List.range 67).flatMap takenKeys

/-- A key of STRETCH_OWN, STRETCH_TAKEN or LAG_MAX of a domain. -/
def IsStretchKey (k : Nat) : Prop := ∃ x, ∃ o ∈ [0x44, 0x48, 0x4C], k = pgRgn x + o

theorem isStretchKey_of_mem_takenKeys {x k : Nat} (h : k ∈ takenKeys x) : IsStretchKey k := by
  rcases List.mem_pair.1 h with rfl | rfl
  · exact ⟨x, 0x48, by simp, rfl⟩
  · exact ⟨x, 0x4C, by simp, rfl⟩

theorem mem_allTakenKeys {k : Nat} : k ∈ allTakenKeys ↔ ∃ x < 67, k ∈ takenKeys x := by
  simp [allTakenKeys, List.mem_flatMap]

theorem isStretchKey_of_mem_allTakenKeys {k : Nat} (h : k ∈ allTakenKeys) : IsStretchKey k := by
  obtain ⟨x, -, hk⟩ := mem_allTakenKeys.1 h
  exact isStretchKey_of_mem_takenKeys hk

theorem not_isStretchKey_pgRgn {x o : Nat} (ho : o < 0x1000) (h : o ∉ [0x44, 0x48, 0x4C]) :
    ¬IsStretchKey (pgRgn x + o) := by
  rintro ⟨y, q, hq, he⟩
  have hlt : q < 0x1000 := by simp only [List.mem_cons, List.not_mem_nil, or_false] at hq; omega
  exact h ((pgRgn_add_inj ho hlt he).2 ▸ hq)

theorem not_isStretchKey_pgTim0 {o : Nat} (ho : o < 0x1000) : ¬IsStretchKey (pgTim0 + o) := by
  rintro ⟨y, q, hq, he⟩
  have hlt : q < 0x1000 := by simp only [List.mem_cons, List.not_mem_nil, or_false] at hq; omega
  exact pgTim0_add_ne_pgRgn ho hlt he

/-- STRETCH_OWN of a domain is not among the registers that taking a stretch changes. -/
theorem ownKey_not_mem_allTakenKeys (d : Nat) : pgRgn d + 0x44 ∉ allTakenKeys := by
  intro h
  obtain ⟨x, -, hk⟩ := mem_allTakenKeys.1 h
  rcases List.mem_pair.1 hk with he | he
  · exact absurd (pgRgn_add_inj (by decide) (by decide) he).2 (by decide)
  · exact absurd (pgRgn_add_inj (by decide) (by decide) he).2 (by decide)

/-! ## States that differ in their stretched domains -/

/-- From `s` to `t` only the stretched domains, the registers that `ks` lists and the free values drawn have moved
on. -/
def DomainsMove (ks : List Nat) (s t : State) : Prop :=
  t = { s with regs := t.regs, time.domains := t.time.domains, free := t.free } ∧ regsBut s t ks

theorem DomainsMove.refl (ks : List Nat) (s : State) : DomainsMove ks s s := ⟨rfl, fun _ _ => rfl⟩

theorem DomainsMove.trans {ks : List Nat} {s t u : State} (h : DomainsMove ks s t) (g : DomainsMove ks t u) :
    DomainsMove ks s u := by
  obtain ⟨ht, hregs⟩ := h
  obtain ⟨hu, gregs⟩ := g
  exact ⟨by rw [hu, ht], fun k hk => (gregs k hk).trans (hregs k hk)⟩

theorem DomainsMove.mono {ks ls : List Nat} {s t : State} (h : DomainsMove ks s t) (hsub : ∀ k ∈ ks, k ∈ ls) :
    DomainsMove ls s t := ⟨h.1, fun k hk => h.2 k fun hm => hk (hsub k hm)⟩

theorem DomainsMove.of_onlyRegs {ks : List Nat} {s t : State} (h : onlyRegs s t ks) : DomainsMove ks s t :=
  ⟨by rw [h.1], h.2⟩

theorem DomainsMove.setDomain (ks : List Nat) (s : State) (d : Nat) (m : Domain) :
    DomainsMove ks s (setDomain s d m) := ⟨rfl, fun _ _ => rfl⟩

section
variable {ks : List Nat} {s t : State} (h : DomainsMove ks s t) (hks : ∀ k ∈ ks, IsStretchKey k)
include h hks

theorem DomainsMove.regGet_eq {k : Nat} (hk : ¬IsStretchKey k) : regGet t k = regGet s k :=
  h.2 k fun hm => hk (hks k hm)

theorem DomainsMove.domainIdle_eq (x : Nat) : domainIdle t x = domainIdle s x := by
  unfold domainIdle regField
  rw [h.regGet_eq hks (not_isStretchKey_pgRgn (by decide) (by decide))]

theorem DomainsMove.frozen_eq (x : Nat) : frozen t (pgRgn x) = frozen s (pgRgn x) := by
  unfold frozen regBit
  rw [h.regGet_eq hks (not_isStretchKey_pgRgn (by decide) (by decide))]

/-- The length of the tick period does not hang on the stretched domains. -/
theorem DomainsMove.tickPeriods_eq : tickPeriods t = tickPeriods s := by
  have htim : ∀ o < 0x1000, regGet t (pgTim0 + o) = regGet s (pgTim0 + o) :=
    fun o ho => h.regGet_eq hks (not_isStretchKey_pgTim0 ho)
  have hdisc : discOn t = discOn s := by unfold discOn regField; rw [htim 0x44 (by decide)]
  have hphase : phaseErr t = phaseErr s := by simp only [phaseErr, htim 0x50 (by decide)]
  have hper : perInc t = perInc s := by simp only [perInc, htim 0xA4 (by decide)]
  have hlen : frameLen t = frameLen s := by rw [h.1]; rfl
  have hframe : framePeriod t = framePeriod s := by rw [h.1]; rfl
  have hstep : t.time.stepPend = s.time.stepPend := by rw [h.1]
  have hwall : t.time.wall = s.time.wall := by rw [h.1]
  have helapsed : elapsed t = elapsed s := by rw [h.1]; rfl
  unfold tickPeriods gridIndex wallAt
  rw [hdisc, hphase, hper, hlen, hframe, hstep, hwall, helapsed]

end

/-! ## What one domain is seen to do -/

/-- A stretched domain with its STRETCH_TAKEN and LAG_MAX. -/
structure StretchView where
  dom   : Domain
  count : Word
  lag   : Word

def stretchView (s : State) (x : Nat) : StretchView :=
  ⟨domainOf s x, regGet s (pgRgn x + 0x48), regGet s (pgRgn x + 0x4C)⟩

/-- STRETCH_TAKEN follows the stretches taken unless the page is frozen, and LAG_MAX comes to no more than 4 (R108,
R446). -/
def Counts (frz : Bool) (v w : StretchView) : Prop :=
  v.dom.taken ≤ w.dom.taken ∧
  (frz = false → w.count = v.count + BitVec.ofNat 32 (w.dom.taken - v.dom.taken)) ∧
  w.lag.toNat ≤ max 4 v.lag.toNat

theorem Counts.refl (frz : Bool) (v : StretchView) : Counts frz v v :=
  ⟨Nat.le_refl _, fun _ => by simp, Nat.le_max_right ..⟩

theorem Counts.trans {frz : Bool} {u v w : StretchView} (h : Counts frz u v) (g : Counts frz v w) :
    Counts frz u w := by
  obtain ⟨htaken, hcount, hlag⟩ := h
  obtain ⟨gtaken, gcount, glag⟩ := g
  refine ⟨htaken.trans gtaken, fun hf => ?_, by omega⟩
  rw [gcount hf, hcount hf, BitVec.add_assoc, ← BitVec.ofNat_add]
  congr 2
  omega

theorem domainOf_of_time {s t : State} (h : t.time = s.time) (x : Nat) : domainOf t x = domainOf s x := by
  simp only [domainOf, h]

@[simp] theorem domainOf_setDomain_self (s : State) (d : Nat) (m : Domain) : domainOf (setDomain s d m) d = m :=
  tabGet_tabSet_self _ _ _ _

theorem domainOf_setDomain_of_ne (s : State) {d y : Nat} (m : Domain) (h : y ≠ d) :
    domainOf (setDomain s d m) y = domainOf s y := tabGet_tabSet_of_ne _ _ _ h

@[simp] theorem domainOf_cntAdd (s : State) (k n x : Nat) : domainOf (cntAdd s k n) x = domainOf s x :=
  domainOf_of_time (time_cntAdd ..) x

@[simp] theorem domainOf_cntMax (s : State) (k n x : Nat) : domainOf (cntMax s k n) x = domainOf s x :=
  domainOf_of_time (time_cntMax ..) x

@[simp] theorem domainOf_freeLag (s : State) (x : Nat) : domainOf (freeLag s).2 x = domainOf s x :=
  domainOf_of_time (time_freeLag s) x

/-- The registers of one domain say nothing of another. -/
theorem stretchView_of_ne {s t : State} {x y : Nat} (h : DomainsMove (takenKeys x) s t) (hy : y ≠ x)
    (hdom : domainOf t y = domainOf s y) : stretchView t y = stretchView s y := by
  have hkey : ∀ o < 0x1000, pgRgn y + o ∉ takenKeys x := fun o ho hm => by
    rcases List.mem_pair.1 hm with he | he
    · exact hy (pgRgn_add_inj ho (by decide) he).1
    · exact hy (pgRgn_add_inj ho (by decide) he).1
  simp only [stretchView, hdom, h.2 _ (hkey 0x48 (by decide)), h.2 _ (hkey 0x4C (by decide))]

/-! ## A domain takes stretches -/

/-- A high-water mark rises at most to the value given. -/
theorem regNat_cntMax_le (s : State) (k n : Nat) : (regGet (cntMax s k n) k).toNat ≤ max n (regGet s k).toNat := by
  unfold cntMax
  split
  · exact Nat.le_max_right ..
  · rw [regGet_regSet_self, BitVec.toNat_ofNat]
    exact (Nat.mod_le ..).trans (Nat.le_max_left ..)

theorem freeLag_le (s : State) : (freeLag s).1 ≤ 4 := Nat.min_le_left ..

theorem freeLag_moves (ks : List Nat) (s : State) : DomainsMove ks s (freeLag s).2 := ⟨rfl, fun _ _ => rfl⟩

/-- Domain `d` with `k` stretches taken and counted, before a lag is noted. -/
def takenCounted (s : State) (d k : Nat) (free : Int) : State :=
  cntAdd (setDomain s d
    { owed := (domainOf s d).owed.drop k, taken := (domainOf s d).taken + k, next := free }) (pgRgn d + 0x48) k

/-- Taking no stretch does nothing, and taking some counts them, with or without a lag. -/
theorem takeFirst_cases (s : State) (d k : Nat) (free : Int) :
    (k = 0 ∧ takeFirst s d k free = s) ∨
    (k ≠ 0 ∧ (takeFirst s d k free = takenCounted s d k free ∨
      takeFirst s d k free = cntMax (freeLag (takenCounted s d k free)).2 (pgRgn d + 0x4C)
        (freeLag (takenCounted s d k free)).1)) := by
  unfold takeFirst
  split
  · next hk => exact .inl ⟨hk, rfl⟩
  · next hk =>
    refine .inr ⟨hk, ?_⟩
    dsimp only
    split
    · exact .inl rfl
    · exact .inr rfl

theorem takenCounted_moves (s : State) (d k : Nat) (free : Int) :
    DomainsMove (takenKeys d) s (takenCounted s d k free) :=
  (DomainsMove.setDomain _ s d _).trans
    ((DomainsMove.of_onlyRegs (cntAdd_only _ _ _)).mono (by simp [takenKeys]))

theorem takeFirst_moves (s : State) (d k : Nat) (free : Int) : DomainsMove (takenKeys d) s (takeFirst s d k free) := by
  have hcounted := takenCounted_moves s d k free
  rcases takeFirst_cases s d k free with ⟨-, h⟩ | ⟨-, h | h⟩ <;> rw [h]
  · exact .refl _ s
  · exact hcounted
  · exact (hcounted.trans (freeLag_moves ..)).trans
      ((DomainsMove.of_onlyRegs (cntMax_only _ _ _)).mono (by simp [takenKeys]))

theorem domainOf_takeFirst_self {s : State} {d k : Nat} {free : Int} (hfree : k = 0 → free = (domainOf s d).next) :
    domainOf (takeFirst s d k free) d =
      { owed := (domainOf s d).owed.drop k, taken := (domainOf s d).taken + k, next := free } := by
  rcases takeFirst_cases s d k free with ⟨hk, h⟩ | ⟨-, h | h⟩ <;> rw [h]
  · rw [hfree hk, hk]; rfl
  · simp [takenCounted]
  · simp [takenCounted]

theorem domainOf_takeFirst_of_ne (s : State) {d y : Nat} (k : Nat) (free : Int) (hy : y ≠ d) :
    domainOf (takeFirst s d k free) y = domainOf s y := by
  rcases takeFirst_cases s d k free with ⟨-, h⟩ | ⟨-, h | h⟩ <;> rw [h]
  · simp [takenCounted, domainOf_setDomain_of_ne s _ hy]
  · simp [takenCounted, domainOf_setDomain_of_ne s _ hy]

theorem stretchView_takeFirst_of_ne (s : State) {d y : Nat} (k : Nat) (free : Int) (hy : y ≠ d) :
    stretchView (takeFirst s d k free) y = stretchView s y :=
  stretchView_of_ne (takeFirst_moves ..) hy (domainOf_takeFirst_of_ne s k free hy)

theorem takenCounted_counts (s : State) {d : Nat} (hd : d < 67) (k : Nat) (free : Int) :
    Counts (frozen s (pgRgn d)) (stretchView s d) (stretchView (takenCounted s d k free) d) := by
  have hlag : regGet (takenCounted s d k free) (pgRgn d + 0x4C) = regGet s (pgRgn d + 0x4C) :=
    (cntAdd_only ..).2 _ (by simp)
  refine ⟨by simp [stretchView, takenCounted], fun hf => ?_, ?_⟩
  · have hpage : frozen s (pageOfKey (pgRgn d + 0x48)) = false := by rwa [pageOfKey_pgRgn hd (by decide)]
    have htaken : (domainOf (takenCounted s d k free) d).taken - (domainOf s d).taken = k := by simp [takenCounted]
    simp only [stretchView, htaken]
    exact cntAdd_counts (setDomain s d _) _ k hpage
  · simp only [stretchView, hlag]
    exact Nat.le_max_right ..

theorem takeFirst_counts (s : State) {d : Nat} (hd : d < 67) (k : Nat) (free : Int) :
    Counts (frozen s (pgRgn d)) (stretchView s d) (stretchView (takeFirst s d k free) d) := by
  have hcounted := takenCounted_counts s hd k free
  rcases takeFirst_cases s d k free with ⟨-, h⟩ | ⟨-, h | h⟩ <;> rw [h]
  · exact .refl ..
  · exact hcounted
  · refine hcounted.trans ⟨by simp [stretchView], fun _ => ?_, ?_⟩
    · have hcount := (cntMax_only (freeLag (takenCounted s d k free)).2 (pgRgn d + 0x4C)
        (freeLag (takenCounted s d k free)).1).2 (pgRgn d + 0x48) (by simp)
      simp only [stretchView, hcount, domainOf_cntMax, domainOf_freeLag, Nat.sub_self]
      exact (BitVec.add_zero _).symm
    · have hmax := regNat_cntMax_le (freeLag (takenCounted s d k free)).2 (pgRgn d + 0x4C)
        (freeLag (takenCounted s d k free)).1
      exact hmax.trans (max_le_max (freeLag_le _) (Nat.le_refl _))

/-! ## Every domain in its turn -/

/-- In a run in which every turn of `x` changes what is seen of `x` alone, each is seen to do what its own turn does.
`I` is what every turn keeps. -/
theorem foldl_turns {σ α V : Type} {f : σ → α → σ} {I : σ → Prop} {view : σ → α → V} {Q : α → V → V → Prop} {l : List α}
    (hnd : l.Nodup) (hkeep : ∀ s, ∀ x ∈ l, I s → I (f s x))
    (hself : ∀ s, ∀ x ∈ l, I s → Q x (view s x) (view (f s x) x))
    (hother : ∀ s x y, y ≠ x → view (f s x) y = view s y) {s : σ} (hs : I s) :
    I (l.foldl f s) ∧ (∀ y ∉ l, view (l.foldl f s) y = view s y) ∧ ∀ x ∈ l, Q x (view s x) (view (l.foldl f s) x) := by
  induction l generalizing s with
  | nil => exact ⟨hs, fun _ _ => rfl, by simp⟩
  | cons a l ih =>
    obtain ⟨ha, hnd⟩ := List.nodup_cons.1 hnd
    obtain ⟨hI, hout, hin⟩ := ih hnd (fun s x hx => hkeep s x (List.mem_cons_of_mem _ hx))
      (fun s x hx => hself s x (List.mem_cons_of_mem _ hx)) (hkeep s a List.mem_cons_self hs)
    refine ⟨hI, fun y hy => ?_, fun x hx => ?_⟩
    · obtain ⟨hya, hyl⟩ := not_or.1 (mt List.mem_cons.2 hy)
      exact (hout y hyl).trans (hother s a y hya)
    · rcases List.mem_cons.1 hx with rfl | hx
      · have hturn := hself s x List.mem_cons_self hs
        rwa [← hout x ha] at hturn
      · have hne : x ≠ a := fun e => ha (e ▸ hx)
        have hturn := hin x hx
        rwa [hother s a x hne] at hturn

/-- An idle domain stays as it is; another one takes what is due by `tp`, and counts it. -/
def CatchesUp (s : State) (tp : Int) (x : Nat) (v w : StretchView) : Prop :=
  (domainIdle s x = true → w = v) ∧
  (domainIdle s x = false → tookDue x tp (tickPeriods s) v.dom w.dom ∧ Counts (frozen s (pgRgn x)) v w)

/-- One turn of `catchUp`. -/
def catchUp1 (tp : Int) (s : State) (x : Nat) : State :=
  if domainIdle s x then s else takeFirst s x (takesBy s x tp).1 (takesBy s x tp).2

theorem catchUp_eq_foldl (s : State) (tp : Int) : catchUp s tp = (List.range 67).foldl (catchUp1 tp) s := rfl

theorem catchUp1_moves (tp : Int) (s : State) (x : Nat) : DomainsMove (takenKeys x) s (catchUp1 tp s x) := by
  unfold catchUp1
  split
  · exact .refl _ s
  · exact takeFirst_moves ..

theorem stretchView_catchUp1_of_ne (tp : Int) (s : State) (x y : Nat) (hy : y ≠ x) :
    stretchView (catchUp1 tp s x) y = stretchView s y := by
  unfold catchUp1
  split
  · rfl
  · exact stretchView_takeFirst_of_ne s _ _ hy

theorem catchUp1_catchesUp (tp : Int) (s : State) {x : Nat} (hx : x < 67) :
    CatchesUp s tp x (stretchView s x) (stretchView (catchUp1 tp s x) x) := by
  unfold catchUp1
  split
  · next hidle => exact ⟨fun _ => rfl, fun h => absurd (hidle.symm.trans h) (by decide)⟩
  · next hidle =>
    refine ⟨fun h => absurd h hidle, fun _ => ⟨?_, takeFirst_counts s hx _ _⟩⟩
    show tookDue x tp _ (domainOf s x) (domainOf (takeFirst s x (takesBy s x tp).1 (takesBy s x tp).2) x)
    have hfree : (takesBy s x tp).1 = 0 → (takesBy s x tp).2 = (domainOf s x).next := dueTakes_free
    rw [domainOf_takeFirst_self hfree]
    exact tookDue_dueTakes ..

theorem catchUp_catchesUp (s : State) (tp : Int) :
    DomainsMove allTakenKeys s (catchUp s tp) ∧
    ∀ x < 67, CatchesUp s tp x (stretchView s x) (stretchView (catchUp s tp) x) := by
  rw [catchUp_eq_foldl]
  obtain ⟨hmove, -, hturns⟩ := foldl_turns (f := catchUp1 tp) (I := DomainsMove allTakenKeys s) (view := stretchView)
    (Q := CatchesUp s tp) List.nodup_range
    (fun u x hx h => h.trans ((catchUp1_moves tp u x).mono fun _ hk => mem_allTakenKeys.2 ⟨x, List.mem_range.1 hx, hk⟩))
    (fun u x hx h => by
      have hturn := catchUp1_catchesUp tp u (List.mem_range.1 hx)
      have hks := fun k hk => isStretchKey_of_mem_allTakenKeys (k := k) hk
      rwa [CatchesUp, h.domainIdle_eq hks, h.frozen_eq hks, h.tickPeriods_eq hks] at hturn)
    (stretchView_catchUp1_of_ne tp) (.refl _ s)
  exact ⟨hmove, fun x hx => hturns x (List.mem_range.2 hx)⟩

/-! ## A droop (R97) -/

/-- What domain `x` owes once the stretches that begin in `st` have originated in domain `d`. -/
def owesAll (d x : Nat) (st : List Int) (m : Domain) : Domain :=
  { m with owed := st.foldl (fun l p => owe x (d, p) l) m.owed }

/-- One turn of `stretch1`. -/
def stretchTurn (d : Nat) (p : Int) (s : State) (x : Nat) : State :=
  if domainIdle s x then s else setDomain s x { domainOf s x with owed := owe x (d, p) (domainOf s x).owed }

theorem stretch1_eq_foldl (d : Nat) (s : State) (p : Int) :
    stretch1 d s p = (List.range 67).foldl (stretchTurn d p) s := rfl

/-- Every domain that is not idle comes to owe a stretch, and no register changes. -/
theorem stretch1_owes (d : Nat) (s : State) (p : Int) :
    DomainsMove [] s (stretch1 d s p) ∧
    ∀ x < 67, domainOf (stretch1 d s p) x = if domainIdle s x then domainOf s x else owesAll d x [p] (domainOf s x) := by
  rw [stretch1_eq_foldl]
  obtain ⟨hmove, -, hturns⟩ := foldl_turns (f := stretchTurn d p) (I := DomainsMove [] s) (view := domainOf)
    (Q := fun x m m' => m' = if domainIdle s x then m else owesAll d x [p] m) List.nodup_range
    (fun u x _ h => by
      unfold stretchTurn
      split
      · exact h
      · exact h.trans (.setDomain ..))
    (fun u x _ h => by
      rw [← h.domainIdle_eq (by simp) x]
      unfold stretchTurn
      split
      · rfl
      · simp [owesAll])
    (fun u x y hy => by
      unfold stretchTurn
      split
      · rfl
      · exact domainOf_setDomain_of_ne u _ hy) (.refl _ s)
  exact ⟨hmove, fun x hx => hturns x (List.mem_range.2 hx)⟩

theorem foldl_stretch1_owes (d : Nat) (st : List Int) (s : State) :
    DomainsMove [] s (st.foldl (stretch1 d) s) ∧
    ∀ x < 67, domainOf (st.foldl (stretch1 d) s) x =
      if domainIdle s x then domainOf s x else owesAll d x st (domainOf s x) := by
  induction st generalizing s with
  | nil => exact ⟨.refl _ s, fun x _ => by simp [owesAll]⟩
  | cons p st ih =>
    obtain ⟨hmove, howes⟩ := stretch1_owes d s p
    obtain ⟨hmoves, howesAll⟩ := ih (stretch1 d s p)
    rw [List.foldl_cons]
    refine ⟨hmove.trans hmoves, fun x hx => (howesAll x hx).trans ?_⟩
    generalize stretch1 d s p = u at hmove howes
    rw [howes x hx, hmove.domainIdle_eq (by simp)]
    split <;> rfl

theorem length_droopStarts (n : Nat) (second : Bool) (tp : Nat) :
    (droopStarts n second tp).length = droopCount n second := by simp [droopStarts]

theorem droop_of_slight {s : State} {d mv : Nat} (n : Nat) (second : Bool) (tp : Nat)
    (h : mv ≤ 5 * max 2 (regField s (pgRgn d + 0x40) 0 5) ∨ domainIdle s d = true) : droop s d mv n second tp = s :=
  if_pos (by simpa [or_comm] using h)

/-- `s` after the stretches of a droop have begun: the tick period has them to count, and their domain has counted
them. -/
def droopBegun (s : State) (d n : Nat) (second : Bool) (tp : Nat) : State :=
  cntAdd { s with time.starts := s.time.starts ++ droopStarts n second tp } (pgRgn d + 0x44)
    (droopStarts n second tp).length

/-- `s` after every domain has come to owe the stretches of a droop. -/
def droopOwed (s : State) (d n : Nat) (second : Bool) (tp : Nat) : State :=
  (droopStarts n second tp).foldl (stretch1 d) (droopBegun s d n second tp)

theorem droop_of_deep {s : State} {d mv : Nat} (n : Nat) (second : Bool) (tp : Nat)
    (hdeep : 5 * max 2 (regField s (pgRgn d + 0x40) 0 5) < mv) (hidle : domainIdle s d = false) :
    droop s d mv n second tp = catchUp (droopOwed s d n second tp) ((droopStarts n second tp).getLastD tp) :=
  if_neg (by simpa [hidle] using hdeep)

/-- Before they are taken, the stretches of a droop change STRETCH_OWN of its domain and what the domains owe. -/
theorem droopOwed_moves (s : State) (d n : Nat) (second : Bool) (tp : Nat) :
    DomainsMove [pgRgn d + 0x44] { s with time.starts := s.time.starts ++ droopStarts n second tp }
      (droopOwed s d n second tp) :=
  (DomainsMove.of_onlyRegs (cntAdd_only ..)).trans ((foldl_stretch1_owes ..).1.mono (by simp))

theorem isStretchKey_ownKey (d : Nat) : ∀ k ∈ [pgRgn d + 0x44], IsStretchKey k := by
  simp only [List.mem_singleton]
  rintro _ rfl
  exact ⟨d, 0x44, by simp, rfl⟩

theorem stretchView_droopOwed (s : State) (d n : Nat) (second : Bool) (tp : Nat) {x : Nat} (hx : x < 67) :
    stretchView (droopOwed s d n second tp) x =
      { stretchView s x with
        dom := if domainIdle s x then domainOf s x else owesAll d x (droopStarts n second tp) (domainOf s x) } := by
  have hkey : ∀ o < 0x1000, o ≠ 0x44 → regGet (droopOwed s d n second tp) (pgRgn x + o) = regGet s (pgRgn x + o) :=
    fun o ho hne => (droopOwed_moves s d n second tp).2 _ fun hm =>
      hne (pgRgn_add_inj ho (by decide) (List.mem_singleton.1 hm)).2
  have hbegun : DomainsMove [pgRgn d + 0x44] { s with time.starts := s.time.starts ++ droopStarts n second tp }
      (droopBegun s d n second tp) := .of_onlyRegs (cntAdd_only ..)
  have hdom : domainOf (droopBegun s d n second tp) x = domainOf s x := domainOf_cntAdd ..
  have hidle : domainIdle (droopBegun s d n second tp) x = domainIdle s x :=
    hbegun.domainIdle_eq (isStretchKey_ownKey d) x
  simp only [stretchView, hkey 0x48 (by decide) (by decide), hkey 0x4C (by decide) (by decide)]
  rw [droopOwed, (foldl_stretch1_owes ..).2 x hx, hdom, hidle]

/-- STRETCH_OWN of the domain that droops counts the stretches that it originates. -/
theorem droopOwed_ownCount {s : State} {d : Nat} (hd : d < 67) (n : Nat) (second : Bool) (tp : Nat)
    (hf : frozen s (pgRgn d) = false) :
    regGet (droopOwed s d n second tp) (pgRgn d + 0x44) =
      regGet s (pgRgn d + 0x44) + BitVec.ofNat 32 (droopCount n second) := by
  have hpage : frozen s (pageOfKey (pgRgn d + 0x44)) = false := by rwa [pageOfKey_pgRgn hd (by decide)]
  rw [droopOwed, (foldl_stretch1_owes ..).1.2 _ (by simp), ← length_droopStarts n second tp]
  exact cntAdd_counts _ _ _ hpage

/-- What the domains do in a droop, which leaves the package in a state `t`. -/
theorem catchUp_droopOwed (s : State) (d n : Nat) (second : Bool) (tp : Nat) (lastStart : Int) :
    ∃ t, catchUp (droopOwed s d n second tp) lastStart = t ∧
      DomainsMove ((pgRgn d + 0x44) :: allTakenKeys)
        { s with time.starts := s.time.starts ++ droopStarts n second tp } t ∧
      DomainsMove allTakenKeys (droopOwed s d n second tp) t ∧
      ∀ x < 67, CatchesUp { s with time.starts := s.time.starts ++ droopStarts n second tp } lastStart x
        (stretchView (droopOwed s d n second tp) x) (stretchView t x) := by
  obtain ⟨hcaught, hturns⟩ := catchUp_catchesUp (droopOwed s d n second tp) lastStart
  have hmove := droopOwed_moves s d n second tp
  have hks := isStretchKey_ownKey d
  refine ⟨_, rfl, (hmove.mono (by simp)).trans (hcaught.mono fun _ => List.mem_cons_of_mem _), hcaught, fun x hx => ?_⟩
  have hturn := hturns x hx
  rwa [CatchesUp, hmove.domainIdle_eq hks, hmove.frozen_eq hks, hmove.tickPeriods_eq hks] at hturn

/-! ## An echo (R98) -/

/-- Whether an echo in period `tp` makes domain `d` take the stretch `o`, which it owes first. -/
def echoTakes (s : State) (d tp : Nat) (o : Nat × Int) : Prop :=
  domainIdle s d = false ∧ o.2 ≤ (tp : Int) ∧ o.2 + 4 ≤ (tickPeriods s : Int)

/-- What an echo does to domain `d` when every domain has taken what was due. -/
def takeOwed (s : State) (d tp : Nat) : State :=
  match (domainOf s d).owed with
  | [] => s
  | o :: _ =>
    if domainIdle s d || (tp : Int) < o.2 || !countsNow s o.2 then s
    else takeFirst s d 1 (max (domainOf s d).next tp + 2)

theorem takeStretch_eq (s : State) (d tp : Nat) : takeStretch s d tp = takeOwed (catchUp s tp) d tp := by
  unfold takeStretch
  dsimp only
  generalize catchUp s tp = u
  rfl

/-- An echo that finds no stretch to take leaves its domain with what it has taken by then. -/
theorem takeOwed_of_none {s : State} {d tp : Nat} (h : ∀ o ∈ (domainOf s d).owed.head?, ¬echoTakes s d tp o) :
    takeOwed s d tp = s := by
  unfold takeOwed
  split
  · rfl
  · next o l howed =>
    refine if_pos ?_
    by_contra hnot
    refine h o (by rw [howed]; rfl) ?_
    simpa [echoTakes, countsNow, and_assoc] using hnot

theorem takeOwed_of_takes {s : State} {d tp : Nat} {o : Nat × Int} {l : List (Nat × Int)}
    (howed : (domainOf s d).owed = o :: l) (h : echoTakes s d tp o) :
    takeOwed s d tp = takeFirst s d 1 (max (domainOf s d).next tp + 2) := by
  obtain ⟨hidle, hfrom, hnow⟩ := h
  unfold takeOwed
  rw [howed]
  exact if_neg (by simpa [hidle, countsNow] using ⟨hfrom, hnow⟩)

/-- An echo takes the stretch that is owed first, or nothing. -/
theorem takeOwed_cases (s : State) (d tp : Nat) :
    takeOwed s d tp = s ∨ takeOwed s d tp = takeFirst s d 1 (max (domainOf s d).next tp + 2) := by
  unfold takeOwed
  split
  · exact .inl rfl
  · exact ite_eq_or_eq ..

theorem takeOwed_moves (s : State) {d : Nat} (hd : d < 67) (tp : Nat) : DomainsMove allTakenKeys s (takeOwed s d tp) := by
  rcases takeOwed_cases s d tp with h | h <;> rw [h]
  · exact .refl _ s
  · exact (takeFirst_moves ..).mono fun _ hk => mem_allTakenKeys.2 ⟨d, hd, hk⟩

theorem stretchView_takeOwed_of_ne (s : State) {d y : Nat} (tp : Nat) (hy : y ≠ d) :
    stretchView (takeOwed s d tp) y = stretchView s y := by
  rcases takeOwed_cases s d tp with h | h <;> rw [h]
  exact stretchView_takeFirst_of_ne s _ _ hy

theorem domainOf_takeOwed_of_ne (s : State) {d y : Nat} (tp : Nat) (hy : y ≠ d) :
    domainOf (takeOwed s d tp) y = domainOf s y := congrArg StretchView.dom (stretchView_takeOwed_of_ne s tp hy)

theorem takeOwed_counts (s : State) (d tp : Nat) {x : Nat} (hx : x < 67) :
    Counts (frozen s (pgRgn x)) (stretchView s x) (stretchView (takeOwed s d tp) x) := by
  by_cases hxd : x = d
  · subst hxd
    rcases takeOwed_cases s x tp with h | h <;> rw [h]
    · exact .refl ..
    · exact takeFirst_counts s hx _ _
  · rw [stretchView_takeOwed_of_ne s tp hxd]
    exact .refl ..

theorem domainOf_takeOwed_of_idle (s : State) (d tp : Nat) {x : Nat} (h : domainIdle s x = true) :
    domainOf (takeOwed s d tp) x = domainOf s x := by
  by_cases hxd : x = d
  · subst hxd
    rw [takeOwed_of_none fun _ _ htakes => absurd (h.symm.trans htakes.1) (by decide)]
  · exact domainOf_takeOwed_of_ne s tp hxd

/-- A stretch that begins after the echo, or counts toward the next tick period, is not taken. -/
theorem takeOwed_of_not_yet {s : State} {d tp : Nat} {o : Nat × Int} {l : List (Nat × Int)}
    (howed : (domainOf s d).owed = o :: l) (h : (tp : Int) < o.2 ∨ (tickPeriods s : Int) < o.2 + 4) :
    takeOwed s d tp = s := by
  refine takeOwed_of_none ?_
  rw [howed]
  rintro _ ⟨⟩ ⟨-, hfrom, hnow⟩
  omega

/-- An echo that takes its stretch makes the domain free two periods after it. -/
theorem domainOf_takeOwed_of_takes {s : State} {d tp : Nat} {o : Nat × Int} {l : List (Nat × Int)}
    (howed : (domainOf s d).owed = o :: l) (h : echoTakes s d tp o) :
    domainOf (takeOwed s d tp) d =
      { owed := l, taken := (domainOf s d).taken + 1, next := max (domainOf s d).next tp + 2 } := by
  rw [takeOwed_of_takes howed h, domainOf_takeFirst_self (absurd · Nat.one_ne_zero), howed]
  rfl

/-! ## The two commands -/

theorem exec_droopStretch {d : Fin 67} {mv : Nat} (n : Nat) (second : Bool) (tp : Nat) (s : State) (h : mv ≤ 100) :
    exec (.droopStretch d mv n second tp) s = .next (droop s d.val mv n second tp) := if_neg (Nat.not_lt.2 h)

theorem exec_stretchEcho (d : Fin 67) (tp : Nat) (s : State) :
    exec (.stretchEcho ⟨d, tp⟩) s = .next (takeOwed (catchUp s tp) d.val tp) := by
  rw [← takeStretch_eq]
  rfl

/-- Settles O21: a domain's turn in a droop or an echo is the only one that changes it, and in it the domain takes what
is due. The state that `catchUp` leaves is named, so that nothing unfolds its 67 turns. -/
theorem droopStretchesAreShared : Obligations.DroopStretchesAreShared := by
  unfold Obligations.DroopStretchesAreShared
  intro s d mv n second tp hmv counters st s1 counted
  refine ⟨fun hslight => ?_, fun hdeep hidle => ?_, ?_⟩
  · rw [exec_droopStretch n second tp s hmv, droop_of_slight n second tp hslight]
  · obtain ⟨t, ht, ⟨hframe, hregs⟩, hcaught, hturns⟩ := catchUp_droopOwed s d.val n second tp (st.getLastD tp)
    have hdroop := (droop_of_deep n second tp hdeep hidle).trans ht
    refine ⟨t, (exec_droopStretch n second tp s hmv).trans (congrArg _ hdroop), hframe, hregs, fun hf => ?_, fun x hx => ?_⟩
    · exact (hcaught.2 _ (ownKey_not_mem_allTakenKeys d.val)).trans (droopOwed_ownCount d.isLt n second tp hf)
    · obtain ⟨hstays, htakes⟩ := hturns x hx
      rw [stretchView_droopOwed s d.val n second tp hx] at hstays htakes
      refine ⟨fun hoff => ?_, fun hon => ?_⟩
      · rw [if_pos hoff] at hstays
        exact congrArg StretchView.dom (hstays hoff)
      · rw [if_neg (by simp [hon])] at htakes
        obtain ⟨hdue, -, hcount, hlag⟩ := htakes hon
        exact ⟨hdue, hcount, hlag⟩
  · obtain ⟨hcaught, hturns⟩ := catchUp_catchesUp s tp
    have hexec := exec_stretchEcho d tp s
    generalize catchUp s tp = u at hcaught hturns hexec
    have hks := fun k hk => isStretchKey_of_mem_allTakenKeys (k := k) hk
    have hlen := hcaught.tickPeriods_eq hks
    obtain ⟨hframe, hregs⟩ := hcaught.trans (takeOwed_moves u d.isLt tp)
    refine ⟨_, hexec, hframe, hregs, fun x hx => ?_⟩
    obtain ⟨hstays, htakes⟩ := hturns x hx
    have hidle := hcaught.domainIdle_eq hks x
    refine ⟨fun hoff => ?_, fun hon => ?_⟩
    · exact (domainOf_takeOwed_of_idle u d tp (hidle.trans hoff)).trans (congrArg StretchView.dom (hstays hoff))
    · obtain ⟨hdue, hcounts⟩ := htakes hon
      have hlater := takeOwed_counts u d tp hx
      rw [hcaught.frozen_eq hks] at hlater
      obtain ⟨-, hcount, hlag⟩ := hcounts.trans hlater
      refine ⟨⟨hcount, hlag⟩, domainOf u x, hdue, domainOf_takeOwed_of_ne u tp, ?_, ?_⟩
      · rintro rfl howed
        rw [takeOwed_of_none (by simp [howed])]
      · rintro o l rfl howed
        rw [← hlen]
        exact ⟨fun hnot => by rw [takeOwed_of_not_yet howed hnot],
          fun hfrom hnow => domainOf_takeOwed_of_takes howed ⟨hidle.trans hon, hfrom, hnow⟩⟩

end Sys2Proof.Proofs
end

section
/-! PROOF. The null operations and the C slot, the registers of a cluster, and a bundle that breaks its encoding (R111,
R112, R115, R121 to R123, R126, R127, R131, R133, R153, R154, R275, R474). -/
namespace Sys2Proof.Proofs
open Sys2Proof Sys2Proof.Machine Sys2Proof.Safety Sys2Proof.Laws

/-! ## Issue -/

theorem issueCycle_reached {s : State} {i : Issue} (h : reached s i) : issueCycle s i = slotCycle s i := max_eq_right h.1

/-- A package that has come to a position moves on to it, and nothing else happens. -/
theorem advance_reached {s : State} {i : Issue} (h : reached s i) :
    advance s (slotCycle s i) = { s with clu.cyc := slotCycle s i } := by
  obtain ⟨hcyc, hpipe⟩ := h
  rw [advance_idle s _ hpipe, max_eq_right hcyc]

/-- The operations of a null bundle let the cycles before their position happen (R111). -/
theorem exec_nullOperation (s : State) (i : Issue) (u : VUnit) :
    ∀ c ∈ [Instr.mnop i, .vnop i u, .lnop i, .snop i, .fnop i, .cnop i],
      exec c s = .next (advance s (issueCycle s i)) := by
  simp only [List.forall_mem_cons]
  exact ⟨rfl, rfl, rfl, rfl, rfl, rfl, List.forall_mem_nil _⟩

/-! ## The C slot -/

/-- A C operation of good encoding that issues cleanly puts its own stages under way: it needs no unit and keeps none. -/
theorem next_issueOp_cInfo {s : State} {i : Issue} {due : Nat} (h : issuesCleanly s i 6 0 due)
    {op : State → Nat → OpInfo} {srcs : List Dest} {evs : List (Nat × Act)}
    (hop : op { s with clu.cyc := slotCycle s i } (slotCycle s i) = cInfo true due srcs evs) :
    (.next (issueOp s i op) : Host.Outcome State Fault Refusal) = .next (launched s i 6 evs) := by
  have hclean := issueOp_clean s i 6 0 due op h (by rw [hop]; exact ⟨rfl, rfl, rfl, rfl⟩)
  rw [hop] at hclean
  exact congrArg _ (hclean.trans (congrArg (launched s i 6) (List.append_nil evs)))

/-- LOOPB falls through at 0, and otherwise counts down and jumps (R123). -/
theorem exec_loopb {s : State} {i : Issue} (h : issuesCleanly s i 6 0 0) (k : BitVec 1) (tgt : BitVec 13) :
    exec (.loopb i k tgt) s = .next (launched s i 6
      (if lcOf s i.cl.val k.toNat = 0 then []
       else [(0, .lcWrite k (lcOf s i.cl.val k.toNat - 1)), (0, .jump tgt)])) :=
  next_issueOp_cInfo h rfl

/-- The check of a LENGTH by BSEAL (R121). -/
theorem sealLength_ok {l : BitVec 14} (hpos : 1 ≤ l.toNat) (hle : l.toNat ≤ 8192) :
    (l ≠ 0 && l.toNat ≤ 8192 : Bool) = true := by
  have hne : l ≠ 0 := by rintro rfl; exact absurd hpos (by decide)
  simpa [hle] using hne

/-- BSEAL seals the idle half where its LENGTH is 1 to 8,192 (R121). -/
theorem exec_bseal {s : State} {i : Issue} (h : issuesCleanly s i 6 0 0) (a : BitVec 5) {x : BitVec 64}
    (hx : sregOf s i.cl.val a.toNat = x) (hpos : 1 ≤ (x.extractLsb' 16 14).toNat)
    (hle : (x.extractLsb' 16 14).toNat ≤ 8192) :
    exec (.bseal i a) s = .next (launched s i 6 [(0, .sealHalf (x.extractLsb' 0 16) (x.extractLsb' 16 14))]) := by
  subst hx
  exact next_issueOp_cInfo h (congrArg (cInfo · 0 [.sreg a] _) (sealLength_ok hpos hle))

/-- Settles O7: the null operations by what moving on does, the others by what a C operation that issues cleanly does. -/
theorem controlOperationResults : Obligations.ControlOperationResults := by
  unfold Obligations.ControlOperationResults
  constructor
  · intro s i u hr c hc
    rw [exec_nullOperation s i u c hc, issueCycle_reached hr, advance_reached hr]
  · intro s i k imm16 tgt a x sh xp g pd m h
    refine ⟨?lset, fun hzero => (exec_loopb h k tgt).trans (by rw [if_pos hzero]),
      fun hcounts => (exec_loopb h k tgt).trans (by rw [if_neg hcounts]), exec_bseal h a rfl, ?bnext, ?xset, ?xadv, ?xmov,
      ?gadd, ?gsub, ?gcmps, ?gcmp, ?gtest, ?tmark⟩
    all_goals exact next_issueOp_cInfo h rfl

/-! ## Registers -/

/-- A write to p0 is discarded (R115). -/
@[simp] theorem setPreg_zero (s : State) (c : Nat) (v : BitVec 256) : setPreg s c 0 v = s := rfl

/-- Predicate p0 reads as 256 one bits (R115). -/
@[simp] theorem pregOf_zero (s : State) (c : Nat) : pregOf s c 0 = BitVec.allOnes 256 := rfl

theorem pregOf_setPreg_self (s : State) (c : Nat) {r : Nat} (v : BitVec 256) (h : r ≠ 0) :
    pregOf (setPreg s c r v) c r = v := by
  rw [setPreg, if_neg h, pregOf, if_neg h]
  exact tabGet_tabSet_self _ _ _ _

/-- Settles O19: p0 by its own two rules, and each other register by what a read after a write to it gives. -/
theorem predicateZeroIsHardWired : Obligations.PredicateZeroIsHardWired := by
  unfold Obligations.PredicateZeroIsHardWired
  intro s c r v x y n w g m
  exact ⟨⟨pregOf_zero s c, setPreg_zero s c v, pregOf_zero _ c⟩,
    fun hr _ => pregOf_setPreg_self s c v hr.ne',
    fun _ => sregOf_setSreg_self s c r x, fun _ => vregOf_setVreg_self s c r y,
    fun _ => xregOf_setXreg_self s c r x, fun _ => lcOf_setLc_self s c r n, fun _ => tileOf_setTile_self s c r w,
    fun _ => pegOf_setPeg_self s c r g, fun _ => pegCmpOf_setPegCmp_self s c r m⟩

/-! ## A bundle that breaks its encoding -/

theorem issueAt_encodingFault {s : State} {c t : Nat} {o : OpInfo} (hruns : slotRuns s c t = true) (henc : o.enc = false) :
    issueAt s c t o = encodingFault s c t o.slot := by
  simp [issueAt, hruns, henc]

/-- A slot word that no operation has, in a bundle that runs, is an encoding fault of its position (R112). -/
theorem exec_reservedOpcode_faults {s : State} {i : Issue} {k : SlotId} {w : BitVec 44} (hr : reached s i)
    (hw : slotWordOk k w.toNat = false) (hruns : slotRuns s i.cl.val (slotCycle s i) = true) :
    exec (.reservedOpcode i k w) s =
      .next (encodingFault { s with clu.cyc := slotCycle s i } i.cl.val (slotCycle s i) (slotNo k)) := by
  change slotRuns { s with clu.cyc := slotCycle s i } i.cl.val (slotCycle s i) = true at hruns
  change execReservedOpcode i k w s = _
  rw [execReservedOpcode, hw, if_neg Bool.false_ne_true, issueOp, issueCycle_reached hr, advance_reached hr,
    issueAt_encodingFault hruns rfl]

/-- An encoding fault takes back what the slots of its bundle have put under way; a stage of none of them stays. -/
theorem mem_pipe_encodingFault {s : State} {e : Ev} (h : e ∈ s.clu.pipe) (hslot : 8 ≤ e.slot) (c t k : Nat) :
    e ∈ (encodingFault s c t k).clu.pipe :=
  List.mem_append_left _ (List.mem_filter.2 ⟨h, by simp [Nat.not_lt.2 hslot]⟩)

/-- Cluster 0 at the tick that begins a frame of contents: partition 0 holds C0, and the running half has one bundle. A
landing's count reaches peg 0 in the same cycle (R131, R275). -/
def landingAtBundle : State :=
  pegArrive
    { State.reset with
      regs := [(pgDieS + 0x800, 1)]
      rai.part := [(0, { PartSt.init with kind := .contents })]
      clu.tag := [(0, { BentTag.init with valid := true, length := 1, sealed := true })] } 0 0

/-- The first position of cluster 0. -/
def firstPosition : Issue := ⟨0, 0⟩

/-- The landing's count, which belongs to no slot. -/
def landingCount : Ev := ⟨0, 8, 0, 0, .pegAdd 0 1⟩

theorem landingAtBundle_pipe : landingAtBundle.clu.pipe = [landingCount] := rfl
theorem landingAtBundle_slotCycle : slotCycle landingAtBundle firstPosition = 0 := by decide +kernel
theorem landingAtBundle_runs : slotRuns landingAtBundle 0 0 = true := by decide +kernel

theorem landingAtBundle_reached : reached landingAtBundle firstPosition := by
  rw [reached, landingAtBundle_slotCycle]
  exact ⟨le_rfl, fun _ _ => Nat.zero_le _⟩

/-- Refutes O17: of what issued for the cluster in the bundle's cycle the clause leaves fault records alone, but a
landing's count that reaches a peg in that cycle is no part of the bundle, and stays. In `landingAtBundle` one does,
and the M word 5, an opcode that no operation has, makes the bundle the null bundle. -/
theorem not_nullBundlesIssue : ¬ Obligations.NullBundlesIssue := by
  unfold Obligations.NullBundlesIssue
  rintro ⟨hword, -⟩
  obtain ⟨-, hnull⟩ := hword landingAtBundle firstPosition .m 5 landingAtBundle_reached
  have hbad : slotWordOk .m (5 : BitVec 44).toNat = false := by decide
  have hruns : slotRuns landingAtBundle firstPosition.cl.val (slotCycle landingAtBundle firstPosition) = true :=
    landingAtBundle_slotCycle ▸ landingAtBundle_runs
  obtain ⟨t, hexec, -, -, hfaults, -⟩ := hnull hbad hruns
  rw [exec_reservedOpcode_faults landingAtBundle_reached hbad hruns, Host.Outcome.next.injEq] at hexec
  have hcount : landingCount ∈ landingAtBundle.clu.pipe := landingAtBundle_pipe ▸ List.mem_singleton_self _
  have hstays : landingCount ∈ t.clu.pipe := hexec ▸ mem_pipe_encodingFault hcount le_rfl _ _ _
  obtain ⟨page, arg, hact⟩ := hfaults landingCount hstays rfl landingAtBundle_slotCycle.symm
  exact nomatch hact

end Sys2Proof.Proofs
end

section
/-! PROOF. The operations of the C, M, S and L slots that issue cleanly: what each puts under way (R143, R145, R146,
R149 to R151, R153, R154). -/
namespace Sys2Proof.Proofs
open Sys2Proof Sys2Proof.Machine Sys2Proof.Safety Sys2Proof.Laws

/-! ## Issue -/

/-- An operation of good encoding that issues cleanly and takes its unit for one cycle puts its own stages under way. -/
theorem next_issueOp_oneCycle {s : State} {i : Issue} {k u due : Nat} (h : issuesCleanly s i k u due)
    {op : State → Nat → OpInfo} {enc : Bool} {srcs : List Dest} {evs : List (Nat × Act)}
    (hop : op { s with clu.cyc := slotCycle s i } (slotCycle s i) =
      { slot := k, enc := enc, unit := u, occ := 1, due := due, srcs := srcs, evs := evs })
    (henc : enc = true) :
    (.next (issueOp s i op) : Host.Outcome State Fault Refusal) = .next (launched s i k evs) := by
  have hclean := issueOp_clean s i k u due op h (by rw [hop]; exact ⟨rfl, henc, rfl, rfl⟩)
  rw [hop] at hclean
  exact congrArg _ (hclean.trans (congrArg (launched s i k) (List.append_nil evs)))

/-- The encoding check of an operation that issues cleanly: XG is assigned, and so is what else its form asks for. -/
theorem enc_ok {xg : BitVec 4} (hxg : xg.toNat ≤ 8) {b : Bool} (hb : b = true) : (xgOk xg && b) = true := by
  simp [xgOk, hxg, hb]

/-! ## The C slot -/

/-- A scalar operation of latency 1 that issues cleanly has its value on the way to sd (R153, R154). -/
theorem next_cScalar {s : State} {i : Issue} (h : issuesCleanly s i 6 0 0) (d : BitVec 5) (srcs : List Dest)
    {f : State → Nat → BitVec 64} {v : BitVec 64} (hf : f { s with clu.cyc := slotCycle s i } i.cl.val = v) :
    (.next (cScalar i d srcs f s) : Host.Outcome State Fault Refusal) = .next (launched s i 6 [(0, .sregWrite d v)]) :=
  next_issueOp_cInfo h (congrArg (fun v => cInfo true 0 srcs [(0, .sregWrite d v)]) hf)

/-- The same of an operation of two scalar sources, which it reads at issue (R137). -/
theorem next_cBinary {s : State} {i : Issue} (h : issuesCleanly s i 6 0 0) (d a b : BitVec 5)
    (f : BitVec 64 → BitVec 64 → BitVec 64) :
    (.next (cBinary i d a b f s) : Host.Outcome State Fault Refusal) =
      .next (launched s i 6 [(0, .sregWrite d (f (sregOf s i.cl.val a.toNat) (sregOf s i.cl.val b.toNat)))]) :=
  next_cScalar h d _ rfl

/-- Settles O8: each operation is one of the two forms of latency 1, and SMUL has its own latency. -/
theorem scalarOperationResults : Obligations.ScalarOperationResults := by
  unfold Obligations.ScalarOperationResults
  intro s i d a b imm g
  refine ⟨fun h => ?_, fun h => next_issueOp_cInfo h rfl⟩
  simp only [List.forall_mem_cons]
  exact ⟨next_cScalar h d _ rfl, next_cScalar h d _ rfl, next_cScalar h d _ rfl,
    next_cBinary h d a b _, next_cBinary h d a b _, next_cBinary h d a b _, next_cBinary h d a b _,
    next_cBinary h d a b _, next_cBinary h d a b _, next_cBinary h d a b _, next_cBinary h d a b _,
    next_cScalar h d _ rfl, List.forall_mem_nil _⟩

/-! ## The M slot -/

/-- Settles O12: each is a tile operation of one cycle, whose reserved fields are zero. -/
theorem tileOperationResults : Obligations.TileOperationResults := by
  unfold Obligations.TileOperationResults
  intro s i o hxg hrsv hrsvHi
  have henc {b : Bool} (hb : b = true) : (xgOk o.xg && o.rsv = 0 && o.rsvHi = 0 && b) = true := by
    simp [xgOk, hxg, hrsv, hrsvHi, hb]
  refine ⟨fun h hrow hreg => ?mzero, fun h => ⟨?mdrain, ?mfill⟩⟩
  case mzero => exact next_issueOp_oneCycle h rfl (henc (by simp [hrow, hreg]))
  case mdrain => exact next_issueOp_oneCycle h rfl (henc rfl)
  case mfill => exact next_issueOp_oneCycle h rfl (henc rfl)

/-- A run that stays below 64 terms takes the contribution, and none closes (R146). -/
theorem mmaRuns_of_lt {r : Run} {k : Nat} (p : Contrib) (h : r.count + k < 64) :
    mmaRuns r k p = ({ count := r.count + k, parts := r.parts ++ [p] }, []) := by
  simp [mmaRuns, h.not_gt, h.not_ge]

/-- A run that reaches 64 terms closes with the contribution in it (R146). -/
theorem mmaRuns_of_eq {r : Run} {k : Nat} (p : Contrib) (h : r.count + k = 64) :
    mmaRuns r k p = (Run.init, [r.parts ++ [p]]) := by
  simp [mmaRuns, h]

/-- A run that would pass 64 terms closes as it stands, and the contribution starts the next (R146). -/
theorem mmaRuns_of_gt {r : Run} {k : Nat} (p : Contrib) (h : 64 < r.count + k) (hk : k < 64) :
    mmaRuns r k p = ({ count := k, parts := [p] }, [r.parts]) := by
  simp [mmaRuns, h, hk.not_ge, Run.init]

/-- An aligned MMA that issues cleanly puts its stages under way, and keeps its unit as long as its row says (R145,
R146, R154). -/
theorem exec_mma {s : State} {i : Issue} {o : MmaOp} (hxg : o.xg.toNat ≤ 8)
    (hal : mmaAligned (sregOf s i.cl.val o.sa.toNat) o = true)
    (h : issuesCleanly s i 0 1 (mmaInfo s i.cl.val (slotCycle s i) o).due) :
    exec (.mma i o) s = .next (launched s i 0 ((mmaInfo s i.cl.val (slotCycle s i) o).evs ++
      if 1 < (mmaTiming o.fmt.toNat).2 then [(0, .busyTo 0 (slotCycle s i + (mmaTiming o.fmt.toNat).2))] else [])) :=
  congrArg _ (issueOp_clean s i 0 1 _ (fun s t => mmaInfo s i.cl.val t o) h ⟨rfl, enc_ok hxg hal, rfl, rfl⟩)

/-- Settles O13: the launch by the operation's own stages, the counts by the three cases of a run. -/
theorem mmaRunsAndCloses : Obligations.MmaRunsAndCloses := by
  unfold Obligations.MmaRunsAndCloses
  intro s i o hxg c lat k sa seq run q hal h
  refine ⟨exec_mma hxg hal h, fun hlt => ?below, fun heq => ?full, fun hgt hk => ?past⟩
  case below => simp only [q, mmaRuns_of_lt _ hlt, and_self]
  case full => simp only [q, mmaRuns_of_eq _ heq, and_self]
  case past => simp only [q, mmaRuns_of_gt _ hgt hk, and_self]

/-! ## The S slot -/

/-- A register field below 32 names a scalar register. -/
theorem not_getLsbD_five {r : BitVec 6} (h : r.toNat < 32) : (!r.getLsbD 5) = true := by
  have : r.toNat.testBit 5 = false := Nat.testBit_lt_two_pow h
  simp [BitVec.getLsbD, this]

/-- An S operation with an aligned address and good fields, that issues cleanly, puts its own stages under way. -/
theorem next_issueOp_sInfo {s : State} {i : Issue} {o : SOp} {n due : Nat} (h : issuesCleanly s i 4 0 due)
    (hxg : o.xg.toNat ≤ 8) (ha : (sAddr s i.cl.val o n).toNat % n = 0) {op : State → Nat → OpInfo} {enc : Bool}
    {srcs : List Dest} {evs : List (Nat × Act)}
    (hop : op { s with clu.cyc := slotCycle s i } (slotCycle s i) = sInfo s i.cl.val o n enc due srcs evs)
    (henc : enc = true) :
    (.next (issueOp s i op) : Host.Outcome State Fault Refusal) = .next (launched s i 4 evs) :=
  next_issueOp_oneCycle h hop (by simp [xgOk, hxg, ha, henc])

/-- Settles O14: each is an S operation with an aligned address. -/
theorem storeSlotOperations : Obligations.StoreSlotOperations := by
  unfold Obligations.StoreSlotOperations
  intro s i o hxg
  refine ⟨fun h => ⟨fun ha => ⟨?smovl, ?smovs⟩, fun ha hreg => ⟨?sld, ?sst⟩, fun ha hreg => ?xld⟩, fun h ha => ?swb⟩
  case sld => exact next_issueOp_sInfo h hxg ha rfl (not_getLsbD_five hreg)
  case sst =>
    rw [← Nat.mod_eq_of_lt hreg]
    exact next_issueOp_sInfo h hxg ha rfl (not_getLsbD_five hreg)
  case xld => exact next_issueOp_sInfo h hxg ha rfl (decide_eq_true hreg)
  all_goals exact next_issueOp_sInfo h hxg ha rfl rfl

/-! ## The L slot -/

/-- The check of a riding activation (R150). -/
theorem rideOk_of {o : LOp} (hrides : o.aen = 1 → o.abank ≠ o.bank) (hnone : o.aen = 0 → o.abank = 0 ∧ o.ars = 0) :
    rideOk o = true := by
  rcases BitVec.eq_zero_or_eq_one o.aen with h | h
  · simp [rideOk, h, hnone h]
  · simp [rideOk, h, hrides h]

/-- An L operation of good fields that issues cleanly puts its own stages under way. -/
theorem next_issueOp_lInfo {s : State} {i : Issue} {o : LOp} {u due : Nat} (h : issuesCleanly s i 3 u due)
    (hxg : o.xg.toNat ≤ 8) {op : State → Nat → OpInfo} {enc : Bool} {srcs : List Dest} {evs : List (Nat × Act)}
    (hop : op { s with clu.cyc := slotCycle s i } (slotCycle s i) = lInfo o enc u due srcs evs) (henc : enc = true) :
    (.next (issueOp s i op) : Host.Outcome State Fault Refusal) = .next (launched s i 3 evs) :=
  next_issueOp_oneCycle h hop (enc_ok hxg henc)

/-- VACT carries its activation alone (R150). -/
theorem exec_vact {s : State} {i : Issue} {o : LOp} (h : issuesCleanly s i 3 0 0) (hxg : o.xg.toNat ≤ 8)
    (haen : o.aen = 1) (hrest : o.bank = 0 ∧ o.col = 0 ∧ o.ap = 0 ∧ o.sr = 0 ∧ o.imm = 0) :
    exec (.vact i o) s = .next (launched s i 3 (rideEvs s i.cl.val o)) :=
  next_issueOp_lInfo h hxg rfl (by simp [haen, hrest])

/-- Settles O15: each is an L operation of good fields, and a column takes along the activation that rides. -/
theorem vaultSlotOperations : Obligations.VaultSlotOperations := by
  unfold Obligations.VaultSlotOperations
  intro s i o hxg
  refine ⟨fun h => ⟨fun haen hbank hcol hap hsr himm => ?vact, fun haen hcol hap habank hars hsr himm => ?vpre⟩,
    fun hrides hnone => ?columns⟩
  case vact => simpa only [rideEvs, haen, if_true] using exec_vact h hxg haen ⟨hbank, hcol, hap, hsr, himm⟩
  case vpre => exact next_issueOp_lInfo h hxg rfl (by simp [haen, hcol, hap, habank, hars, hsr, himm])
  case columns =>
    have hride := rideOk_of hrides hnone
    refine ⟨fun h ha => ?vrd, fun h ha => ?vwr, fun h => ?vrdp, fun h ha hlt => ?bentld⟩
    case vrdp => exact next_issueOp_lInfo h hxg rfl (Bool.and_eq_true_iff.2 ⟨hride, rfl⟩)
    case bentld =>
      have haddr := Bool.and_eq_true_iff.2 ⟨decide_eq_true ha, decide_eq_true hlt⟩
      exact next_issueOp_lInfo h hxg rfl (Bool.and_eq_true_iff.2 ⟨hride, haddr⟩)
    all_goals exact next_issueOp_lInfo h hxg rfl (Bool.and_eq_true_iff.2 ⟨hride, decide_eq_true ha⟩)

end Sys2Proof.Proofs
end

section
/-! PROOF. The V slots: every operation that issues cleanly puts its result under way at its latency, with its count of
active lanes (R147, R148, R154, R174 to R185, R191 to R193, R195, R196, R253). -/
namespace Sys2Proof.Proofs
open Sys2Proof Sys2Proof.Machine Sys2Proof.Safety Sys2Proof.Laws

/-! ## Issue -/

/-- A V operation of good fields that issues cleanly: its result and its count are under way. -/
theorem next_issueOp_vInfo {s : State} {i : Issue} {u : VUnit} {o : VOp} {l : Nat × Nat} {rm : Bool}
    (h : vIssues s i u o l rm) {op : State → Nat → OpInfo} {k : EventKind} {enc : Bool} {srcs : List Dest} {res : Act}
    (hop : op { s with clu.cyc := slotCycle s i } (slotCycle s i) = vInfo s i.cl.val u o l k rm enc srcs res)
    (henc : enc = true) :
    (.next (issueOp s i op) : Host.Outcome State Fault Refusal) = .next (vLaunched s i u o k l res) := by
  obtain ⟨hissue, hxg, hlat, hrm⟩ := h
  have hgood : (xgOk o.xg && l.1 ≠ 0 && (rm || o.rm = 0) && enc) = true := by
    simpa [xgOk, hxg, hlat, henc] using hrm
  have hclean := issueOp_clean s i _ _ _ op hissue (by rw [hop]; exact ⟨rfl, hgood, rfl, rfl⟩)
  rw [hop] at hclean
  exact congrArg _ hclean

/-! ## Forms -/

/-- The answer of a V operation of latency row `l` that issues cleanly: its result and its count are under way. -/
def vNext (s : State) (i : Issue) (u : VUnit) (o : VOp) (l : VLat) (res : Act) : Host.Outcome State Fault Refusal :=
  .next (vLaunched s i u o (vKind o.fmt.toNat l.trans) (vlat l o.fmt.toNat) res)

/-- The write of `v` to vd, in the active lanes (R128, R130, R148). -/
def vdWrite (s : State) (i : Issue) (o : VOp) (v : VecReg) : Act :=
  .vregWrite o.vd (writeLanes (lanesOn s i.cl.val o) (vw o.fmt.toNat)) v

/-- Element `k` of register `r` at issue. -/
def elemOf (s : State) (i : Issue) (o : VOp) (r : BitVec 6) (k : Nat) : Nat :=
  velem (vregOf s i.cl.val r.toNat) (vw o.fmt.toNat) k

section
variable {s : State} {i : Issue} {u : VUnit} {o : VOp} {l : VLat} (h : vIssues s i u o (vlat l o.fmt.toNat) l.rm)
include h

/-- An operation that writes a vector register. -/
theorem next_vecOp {enc : Bool} (henc : enc = true) (srcs : List Dest) {f : State → Nat → VecReg} {v : VecReg}
    (hf : f { s with clu.cyc := slotCycle s i } i.cl.val = v) :
    .next (vecOp i u o l enc srcs f s) = vNext s i u o l (vdWrite s i o v) :=
  next_issueOp_vInfo h (congrArg (fun v => vInfo s _ u o _ _ l.rm enc srcs (.vregWrite o.vd _ v)) hf) henc

/-- An elementwise operation of one source. -/
theorem next_vUnary (hb : o.vb = 0) (hc : o.vc = 0) (f : Nat → Nat → Nat) :
    .next (vUnary i u o l f s) = vNext s i u o l (vdWrite s i o
      (vecOf (vw o.fmt.toNat) fun k => f o.fmt.toNat (elemOf s i o o.va k))) :=
  next_vecOp h (by simp [hb, hc]) _ rfl

/-- An elementwise operation of two sources, or its scalar form. -/
theorem next_vBinary (hc : o.vc = 0) {scalar : Bool} (hb : (!scalar || !o.vb.getLsbD 5) = true)
    (f : Nat → Nat → Nat → Nat) :
    .next (vBinary i u o l scalar f s) = vNext s i u o l (vdWrite s i o
      (vecOf (vw o.fmt.toNat) fun k => f o.fmt.toNat (elemOf s i o o.va k) (vbSource s i.cl.val o scalar k))) :=
  next_vecOp h (Bool.and_eq_true_iff.2 ⟨decide_eq_true hc, hb⟩) _ rfl

/-- An elementwise operation of three sources, or its scalar form. -/
theorem next_vTernary {scalar : Bool} (hb : (!scalar || !o.vb.getLsbD 5) = true) (f : Nat → Nat → Nat → Nat → Nat) :
    .next (vTernary i u o l scalar f s) = vNext s i u o l (vdWrite s i o
      (vecOf (vw o.fmt.toNat) fun k =>
        f o.fmt.toNat (elemOf s i o o.va k) (vbSource s i.cl.val o scalar k) (elemOf s i o o.vc k))) :=
  next_vecOp h hb _ rfl

/-- A compare. -/
theorem next_vCompare (hd : o.vd.toNat < 16)
    (hc : o.vc = 0 ∨ vw o.fmt.toNat = 16 ∧ o.vc.toNat < 2 ∨ vw o.fmt.toNat = 8 ∧ o.vc.toNat < 4)
    (f : Nat → Nat → Nat → Bool) :
    .next (vCompare i u o l f s) = vNext s i u o l
      (.pregWrite (o.vd.extractLsb' 0 4) (writeLanes (lanesOn s i.cl.val o) (vw o.fmt.toNat))
        (predOf (vw o.fmt.toNat) o.vc.toNat fun k =>
          f o.fmt.toNat (elemOf s i o o.va k) (elemOf s i o o.vb k))) := by
  refine next_issueOp_vInfo h rfl ?_
  have hsel : o.vc.toNat = 0 ∨ _ := hc.imp_left (congrArg BitVec.toNat)
  simpa [hd, or_assoc] using hsel

/-- An operation that writes a scalar register. -/
theorem next_vScalarOut (hd : o.vd.toNat < 32) {enc : Bool} (henc : enc = true) (srcs : List Dest)
    {f : State → Nat → BitVec 256 → Nat → Act} {res : Act}
    (hf : f { s with clu.cyc := slotCycle s i } i.cl.val (lanesOn s i.cl.val o) o.fmt.toNat = res) :
    .next (vScalarOut i u o l enc srcs f s) = vNext s i u o l res :=
  next_issueOp_vInfo h (congrArg (vInfo s _ u o _ _ l.rm (enc && !o.vd.getLsbD 5) srcs ·) hf)
    (Bool.and_eq_true_iff.2 ⟨henc, not_getLsbD_five hd⟩)

end

/-! ## Predicates -/

/-- The first of packed bits is the lowest, and the rest follow it. -/
theorem testBit_packElems_cons (b : Bool) (l : List (BitVec 1)) (k : Nat) :
    (packElems 1 (BitVec.ofBool b :: l)).testBit (k + 1) = (packElems 1 l).testBit k := by
  have : (packElems 1 (BitVec.ofBool b :: l)) / 2 = packElems 1 l := by
    have := (BitVec.ofBool b).isLt
    simp only [packElems, Nat.shiftLeft_eq]
    omega
  rw [Nat.testBit_succ, this]

theorem testBit_packElems_zero (b : Bool) (l : List (BitVec 1)) :
    (packElems 1 (BitVec.ofBool b :: l)).testBit 0 = b := by
  cases b <;> simp [packElems, Nat.shiftLeft_eq, Nat.add_mod]

/-- Bit `k` of packed bits is the `k`-th. -/
theorem testBit_packElems_map (f : Nat → Bool) (l : List Nat) (k : Nat) (h : k < l.length) :
    (packElems 1 (l.map fun i => BitVec.ofBool (f i))).testBit k = f l[k] := by
  induction l generalizing k with
  | nil => exact absurd h (Nat.not_lt_zero k)
  | cons x l ih =>
    cases k with
    | zero => exact testBit_packElems_zero _ _
    | succ k => exact (testBit_packElems_cons _ _ k).trans (ih k (Nat.lt_of_succ_lt_succ h))

/-- A mask holds what its predicate says of each bit. -/
theorem getLsbD_maskOf {n k : Nat} (f : Nat → Bool) (h : k < n) : (maskOf n f).getLsbD k = f k := by
  have hbit := testBit_packElems_map f (List.range n) k (by simpa using h)
  simp only [maskOf, BitVec.getLsbD_ofNat, h, decide_true, Bool.true_and, hbit, List.getElem_range]

/-- Whether the class of element `k` of the source is in the mask VC:VB; integers have none (R179). -/
def classTest (s : State) (i : Issue) (o : VOp) (k : Nat) : Bool :=
  match vfp o.fmt.toNat with
  | some f => bitOf (o.vb.toNat + 64 * o.vc.toNat) (fclass f (elemOf s i o o.va k))
  | none => false

/-- VCLASS tests each element of its source against the mask VC:VB (R148, R179). -/
theorem exec_vclass {s : State} {i : Issue} {u : VUnit} {o : VOp}
    (h : vIssues s i u o (vlat vclassLat o.fmt.toNat) false) (hd : o.vd.toNat < 16) (hc : o.vc.getLsbD 5 = false)
    (hsel : o.vc.getLsbD 4 = false ∨ vw o.fmt.toNat = 16) :
    exec (.vclass i u o) s = vNext s i u o vclassLat
      (.pregWrite (o.vd.extractLsb' 0 4) (writeLanes (lanesOn s i.cl.val o) (vw o.fmt.toNat))
        (predOf (vw o.fmt.toNat) (b2n (o.vc.getLsbD 4)) (classTest s i o))) :=
  have hsel0 : b2n (o.vc.getLsbD 4) = 0 ∨ vw o.fmt.toNat = 16 := hsel.imp_left fun h => by rw [h]; rfl
  next_issueOp_vInfo h rfl (by simpa only [hd, hc, decide_true, Bool.not_false, Bool.true_and, Bool.or_eq_true,
    decide_eq_true_eq] using hsel0)

/-! ## Elementwise operations and compares -/

/-- Settles O9: each operation is one of the forms, whose elements are its values of the elements at issue. -/
theorem elementwiseVectorResults : Obligations.ElementwiseVectorResults := by
  unfold Obligations.ElementwiseVectorResults
  refine ⟨fun s i u o => ⟨fun hb hc => ?unary, fun hc => ?binary, fun hc hb => ?scalarBinary,
    fun h => ⟨?ternary, fun hb => ?scalarTernary⟩⟩,
    fun s i u o => ⟨fun h hd hc => ?compare, fun h hd hc hsel => ?vclass⟩⟩
  case vclass =>
    refine ⟨_, exec_vclass h hd hc hsel, fun l hl => ?_⟩
    exact (getLsbD_maskOf _ hl).trans rfl
  all_goals simp only [List.forall_mem_cons, List.not_mem_nil, false_implies, implies_true, and_true]
  case unary => and_intros <;> exact fun h => next_vUnary h hb hc _
  case binary => and_intros <;> exact fun h => next_vBinary h hc rfl _
  case scalarBinary => and_intros <;> exact fun h => next_vBinary h hc (scalar := true) (not_getLsbD_five hb) _
  case ternary => exact ⟨next_vTernary (l := vfmaLat) h rfl _, next_vTernary (l := vfmaLat) h rfl _⟩
  case scalarTernary =>
    exact ⟨next_vTernary (l := vfmaLat) (scalar := true) h (not_getLsbD_five hb) _,
      next_vTernary (l := vfmaLat) (scalar := true) h (not_getLsbD_five hb) _⟩
  case compare =>
    have hform := next_vCompare (l := vmaxLat) h hd hc
    exact ⟨hform vEq, hform vLt, hform vLe⟩

/-! ## Selections, moves and conversions -/

section
variable {s : State} {i : Issue} {u : VUnit} {o : VOp}

/-- VSEL of a format other than FP64 chooses by the predicate's own bits (R493). -/
theorem exec_vsel (h : vIssues s i u o (vlat vselLat o.fmt.toNat) false) (hc : o.vc.toNat < 16) (hf : o.fmt.toNat ≠ 3) :
    exec (.vsel i u o) s = vNext s i u o vselLat (vdWrite s i o
      (blend 8192 32 (pregOf s i.cl.val o.vc.toNat) (vregOf s i.cl.val o.va.toNat)
        (vregOf s i.cl.val o.vb.toNat))) := by
  have hfmt : o.fmt ≠ 3 := fun h => hf (congrArg BitVec.toNat h)
  exact next_vecOp (l := vselLat) h (decide_eq_true hc) _ (congrArg (blend 8192 32 · _ _) (if_neg hfmt))

/-- VIOTA of an integer format counts up from the scalar (R493). -/
theorem exec_viota (h : vIssues s i u o (vlat vbcastLat o.fmt.toNat) false) (ha : o.va.toNat < 32) (hb : o.vb = 0)
    (hc : o.vc = 0) (hint : vfp o.fmt.toNat = none) :
    exec (.viota i u o) s = vNext s i u o vbcastLat (vdWrite s i o
      (vecOf (vw o.fmt.toNat) fun k => k + scalarElem (vw o.fmt.toNat) (sregOf s i.cl.val (o.va.toNat % 32)))) :=
  next_vecOp (l := vbcastLat) h (by simp only [not_getLsbD_five ha, hb, hc]; rfl) _ (by simp only [hint]; rfl)

/-- VCVT of two formats and a part that there are (R182, R493). -/
theorem exec_vcvt {l : Nat × Nat} (hl : l = if o.vc.toNat % 8 = 3 || o.fmt.toNat = 3 then (6, 2) else (4, 1))
    (h : vIssues s i u o l true) (hb : o.vb = 0) (hdst : o.fmt.toNat ≠ 7) (hsrc : o.vc.toNat % 8 ≠ 7)
    (hpart : o.vc.toNat / 8 < convRatio (o.vc.toNat % 8) o.fmt.toNat) :
    exec (.vcvt i u o) s = .next (vLaunched s i u o
      (vKind (if o.vc.toNat % 8 = 3 then 3 else o.fmt.toNat) false) l
      (.vregWrite o.vd (convLanes (o.vc.toNat % 8) o.fmt.toNat (o.vc.toNat / 8) (lanesOn s i.cl.val o))
        (convV (rmOf o.rm.toNat) (o.vc.toNat % 8) o.fmt.toNat (o.vc.toNat / 8) (vregOf s i.cl.val o.va.toNat)))) := by
  subst hl
  exact next_issueOp_vInfo h rfl (by simp [hb, hdst, hsrc, hpart])

end

/-- Settles O10: the moves by their forms, VINS and VCVT by their own results. -/
theorem moveAndConversionResults : Obligations.MoveAndConversionResults := by
  unfold Obligations.MoveAndConversionResults
  refine ⟨fun s i u o => ⟨exec_vsel, fun h hc => ?vperm, fun h => ?vrot,
    fun h ha hb hc => ⟨?vbcast, exec_viota h ha hb hc⟩, fun h hb hc => ⟨fun hd => ?vext, fun ha => ?vins⟩,
    fun h hb heven hc => ?vrng⟩, fun s i u o => ⟨fun h hb hdst hsrc hpart => ?vcvt, fun h hc hmx => ?packs⟩⟩
  case vperm => exact next_vecOp (l := vpermLat) h (decide_eq_true hc) _ rfl
  case vrot => exact next_vecOp (l := vrotLat) h rfl _ rfl
  case vbcast => exact next_vecOp (l := vbcastLat) h (by simp only [not_getLsbD_five ha, hb, hc]; rfl) _ rfl
  case vext => exact next_vScalarOut (l := vrotLat) h hd (by simp only [not_getLsbD_five hb, hc]; rfl) _ rfl
  case vins => exact next_issueOp_vInfo h rfl (by simp only [not_getLsbD_five ha, not_getLsbD_five hb, hc]; rfl)
  case vrng =>
    have hbit : (!o.vb.getLsbD 0) = true := by simp [BitVec.getLsbD, Nat.testBit_zero, heven]
    exact next_vecOp (l := vrngLat) h (by simp only [not_getLsbD_five hb, hbit, hc]; rfl) _ rfl
  case vcvt => exact exec_vcvt (by simp only [Bool.or_eq_true, decide_eq_true_eq]) h hb hdst hsrc hpart
  case packs =>
    have henc : (o.vc.toNat < 16 && (matMx o.vc.toNat || o.vb = 0) : Bool) = true := by simpa [hc] using hmx.symm
    simp only [List.forall_mem_cons]
    exact ⟨next_vecOp (l := vpackLat) h henc _ rfl, next_vecOp (l := vpackLat) h henc _ rfl, List.forall_mem_nil _⟩

/-! ## Reductions -/

/-- Settles O11: the reductions and VARGMX write a scalar register, VSCAN a vector register. -/
theorem reductionResults : Obligations.ReductionResults := by
  unfold Obligations.ReductionResults
  intro s i u o c f m A hb hc
  have henc : (o.vb = 0 && o.vc = 0 : Bool) = true := by simp [hb, hc]
  refine ⟨fun h hd => ?scalar, fun h => next_vecOp (l := vscanLat) h henc _ rfl⟩
  simp only [List.forall_mem_cons, List.not_mem_nil, false_implies, implies_true, and_true]
  and_intros <;> exact next_vScalarOut (l := vredLat) h hd henc _ rfl

end Sys2Proof.Proofs
end

section
/-! PROOF. A send whose crossing lands in the guard (R67, R152, R155). -/
namespace Sys2Proof.Proofs
open Sys2Proof Sys2Proof.Machine Sys2Proof.Safety Sys2Proof.Laws

/-- The first frame of contents of partition 0, which holds C0; the running half of cluster 0 has 8,191 bundles. -/
def sendingFrame : State :=
  { State.reset with
    regs := [(pgDieS + 0x800, 1)]
    rai.part := [(0, { PartSt.init with kind := .contents })]
    clu.tag := [(0, { BentTag.init with valid := true, length := 8191, sealed := true })] }

/-- Four cycles before the guard, which begins at 1,984 of 2,048. -/
def lateSend : Issue := ⟨0, 1980⟩

/-- An FSEND to region 1 of the die, six cycles away, of a line that is active. -/
def sendOut : FOp := { xg := 0, port := 17, lane := 0, sel := 0, sa := 0, off := 0 }

/-- Its output lane is done before the guard. -/
theorem lateSend_issuesCleanly : issuesCleanly sendingFrame lateSend 5 0 3 := by
  unfold issuesCleanly reached
  decide +kernel

/-- The stages that a state has under way. -/
def actsUnderWay (s : State) : List Act := s.clu.pipe.map (·.act)

/-- Its crossing is not, so it raises the frame-overrun fault with its own stage (R67). -/
theorem exec_lateSend : ∃ t, exec (.fsend lateSend sendOut) sendingFrame = .next t ∧
    actsUnderWay t = [.sendRead 0 17 0 true, .fault 0xD (pgClu 0) 5] :=
  ⟨_, rfl, by decide +kernel⟩

/-- Refutes O16: the clause of a send lets its output lane alone end before the guard, cycle 3, but it is complete when
its crossing has landed (R67). `lateSend` issues in position 1980 and lands in 1989, in the guard, so that a fault is
under way besides its read. -/
theorem not_fabricSlotOperations : ¬ Obligations.FabricSlotOperations := by
  unfold Obligations.FabricSlotOperations
  intro h
  obtain ⟨hsend, -⟩ := h sendingFrame lateSend sendOut (by decide) (by decide) (by decide) (by decide)
  obtain ⟨t, hexec, hacts⟩ := exec_lateSend
  have hlaunched := (hsend lateSend_issuesCleanly rfl (by decide +kernel)).symm.trans hexec
  rw [Host.Outcome.next.injEq] at hlaunched
  rw [← hlaunched] at hacts
  exact absurd (congrArg List.length hacts) (by decide +kernel)

end Sys2Proof.Proofs
end

section

/-! PROOF. Every step keeps the registers and the memories in canonical form (R117, R201, R236, R262, R412). Nine tables
carry the form; each writer of one (`regSet`, `memWrite` and what is built on them) keeps it. There is one lemma
`canonical_f` for each state function `f`, in the order of the model: `f` is a chain of updates, and `simp` walks the
chain back to the state it began with. `NextCanonical` says the same of a command that may stop at a fault. -/

namespace Sys2Proof.Proofs
open Sys2Proof Sys2Proof.Machine Sys2Proof.Safety Sys2Proof.Laws

/-- The registers and the memories that `canonical` reads, in canonical form. -/
def memoriesWf (regs : Tab Word) (mem store wbuf landing slotMem table flash sram : List Host.Cell) : Bool :=
  regsWf regs && Memory.wf mem && Memory.wf store && Memory.wf wbuf && Memory.wf landing && Memory.wf slotMem &&
  Memory.wf table && Memory.wf flash && Memory.wf sram

theorem canonical_mk (pend la l lo o t ra sec pw n ou fr r c v e se b) :
    canonical ⟨pend, r, la, c, v, e, l, lo, o, t, ra, se, sec, pw, n, b, ou, fr⟩ =
      memoriesWf r v.mem c.store c.wbuf e.landing e.slotMem se.table b.flash b.sram := rfl

theorem memoriesWf_self {s : State} (h : canonical s = true) :
    memoriesWf s.regs s.vlt.mem s.clu.store s.clu.wbuf s.edge.landing s.edge.slotMem s.ses.table s.brd.flash
      s.brd.sram = true := h

/-- What `canonical` says, table by table. -/
structure TablesWf (s : State) : Prop where
  regs : regsWf s.regs = true
  mem : Memory.wf s.vlt.mem = true
  store : Memory.wf s.clu.store = true
  wbuf : Memory.wf s.clu.wbuf = true
  landing : Memory.wf s.edge.landing = true
  slotMem : Memory.wf s.edge.slotMem = true
  table : Memory.wf s.ses.table = true
  flash : Memory.wf s.brd.flash = true
  sram : Memory.wf s.brd.sram = true

theorem tablesWf_iff {s : State} : TablesWf s ↔ canonical s = true := by
  simp only [canonical, Bool.and_eq_true]
  exact ⟨fun ⟨a, b, c, d, e, f, g, i, j⟩ => ⟨⟨⟨⟨⟨⟨⟨⟨a, b⟩, c⟩, d⟩, e⟩, f⟩, g⟩, i⟩, j⟩,
    fun ⟨⟨⟨⟨⟨⟨⟨⟨a, b⟩, c⟩, d⟩, e⟩, f⟩, g⟩, i⟩, j⟩ => ⟨a, b, c, d, e, f, g, i, j⟩⟩

theorem regsWf_filter (p : Nat × Word → Bool) {t : Tab Word} (h : regsWf t = true) : regsWf (t.filter p) = true := by
  rw [regsWf_iff] at h ⊢
  exact ⟨fun e he => h.1 e (List.mem_filter.1 he).1, h.2.filter p⟩

theorem canonical_foldl {α : Type} {f : State → α → State} (hf : ∀ s a, canonical s = true → canonical (f s a) = true)
    (l : List α) {s : State} (h : canonical s = true) : canonical (l.foldl f s) = true := by
  induction l generalizing s with
  | nil => exact h
  | cons a l ih => exact ih (hf s a h)

/-- A fold whose accumulator carries the state in front. -/
theorem canonical_foldl_fst {α β : Type} {f : State × β → α → State × β}
    (hf : ∀ x a, canonical x.1 = true → canonical (f x a).1 = true) (l : List α) {x : State × β}
    (h : canonical x.1 = true) : canonical (l.foldl f x).1 = true := by
  induction l generalizing x with
  | nil => exact h
  | cons a l ih => exact ih (hf x a h)

theorem canonical_getD {o : Option State} {s : State} (ho : ∀ t ∈ o, canonical t = true) (h : canonical s = true) :
    canonical (o.getD s) = true := by
  cases o with
  | none => exact h
  | some u => exact ho u rfl

/-- The other fields of a state may change. -/
theorem canonical_keep {s : State} (h : canonical s = true) (pend la l lo o t ra sec pw n ou fr) :
    canonical ⟨pend, s.regs, la, s.clu, s.vlt, s.edge, l, lo, o, t, ra, s.ses, sec, pw, n, s.brd, ou, fr⟩ = true := h

theorem canonical_setEdge {s : State} (h : canonical s = true) {e : Edge} (hl : Memory.wf e.landing = true)
    (hm : e.slotMem = s.edge.slotMem) : canonical { s with edge := e } = true :=
  tablesWf_iff.1 { tablesWf_iff.2 h with landing := hl, slotMem := hm ▸ (tablesWf_iff.2 h).slotMem }

theorem canonical_of_fn_eq {α : Type} {f g : State → α → State} (h : f = g) {s : State} {a : α}
    (hg : canonical (g s a) = true) : canonical (f s a) = true := h ▸ hg

theorem canonical_of_fn_eq₃ {α β γ : Type} {f g : State → α → β → γ → State} (h : f = g) {s : State} {a : α} {b : β}
    {c : γ} (hg : canonical (g s a b c) = true) : canonical (f s a b c) = true := h ▸ hg

/-- Where the command goes on, the next state is in canonical form. -/
structure NextCanonical (o : Host.Outcome State Fault Refusal) : Prop where
  next : ∀ t, o = .next t → canonical t = true

theorem nextCanonical_next {t : State} : NextCanonical (.next t) ↔ canonical t = true :=
  ⟨fun h => h.next t rfl, fun h => ⟨fun _ hu => by cases hu; exact h⟩⟩

theorem nextCanonical_fault {f : Fault} : NextCanonical (.fault f) := ⟨fun _ ht => nomatch ht⟩

section
variable {s : State} (h : canonical s = true)
include h

/-! ## Regs -/

theorem canonical_regPut (k lo w v : Nat) : canonical (regPut s k lo w v) = true := by
  simp only [regPut, canonical_regSet, h]

theorem canonical_regPairSet (k v : Nat) : canonical (regPairSet s k v) = true := by
  simp only [regPairSet, canonical_regSet, h]

/-! ## Ops -/

theorem canonical_setCtx (c : Nat) (x : Ctx) : canonical (setCtx s c x) = true := h

theorem canonical_setPart (p : Nat) (x : PartSt) : canonical (setPart s p x) = true := h

theorem canonical_setRaising (c : Nat) (r : Raising) : canonical (setRaising s c r) = true := by
  simp only [setRaising, canonical_setCtx, h]

theorem canonical_setSeq (c : Nat) (q : Seq) : canonical (setSeq s c q) = true := h

theorem canonical_drawFree (w : Nat) : canonical (drawFree s w).2 = true := h

theorem canonical_emit (o : Out) : canonical (emit s o) = true := h

theorem canonical_cntAdd (k n : Nat) : canonical (cntAdd s k n) = true := by
  simp only [cntAdd, apply_ite canonical, canonical_regSet, h, ite_self]

theorem canonical_rawAdd (k n : Nat) : canonical (rawAdd s k n) = true := by
  simp only [rawAdd, canonical_regSet, h]

theorem canonical_cntMax (k n : Nat) : canonical (cntMax s k n) = true := by
  simp only [cntMax, apply_ite canonical, canonical_regSet, h, ite_self]

theorem canonical_cntAdd64 (k n : Nat) : canonical (cntAdd64 s k n) = true := by
  simp only [cntAdd64, apply_ite canonical, canonical_regPairSet, h, ite_self]

theorem canonical_countEv (pg : Nat) (p : Option Nat) (k : EventKind) (n : Nat) :
    canonical (countEv s pg p k n) = true := by
  simp only [countEv, apply_ite canonical, canonical_mk, memoriesWf_self, h, ite_self]

theorem canonical_rollEvents (n : Nat) : canonical (rollEvents s n) = true := h

theorem canonical_setVreg (c r : Nat) (v : VecReg) : canonical (setVreg s c r v) = true := h

theorem canonical_setSreg (c r : Nat) (v : BitVec 64) : canonical (setSreg s c r v) = true := h

theorem canonical_setPreg (c r : Nat) (v : BitVec 256) : canonical (setPreg s c r v) = true := by
  simp only [setPreg, apply_ite canonical, canonical_mk, memoriesWf_self, h, ite_self]

theorem canonical_setXreg (c r : Nat) (v : BitVec 64) : canonical (setXreg s c r v) = true := h

theorem canonical_setTile (c t : Nat) (v : BitVec 131072) : canonical (setTile s c t v) = true := h

theorem canonical_setRun (c t : Nat) (r : Run) : canonical (setRun s c t r) = true := h

theorem canonical_setLc (c k : Nat) (v : BitVec 16) : canonical (setLc s c k v) = true := h

theorem canonical_setPeg (c g : Nat) (v : BitVec 32) : canonical (setPeg s c g v) = true := h

theorem canonical_setPegCmp (c g : Nat) (v : BitVec 32) : canonical (setPegCmp s c g v) = true := h

theorem canonical_setStore (c a n x : Nat) : canonical (setStore s c a n x) = true :=
  tablesWf_iff.1 { tablesWf_iff.2 h with store := memWf_memWrite _ _ _ _ (tablesWf_iff.2 h).store }

theorem canonical_setWbuf (c o n x : Nat) : canonical (setWbuf s c o n x) = true :=
  tablesWf_iff.1 { tablesWf_iff.2 h with wbuf := wf_setWbuf s c o n x (tablesWf_iff.2 h).wbuf }

theorem canonical_setBundle (c k a : Nat) (v : BitVec 256) : canonical (setBundle s c k a v) = true := h

theorem canonical_setTag (c k : Nat) (t : BentTag) : canonical (setTag s c k t) = true := h

theorem canonical_entryGone (c k : Nat) : canonical (entryGone s c k) = true := by
  simp only [entryGone, apply_ite canonical, canonical_setSeq, h, ite_self]

theorem canonical_freeBytes (n : Nat) : canonical (freeBytes s n).2 = true := by
  simp only [freeBytes, canonical_drawFree, h]

theorem canonical_pauseClear (k n : Nat) : canonical (pauseClear s k n) = true := h

/-! ## Flags -/

theorem canonical_orReg (k m : Nat) : canonical (orReg s k m) = true := by
  simp only [orReg, canonical_regSet, h]

theorem canonical_clrReg (k m : Nat) : canonical (clrReg s k m) = true := by
  simp only [clrReg, canonical_regSet, h]

theorem canonical_statSet (pg b : Nat) : canonical (statSet s pg b) = true := by
  simp only [statSet, canonical_orReg, h]

theorem canonical_irq (pg b : Nat) : canonical (irq s pg b) = true := by
  simp only [irq, canonical_orReg, h]

theorem canonical_capture (pg code pos arg : Nat) : canonical (capture s pg code pos arg) = true := by
  simp only [capture, apply_ite canonical, canonical_orReg, canonical_regSet, h, ite_self]

theorem canonical_fault (code pg pos arg : Nat) (c : Option Nat) : canonical (fault s code pg pos arg c) = true := by
  simp only [fault, canonical_capture, canonical_mk, memoriesWf_self, h]

theorem canonical_firstCapt (k v : Nat) : canonical (firstCapt s k v) = true := by
  simp only [firstCapt, apply_ite canonical, canonical_orReg, canonical_regSet, h, ite_self]

theorem canonical_collCapt (c v : Nat) : canonical (collCapt s c v) = true := by
  simp only [collCapt, apply_ite canonical, canonical_orReg, canonical_regSet, h, ite_self]

theorem canonical_lastCapt (k v : Nat) : canonical (lastCapt s k v) = true := by
  simp only [lastCapt, canonical_regSet, h]

theorem canonical_captClear (k : Nat) : canonical (captClear s k) = true := by
  simp only [captClear, canonical_clrReg, h]

theorem canonical_refusePower (pg refuser cause : Nat) : canonical (refusePower s pg refuser cause) = true := by
  simp (maxDischargeDepth := 3) only [refusePower, canonical_rawAdd, canonical_regSet, h]

theorem canonical_countMasked (n : Nat) : canonical (countMasked s n) = true := by
  simp only [countMasked, canonical_rawAdd, h]

/-! ## Vault -/

theorem canonical_storeLine (v u dom data : Nat) (poison : Bool) : canonical (storeLine s v u dom data poison) = true :=
  tablesWf_iff.1 { tablesWf_iff.2 h with mem := memWf_memWrite _ _ _ _ (tablesWf_iff.2 h).mem }

theorem canonical_noteLine (v u source : Nat) (k : Nat × Bool) : canonical (noteLine s v u source k) = true := by
  simp (maxDischargeDepth := 4) only [noteLine, apply_ite canonical, canonical_lastCapt, canonical_cntAdd,
    canonical_irq, canonical_mk, memoriesWf_self, h, ite_self]

theorem canonical_readLine (v u dom source : Nat) : canonical (readLine s v u dom source).2.2 = true := by
  simp only [readLine, canonical_noteLine, h]

theorem canonical_setOpenRow (v b : Nat) (r : Option Nat) : canonical (setOpenRow s v b r) = true := h

theorem canonical_noteCmd (v : Nat) (k : VCmdKind) (b t : Nat) : canonical (noteCmd s v k b t) = true := h

theorem canonical_vaultBreach (v code b p : Nat) : canonical (vaultBreach s v code b p) = true := by
  simp (maxDischargeDepth := 3) only [vaultBreach, canonical_irq, canonical_firstCapt, canonical_fault, h]

theorem canonical_vaultActivate (v b row t : Nat) : canonical (vaultActivate s v b row t) = true := by
  unfold vaultActivate
  split <;> simp (maxDischargeDepth := 3) only [apply_ite canonical, canonical_fault, canonical_vaultBreach,
    canonical_setOpenRow, canonical_countEv, canonical_noteCmd, h, ite_self]

theorem canonical_vaultPrecharge (v b t : Nat) (implied : Bool) :
    canonical (vaultPrecharge s v b t implied) = true := by
  simp only [vaultPrecharge, apply_ite canonical, canonical_vaultBreach, canonical_setOpenRow, canonical_noteCmd, h,
    ite_self]

/-! ## Engine -/

theorem canonical_onServed (pg : Nat) (f : State → State) (hf : canonical (f s) = true) :
    canonical (onServed s pg f) = true := by
  simp only [onServed, apply_ite canonical, hf, canonical_emit, h, ite_self]

theorem canonical_countPath (src d o : Nat) : canonical (countPath s src d o) = true := by
  simp +contextual only [countPath, canonical_cntAdd, canonical_foldl, h, implies_true]

theorem canonical_countOn (l : List Nat) (o : Nat) : canonical (countOn s l o) = true := by
  simp +contextual only [countOn, canonical_cntAdd, canonical_foldl, h, implies_true]

theorem canonical_countAccess (l : List Nat) (ok : Bool) : canonical (countAccess s l ok) = true := by
  simp only [countAccess, apply_ite canonical, canonical_countOn, h, ite_self]

theorem canonical_baseCols (v n : Nat) : canonical (baseCols s v n) = true := by
  simp only [baseCols, canonical_countEv, h]

theorem canonical_countCols (v n : Nat) : canonical (countCols s v n) = true := by
  simp only [countCols, canonical_baseCols, canonical_cntAdd, h]

theorem canonical_putBytes (v u dom n data : Nat) (poison : Bool) :
    canonical (putBytes s v u dom n data poison).2 = true := by
  simp only [putBytes]
  repeat' split
  all_goals simp (maxDischargeDepth := 4) only [canonical_countCols, canonical_storeLine, canonical_readLine, h]

theorem canonical_engineWrite (src : Nat) (who : Requester) (a n data : Nat) :
    canonical (engineWrite s src who a n data).2 = true := by
  simp only [engineWrite]
  repeat' split
  all_goals simp (maxDischargeDepth := 3) only [canonical_countPath, canonical_putBytes, h]

theorem canonical_engineWrites (src : Nat) (who : Requester) (a n x f : Nat) :
    canonical (engineWrites s src who a n x f).2 = true := by
  induction f generalizing s a n x with
  | zero => exact h
  | succ f ih =>
    unfold engineWrites
    split
    · exact h
    · exact ih (canonical_engineWrite h ..) ..

theorem canonical_carveWrites (src a n x : Nat) : canonical (carveWrites s src a n x) = true := by
  simp only [carveWrites, apply_ite canonical, canonical_engineWrites, h, ite_self]

theorem canonical_carveLine (src a : Nat) : canonical (carveLine s src a).2 = true := by
  simp only [carveLine]
  repeat' split
  all_goals simp (maxDischargeDepth := 4) only [canonical_countPath, canonical_readLine, canonical_countCols, h]

theorem canonical_carveRead (src a n : Nat) : canonical (carveRead s src a n).2 = true := by
  induction n generalizing s a with
  | zero => exact h
  | succ n ih => exact ih (canonical_carveLine h ..) _

/-! ## Topology -/

theorem canonical_takeSlip (x port pos : Nat) (c : Option Nat) : canonical (takeSlip s x port pos c) = true := by
  simp (maxDischargeDepth := 3) only [takeSlip, canonical_cntAdd, canonical_regPut, canonical_fault, h]

theorem canonical_noteDrift (x port : Nat) : canonical (noteDrift s x port) = true := by
  simp only [noteDrift, apply_ite canonical, canonical_regSet, h, ite_self]

theorem canonical_placeXfer (src dst port lane t : Nat) (v : Line) :
    canonical (placeXfer s src dst port lane t v).1 = true := by
  simp only [placeXfer]
  repeat' split
  all_goals exact h

/-! ## LinkOps -/

theorem canonical_setLink (p : Nat) (k : Link) : canonical (setLink s p k) = true := h

theorem canonical_noteState (pg : Nat) : canonical (noteState s pg) = true := h

theorem canonical_sendRaw (p kind aux : Nat) (replay : Bool) (ext : BitVec 176) (body : List Byte) (stomped : Bool) :
    canonical (sendRaw s p kind aux replay ext body stomped) = true := by
  simp (maxDischargeDepth := 3) only [sendRaw, apply_ite canonical, canonical_cntAdd, canonical_setLink, canonical_emit,
    h, ite_self]

theorem canonical_sendFrame (p kind aux : Nat) (replay : Bool) (ext : BitVec 176) (body : List Byte) :
    canonical (sendFrame s p kind aux replay ext body) = true := by
  simp only [sendFrame, canonical_sendRaw, h]

theorem canonical_sendIdle (p n : Nat) : canonical (sendIdle s p n) = true := by
  simp only [sendIdle, canonical_sendFrame, h]

theorem canonical_sendSeq (p kind : Nat) (ext : BitVec 176) (body : List Byte) (vc : Nat) :
    canonical (sendSeq s p kind ext body vc) = true := by
  simp (maxDischargeDepth := 3) only [sendSeq, apply_ite canonical, canonical_sendFrame, canonical_setLink,
    canonical_regPut, h, ite_self]

theorem canonical_oweCredit (p vc : Nat) : canonical (oweCredit s p vc) = true := by
  simp only [oweCredit, canonical_setLink, h]

/-! ## CmdOps -/

theorem canonical_lseCount (e o : Nat) : canonical (lseCount s e o) = true := by
  simp only [lseCount, canonical_cntAdd, h]

theorem canonical_enqueueCmd (p : Nat) (f : CmdFrame) : canonical (enqueueCmd s p f) = true := by
  simp only [enqueueCmd, apply_ite canonical, canonical_lseCount, canonical_mk, memoriesWf_self, h, ite_self]

theorem canonical_floodOn (f : CmdFrame) (but : Option Nat) : canonical (floodOn s f but) = true := by
  simp +contextual only [floodOn, apply_ite canonical, canonical_enqueueCmd, canonical_foldl, h, ite_self, implies_true]

theorem canonical_directOn (e : Nat) (f : CmdFrame) : canonical (directOn s e f) = true := by
  unfold directOn
  split <;> simp only [canonical_enqueueCmd, h]

theorem canonical_noteSeen (f : CmdFrame) : canonical (noteSeen s f) = true := h

theorem canonical_mkCmd (dst : Option Nat) (code : Nat) (ack : Bool) (raiseId len body : Nat) :
    canonical (mkCmd s dst code ack raiseId len body).2 = true :=
  h

theorem canonical_directCmd (dst code : Nat) (ack : Bool) (raiseId len body : Nat) :
    canonical (directCmd s dst code ack raiseId len body) = true := by
  simp (maxDischargeDepth := 4) only [directCmd, apply_ite canonical, canonical_mkCmd, canonical_noteSeen,
    canonical_directOn, canonical_mk, memoriesWf_self, h, ite_self]

theorem canonical_epDeliver (q hdr payload : Nat) : canonical (epDeliver s q hdr payload) = true := by
  simp only [epDeliver, apply_ite canonical, canonical_regPut, canonical_carveWrites, h, ite_self]

theorem canonical_deliverCmd (f : CmdFrame) : canonical (deliverCmd s f) = true := by
  simp only [deliverCmd, canonical_epDeliver, h]

theorem canonical_floodActed (code raiseId len body : Nat) : canonical (floodActed s code raiseId len body) = true := by
  simp (maxDischargeDepth := 4) only [floodActed, canonical_mkCmd, canonical_deliverCmd, canonical_floodOn,
    canonical_noteSeen, h]

/-! ## ClusterOps -/

theorem canonical_clearRegs (c : Nat) : canonical (clearRegs s c) = true :=
  tablesWf_iff.1 { tablesWf_iff.2 h with wbuf := memWf_memClear _ _ _ (tablesWf_iff.2 h).wbuf }

theorem canonical_emptyTables (c : Nat) : canonical (emptyTables s c) = true := by
  simp (maxDischargeDepth := 3) only [emptyTables, canonical_regSet, canonical_regPut, canonical_mk, memoriesWf_self, h]

theorem canonical_clearCluster (c : Nat) :
    canonical (clearCluster s c) = true := have ht := tablesWf_iff.2 (canonical_emptyTables (canonical_clearRegs h c) c)
  tablesWf_iff.1 { ht with store := memWf_memClear _ _ _ ht.store }

theorem canonical_loadLines (x c u n : Nat) : canonical (loadLines s x c u n).2.2 = true := by
  induction n generalizing s u with
  | zero => exact h
  | succ n ih =>
    rw [loadLines_succ_state]
    exact ih (canonical_readLine h c u x 3) _

theorem canonical_loadFault (x c : Nat) (bad : Option (Nat × Nat)) : canonical (loadFault s x c bad) = true := by
  unfold loadFault
  split <;> simp only [canonical_fault, h]

theorem canonical_loadEntryOn (x c : Nat) (prep : Bool) : canonical (loadEntryOn s x c prep) = true := by
  simp only [loadEntryOn]
  repeat' split
  all_goals simp +contextual (maxDischargeDepth := 6) only [canonical_setSeq, canonical_loadFault, canonical_setBundle,
    canonical_setTag, canonical_foldl, h, implies_true, canonical_loadLines]

theorem canonical_loadEntry (x c : Nat) (prep : Bool) : canonical (loadEntry s x c prep) = true := by
  simp only [loadEntry, apply_ite canonical, canonical_loadEntryOn, canonical_setSeq, h, ite_self]

theorem canonical_loadTables (x c : Nat) (decode prep : Bool) : canonical (loadTables s x c decode prep) = true := by
  unfold loadTables
  split
  · simp only [canonical_regSet, canonical_emptyTables, h]
  · split
    · simp only [canonical_regSet, canonical_emptyTables, h]
    · extract_lets pg u one
      have hone (acc : State × Option (Nat × Nat) × Option Nat × Option Nat × Nat) (n : Nat)
          (hacc : canonical acc.1 = true) : canonical (one acc n).1 = true := by
        simp only [one, canonical_mk, memoriesWf_self, canonical_loadLines, hacc]
      have hfold := canonical_foldl_fst hone (List.range 32) (x := (s, none, none, none, 0)) h
      generalize (List.range 32).foldl one (s, none, none, none, 0) = acc at hfold
      obtain ⟨t, line, mal, first, valid⟩ := acc
      simp only at hfold ⊢
      have hirq : canonical (if first.isSome = true then irq (regSet (regSet t (pg + 0x44) (BitVec.ofNat 32 valid))
          (pg + 0x40) (BitVec.ofNat 32 (2 * b2n (!(prep && first.isSome)) + 4 * b2n first.isSome + 8 * first.getD 0)))
          pg 1 else regSet (regSet t (pg + 0x44) (BitVec.ofNat 32 valid))
          (pg + 0x40) (BitVec.ofNat 32 (2 * b2n (!(prep && first.isSome)) + 4 * b2n first.isSome + 8 * first.getD 0)))
          = true := by
        simp (maxDischargeDepth := 3) only [apply_ite canonical, canonical_irq, canonical_regSet, hfold, ite_self]
      split
      · exact hirq
      · split
        · exact canonical_loadFault hirq ..
        · exact canonical_fault hirq ..
        · exact hirq

theorem canonical_selectBent (x c : Nat) : canonical (selectBent s x c) = true := by
  simp only [selectBent, apply_ite canonical, canonical_setSeq, canonical_fault, h, ite_self]

theorem canonical_nullBent (c : Nat) : canonical (nullBent s c) = true := by
  simp only [nullBent, canonical_setSeq, h]

/-! ## SessionOps -/

theorem canonical_entSet (d e o n x : Nat) : canonical (entSet s d e o n x) = true :=
  tablesWf_iff.1 { tablesWf_iff.2 h with table := memWf_memWrite _ _ _ _ (tablesWf_iff.2 h).table }

theorem canonical_setBound (d e : Nat) (x : Option (Nat × Nat)) : canonical (setBound s d e x) = true := h

theorem canonical_readCol (c v u : Nat) : canonical (readCol s c v u).2 = true := by
  unfold readCol
  dsimp only
  exact canonical_readLine (canonical_readLine h ..) ..

theorem canonical_writeCol (c v u data : Nat) : canonical (writeCol s c v u data) = true := by
  simp (maxDischargeDepth := 3) only [writeCol, apply_ite canonical, canonical_baseCols, canonical_storeLine, h,
    ite_self]

theorem canonical_nextBank (c v p c0 c1 o : Nat) : canonical (nextBank s c v p c0 c1 o).2.2 = true := by
  simp only [nextBank, canonical_readCol, h]

theorem canonical_setHostQ (v : Nat) (l : List HostQ) : canonical (setHostQ s v l) = true := h

theorem canonical_queueJob (v : Nat) (j : HostJob) : canonical (queueJob s v j) = true := by
  simp only [queueJob, canonical_setHostQ, h]

theorem canonical_clearLate : canonical (clearLate s) = true := h

theorem canonical_unbindCtx (c : Nat) : canonical (unbindCtx s c) = true := by
  simp +contextual (maxDischargeDepth := 4) only [unbindCtx, canonical_entSet, canonical_setBound, canonical_foldl,
    canonical_mk, memoriesWf_self, h, implies_true]

/-! ## RaiseOps -/

theorem canonical_releaseRing (c d e : Nat) : canonical (releaseRing s c d e) = true := h

theorem canonical_putSet (e k : Nat) (t : SetSt) : canonical (putSet s e k t) = true := h

theorem canonical_cancelPmap (p : Nat) : canonical (cancelPmap s p) = true := by
  unfold cancelPmap
  split <;> simp only [apply_ite canonical, canonical_regSet, canonical_mk, memoriesWf_self, h, ite_self]

theorem canonical_edgeEnd (c : Nat) : canonical (edgeEnd s c) = true := by
  simp +contextual (maxDischargeDepth := 4) only [edgeEnd, canonical_releaseRing, canonical_foldl, canonical_mk,
    memoriesWf_self, h, implies_true]

theorem canonical_endRaising (c : Nat) (st : RaiseState) : canonical (endRaising s c st) = true := by
  simp +contextual (maxDischargeDepth := 8) only [endRaising, apply_ite canonical, canonical_setRaising,
    canonical_unbindCtx, canonical_edgeEnd, canonical_regPut, canonical_setCtx, canonical_cancelPmap, canonical_foldl,
    canonical_mk, memoriesWf_self, h, ite_self, implies_true]

theorem canonical_sendTo (dst code : Nat) (ack : Bool) (raiseId len body : Nat) :
    canonical (sendTo s dst code ack raiseId len body) = true := by
  simp only [sendTo, apply_ite canonical, canonical_mkCmd, canonical_deliverCmd, canonical_directCmd, h, ite_self]

theorem canonical_faultReport (c cause cls : Nat) : canonical (faultReport s c cause cls) = true := by
  simp only [faultReport, canonical_sendTo, h]

theorem canonical_faultRaising (c cause cls : Nat) : canonical (faultRaising s c cause cls) = true := by
  simp (maxDischargeDepth := 5) only [faultRaising, canonical_floodActed, canonical_faultReport, canonical_setCtx,
    canonical_irq, canonical_endRaising, h]

theorem canonical_pstStore (i : Nat) (v : Word) : canonical (pstStore s i v) = true := by
  simp (maxDischargeDepth := 4) only [pstStore, apply_ite canonical, canonical_regSet, canonical_statSet, canonical_irq,
    h, ite_self]

/-! ## Certs -/

theorem canonical_certIssue (issuer : BitVec 4096 × BitVec 4096) (issuerName subjectName subject ext : List Byte) :
    canonical (certIssue s issuer issuerName subjectName subject ext).2 = true := by
  simp only [certIssue, canonical_drawFree, canonical_freeBytes, h]

theorem canonical_aliasIssue : canonical (aliasIssue s) = true := by
  simp only [aliasIssue, canonical_certIssue, canonical_mk, memoriesWf_self, h]

theorem canonical_ctxCertOf (c : Nat) (nonce : List Byte) : canonical (ctxCertOf s c nonce).2 = true := by
  simp only [ctxCertOf, canonical_certIssue, h]

/-! ## Pipe -/

theorem canonical_pushEv (e : Ev) : canonical (pushEv s e) = true := h

theorem canonical_pushAt (e : Ev) (stage : Nat) (a : Act) : canonical (pushAt s e stage a) = true := by
  simp only [pushAt, canonical_pushEv, h]

theorem canonical_storeLines (c a n : Nat) (on : Nat → Bool) (x : Nat) :
    canonical (storeLines s c a n on x) = true := by
  simp +contextual only [storeLines, apply_ite canonical, canonical_setStore, canonical_foldl, h, ite_self,
    implies_true]

theorem canonical_storeCollisions (now : List Ev) (t : Nat) : canonical (storeCollisions s now t) = true := by
  simp +contextual (maxDischargeDepth := 3) only [storeCollisions, canonical_fault, canonical_collCapt, canonical_foldl,
    h, implies_true]

theorem canonical_wbufCollisions (now : List Ev) (t : Nat) : canonical (wbufCollisions s now t) = true := by
  simp +contextual (maxDischargeDepth := 3) only [wbufCollisions, canonical_fault, canonical_collCapt, canonical_foldl,
    h, implies_true]

theorem canonical_auditEvent (c t kind slot : Nat) : canonical (auditEvent s c t kind slot) = true := by
  simp (maxDischargeDepth := 5) only [auditEvent, apply_ite canonical, canonical_irq, canonical_cntAdd,
    canonical_firstCapt, canonical_fault, canonical_mk, memoriesWf_self, h, ite_self]

theorem canonical_auditCycle (now : List Ev) (t : Nat) : canonical (auditCycle s now t) = true := by
  refine canonical_foldl (fun s e h => ?_) _ h
  repeat' split
  all_goals simp only [canonical_auditEvent, h]

theorem canonical_fillContrib (c seq : Nat) (f : Contrib → Contrib) : canonical (fillContrib s c seq f) = true := h

theorem canonical_xbarCollision (r port lane pos : Nat) (c : Option Nat) :
    canonical (xbarCollision s r port lane pos c) = true := by
  simp (maxDischargeDepth := 3) only [xbarCollision, canonical_irq, canonical_firstCapt, canonical_fault, h]

theorem canonical_regionOut (c port lane t : Nat) (v : Line) : canonical (regionOut s c port lane t v) = true := by
  simp (maxDischargeDepth := 5) only [regionOut, apply_ite canonical, canonical_cntAdd, canonical_placeXfer,
    canonical_xbarCollision, canonical_countEv, h, ite_self]
  repeat' split
  all_goals simp (maxDischargeDepth := 5) only [canonical_cntAdd, canonical_placeXfer, canonical_xbarCollision,
    canonical_countEv, h]

theorem canonical_deliverCol (e : Ev) (lines : BitVec 2) (dst : ColDest) (data : BitVec 1024) (bad : Bool) :
    canonical (deliverCol s e lines dst data bad) = true := by
  unfold deliverCol
  split <;> simp only [apply_ite canonical, canonical_pushAt, canonical_cntAdd, h, ite_self]

theorem canonical_planeCol (e : Ev) (o : BitVec 15) (lines : BitVec 2) (data : BitVec 1024) :
    canonical (planeCol s e o lines data) = true := by
  simp (maxDischargeDepth := 4) only [planeCol, apply_ite canonical, canonical_pushAt, canonical_cntAdd64,
    canonical_cntAdd, h]
  repeat' split
  all_goals simp (maxDischargeDepth := 4) only [canonical_pushAt, canonical_cntAdd64, canonical_cntAdd,
    canonical_countEv, canonical_irq, canonical_firstCapt, canonical_fault, h]

theorem canonical_checkCol (e : Ev) (u : Nat) (lines : BitVec 2) (k0 k1 : Nat × Bool) (dst : ColDest) (data : BitVec
    1024) :
    canonical (checkCol s e u lines k0 k1 dst data) = true := by
  simp only [checkCol, apply_ite canonical, canonical_noteLine, canonical_fault, canonical_deliverCol, h, ite_self]

theorem canonical_vaultReadCol (e : Ev) (bank : BitVec 5) (col : BitVec 4) (ap : Bool) (lines : BitVec 2) (dst :
    ColDest) :
    canonical (vaultReadCol s e bank col ap lines dst) = true := by
  simp (maxDischargeDepth := 4) only [vaultReadCol, apply_ite canonical, canonical_drawFree, canonical_vaultBreach,
    canonical_pushAt, h]
  repeat' split
  all_goals simp (maxDischargeDepth := 4) only [canonical_pushAt, canonical_countEv, canonical_noteCmd, h]

theorem canonical_vaultWriteCol (e : Ev) (bank : BitVec 5) (col : BitVec 4) (ap : Bool) (lines : BitVec 2) (data :
    BitVec 1024) :
    canonical (vaultWriteCol s e bank col ap lines data) = true := by
  simp (maxDischargeDepth := 4) only [vaultWriteCol, apply_ite canonical, canonical_vaultBreach, h]
  repeat' split
  all_goals simp +contextual (maxDischargeDepth := 4) only [apply_ite canonical, canonical_countEv, canonical_noteCmd,
    canonical_pushAt, canonical_storeLine, canonical_foldl, h, ite_self, implies_true]

theorem canonical_readStore (c a n : Nat) (bad : Bool) : canonical (readStore s c a n bad).2 = true := by
  unfold readStore
  split <;> simp only [canonical_drawFree, h]

theorem canonical_writeData (n x : Nat) (bad : Bool) : canonical (writeData s n x bad).2 = true := by
  unfold writeData
  split <;> simp only [canonical_drawFree, h]

theorem canonical_pegApply (c g t : Nat) (d : Int) : canonical (pegApply s c g t d) = true := by
  simp only [pegApply, apply_ite canonical, canonical_fault, canonical_setPeg, h, ite_self]

theorem canonical_takeInput (x : Option Nat) (pos t dst port lane : Nat) :
    canonical (takeInput s x pos t dst port lane).2 = true := by
  simp only [takeInput]
  repeat' split
  all_goals simp (maxDischargeDepth := 3) only [canonical_noteDrift, canonical_takeSlip, canonical_drawFree, h]

theorem canonical_slotCollision (x port pos : Nat) (lane : Bool) (c : Option Nat) :
    canonical (slotCollision s x port pos lane c) = true := by
  simp (maxDischargeDepth := 3) only [slotCollision, canonical_irq, canonical_firstCapt, canonical_fault, h]

theorem canonical_doAct (e : Ev) (bad : Bool) (wbad : Bool) : canonical (doAct s e bad wbad) = true := by
  simp only [doAct]
  repeat' split
  case h_49 q a n x _ =>
    have ht := tablesWf_iff.2 (canonical_writeData (canonical_countEv h (pgLnd (e.unit - 1024)) q .line 1) 64 x.toNat
      wbad)
    exact tablesWf_iff.1 { ht with landing := memWf_memWrite _ _ _ _ ht.landing }
  all_goals simp +contextual (maxDischargeDepth := 4) only [apply_ite canonical, canonical_setVreg, canonical_setSreg,
    canonical_setPreg, canonical_setXreg, canonical_setLc, canonical_setSeq, canonical_fault, canonical_auditEvent,
    canonical_countEv, canonical_setPegCmp, canonical_entryGone, canonical_setTag, canonical_setRun,
    canonical_fillContrib, canonical_readStore, canonical_setTile, canonical_pushAt, canonical_writeData,
    canonical_storeLines, canonical_setWbuf, canonical_setStore, canonical_vaultActivate, canonical_vaultPrecharge,
    canonical_vaultReadCol, canonical_vaultWriteCol, canonical_checkCol, canonical_planeCol, canonical_setBundle,
    canonical_regionOut, canonical_takeInput, canonical_cntAdd, canonical_placeXfer, canonical_slotCollision,
    canonical_foldl, canonical_mk, memoriesWf_self, h, ite_self, implies_true]

theorem canonical_pegArrive (g t : Nat) : canonical (pegArrive s g t) = true := by
  simp only [pegArrive, canonical_pushEv, h]

theorem canonical_lineCollisions (now : List Ev) (t : Nat) : canonical (lineCollisions s now t) = true := by
  simp +contextual only [lineCollisions, canonical_slotCollision, canonical_foldl, h, implies_true]

theorem canonical_pegCycle (now : List Ev) (t : Nat) : canonical (pegCycle s now t) = true := by
  simp +contextual only [pegCycle, canonical_pegApply, canonical_foldl, h, implies_true]

theorem canonical_countBanks (now : List Ev) : canonical (countBanks s now) = true := by
  simp +contextual only [countBanks, canonical_countEv, canonical_foldl, h, implies_true]

theorem canonical_runPhase (ph : Nat) (now : List Ev) : canonical (runPhase ph now s) = true := by
  simp +contextual only [runPhase, canonical_doAct, canonical_foldl, h, implies_true]

theorem canonical_runCycle (t : Nat) : canonical (runCycle s t) = true := by
  simp (maxDischargeDepth := 12) only [runCycle, canonical_storeCollisions, canonical_wbufCollisions,
    canonical_lineCollisions, canonical_auditCycle, canonical_countBanks, canonical_runPhase, canonical_pegCycle,
    canonical_mk, memoriesWf_self, h]

theorem canonical_advanceN (n target : Nat) : canonical (advanceN n target s) = true := by
  induction n generalizing s with
  | zero => exact h
  | succ n ih =>
    unfold advanceN
    split
    · exact h
    · exact ih (canonical_runCycle h _)

theorem canonical_advance (target : Nat) : canonical (advance s target) = true := by
  simp only [advance, canonical_advanceN, h]

theorem canonical_encodingFault (c t slot : Nat) : canonical (encodingFault s c t slot) = true := by
  simp (maxDischargeDepth := 3) only [encodingFault, canonical_setSeq, canonical_pushEv, canonical_mk, memoriesWf_self,
    h]

theorem canonical_issueAt (c t : Nat) (o : OpInfo) : canonical (issueAt s c t o) = true := by
  simp only [issueAt, apply_ite canonical, canonical_encodingFault, canonical_mk, memoriesWf_self, h, ite_self]

theorem canonical_issueOp (i : Issue) (op : State → Nat → OpInfo) : canonical (issueOp s i op) = true := by
  simp only [issueOp, canonical_advance, canonical_issueAt, h]

/-! ## EdgeOps -/

theorem canonical_carry (p : Nat) (u : PortUnit) (n : Nat) : canonical (carry s p u n) = true := by
  simp only [carry, apply_ite canonical, canonical_emit, canonical_mk, memoriesWf_self, h, ite_self]

theorem canonical_lateAdd (p c : Nat) (x : Leashed) : canonical (lateAdd s p c x) = true := by
  simp only [lateAdd, apply_ite canonical, canonical_fault, canonical_cntMax, canonical_mk, memoriesWf_self, h,
    ite_self]

theorem canonical_divert (p c : Nat) (x : Leashed) : canonical (divert s p c x) = true := by
  simp only [divert]
  repeat' split
  all_goals simp only [canonical_lateAdd, h]

theorem canonical_sendIn (p : Nat) (u : PortUnit) (x : Leashed) : canonical (sendIn s p u x) = true := by
  simp only [sendIn, canonical_carry, canonical_sendSeq, h]

theorem canonical_sendLeashed (p c : Nat) (u : PortUnit) (x : Leashed) : canonical (sendLeashed s p c u x) = true := by
  simp only [sendLeashed, apply_ite canonical, canonical_divert, canonical_sendIn, canonical_lateAdd, h, ite_self]

theorem canonical_noteReport (p c b : Nat) : canonical (noteReport s p c b) = true := h

theorem canonical_countLanding (e c d n : Nat) (pegEn : Bool) (peg : BitVec 14) :
    canonical (countLanding s e c d n pegEn peg) = true := by
  simp only [countLanding, apply_ite canonical, canonical_mk, memoriesWf_self, h, ite_self]

/-! ## Leashed -/

theorem canonical_slotSend (p : Nat) (short : Bool) (slot : BitVec 11) :
    canonical (slotSend s p short slot) = true := by
  simp only [slotSend]
  repeat' split
  all_goals simp (maxDischargeDepth := 3) only [canonical_advance, canonical_sendLeashed, canonical_mk, memoriesWf_self,
    h]

theorem canonical_deferredSend (p : Nat) : canonical (deferredSend s p) = true := by
  simp only [deferredSend]
  repeat' split
  all_goals simp only [canonical_lateAdd, canonical_divert, canonical_mk, memoriesWf_self, h]

theorem canonical_sendPlaced (p kind d : Nat) (body : List Byte) : canonical (sendPlaced s p kind d body) = true := by
  simp only [sendPlaced]
  repeat' split
  all_goals simp only [canonical_sendFrame, canonical_carry, h]

theorem canonical_sendTrain (p : Nat) (body : Nat) : canonical (sendTrain s p body) = true := by
  simp only [sendTrain, canonical_sendPlaced, h]

theorem canonical_sendCmds (p : Nat) (u : PortUnit) (l : List (CmdFrame × Nat)) :
    canonical (sendCmds p u l s).1 = true := by
  induction l generalizing s with
  | nil => exact h
  | cons x l ih =>
    unfold sendCmds
    split
    · exact ih (canonical_carry (canonical_sendFrame h ..) ..)
    · exact h

theorem canonical_resend (p : Nat) (x : ReplayEnt) : canonical (resend s p x) = true := by
  simp (maxDischargeDepth := 3) only [resend, apply_ite canonical, canonical_sendFrame, canonical_setLink,
    canonical_cntAdd, h, ite_self]

theorem canonical_replayUnit (p : Nat) (u : PortUnit) (n : Nat) : canonical (replayUnit p u n s) = true := by
  induction n generalizing s with
  | zero => exact h
  | succ n ih =>
    unfold replayUnit
    split
    · exact h
    · split
      · exact ih (canonical_carry (canonical_resend h ..) ..)
      · exact h

theorem canonical_sendQueued (p : Nat) (u : PortUnit) : canonical (sendQueued s p u) = true := by
  simp only [sendQueued, apply_ite canonical, canonical_sendCmds, canonical_mk, memoriesWf_self, h, ite_self]

theorem canonical_lateSend (p : Nat) (u : PortUnit) : canonical (Machine.lateSend s p u) = true := by
  unfold Machine.lateSend
  split <;> simp (maxDischargeDepth := 3) only [apply_ite canonical, canonical_sendIn, canonical_cntAdd, canonical_mk,
    memoriesWf_self, h, ite_self]

theorem nextCanonical_execLatePacketSend (u : UnitStart) : NextCanonical (execLatePacketSend u s) := by
  simp (maxDischargeDepth := 3) only [execLatePacketSend, nextCanonical_next, canonical_lateSend, canonical_sendQueued,
    canonical_replayUnit, h]

theorem canonical_laneMove (e : Nat) (pos : Nat) (x : BitVec 64) : canonical (laneMove s e pos x) = true := by
  simp only [laneMove]
  repeat' split
  all_goals simp only [canonical_advance, canonical_pushEv, h]

theorem nextCanonical_execLaneTake (e : Fin 3) (pos : BitVec 14) (ent : BitVec 64) :
    NextCanonical (execLaneTake e pos ent s) := by
  simp only [execLaneTake, nextCanonical_next, apply_ite canonical, canonical_laneMove, h, ite_self]

theorem nextCanonical_execLaneDrive (e : Fin 3) (pos : BitVec 14) (ent : BitVec 64) :
    NextCanonical (execLaneDrive e pos ent s) := by
  simp only [execLaneDrive, nextCanonical_next, apply_ite canonical, canonical_laneMove, h, ite_self]

theorem canonical_combineStep (e c gi due : Nat) : canonical (combineStep s e c gi due) = true := by
  unfold combineStep
  split
  · exact h
  split
  · exact h
  next g _ =>
  dsimp only
  split
  · exact h
  split
  · exact h
  have hev := canonical_countEv h (pgLnd e) (some (ctx s c).part) .line (packetLines g.short)
  generalize countEv s _ _ _ _ = t at hev ⊢
  split <;> simp (maxDischargeDepth := 4) only [canonical_countLanding, canonical_cntAdd, canonical_setEdge,
    memWf_memWrite, tablesWf_iff.2 h |>.landing, hev]

theorem canonical_setCheck (e k : Nat) : canonical (setCheck s e k) = true := by
  simp only [setCheck, apply_ite canonical, canonical_putSet, canonical_regPut, canonical_irq, h, ite_self]

theorem canonical_setRelease (e k : Nat) : canonical (setRelease s e k) = true := by
  unfold setRelease
  split <;> simp only [canonical_putSet, h]

theorem canonical_setCfgWrite (e k : Nat) (w : Word) : canonical (setCfgWrite s e k w) = true := by
  simp only [setCfgWrite, apply_ite canonical, canonical_statSet, canonical_regSet, h, ite_self]

theorem canonical_areaWrite (e o n : Nat) (w : Word) : canonical (areaWrite s e o n w) = true := by
  simp only [areaWrite, apply_ite canonical, canonical_statSet, canonical_regSet, h, ite_self]

theorem canonical_captRead (k : Nat) : canonical (captRead s k) = true := by
  simp only [captRead, canonical_captClear, canonical_emit, h]

/-! ## TimeOps -/

theorem canonical_taiSet (k : Nat) (v : BitVec 128) : canonical (taiSet s k v) = true := by
  simp (maxDischargeDepth := 4) only [taiSet, canonical_regSet, h]

theorem canonical_startCtrlWrite (v : Word) : canonical (startCtrlWrite s v) = true := by
  simp (maxDischargeDepth := 4) only [startCtrlWrite, apply_ite canonical, canonical_clrReg, canonical_statSet,
    canonical_regPut, h, ite_self]

theorem canonical_triggerFire : canonical (triggerFire s) = true := by
  simp only [triggerFire, apply_ite canonical, canonical_orReg, canonical_clrReg, h, ite_self]

theorem nextCanonical_execPpsOutPulse (tp : Nat) : NextCanonical (execPpsOutPulse tp s) := by
  simp only [execPpsOutPulse, nextCanonical_next, apply_ite canonical, canonical_emit, canonical_mk, memoriesWf_self, h,
    ite_self]

theorem canonical_refFollow (b : Bool) : canonical (refFollow s b) = true := by
  simp (maxDischargeDepth := 4) only [refFollow, apply_ite canonical, canonical_regSet, canonical_clrReg, canonical_irq,
    canonical_rawAdd, canonical_orReg, canonical_regPut, h, ite_self]

theorem nextCanonical_execRefInputValid (b : Bool) : NextCanonical (execRefInputValid b s) := by
  simp only [execRefInputValid, nextCanonical_next, apply_ite canonical, canonical_orReg, canonical_refFollow, h,
    ite_self]

theorem nextCanonical_execRefRevert : NextCanonical (execRefRevert s) := by
  simp only [execRefRevert, nextCanonical_next, apply_ite canonical, canonical_refFollow, h, ite_self]

theorem nextCanonical_execHoldoverExpired : NextCanonical (execHoldoverExpired s) := by
  simp only [execHoldoverExpired, nextCanonical_next, apply_ite canonical, canonical_orReg, h, ite_self]

theorem canonical_refCtrlWrite (v : Word) : canonical (refCtrlWrite s v) = true := by
  simp only [refCtrlWrite, apply_ite canonical, canonical_regPut, canonical_refFollow, h, ite_self]

theorem canonical_freeLag : canonical (freeLag s).2 = true := by
  simp only [freeLag, canonical_drawFree, h]

/-! ## FaultOps -/

theorem canonical_logFault (f : FaultRec) : canonical (logFault s f) = true := by
  simp (maxDischargeDepth := 8) only [logFault, apply_ite canonical, canonical_cntAdd, canonical_regSet, canonical_irq,
    canonical_regPut, h, ite_self]

theorem canonical_actOn (l : List FaultRec) (c : Nat) : canonical (actOn s l c) = true := by
  simp only [actOn]
  repeat' split
  all_goals simp (maxDischargeDepth := 3) only [canonical_faultRaising, canonical_floodActed, canonical_faultReport, h,
    canonical_setRaising]

theorem canonical_actThese (l wait : List FaultRec) : canonical (actThese s l wait) = true := by
  simp +contextual (maxDischargeDepth := 3) only [actThese, canonical_logFault, canonical_actOn, canonical_foldl,
    canonical_mk, memoriesWf_self, h, implies_true]

theorem canonical_actFaults : canonical (actFaults s) = true := by
  simp only [actFaults, canonical_actThese, h]

theorem canonical_actTick : canonical (actTick s) = true := by
  simp only [actTick, canonical_actThese, h]

theorem canonical_setInit (v : Nat) (x : Option InitRun) : canonical (setInit s v x) = true := h

theorem canonical_abortMark (a : AbortReq) : canonical (abortMark s a) = true := by
  simp +contextual only [abortMark, apply_ite canonical, canonical_setInit, canonical_setHostQ, canonical_foldl, h,
    ite_self, implies_true]

theorem canonical_abortWrite (d job target : Nat) : canonical (abortWrite s d job target) = true := by
  simp only [abortWrite, apply_ite canonical, canonical_abortMark, canonical_irq, canonical_regPut, canonical_mk,
    memoriesWf_self, h, ite_self]

theorem canonical_abortJob (a : AbortReq) : canonical (abortJob s a) = true := by
  simp +contextual (maxDischargeDepth := 4) only [abortJob, apply_ite canonical, canonical_setInit, canonical_setHostQ,
    canonical_setBound, canonical_entSet, canonical_foldl, h, ite_self, implies_true]

theorem canonical_resolveAbort (a : AbortReq) : canonical (resolveAbort s a) = true := by
  simp (maxDischargeDepth := 3) only [resolveAbort, apply_ite canonical, canonical_abortJob, canonical_irq,
    canonical_regPut, h, ite_self]

theorem canonical_resolveAborts : canonical (resolveAborts s) = true := by
  simp +contextual only [resolveAborts, canonical_resolveAbort, canonical_foldl, canonical_mk, memoriesWf_self, h,
    implies_true]

/-! ## Sessions -/

theorem canonical_commitWrite (d : Nat) (w : BitVec 32) : canonical (commitWrite s d w) = true := by
  simp (maxDischargeDepth := 4) only [commitWrite, apply_ite canonical, canonical_regPut, canonical_irq, h]
  repeat' split
  all_goals simp (maxDischargeDepth := 4) only [canonical_regPut, canonical_setBound, canonical_entSet,
    canonical_queueJob, h]

theorem canonical_bucketWrite (d : Nat) (w : BitVec 32) : canonical (bucketWrite s d w) = true := by
  simp only [bucketWrite, apply_ite canonical, canonical_regPut, canonical_irq, h]
  repeat' split
  all_goals simp only [canonical_regPut, canonical_queueJob, h]

theorem canonical_trailNote (c : Nat) (rcd : Nat) : canonical (trailNote s c rcd) = true := by
  simp only [trailNote, apply_ite canonical, canonical_mk, memoriesWf_self, h, ite_self]

theorem canonical_noteLatched (d job target : Nat) : canonical (noteLatched s d job target) = true := h

theorem canonical_noteDone (d job target : Nat) : canonical (noteDone s d job target) = true := by
  simp (maxDischargeDepth := 3) only [noteDone, canonical_noteLatched, canonical_irq, canonical_cntAdd, h]

theorem canonical_completeCommit (d e : Nat) (k : CommitKind) (reason : BitVec 8) :
    canonical (completeCommit s d e k reason) = true := by
  unfold completeCommit
  split <;> simp (maxDischargeDepth := 8) only [apply_ite canonical, canonical_trailNote, canonical_entSet,
    canonical_setBound, canonical_noteDone, canonical_regSet, canonical_mk, memoriesWf_self, h, ite_self]

theorem canonical_completeBucket (d c : Nat) (b : BitVec 4) : canonical (completeBucket s d c b) = true := by
  simp only [completeBucket, canonical_noteDone, canonical_trailNote, h]

theorem nextCanonical_execCommitComplete (v : Fin 1024) : NextCanonical (execCommitComplete v s) := by
  simp only [execCommitComplete, nextCanonical_next]
  repeat' split
  all_goals simp only [canonical_setHostQ, canonical_completeCommit, canonical_completeBucket, h]

theorem canonical_entryWindowWrite (d off n data : Nat) :
    ∀ t ∈ entryWindowWrite s d off n data, canonical t = true := by
  intro t ht
  unfold entryWindowWrite at ht
  simp only [Option.mem_def, Option.ite_none_left_eq_some, Option.some.injEq] at ht
  obtain ⟨-, rfl⟩ := ht
  simp +contextual only [apply_ite canonical, canonical_foldl, canonical_entSet, canonical_statSet, h, ite_self,
    implies_true]

theorem nextCanonical_execEntryWindowWrite (d : Fin 16) (off : BitVec 22) (size : AccSize) (data : BitVec 512) :
    NextCanonical (execEntryWindowWrite d off size data s) :=
  nextCanonical_next.2 (canonical_getD (canonical_entryWindowWrite h _ _ _ _) (canonical_emit h _))

/-! ## TrailOps -/

theorem canonical_trailWrite (rcd : BitVec 8192) : canonical (trailWrite s rcd) = true := by
  simp (maxDischargeDepth := 3) only [trailWrite, apply_ite canonical, canonical_irq, canonical_cntAdd, canonical_orReg,
    canonical_carveWrites, canonical_regPut, h, ite_self]

theorem canonical_doneTick : canonical (doneTick s) = true := by
  simp +contextual (maxDischargeDepth := 3) only [doneTick, canonical_entSet, canonical_foldl, canonical_mk,
    memoriesWf_self, h, implies_true]

theorem canonical_trailStep (c : Nat) (n f : BitVec 64) : canonical (trailStep s c n f) = true := by
  simp +contextual only [trailStep, apply_ite canonical, canonical_trailWrite, canonical_foldl, canonical_mk,
    memoriesWf_self, h, ite_self, implies_true]

theorem canonical_trailStart (c : Nat) : canonical (trailStart s c) = true := by
  simp only [trailStart, apply_ite canonical, canonical_trailWrite, h, ite_self]

theorem canonical_replayQueue (c : Nat) (r : BitVec 8192) : canonical (replayQueue s c r) = true := by
  simp only [replayQueue]
  repeat' split
  all_goals simp only [canonical_orReg, canonical_queueJob, h]

theorem canonical_replayTake : canonical (replayTake s) = true := by
  simp only [replayTake, canonical_cntAdd, canonical_regPut, h]

theorem canonical_replayFeed (n : Nat) : canonical (replayFeed n s) = true := by
  induction n generalizing s with
  | zero => exact h
  | succ n ih =>
    simp (maxDischargeDepth := 4) only [replayFeed, apply_ite canonical, ih, canonical_replayTake, canonical_orReg,
      canonical_replayQueue, canonical_carveRead, h, ite_self]

theorem canonical_replayRun : canonical (replayRun s) = true := by
  simp only [replayRun, apply_ite canonical, canonical_replayFeed, h, ite_self]

/-! ## FrameOps -/

theorem canonical_stepOn (c : Nat) : canonical (stepOn s c) = true := by
  simp only [stepOn, apply_ite canonical, canonical_setRaising, h, ite_self]

theorem canonical_deferredEnd (c p : Nat) : canonical (deferredEnd s c p) = true := by
  simp +contextual only [deferredEnd, apply_ite canonical, canonical_lateAdd, canonical_divert, canonical_foldl,
    canonical_mk, memoriesWf_self, h, ite_self, implies_true]

theorem canonical_frameEnd (c : Nat) : canonical (frameEnd s c) = true := by
  simp +contextual (maxDischargeDepth := 4) only [frameEnd, canonical_deferredEnd, canonical_releaseRing,
    canonical_foldl, canonical_mk, memoriesWf_self, h, implies_true]

theorem canonical_periodEnd (p : Nat) : canonical (periodEnd s p) = true := by
  simp only [periodEnd]
  repeat' split
  all_goals simp (maxDischargeDepth := 3) only [canonical_setPart, canonical_frameEnd, h]

theorem canonical_dropPartition (p : Nat) : canonical (dropPartition s p) = true := h

theorem canonical_setGate (p g : Nat) : canonical (setGate s p g) = true := by
  simp only [setGate, canonical_regSet, h]

theorem canonical_holdFrame (p : Nat) (k : PeriodKind) (g : Nat) : canonical (holdFrame s p k g) = true := by
  simp (maxDischargeDepth := 5) only [holdFrame, apply_ite canonical, canonical_setPart, canonical_rawAdd,
    canonical_setGate, canonical_irq, canonical_cntAdd, h, ite_self]

theorem canonical_quiet (p : Nat) (k : PeriodKind) : canonical (quiet s p k) = true := by
  simp only [quiet, canonical_setPart, canonical_setGate, h]

theorem canonical_switchFrame (p c : Nat) : canonical (switchFrame s p c) = true := by
  simp +contextual (maxDischargeDepth := 4) only [switchFrame, apply_ite canonical, canonical_holdFrame,
    canonical_quiet, canonical_setPart, canonical_clearCluster, canonical_loadTables, canonical_loadEntry,
    canonical_foldl, h, ite_self, implies_true]

theorem canonical_braceFrame (c : Nat) : canonical (braceFrame s c) = true := by
  refine canonical_foldl (fun s e h => ?_) _ h
  repeat' split
  all_goals simp only [canonical_irq, canonical_mk, memoriesWf_self, h]

theorem canonical_pegFrame (c : Nat) : canonical (pegFrame s c) = true := by
  simp +contextual only [pegFrame, canonical_pegArrive, canonical_foldl, canonical_mk, memoriesWf_self, h, implies_true]

theorem canonical_edgeFrame (c : Nat) : canonical (edgeFrame s c) = true := by
  refine canonical_foldl (fun s e h => ?_) _ h
  split
  · exact h
  · simp only [apply_ite canonical, canonical_fault, canonical_mk, memoriesWf_self, h, ite_self]

theorem canonical_frameBegun (p c : Nat) : canonical (frameBegun s p c) = true := by
  simp +contextual (maxDischargeDepth := 12) only [frameBegun, apply_ite canonical, canonical_stepOn, canonical_setPart,
    canonical_setGate, canonical_trailStep, canonical_replayRun, canonical_pegFrame, canonical_braceFrame,
    canonical_edgeFrame, canonical_selectBent, canonical_nullBent, canonical_foldl, h, ite_self, implies_true]

theorem canonical_refault (l : List FaultRec) : canonical (refault s l) = true := by
  simp +contextual only [refault, canonical_fault, canonical_foldl, h, implies_true]

theorem canonical_beginFrame (p c : Nat) : canonical (beginFrame s p c) = true := by
  simp only [beginFrame, apply_ite canonical, canonical_frameBegun, canonical_holdFrame, canonical_refault,
    canonical_quiet, h, ite_self]

theorem canonical_serve (p c : Nat) : canonical (serve s p c) = true := by
  simp only [serve, apply_ite canonical, canonical_switchFrame, h]
  repeat' split
  all_goals simp only [canonical_quiet, canonical_holdFrame, canonical_irq, canonical_beginFrame, h]

theorem canonical_takeEntry (p : Nat) : canonical (takeEntry s p) = true := by
  unfold takeEntry
  split <;> simp only [apply_ite canonical, canonical_quiet, canonical_setPart, canonical_serve, h, ite_self]

theorem canonical_choose (p : Nat) : canonical (choose s p) = true := by
  simp only [choose, apply_ite canonical, canonical_holdFrame, canonical_quiet, canonical_serve, h, ite_self]
  repeat' split
  all_goals simp only [canonical_quiet, canonical_serve, canonical_takeEntry, h]

/-! ## LooseOps -/

theorem canonical_stage (x : Staged) : canonical (stage s x) = true := by
  simp only [stage, canonical_countEv, canonical_mk, memoriesWf_self, h]

theorem canonical_stageLoose (e : Nat) (inPort : Option Nat) (r : LooseReq) :
    canonical (stageLoose s e inPort r) = true := by
  simp only [stageLoose, canonical_stage, h]

theorem canonical_unstage (x : Staged) : canonical (unstage s x) = true := by
  unfold unstage
  split <;> simp only [canonical_oweCredit, canonical_mk, memoriesWf_self, h]

theorem canonical_looseArrive (p t : Nat) (r : LooseReq) : canonical (looseArrive s p t r) = true := by
  simp only [looseArrive, apply_ite canonical, canonical_oweCredit, canonical_lseCount, canonical_stage, h, ite_self]

theorem canonical_dropLoose (x : Staged) (count status : Nat) : canonical (dropLoose s x count status) = true := by
  simp (maxDischargeDepth := 3) only [dropLoose, apply_ite canonical, canonical_lseCount, canonical_unstage,
    canonical_stageLoose, h, ite_self]

theorem canonical_sendLoose (x : Staged) (o : Nat) (u : PortUnit) (t how : Nat) :
    canonical (sendLoose s x o u t how) = true := by
  simp (maxDischargeDepth := 8) only [sendLoose, apply_ite canonical, canonical_dropLoose, canonical_setLink,
    canonical_carry, canonical_sendSeq, canonical_unstage, canonical_lseCount, canonical_cntMax, h, ite_self]

theorem canonical_sortStaged (e : Nat) : canonical (sortStaged s e) = true := by
  simp +contextual (maxDischargeDepth := 3) only [sortStaged, canonical_dropLoose, canonical_foldl, canonical_mk,
    memoriesWf_self, h, implies_true]

theorem canonical_noteWaits (p : Nat) (u : PortUnit) : canonical (noteWaits s p u) = true := by
  simp only [noteWaits, apply_ite canonical, canonical_cntAdd, canonical_mk, memoriesWf_self, h, ite_self]

theorem canonical_unitFrame (p : Nat) (u : PortUnit) : ∀ t ∈ unitFrame s p u, canonical t = true := by
  intro t ht
  unfold unitFrame at ht
  split at ht
  any_goals contradiction
  all_goals
    split at ht
    · contradiction
    · split at ht
      · cases ht
        exact canonical_lateSend h ..
      · obtain ⟨x, -, rfl⟩ := Option.map_eq_some_iff.1 ht
        exact canonical_sendLoose h ..

theorem canonical_fillUnit (p : Nat) (u : PortUnit) (n : Nat) : canonical (fillUnit p u n s) = true := by
  induction n generalizing s with
  | zero => exact h
  | succ n ih =>
    unfold fillUnit
    split
    next t ht => exact ih (canonical_unitFrame h p u t ht)
    next => exact h

theorem canonical_idleUnit (p : Nat) (u : PortUnit) : canonical (idleUnit s p u) = true := by
  simp only [idleUnit, apply_ite canonical, canonical_carry, canonical_sendIdle, h, ite_self]

theorem canonical_serveUnit (p : Nat) (u : PortUnit) : canonical (serveUnit s p u) = true := by
  simp (maxDischargeDepth := 3) only [serveUnit, apply_ite canonical, canonical_idleUnit, canonical_replayUnit,
    canonical_noteWaits, canonical_fillUnit, canonical_sendQueued, h, ite_self]

theorem nextCanonical_execLooseForward (e : Fin 3) (units : List UnitStart) :
    NextCanonical (execLooseForward e units s) := by
  simp +contextual (maxDischargeDepth := 3) only [execLooseForward, nextCanonical_next, canonical_serveUnit,
    canonical_sortStaged, canonical_foldl, h, implies_true]

theorem canonical_cutLoose (p start n : Nat) (r : LooseReq) : canonical (cutLoose s p start n r) = true := by
  simp (maxDischargeDepth := 3) only [cutLoose, apply_ite canonical, h]
  repeat' split
  all_goals simp (maxDischargeDepth := 3) only [canonical_sendRaw, canonical_cntAdd, canonical_carry, h]

theorem canonical_routeHiWrite (e : Nat) (w : Word) : canonical (routeHiWrite s e w) = true := by
  simp only [routeHiWrite, apply_ite canonical, canonical_regSet, canonical_statSet, canonical_mk, memoriesWf_self, h,
    ite_self]

theorem canonical_portDimWrite (e k : Nat) (w : Word) : canonical (portDimWrite s e k w) = true := by
  simp only [portDimWrite, apply_ite canonical, canonical_regSet, canonical_statSet, h, ite_self]

theorem canonical_deflectMaskWrite (e : Nat) (hi : Bool) (w : Word) : canonical (deflectMaskWrite s e hi w) = true := by
  simp only [deflectMaskWrite, apply_ite canonical, canonical_regSet, canonical_statSet, h, ite_self]

theorem nextCanonical_execDrained (e : Fin 3) : NextCanonical (execDrained e s) := by
  simp only [execDrained, nextCanonical_next, apply_ite canonical, canonical_irq, h, ite_self]

theorem nextCanonical_execCmdRetry (seq : BitVec 32) : NextCanonical (execCmdRetry seq s) := by
  unfold execCmdRetry
  split <;> simp (maxDischargeDepth := 3) only [nextCanonical_next, apply_ite canonical, canonical_directOn,
    canonical_irq, canonical_orReg, canonical_mk, memoriesWf_self, h, ite_self]

theorem canonical_cackTake (f : CmdFrame) : canonical (cackTake s f) = true := h

/-! ## LinkDown -/

theorem canonical_scheduleBrace (c : Nat) (id : BitVec 16) (f : BitVec 64) :
    canonical (scheduleBrace s c id f) = true := by
  refine canonical_foldl (fun s e h => ?_) _ h
  split <;> exact h

theorem canonical_braceSearch (p c : Nat) : canonical (braceSearch s p c) = true := by
  simp only [braceSearch]
  repeat' split
  all_goals simp only [canonical_fault, canonical_floodActed, canonical_scheduleBrace, h]

theorem canonical_takeBack (p : Nat) (x : ReplayEnt) : canonical (takeBack s p x) = true := by
  simp only [takeBack, apply_ite canonical, canonical_stageLoose, h]
  repeat' split
  all_goals simp only [canonical_divert, h]

theorem canonical_holdOff (p : Nat) : canonical (holdOff s p) = true := by
  simp only [holdOff, canonical_setLink, h]

theorem canonical_loseTo (p : Nat) : canonical (loseTo s p) = true := by
  simp +contextual only [loseTo, canonical_foldl, canonical_mk, memoriesWf_self, h, implies_true]

theorem canonical_emptyPort (p : Nat) (rbuf : List ReplayEnt) : canonical (emptyPort s p rbuf) = true := by
  have hback := canonical_foldl (fun s x h => canonical_takeBack h p x) rbuf h
  refine canonical_foldl (fun s x h => ?_) _ hback
  split
  · exact canonical_divert h ..
  · exact h

theorem canonical_linkDown (p code : Nat) (frames : Bool) : canonical (linkDown s p code frames) = true := by
  simp only [linkDown]
  repeat' split
  all_goals simp +contextual (maxDischargeDepth := 8) only [canonical_setLink, canonical_sendTrain, canonical_holdOff,
    canonical_irq, canonical_cntAdd, canonical_braceSearch, canonical_loseTo, canonical_emptyPort, canonical_foldl, h,
    implies_true]

/-! ## FrameRx -/

theorem canonical_stray (p : Nat) : canonical (stray s p) = true := by
  simp only [stray, canonical_cntAdd, h]

theorem canonical_landRefused (p c route : Nat) (window : Bool) :
    canonical (landRefused s p c route window) = true := by
  simp (maxDischargeDepth := 3) only [landRefused, canonical_irq, canonical_firstCapt, canonical_fault, h]

theorem canonical_landAt (p c : Nat) (x : Leashed) (line : Nat) : canonical (landAt s p c x line) = true :=
  canonical_setEdge (canonical_countEv h (pgLnd (p / 16)) (some (ctx s c).part) .line (packetLines (lShort x.hdr)))
    (memWf_memWrite _ _ _ _ (tablesWf_iff.2 h).landing) rfl

theorem canonical_notLanded (p c : Nat) (x : Leashed) (n : LandCase) : canonical (notLanded s p c x n) = true := by
  unfold notLanded
  split <;> simp only [canonical_cntAdd, canonical_landRefused, h]

theorem canonical_landPacket (t : TableSet) (p c : Nat) (x : Leashed) (w : Nat) :
    canonical (landPacket s t p c x w) = true := by
  simp only [landPacket]
  repeat' split
  all_goals simp only [canonical_countLanding, canonical_landAt, canonical_notLanded, h]

theorem canonical_holdPacket (t : TableSet) (p c : Nat) (x : Leashed) (w : Nat) :
    canonical (holdPacket s t p c x w) = true := by
  simp only [holdPacket]
  split <;> simp only [canonical_mk, memoriesWf_self, canonical_landAt, canonical_notLanded, h]

theorem canonical_forwardPacket (p c : Nat) (x : Leashed) (w start : Nat) (replay ok : Bool) :
    canonical (forwardPacket s p c x w start replay ok) = true := by
  simp (maxDischargeDepth := 4) only [forwardPacket, apply_ite canonical, canonical_sendIn, canonical_slotCollision,
    canonical_lateAdd, canonical_divert, canonical_sendRaw, canonical_cntAdd, canonical_carry, canonical_mk,
    memoriesWf_self, h, ite_self]

theorem canonical_srcReports (c : Nat) (x : Leashed) : canonical (srcReports s c x) = true := by
  simp +contextual only [srcReports, apply_ite canonical, canonical_noteReport, canonical_foldl, h, ite_self,
    implies_true]

theorem canonical_leashedRx (p : Nat) (x : Leashed) (start : Nat) (replay ok : Bool) :
    canonical (leashedRx s p x start replay ok) = true := by
  simp (maxDischargeDepth := 3) only [leashedRx, apply_ite canonical, canonical_stray, h, ite_self]
  repeat' split
  all_goals simp (maxDischargeDepth := 3) only [canonical_stray, canonical_srcReports, canonical_forwardPacket,
    canonical_landPacket, canonical_holdPacket, canonical_mk, memoriesWf_self, h]

theorem canonical_countFailed (p t : Nat) (f : RxView) : canonical (countFailed s p t f) = true := by
  unfold countFailed
  split <;> simp (maxDischargeDepth := 3) only [apply_ite canonical, canonical_cntAdd, canonical_irq, canonical_setLink,
    canonical_linkDown, h, ite_self]

theorem canonical_askReplay (p t : Nat) : canonical (askReplay s p t) = true := by
  simp only [askReplay, apply_ite canonical, canonical_setLink, h, ite_self]

theorem canonical_notePassed (p : Nat) (f : RxView) : canonical (notePassed s p f) = true := by
  simp only [notePassed]
  repeat' split
  all_goals simp only [canonical_setLink, canonical_noteReport, h]

theorem canonical_passOn (p start : Nat) (f : RxView) (ok : Bool) : canonical (passOn s p start f ok) = true := by
  simp only [passOn, apply_ite canonical, canonical_looseArrive, canonical_cutLoose, canonical_leashedRx, h, ite_self]

theorem canonical_seqRx (p start : Nat) (f : RxView) : canonical (seqRx s p start f) = true := by
  simp only [seqRx, apply_ite canonical, canonical_askReplay, canonical_passOn, canonical_setLink, canonical_cntAdd, h,
    ite_self]

theorem canonical_viewRx (p start : Nat) (f : RxView) : canonical (viewRx s p start f) = true := by
  simp only [viewRx, apply_ite canonical, canonical_notePassed, canonical_countFailed, canonical_seqRx,
    canonical_askReplay, h, ite_self]

theorem canonical_frameRx (p : Nat) (f : RxFrame) : canonical (frameRx s p f) = true := by
  simp (maxDischargeDepth := 3) only [frameRx, apply_ite canonical, canonical_cntAdd, h]
  repeat' split
  all_goals simp (maxDischargeDepth := 3) only [canonical_cntAdd, canonical_viewRx, h]

/-! ## Link -/

theorem canonical_enterPhy (p : Nat) : canonical (enterPhy s p) = true := by
  simp only [enterPhy, apply_ite canonical, canonical_noteState, canonical_setLink, h, ite_self]

theorem canonical_portStart (p : Nat) : canonical (portStart s p) = true := by
  simp only [portStart, apply_ite canonical, canonical_enterPhy, h, ite_self]

theorem canonical_openOff (p : Nat) : canonical (openOff s p) = true := by
  simp (maxDischargeDepth := 3) only [openOff, apply_ite canonical, canonical_pauseClear, canonical_irq,
    canonical_regSet, h, ite_self]

theorem canonical_portOff (p : Nat) : canonical (portOff s p) = true := by
  simp only [portOff, apply_ite canonical, canonical_linkDown, canonical_setLink, canonical_noteState, h, ite_self]

theorem canonical_portForced (p : Nat) : canonical (portForced s p) = true := by
  simp (maxDischargeDepth := 4) only [portForced, apply_ite canonical, canonical_irq, canonical_cntAdd,
    canonical_setLink, canonical_noteState, canonical_linkDown, h, ite_self]

theorem canonical_portCfgWrite (p : Nat) (w : Word) : canonical (portCfgWrite s p w) = true := by
  simp only [portCfgWrite, apply_ite canonical, canonical_statSet, canonical_regSet, canonical_openOff,
    canonical_portOff, canonical_portForced, canonical_portStart, h, ite_self]

theorem canonical_trainLane (i : Nat) : canonical (trainLane s i) = true := by
  simp only [trainLane, apply_ite canonical, canonical_drawFree, canonical_pstStore, h, ite_self]

theorem canonical_trainLanes (p : Nat) : canonical (trainLanes s p) = true := by
  simp +contextual only [trainLanes, canonical_trainLane, canonical_foldl, h, implies_true]

theorem nextCanonical_execPhyAligned (p : Fin 48) : NextCanonical (execPhyAligned p s) := by
  simp only [execPhyAligned, nextCanonical_next, apply_ite canonical, canonical_setLink, canonical_trainLanes, h,
    ite_self]

theorem nextCanonical_execHelloSend (p : Fin 48) : NextCanonical (execHelloSend p s) := by
  simp only [execHelloSend, nextCanonical_next, apply_ite canonical, canonical_sendTrain, h, ite_self]

theorem canonical_sendKey (p msg : Nat) (m : List Byte) : canonical (sendKey s p msg m) = true := by
  simp +contextual only [sendKey, canonical_sendPlaced, canonical_foldl, h, implies_true]

theorem canonical_setKx (p : Nat) (x : KeyEx) : canonical (setKx s p x) = true := by
  simp only [setKx, canonical_setLink, h]

theorem canonical_sendSecret (p msg : Nat) : canonical (sendSecret s p msg) = true := by
  unfold sendSecret
  split <;> simp (maxDischargeDepth := 4) only [canonical_freeBytes, canonical_sendKey, canonical_setKx, h]

theorem canonical_sendFinish (p msg : Nat) : canonical (sendFinish s p msg) = true := by
  unfold sendFinish
  split <;> simp (maxDischargeDepth := 3) only [canonical_freeBytes, canonical_sendKey, canonical_setKx, h]

theorem canonical_installKeys (p : Nat) (phase : BitVec 2) (keys : BitVec 288 × BitVec 288) :
    canonical (installKeys s p phase keys) = true := by
  simp only [installKeys, canonical_setLink, h]

theorem canonical_enterKey (p : Nat) : canonical (enterKey s p) = true := by
  simp only [enterKey, apply_ite canonical, canonical_sendKey, canonical_setLink, h, ite_self]

theorem canonical_helloTake (p : Nat) (src : BitVec 48) (b : BitVec 112) : canonical (helloTake s p src b) = true := by
  simp only [helloTake]
  repeat' split
  all_goals simp (maxDischargeDepth := 5) only [canonical_regSet, canonical_setLink, canonical_linkDown,
    canonical_enterKey, h]

theorem nextCanonical_execProbe (p : Fin 48) (b : BitVec 112) (hold : BitVec 32) :
    NextCanonical (execProbe p b hold s) := by
  unfold execProbe
  split <;> simp only [nextCanonical_next, canonical_sendTrain, h]

theorem canonical_delayDone (p : Nat) : canonical (delayDone s p) = true := by
  simp only [delayDone, apply_ite canonical, canonical_regSet, canonical_linkDown, canonical_setLink, h, ite_self]

theorem canonical_echoTake (p : Nat) (b : BitVec 112) (tripPs : Nat) (agree : Bool) :
    canonical (echoTake s p b tripPs agree) = true := by
  simp only [echoTake, apply_ite canonical, canonical_setLink, canonical_delayDone, h, ite_self]

theorem nextCanonical_execReadySend (p : Fin 48) : NextCanonical (execReadySend p s) := by
  simp only [execReadySend, nextCanonical_next, apply_ite canonical, canonical_sendTrain, h, ite_self]

theorem nextCanonical_execReady (p : Fin 48) : NextCanonical (execReady p s) := by
  simp only [execReady, nextCanonical_next, apply_ite canonical, canonical_irq, canonical_setLink, h, ite_self]

theorem nextCanonical_execDown (p : Fin 48) (b : BitVec 112) : NextCanonical (execDown p b s) := by
  unfold execDown
  split <;> simp only [nextCanonical_next, canonical_linkDown, h]

theorem nextCanonical_execTrainTimeout (p : Fin 48) : NextCanonical (execTrainTimeout p s) := by
  unfold execTrainTimeout
  split <;> simp only [nextCanonical_next, canonical_linkDown, h]

theorem nextCanonical_execPhyLockLoss (x : LockLoss) : NextCanonical (execPhyLockLoss x s) := by
  simp (maxDischargeDepth := 3) only [execPhyLockLoss, nextCanonical_next, apply_ite canonical, canonical_linkDown,
    canonical_cntAdd, canonical_setLink, h, ite_self]

theorem nextCanonical_execRetrain (p : Fin 48) : NextCanonical (execRetrain p s) := by
  simp only [execRetrain, nextCanonical_next, apply_ite canonical, canonical_enterPhy, h, ite_self]

theorem canonical_ackTake (p : Nat) (ack : BitVec 16) : canonical (ackTake s p ack) = true := by
  simp only [ackTake, apply_ite canonical, canonical_setLink, h, ite_self]

theorem nextCanonical_execNakRx (p : Fin 48) (ack : BitVec 16) : NextCanonical (execNakRx p ack s) := by
  simp (maxDischargeDepth := 3) only [execNakRx, nextCanonical_next, apply_ite canonical, canonical_ackTake,
    canonical_cntAdd, canonical_setLink, h, ite_self]

theorem canonical_replayAll (p : Nat) : canonical (replayAll s p) = true := by
  unfold replayAll
  split
  · refine canonical_foldl (fun s u h => ?_) _ h
    split
    · exact h
    · simp only [apply_ite canonical, canonical_replayUnit, h, ite_self]
  · exact h

theorem nextCanonical_execReplayTimeout (p : Fin 48) : NextCanonical (execReplayTimeout p s) := by
  simp (maxDischargeDepth := 3) only [execReplayTimeout, nextCanonical_next, apply_ite canonical, canonical_irq,
    canonical_cntAdd, canonical_linkDown, canonical_setLink, h, ite_self]

theorem nextCanonical_execAckTimer (p : Fin 48) : NextCanonical (execAckTimer p s) := by
  simp only [execAckTimer, nextCanonical_next, apply_ite canonical, canonical_setLink, h, ite_self]

theorem nextCanonical_execCreditRx (p : Fin 48) (vc : BitVec 2) (count : BitVec 5) :
    NextCanonical (execCreditRx p vc count s) := by
  simp only [execCreditRx, nextCanonical_next, apply_ite canonical, canonical_linkDown, canonical_setLink, h, ite_self]

theorem canonical_updateStart (p : Nat) : canonical (updateStart s p) = true := by
  simp only [updateStart, canonical_sendSecret, canonical_setKx, h]

theorem nextCanonical_execLinkRekey (p : Fin 48) : NextCanonical (execLinkRekey p s) := by
  simp only [execLinkRekey, nextCanonical_next, apply_ite canonical, canonical_updateStart, h, ite_self]

theorem canonical_updateTake (p : Nat) (secret fin : List Byte) : canonical (updateTake s p secret fin) = true := by
  unfold updateTake
  dsimp only
  split <;> simp (maxDischargeDepth := 5) only [apply_ite canonical, canonical_installKeys, canonical_linkDown,
    canonical_setKx, canonical_sendFinish, canonical_updateStart, h, ite_self]

theorem nextCanonical_execKeyUpdate (m : KeyUpdateMsgs) : NextCanonical (execKeyUpdate m s) := by
  simp only [execKeyUpdate, nextCanonical_next, apply_ite canonical, canonical_updateTake, h, ite_self]

theorem nextCanonical_execKeyCerts (p : Fin 48) (m : List (BitVec 8)) : NextCanonical (execKeyCerts p m s) := by
  simp only [execKeyCerts, nextCanonical_next, apply_ite canonical, canonical_linkDown, canonical_sendSecret,
    canonical_setKx, h, ite_self]

theorem nextCanonical_execKeySecret (p : Fin 48) (m : List (BitVec 8)) : NextCanonical (execKeySecret p m s) := by
  simp only [execKeySecret, nextCanonical_next, apply_ite canonical, canonical_sendFinish, canonical_setKx, h, ite_self]

theorem canonical_enterDelay (p : Nat) (keys : BitVec 288 × BitVec 288) : canonical (enterDelay s p keys) = true := by
  simp +contextual (maxDischargeDepth := 3) only [enterDelay, canonical_installKeys, canonical_setLink,
    canonical_sendPlaced, canonical_foldl, h, implies_true]

theorem nextCanonical_execKeyFinish (p : Fin 48) (m : List (BitVec 8)) : NextCanonical (execKeyFinish p m s) := by
  simp only [execKeyFinish, nextCanonical_next, apply_ite canonical, h]
  repeat' split
  all_goals simp only [canonical_enterDelay, canonical_linkDown, h]

theorem canonical_keyResend (p : Nat) : canonical (keyResend s p) = true := by
  simp only [keyResend, apply_ite canonical, h]
  repeat' split
  all_goals simp only [canonical_sendKey, h]

/-! ## Raise -/

theorem canonical_putR (c : Nat) (su : Bool) (r : Raising) : canonical (putR s c su r) = true := by
  simp only [putR, apply_ite canonical, canonical_setCtx, canonical_setRaising, h, ite_self]

theorem canonical_rRefuse : canonical (rRefuse s) = true := by
  simp only [rRefuse, canonical_statSet, h]

theorem canonical_rFail (c code : Nat) : canonical (rFail s c code) = true := by
  simp only [rFail, canonical_irq, canonical_setCtx, h]

theorem nextCanonical_execRaisingPreparation (c : Fin 256) : NextCanonical (execRaisingPreparation c s) := by
  have hload (decode : Bool) (t : State) (k : Nat) (ht : canonical t = true) :
      canonical (loadTables (loadEntry (clearCluster t k) c.val k true) c.val k decode true) = true :=
    canonical_loadTables (canonical_loadEntry (canonical_clearCluster ht _) ..) ..
  delta execRaisingPreparation
  split
  · exact nextCanonical_next.2 h
  · dsimp only
    split
    · exact nextCanonical_next.2 h
    · exact nextCanonical_next.2 (canonical_setPart (canonical_foldl (hload _) _ h) ..)

theorem canonical_armAs (c rid : Nat) (replay su : Bool) : canonical (armAs s c rid replay su) = true := by
  unfold armAs
  split <;> simp (maxDischargeDepth := 3) only [apply_ite canonical, canonical_rFail, canonical_setCtx, canonical_putR,
    canonical_replayRun, h, ite_self]

theorem canonical_rcmdArm (c rid : Nat) (replay : Bool) : canonical (rcmdArm s c rid replay) = true := by
  unfold rcmdArm
  split <;> simp only [apply_ite canonical, canonical_armAs, canonical_rRefuse, h, ite_self]

theorem nextCanonical_execRcmdArm (c : Fin 256) (raiseId : BitVec 16) : NextCanonical (execRcmdArm c raiseId s) := by
  simp only [execRcmdArm, nextCanonical_next, canonical_rcmdArm, canonical_regSet, h]

theorem nextCanonical_execArmReplay (c : Fin 256) (raiseId : BitVec 16) :
    NextCanonical (execArmReplay c raiseId s) := by
  simp only [execArmReplay, nextCanonical_next, canonical_rcmdArm, canonical_regSet, h]

theorem canonical_rcmdStart (c : Nat) : canonical (rcmdStart s c) = true := by
  simp only [rcmdStart, apply_ite canonical, canonical_rRefuse, canonical_orReg, canonical_setRaising, h, ite_self]

theorem canonical_promote (c : Nat) : canonical (promote s c) = true := by
  unfold promote
  split <;> simp only [canonical_setCtx, h]

theorem canonical_commitAct (c : Nat) (su : Bool) (digest : BitVec 256) (start : BitVec 64) :
    canonical (commitAct s c su digest start) = true := by
  simp only [commitAct, apply_ite canonical, canonical_putR, canonical_promote, h, ite_self]

theorem canonical_abortAct (c : Nat) (su : Bool) (code : Nat) : canonical (abortAct s c su code) = true := by
  simp (maxDischargeDepth := 3) only [abortAct, apply_ite canonical, canonical_rFail, canonical_putR,
    canonical_cancelPmap, h, ite_self]

theorem canonical_commitRaise (c : Nat) (su : Bool) : canonical (commitRaise s c su) = true := by
  simp only [commitRaise, apply_ite canonical, canonical_floodActed, canonical_commitAct, h, ite_self]

theorem canonical_abortRaise (c : Nat) (su : Bool) (code member : Nat) :
    canonical (abortRaise s c su code member) = true := by
  simp (maxDischargeDepth := 3) only [abortRaise, apply_ite canonical, canonical_floodActed, canonical_abortAct,
    canonical_rFail, canonical_cancelPmap, h, ite_self]

theorem canonical_sendPhase (r : Raising) : canonical (sendPhase s r) = true := by
  simp +contextual only [sendPhase, canonical_sendTo, canonical_foldl, h, implies_true]

theorem canonical_sendAck (r : Raising) (dst code member count : Nat) :
    canonical (sendAck s r dst code member count) = true := by
  simp only [sendAck, canonical_sendTo, h]

theorem canonical_answerUp (c : Nat) (su : Bool) (code member count : Nat) :
    canonical (answerUp s c su code member count) = true := by
  simp (maxDischargeDepth := 3) only [answerUp, apply_ite canonical, canonical_putR, canonical_sendAck,
    canonical_abortRaise, canonical_commitRaise, canonical_drawFree, h, ite_self]

theorem canonical_settle (c : Nat) (su : Bool) : canonical (settle s c su) = true := by
  simp only [settle, apply_ite canonical, canonical_answerUp, h, ite_self]

theorem canonical_prepare (c : Nat) (su : Bool) (m : Prep) : canonical (prepare s c su m) = true := by
  simp (maxDischargeDepth := 4) only [prepare, canonical_setCtx, canonical_settle, canonical_sendPhase, canonical_putR,
    h]

theorem canonical_phaseTake (c : Nat) (su : Bool) (origin : Nat) (m : Prep) :
    canonical (phaseTake s c su origin m) = true := by
  simp only [phaseTake, apply_ite canonical, canonical_prepare, canonical_setCtx, canonical_sendAck, h, ite_self]

theorem canonical_phaseRoot (c : Nat) (su : Bool) (old stop : Nat) : canonical (phaseRoot s c su old stop) = true := by
  simp only [phaseRoot, apply_ite canonical, canonical_rRefuse, canonical_prepare, canonical_abortRaise, h, ite_self]

theorem canonical_rcmdPrepare (c : Nat) : canonical (rcmdPrepare s c) = true := by
  simp only [rcmdPrepare, canonical_phaseRoot, h]

theorem canonical_rcmdReRaise (c : Nat) : canonical (rcmdReRaise s c) = true := by
  simp only [rcmdReRaise, canonical_phaseRoot, h]

theorem canonical_prepAckTake (c : Nat) (su : Bool) (origin code member count : Nat) :
    canonical (prepAckTake s c su origin code member count) = true := by
  simp only [prepAckTake, apply_ite canonical, h]
  repeat' split
  all_goals simp only [canonical_answerUp, canonical_settle, canonical_putR, h]

theorem canonical_prepLate (c : Nat) (su : Bool) : canonical (prepLate s c su) = true := by
  simp only [prepLate, apply_ite canonical, h]
  repeat' split
  all_goals simp only [canonical_answerUp, h]

theorem nextCanonical_execPrepTimeout (c : Fin 256) : NextCanonical (execPrepTimeout c s) := by
  simp only [execPrepTimeout, nextCanonical_next, canonical_prepLate, h]

theorem canonical_noCommit (c : Nat) (su : Bool) : canonical (noCommit s c su) = true := by
  simp (maxDischargeDepth := 4) only [noCommit, apply_ite canonical, canonical_setCtx, canonical_putR,
    canonical_cancelPmap, canonical_sendTo, h, ite_self]

theorem nextCanonical_execNoCommit (c : Fin 256) : NextCanonical (execNoCommit c s) := by
  simp only [execNoCommit, nextCanonical_next, canonical_noCommit, h]

theorem canonical_stopAct (c : Nat) (su : Bool) (f : BitVec 64) : canonical (stopAct s c su f) = true := by
  simp only [stopAct, apply_ite canonical, canonical_cancelPmap, canonical_setCtx, canonical_setRaising, h, ite_self]

theorem canonical_holdAct (c : Nat) (f : BitVec 64) : canonical (holdAct s c f) = true := by
  simp only [holdAct, apply_ite canonical, canonical_setRaising, h, ite_self]

theorem canonical_resumeAct (c : Nat) (t : BitVec 64) : canonical (resumeAct s c t) = true := by
  simp only [resumeAct, apply_ite canonical, canonical_setRaising, h, ite_self]

theorem canonical_floodOwn (c code len body : Nat) : canonical (floodOwn s c code len body) = true := by
  simp only [floodOwn, apply_ite canonical, canonical_floodActed, h, ite_self]

theorem canonical_rcmdStop (c : Nat) : canonical (rcmdStop s c) = true := by
  simp only [rcmdStop, apply_ite canonical, canonical_stopAct, canonical_floodOwn, canonical_rRefuse, h, ite_self]

theorem canonical_rcmdHold (c : Nat) : canonical (rcmdHold s c) = true := by
  simp only [rcmdHold, apply_ite canonical, canonical_holdAct, canonical_floodOwn, canonical_rRefuse, h, ite_self]

theorem canonical_rcmdResume (c : Nat) : canonical (rcmdResume s c) = true := by
  simp only [rcmdResume, apply_ite canonical, canonical_resumeAct, canonical_floodOwn, canonical_rRefuse, h, ite_self]

theorem canonical_rcmdDiscard (c : Nat) : canonical (rcmdDiscard s c) = true := by
  simp only [rcmdDiscard]
  repeat' split
  all_goals simp only [canonical_setCtx, canonical_rRefuse, h]

theorem canonical_rcmdWrite (w : Word) : canonical (rcmdWrite s w) = true := by
  unfold rcmdWrite
  split <;> simp only [canonical_rcmdArm, canonical_rcmdStart, canonical_rcmdPrepare, canonical_rcmdReRaise,
    canonical_rcmdStop, canonical_rcmdHold, canonical_rcmdResume, canonical_rcmdDiscard, canonical_rRefuse, h]

theorem canonical_nodeIdWrite (w : Word) : canonical (nodeIdWrite s w) = true := by
  simp +contextual (maxDischargeDepth := 3) only [nodeIdWrite, apply_ite canonical, canonical_statSet,
    canonical_sendTrain, canonical_setLink, canonical_regSet, canonical_foldl, h, ite_self, implies_true]

theorem canonical_trlCfgWrite (w : Word) : canonical (trlCfgWrite s w) = true := by
  simp only [trlCfgWrite, apply_ite canonical, canonical_statSet, canonical_replayRun, canonical_regPut, h, ite_self]

/-! ## KeyOps -/

theorem canonical_makeKeys (d dom : Nat) : canonical (makeKeys s d dom) = true := h

theorem canonical_dropKeys (d dom : Nat) : canonical (dropKeys s d dom) = true := h

theorem canonical_eraseStore (d : Nat) : canonical (eraseStore s d) = true := h

theorem canonical_keysLost (c d : Nat) : canonical (keysLost s c d) = true := by
  simp (maxDischargeDepth := 3) only [keysLost, apply_ite canonical, canonical_regPut, canonical_setCtx,
    canonical_fault, h, ite_self]

theorem canonical_dieKeysLost (p d : Nat) : canonical (dieKeysLost s p d) = true := by
  simp +contextual (maxDischargeDepth := 3) only [dieKeysLost, canonical_keysLost, canonical_dropKeys, canonical_foldl,
    h, implies_true]

/-! ## RaiseCmd -/

theorem canonical_braceAct (c : Nat) (su : Bool) (id : Nat) (f : BitVec 64) :
    canonical (braceAct s c su id f) = true := by
  simp only [braceAct, apply_ite canonical, canonical_setRaising, canonical_fault, canonical_scheduleBrace, h, ite_self]
  repeat' split
  all_goals simp only [canonical_setCtx, h]

theorem canonical_cmdEffect (f : CmdFrame) (c : Nat) (su : Bool) : canonical (cmdEffect s f c su) = true := by
  unfold cmdEffect
  split <;> simp only [apply_ite canonical, canonical_stopAct, canonical_holdAct, canonical_resumeAct,
    canonical_phaseTake, canonical_braceAct, canonical_prepAckTake, canonical_commitAct, canonical_abortAct, h,
    ite_self]

theorem canonical_cmdAct (f : CmdFrame) : canonical (cmdAct s f) = true := by
  simp only [cmdAct, apply_ite canonical, canonical_cackTake, h]
  repeat' split
  all_goals simp only [canonical_cmdEffect, canonical_deliverCmd, h]

theorem canonical_sendCack (f : CmdFrame) : canonical (sendCack s f) = true := by
  simp only [sendCack, apply_ite canonical, canonical_directCmd, h, ite_self]

theorem canonical_commandRx (p : Option Nat) (f : CmdFrame) : canonical (commandRx s p f) = true := by
  simp (maxDischargeDepth := 3) only [commandRx, apply_ite canonical, canonical_lseCount, canonical_noteSeen,
    canonical_cmdAct, canonical_floodOn, canonical_sendCack, canonical_directOn, h, ite_self]

/-! ## VaultHost -/

theorem nextCanonical_execRefresh (v : Fin 1024) : NextCanonical (execRefresh v s) := by
  simp +contextual (maxDischargeDepth := 5) only [execRefresh, nextCanonical_next, apply_ite canonical,
    canonical_advance, canonical_vaultBreach, canonical_setOpenRow, canonical_countEv, canonical_foldl, canonical_mk,
    memoriesWf_self, h, ite_self, implies_true]

theorem canonical_scrubLine (v u : Nat) : canonical (scrubLine s v u) = true := by
  unfold scrubLine
  split <;> simp (maxDischargeDepth := 3) only [apply_ite canonical, canonical_noteLine, canonical_storeLine,
    canonical_mk, memoriesWf_self, h, ite_self]

theorem canonical_scrubLines (v x i n : Nat) : canonical (scrubLines s v x i n) = true := by
  simp +contextual (maxDischargeDepth := 3) only [scrubLines, canonical_baseCols, canonical_countEv,
    canonical_scrubLine, canonical_foldl, h, implies_true]

theorem canonical_patrolOn (v x : Nat) : canonical (patrolOn s v x) = true := by
  simp (maxDischargeDepth := 4) only [patrolOn, apply_ite canonical, canonical_regSet, canonical_irq, canonical_cntAdd,
    canonical_mk, memoriesWf_self, h, ite_self]

theorem canonical_patrolSegment (v : Nat) : canonical (patrolSegment s v) = true := by
  simp (maxDischargeDepth := 3) only [patrolSegment, apply_ite canonical, canonical_scrubLines, canonical_patrolOn,
    canonical_mk, memoriesWf_self, h, ite_self]

theorem canonical_revisitSegment (v x : Nat) : canonical (revisitSegment s v x) = true := by
  simp only [revisitSegment, apply_ite canonical, canonical_scrubLines, canonical_mk, memoriesWf_self, h, ite_self]

theorem canonical_scrubSegment (v x : Nat) : canonical (scrubSegment s v x) = true := by
  simp only [scrubSegment, apply_ite canonical, canonical_revisitSegment, canonical_patrolSegment, h, ite_self]

theorem canonical_setScrubOpen (v : Nat) (x : Option Nat) : canonical (setScrubOpen s v x) = true := h

theorem nextCanonical_execScrub (v : Fin 1024) : NextCanonical (execScrub v s) := by
  simp only [execScrub, nextCanonical_next]
  repeat' split
  all_goals simp only [canonical_setScrubOpen, canonical_scrubSegment, h]

theorem canonical_outCipher (c v u a col : Nat) (k : BitVec 1024) : canonical (outCipher s c v u a col k).2 = true :=
  canonical_readLine (canonical_readLine (canonical_countCols h ..) ..) ..

theorem canonical_maskedLine (c v u : Nat) : canonical (maskedLine s c v u).2 = true := by
  unfold maskedLine
  split
  · exact canonical_outCipher h ..
  · exact canonical_countMasked h ..

theorem canonical_hostLine (who : Requester) (v u dom : Nat) : canonical (hostLine s who v u dom).2 = true := by
  unfold hostLine
  split <;> simp only [canonical_maskedLine, canonical_readLine, canonical_countCols, h]

theorem canonical_engineLine (src : Nat) (who : Requester) (a : Nat) : canonical (engineLine s src who a).2 = true := by
  simp only [engineLine]
  repeat' split
  all_goals simp (maxDischargeDepth := 3) only [canonical_countPath, canonical_hostLine, h]

theorem canonical_engineLines (src : Nat) (who : Requester) (a n : Nat) :
    canonical (engineLines s src who a n).2 = true := by
  induction n generalizing s a with
  | zero => exact h
  | succ n ih => exact ih (canonical_engineLine h ..) _

theorem canonical_engineBytes (src : Nat) (who : Requester) (a n : Nat) :
    canonical (engineBytes s src who a n).2 = true := canonical_engineLines h ..

theorem canonical_hostError (d : Nat) (r : HostReq) : canonical (hostError s d r) = true := by
  simp only [hostError, canonical_emit, canonical_countPath, h]

theorem canonical_hostRead (v u dom : Nat) (r : HostReq) : canonical (hostRead s v u dom r) = true := by
  simp only [hostRead]
  repeat' split
  all_goals simp only [canonical_hostLine, canonical_hostError, canonical_emit, h]

theorem canonical_hostWrite (v u dom : Nat) (r : HostReq) : canonical (hostWrite s v u dom r) = true := by
  simp only [hostWrite, apply_ite canonical, canonical_hostError, canonical_putBytes, canonical_emit, h, ite_self]

theorem canonical_serveAccess (v u : Nat) (r : HostReq) : canonical (serveAccess s v u r) = true := by
  unfold serveAccess
  split <;> simp only [apply_ite canonical, canonical_hostError, canonical_hostWrite, canonical_hostRead, h, ite_self]

theorem canonical_writeCommit (v c p session seq : Nat) (release : Bool) (img col u : Nat) :
    canonical (writeCommit s v c p session seq release img col u) = true := by
  simp only [writeCommit, apply_ite canonical, canonical_writeCol, h, ite_self]

theorem canonical_jobWrite (v u : Nat) (n : HostJob) : canonical (jobWrite s v u n).1 = true := by
  simp only [jobWrite]
  repeat' split
  all_goals simp (maxDischargeDepth := 3) only [canonical_serveAccess, canonical_nextBank, canonical_writeCommit,
    canonical_cntAdd, canonical_writeCol, h]

theorem canonical_initWrite (v : Nat) (i : InitRun) : canonical (initWrite s v i) = true := by
  simp (maxDischargeDepth := 4) only [initWrite, canonical_baseCols, canonical_setInit, canonical_storeLine, h]

theorem canonical_serveBurst (v first last n : Nat) (x : Burst) : canonical (serveBurst v first last n x s) = true := by
  induction n generalizing x s with
  | zero => exact h
  | succ n ih =>
    unfold serveBurst
    split
    · split
      · exact ih (canonical_setHostQ h ..) _
      · split
        · exact h
        · exact ih (canonical_setHostQ (canonical_jobWrite (canonical_countEv h ..) ..) ..) _
    · split
      · exact h
      · split
        · exact h
        · dsimp only
          split
          · exact h
          · exact ih (canonical_initWrite (canonical_countEv h ..) ..) _

theorem canonical_scrubGuard (v periods : Nat) : canonical (scrubGuard s v periods) = true := by
  simp only [scrubGuard, canonical_setScrubOpen, h]

theorem nextCanonical_execHostEngineGuard (v : Fin 1024) (periods : Nat) (hostOpen : Bool) :
    NextCanonical (execHostEngineGuard v periods hostOpen s) := by
  simp only [execHostEngineGuard, nextCanonical_next, apply_ite canonical, canonical_scrubGuard, canonical_serveBurst,
    h, ite_self]

theorem canonical_ctxRowsWrite (v c : Nat) (w : Word) : canonical (ctxRowsWrite s v c w) = true := by
  simp only [ctxRowsWrite, apply_ite canonical, canonical_regSet, canonical_statSet, h, ite_self]

theorem canonical_carveWrite (v : Nat) (w : Word) : canonical (carveWrite s v w) = true := by
  simp only [carveWrite, apply_ite canonical, canonical_regSet, canonical_statSet, h, ite_self]

theorem canonical_imapWrite (d : Nat) (w : Word) : canonical (imapWrite s d w) = true := by
  simp only [imapWrite, apply_ite canonical, canonical_regSet, canonical_statSet, h, ite_self]

theorem canonical_retireAdd (v row bank : Nat) : canonical (retireAdd s v row bank).1 = true := by
  simp only [retireAdd]
  repeat' split
  all_goals simp only [canonical_regPut, canonical_regSet, h]

theorem canonical_retireWrite (v : Nat) (w : Word) : canonical (retireWrite s v w) = true := by
  simp only [retireWrite, canonical_retireAdd, canonical_regPut, h]

theorem canonical_initCtrlWrite (v : Nat) (w : Word) : canonical (initCtrlWrite s v w) = true := by
  simp only [initCtrlWrite, apply_ite canonical, canonical_statSet, canonical_regPut, canonical_setInit, h, ite_self]

theorem canonical_initRest (v n : Nat) : canonical (initRest v n s) = true := by
  induction n generalizing s with
  | zero => exact h
  | succ n ih =>
    unfold initRest
    split
    · exact h
    · split
      · exact h
      · exact ih (canonical_initWrite h ..)

theorem nextCanonical_execInitComplete (v : Fin 1024) : NextCanonical (execInitComplete v s) := by
  unfold execInitComplete
  split <;> simp (maxDischargeDepth := 4) only [nextCanonical_next, apply_ite canonical, canonical_setInit,
    canonical_initRest, canonical_noteLatched, canonical_irq, h, ite_self]

/-! ## Open -/

theorem canonical_pfcSend (i : OpenIf) (on : Bool) : canonical (pfcSend s i on) = true := by
  simp only [pfcSend, canonical_emit, canonical_cntAdd, h]

theorem nextCanonical_execOpenIfUp (i : OpenIf) : NextCanonical (execOpenIfUp i s) := by
  simp (maxDischargeDepth := 6) only [execOpenIfUp, nextCanonical_next, apply_ite canonical, canonical_drawFree,
    canonical_regSet, canonical_orReg, canonical_pfcSend, h, ite_self]

theorem canonical_ifDown (i : OpenIf) : canonical (ifDown s i) = true := by
  simp (maxDischargeDepth := 3) only [ifDown, apply_ite canonical, canonical_pauseClear, canonical_irq,
    canonical_clrReg, h, ite_self]

theorem canonical_ifCfgWrite (pg : Nat) (w : Word) : canonical (ifCfgWrite s pg w) = true := by
  simp only [ifCfgWrite, apply_ite canonical, canonical_statSet, canonical_regSet, h, ite_self]

theorem canonical_steerHiWrite (b : Nat) (w : Word) : canonical (steerHiWrite s b w) = true := by
  simp only [steerHiWrite, apply_ite canonical, canonical_regSet, canonical_statSet, canonical_mk, memoriesWf_self, h,
    ite_self]

theorem canonical_openDrop (pg o : Nat) : canonical (openDrop s pg o) = true := by
  simp only [openDrop, canonical_irq, canonical_cntAdd, h]

theorem canonical_sendPfc (e : Nat) (on : Bool) : canonical (sendPfc s e on) = true := by
  simp +contextual only [sendPfc, canonical_pfcSend, canonical_foldl, canonical_mk, memoriesWf_self, h, implies_true]

theorem canonical_pfcCheck (b : Nat) : canonical (pfcCheck s b) = true := by
  simp only [pfcCheck, apply_ite canonical, canonical_sendPfc, h, ite_self]

theorem canonical_pfcTake (i : OpenIf) (f : EthFrame) : canonical (pfcTake s i f) = true := by
  simp +contextual only [pfcTake, apply_ite canonical, canonical_foldl, canonical_mk, memoriesWf_self, h, ite_self,
    implies_true]

theorem canonical_openRx (i : OpenIf) (f : EthFrame) : canonical (openRx s i f) = true := by
  simp only [openRx, apply_ite canonical, canonical_irq, canonical_pfcTake, canonical_openDrop, canonical_pfcCheck,
    canonical_mk, memoriesWf_self, h, ite_self]

theorem nextCanonical_execOpenRxDeliver (b : OpenBlk) (q : BitVec 6) : NextCanonical (execOpenRxDeliver b q s) := by
  simp (maxDischargeDepth := 4) only [execOpenRxDeliver, nextCanonical_next]
  repeat' split
  all_goals simp (maxDischargeDepth := 4) only [canonical_pfcCheck, canonical_openDrop, canonical_carveWrites,
    canonical_regPut, canonical_mk, memoriesWf_self, h]

theorem canonical_txComplete (b : Nat) (t : BitVec 128) (tag : Nat) : canonical (txComplete s b t tag) = true := by
  simp only [txComplete, canonical_regPut, canonical_carveWrites, h]

theorem canonical_txNext (b q : Nat) : canonical (txNext s b q).2 = true := by
  simp only [txNext, canonical_engineBytes, h]

theorem canonical_txServed (b q : Nat) : canonical (txServed s b q) = true := by
  simp only [txServed, apply_ite canonical, canonical_mk, memoriesWf_self, h, ite_self]

theorem canonical_openTx (b q tp : Nat) : canonical (openTx s b q tp) = true := by
  apply canonical_of_fn_eq₃
  · delta openTx
    rfl
  have hdrop {t : State} (ht : canonical t = true) (pg o n : Nat) :
      canonical (regPut (openDrop t pg o) (txqKey b q + 12) 0 16 n) = true :=
    canonical_regPut (canonical_openDrop ht ..) ..
  have hnext := canonical_txNext h b q
  generalize txNext s b q = d at hnext ⊢
  obtain ⟨line, u⟩ := d
  dsimp only at hnext ⊢
  cases line with
  | none => exact hdrop hnext ..
  | some l =>
    dsimp only
    split
    · exact hdrop hnext ..
    · have hread := canonical_engineBytes hnext b .openPort (byteFld (bytesNat l) 0 6) (byteFld (bytesNat l) 6 2)
      generalize engineBytes u b .openPort (byteFld (bytesNat l) 0 6) (byteFld (bytesNat l) 6 2) = x at hread ⊢
      obtain ⟨frame, v⟩ := x
      dsimp only at hread ⊢
      cases frame with
      | none => exact hdrop hread ..
      | some fr =>
        have hsent (n : Nat) (o : Out) :
            canonical (emit (txServed (regPut v (txqKey b q + 12) 0 16 n) b q) o) = true :=
          canonical_emit (canonical_txServed (canonical_regPut hread ..) ..) _
        dsimp only
        split
        · exact canonical_txComplete (hsent ..) ..
        · exact hsent ..

theorem nextCanonical_execOpenTx (b : OpenBlk) (q : BitVec 6) (tp : Nat) : NextCanonical (execOpenTx b q tp s) := by
  simp only [execOpenTx, nextCanonical_next, apply_ite canonical, canonical_openTx, h, ite_self]

theorem nextCanonical_execMgmtCommand (d : MgmtDatagram) : NextCanonical (execMgmtCommand d s) := by
  simp only [execMgmtCommand, nextCanonical_next, apply_ite canonical, canonical_commandRx, canonical_openDrop,
    canonical_mk, memoriesWf_self, h, ite_self]

/-! ## Persist -/

theorem canonical_pstStoreN (i n v : Nat) : canonical (pstStoreN s i n v) = true := by
  simp +contextual only [pstStoreN, canonical_pstStore, canonical_foldl, h, implies_true]

theorem canonical_pstWrite (who : Requester) (i : Nat) (v : Word) : canonical (pstWrite s who i v) = true := by
  simp only [pstWrite, apply_ite canonical, canonical_irq, canonical_statSet, canonical_orReg, canonical_mk,
    memoriesWf_self, h, ite_self]

theorem canonical_pstDone (inst : Nat) : canonical (pstDone s inst) = true := by
  unfold pstDone
  split <;> simp (maxDischargeDepth := 3) only [canonical_clrReg, canonical_pstStore, canonical_mk, memoriesWf_self, h]

theorem canonical_bankStore (lo b : Nat) (v : Option (BitVec 512)) : canonical (bankStore s lo b v) = true := by
  simp only [bankStore, canonical_pstStore, canonical_pstStoreN, h]

theorem canonical_ownerStore (v : Option (BitVec 512)) : canonical (ownerStore s v) = true := by
  simp only [ownerStore, canonical_bankStore, h]

theorem canonical_anchorStore (v : Option (BitVec 512)) : canonical (anchorStore s v) = true := by
  simp only [anchorStore, canonical_bankStore, h]

theorem canonical_sealStore (state kind : Nat) : canonical (sealStore s state kind) = true := by
  simp only [sealStore, canonical_pstStore, h]

/-! ## Trust -/

theorem canonical_secDone (result : Nat) : canonical (secDone s result) = true := by
  simp (maxDischargeDepth := 3) only [secDone, canonical_irq, canonical_regPut, canonical_mk, memoriesWf_self, h]

theorem canonical_secRespond (l : List Byte) : canonical (secRespond s l) = true := by
  unfold secRespond
  split
  · exact canonical_secDone h ..
  · refine canonical_secDone ?_ ..
    exact canonical_engineWrites h 3 .sec (regPair s (pgSec + 0x54) % 2 ^ 48) l.length (bytesNat l) (l.length / 64 + 2)

theorem canonical_askReissue : canonical (askReissue s) = true := h

theorem nextCanonical_execAliasReissue : NextCanonical (execAliasReissue s) := by
  simp (maxDischargeDepth := 4) only [execAliasReissue, nextCanonical_next, apply_ite canonical, canonical_irq,
    canonical_aliasIssue, canonical_rawAdd, canonical_mk, memoriesWf_self, h, ite_self]

theorem nextCanonical_execCertChain : NextCanonical (execCertChain s) := by
  simp only [execCertChain, nextCanonical_next, apply_ite canonical, canonical_secDone, canonical_secRespond, h,
    ite_self]

theorem nextCanonical_execCtxCert (c : Fin 256) (nonce : BitVec 256) : NextCanonical (execCtxCert c nonce s) := by
  simp only [execCtxCert, nextCanonical_next, apply_ite canonical, canonical_secDone, canonical_ctxCertOf,
    canonical_secRespond, h, ite_self]

theorem canonical_ctxCreate (c p : Nat) (conf : Bool) : canonical (ctxCreate s c p conf) = true := by
  simp +contextual (maxDischargeDepth := 5) only [ctxCreate, apply_ite canonical, canonical_secDone, canonical_makeKeys,
    canonical_drawFree, canonical_setCtx, canonical_foldl, h, ite_self, implies_true]

theorem canonical_dropCtxKeys (c : Nat) : canonical (dropCtxKeys s c) = true := h

theorem canonical_ctxDestroy (c : Nat) : canonical (ctxDestroy s c) = true := by
  simp (maxDischargeDepth := 3) only [ctxDestroy, apply_ite canonical, canonical_secDone, canonical_setCtx,
    canonical_dropCtxKeys, h, ite_self]

theorem canonical_sessionOpen (c : Nat) (nt : BitVec 256) (modulus : List Byte) :
    canonical (sessionOpen s c nt modulus) = true := by
  simp (maxDischargeDepth := 6) only [sessionOpen, apply_ite canonical, canonical_secDone, canonical_ctxCertOf,
    canonical_freeBytes, canonical_secRespond, canonical_setCtx, h, ite_self]

theorem canonical_sessionFinish (c : Nat) (m : List Byte) : canonical (sessionFinish s c m) = true := by
  simp (maxDischargeDepth := 3) only [sessionFinish, apply_ite canonical, canonical_secDone, h]
  repeat' split
  all_goals simp (maxDischargeDepth := 3) only [canonical_secDone, canonical_freeBytes, canonical_secRespond,
    canonical_setCtx, h]

theorem canonical_sealedNext (c : Nat) : canonical (sealedNext s c) = true := by
  simp only [sealedNext, canonical_setCtx, h]

theorem nextCanonical_execIoKeys (c : Fin 256) (m : SealedMsg) : NextCanonical (execIoKeys c m s) := by
  simp (maxDischargeDepth := 3) only [execIoKeys, nextCanonical_next, apply_ite canonical, canonical_secDone,
    canonical_sealedNext, canonical_setCtx, h, ite_self]

theorem nextCanonical_execAccess (c : Fin 256) (m : SealedMsg) : NextCanonical (execAccess c m s) := by
  simp (maxDischargeDepth := 3) only [execAccess, nextCanonical_next, apply_ite canonical, canonical_secDone,
    canonical_sealedNext, canonical_setCtx, h, ite_self]

theorem nextCanonical_execHostSessionClose (c : Fin 256) (m : SealedMsg) :
    NextCanonical (execHostSessionClose c m s) := by
  simp only [execHostSessionClose, nextCanonical_next, apply_ite canonical, canonical_secDone, canonical_setCtx, h,
    ite_self]

theorem nextCanonical_execImportBegin (c : Fin 256) (hdr : List (BitVec 8)) (set : List (BitVec 8)) :
    NextCanonical (execImportBegin c hdr set s) := by
  unfold execImportBegin
  split <;> simp only [nextCanonical_next, canonical_secDone, canonical_setCtx, h]

theorem canonical_importStop (c : Nat) : canonical (importStop s c) = true := by
  simp only [importStop, canonical_setCtx, h]

theorem canonical_chunkWrite (c v u n x : Nat) : canonical (chunkWrite s c v u n x) = true := by
  induction n generalizing s u x with
  | zero => exact h
  | succ n ih => exact ih (canonical_putBytes (canonical_countPath h ..) ..) ..

theorem canonical_importChunk (c a : Nat) (x : Import) : canonical (importChunk s c a x).1 = true := by
  simp only [importChunk]
  repeat' split
  all_goals simp (maxDischargeDepth := 4) only [canonical_engineBytes, canonical_chunkWrite, canonical_setCtx, h]

theorem canonical_importChunks (c n a : Nat) : canonical (importChunks c n a s) = true := by
  induction n generalizing a s with
  | zero => exact canonical_secDone h ..
  | succ n ih =>
    unfold importChunks
    split
    · exact canonical_secDone h ..
    · dsimp only
      split
      · exact ih (canonical_importChunk h ..) _
      · exact canonical_secDone (canonical_importStop (canonical_importChunk h ..) ..) ..

theorem nextCanonical_execImportChunks (c : Fin 256) (addr : BitVec 48) (count : Nat) :
    NextCanonical (execImportChunks c addr count s) := by
  simp only [execImportChunks, nextCanonical_next, apply_ite canonical, canonical_secDone, canonical_importChunks, h,
    ite_self]

theorem nextCanonical_execImportEnd (e : ImportTail) : NextCanonical (execImportEnd e s) := by
  simp only [execImportEnd, nextCanonical_next, apply_ite canonical, canonical_secDone, h]
  repeat' split
  all_goals simp only [canonical_secDone, canonical_importStop, canonical_setCtx, h]

theorem canonical_renewNonce : canonical (renewNonce s) = true := by
  simp +contextual only [renewNonce, canonical_drawFree, canonical_regSet, canonical_foldl, h, implies_true]

theorem canonical_presenceCount : canonical (presenceCount s) = true := by
  simp only [presenceCount, canonical_pstStore, h]

theorem canonical_ownerRun (cmd : Nat) (who : Signer) (pres : Bool) (r : OwnerReq) (f : State → State × Nat)
    (hf : canonical (f s).1 = true) : canonical (ownerRun s cmd who pres r f) = true := by
  simp only [ownerRun]
  split
  · exact canonical_renewNonce (canonical_secDone h ..)
  · refine canonical_renewNonce (canonical_secDone ?_ ..)
    simp only [apply_ite canonical, canonical_presenceCount, hf, ite_self]

theorem canonical_ownerEnrol (r : OwnerReq) : canonical (ownerEnrol s r) = true :=
  canonical_ownerRun h _ _ _ _ _ (canonical_askReissue (canonical_ownerStore h _))

theorem canonical_ownerTransfer (r : OwnerReq) : canonical (ownerTransfer s r) = true :=
  canonical_ownerRun h _ _ _ _ _ (canonical_askReissue (s := { ownerStore s _ with sec.mgmtKey := none })
    (canonical_ownerStore h _))

theorem canonical_ownerRollback (r : OwnerReq) : canonical (ownerRollback s r) = true := by
  refine canonical_ownerRun h _ _ _ _ _ ?_
  simp only [apply_ite Prod.fst, apply_ite canonical, canonical_pstStore, h, ite_self]

theorem canonical_faultContexts : canonical (faultContexts s) = true := by
  simp +contextual (maxDischargeDepth := 4) only [faultContexts, canonical_keysLost, canonical_dropCtxKeys,
    canonical_setCtx, canonical_foldl, h, implies_true]

theorem canonical_dropLinks : canonical (dropLinks s) = true := by
  simp +contextual only [dropLinks, apply_ite canonical, canonical_linkDown, canonical_foldl, h, ite_self, implies_true]

theorem canonical_deriveKeys : canonical (deriveKeys s) = true := h

theorem canonical_identityRequest : canonical (identityRequest s).2 = true := by
  simp only [identityRequest, canonical_freeBytes, h]

theorem canonical_identityDestroy (r : OwnerReq) : canonical (identityDestroy s r) = true := by
  refine canonical_ownerRun h _ _ _ _ _ ?_
  simp +contextual (maxDischargeDepth := 12) only [apply_ite canonical, canonical_dropLinks, canonical_setCtx,
    canonical_faultRaising, canonical_drawFree, canonical_deriveKeys, canonical_identityRequest, canonical_askReissue,
    canonical_ownerStore, canonical_emit, canonical_foldl, canonical_mk, memoriesWf_self, h, ite_self, implies_true]

/-- The seal commands store a state of the seal, or refuse. -/
theorem canonical_sealRun (c : Prop) [Decidable c] (a b e : Nat) :
    canonical (if c then (askReissue (sealStore s a b), 0) else (s, e)).1 = true := by
  simp only [apply_ite Prod.fst, apply_ite canonical, canonical_askReissue, canonical_sealStore, h, ite_self]

theorem canonical_sealArm (r : OwnerReq) : canonical (sealArm s r) = true :=
  canonical_ownerRun h _ _ _ _ _ (canonical_sealRun h ..)

theorem canonical_sealDisarm (r : OwnerReq) : canonical (sealDisarm s r) = true :=
  canonical_ownerRun h _ _ _ _ _ (canonical_sealRun h ..)

theorem canonical_sealClear (r : OwnerReq) : canonical (sealClear s r) = true :=
  canonical_ownerRun h _ _ _ _ _ (canonical_sealRun h ..)

theorem canonical_mgmtKey (r : OwnerReq) : canonical (mgmtKey s r) = true := by
  simp +contextual only [mgmtKey, canonical_ownerRun, canonical_mk, memoriesWf_self, h]

theorem canonical_fabricAnchor (r : OwnerReq) : canonical (fabricAnchor s r) = true :=
  canonical_ownerRun h _ _ _ _ _ (canonical_anchorStore h _)

theorem canonical_ownerCommand (l : List Byte) : canonical (ownerCommand s l) = true := by
  simp only [ownerCommand, apply_ite canonical, canonical_renewNonce, canonical_secDone, h]
  repeat' split
  all_goals simp only [canonical_renewNonce, canonical_secDone, canonical_ownerEnrol, canonical_ownerTransfer,
    canonical_ownerRollback, canonical_identityDestroy, canonical_sealArm, canonical_sealDisarm, canonical_sealClear,
    canonical_mgmtKey, canonical_fabricAnchor, h]

theorem canonical_secAbort : canonical (secAbort s) = true := by
  simp (maxDischargeDepth := 3) only [secAbort, apply_ite canonical, canonical_drawFree, canonical_regPut, canonical_mk,
    memoriesWf_self, h, ite_self]

theorem canonical_sealBreakAct : canonical (sealBreakAct s) = true := by
  simp (maxDischargeDepth := 8) only [sealBreakAct, canonical_dropLinks, canonical_faultContexts, canonical_askReissue,
    canonical_irq, canonical_sealStore, canonical_secAbort, canonical_mk, memoriesWf_self, h]

theorem nextCanonical_execSealBreak (ns : Nat) : NextCanonical (execSealBreak ns s) := by
  simp only [execSealBreak, nextCanonical_next, apply_ite canonical, canonical_sealBreakAct, canonical_mk,
    memoriesWf_self, h, ite_self]

theorem nextCanonical_execPresenceAsserted (ms : Nat) : NextCanonical (execPresenceAsserted ms s) := by
  simp only [execPresenceAsserted, nextCanonical_next, apply_ite canonical, canonical_mk, memoriesWf_self, h, ite_self]

theorem nextCanonical_execPresenceAbort : NextCanonical (execPresenceAbort s) := by
  simp only [execPresenceAbort, nextCanonical_next, canonical_mk, memoriesWf_self, h]

theorem nextCanonical_execDebugAttach : NextCanonical (execDebugAttach s) := by
  simp only [execDebugAttach, nextCanonical_next, canonical_mk, memoriesWf_self, h]

theorem canonical_secCmdWrite (w : Word) : canonical (secCmdWrite s w) = true := by
  simp (maxDischargeDepth := 3) only [secCmdWrite, apply_ite canonical, h]
  repeat' split
  all_goals simp (maxDischargeDepth := 3) only [canonical_secDone, canonical_secRespond, canonical_ctxCreate,
    canonical_ctxDestroy, canonical_engineBytes, canonical_ownerCommand, canonical_renewNonce, canonical_mk,
    memoriesWf_self, h]

/-! ## ResetOps -/

theorem canonical_linkStat (d k v : Nat) : canonical (linkStat s d k v) = true := by
  simp only [linkStat, apply_ite canonical, canonical_irq, canonical_regPut, h, ite_self]

theorem canonical_hostStat (d k : Nat) (up reset : Bool) : canonical (hostStat s d k up reset) = true := by
  simp only [hostStat, apply_ite canonical, canonical_irq, canonical_regSet, h, ite_self]

theorem canonical_linkEnd (d k : Nat) : canonical (linkEnd s d k) = true := by
  simp only [linkEnd, apply_ite canonical, canonical_linkStat, h, ite_self]

theorem canonical_linkByXcal (d n : Nat) : canonical (linkByXcal s d n) = true := by
  simp only [linkByXcal, apply_ite canonical, canonical_linkEnd, h, ite_self]

theorem canonical_calibrate (r : XcalResult) : canonical (calibrate s r) = true := by
  simp (maxDischargeDepth := 3) only [calibrate, apply_ite canonical, canonical_regSet, canonical_linkByXcal,
    canonical_pstStore, h, ite_self]

theorem canonical_calibrateAll (l : List (Nat × Nat)) (found : List XcalResult) :
    canonical (calibrateAll s l found) = true := by
  refine canonical_foldl (fun s x h => ?_) _ h
  split
  · exact canonical_calibrate h _
  · exact canonical_calibrate (canonical_drawFree h _) _

theorem canonical_dieLinks (d : Nat) (up : Bool) : canonical (dieLinks s d up) = true := by
  simp +contextual (maxDischargeDepth := 4) only [dieLinks, canonical_linkByXcal, canonical_hostStat, canonical_foldl,
    h, implies_true]

theorem canonical_retireLoad (d : Nat) : canonical (retireLoad s d) = true := by
  simp +contextual only [retireLoad, apply_ite canonical, canonical_retireAdd, canonical_foldl, h, ite_self,
    implies_true]

theorem canonical_dropQueue (v : Nat) : canonical (dropQueue s v) = true := by
  refine canonical_foldl (fun s x h => ?_) _ (canonical_setHostQ h v [])
  split
  · exact canonical_hostError h ..
  · exact h

theorem canonical_dieWipe (d : Nat) : canonical (dieWipe s d) = true := by
  have hdrop := canonical_foldl (fun s v h => canonical_dropQueue h v) (dieVaults d) h
  have hclear := canonical_foldl (fun s v h => canonical_clearCluster h v) (dieVaults d) hdrop
  have ht := tablesWf_iff.2 (canonical_foldl (fun s pg h => canonical_noteState h pg)
    ((diePages d).filter fun pg =>
      blockState ((dieVaults d).foldl clearCluster ((dieVaults d).foldl dropQueue s)) pg ≠ 0) hclear)
  simp only [dieWipe]
  generalize List.foldl noteState _ _ = t at ht ⊢
  simp only [canonical_mk, memoriesWf, tabDrop, regsWf_filter _ ht.regs, memWf_memClear _ _ _ ht.mem, ht.store, ht.wbuf,
    ht.landing, ht.slotMem, memWf_memClear _ _ _ ht.table, ht.flash, ht.sram, Bool.and_true]

theorem canonical_setPreset (d v : Nat) : canonical (setPreset s d v) = true := by
  simp only [setPreset, canonical_regPut, h]

theorem canonical_enterPreset (d : Nat) : canonical (enterPreset s d) = true := by
  unfold enterPreset
  split <;> simp +contextual (maxDischargeDepth := 8) only [apply_ite canonical, canonical_dieKeysLost,
    canonical_dieLinks, canonical_setPreset, canonical_dieWipe, canonical_eraseStore, canonical_regPut,
    canonical_askReissue, canonical_foldl, h, ite_self, implies_true]

theorem canonical_leavePreset (d : Nat) (xcal : List XcalResult) : canonical (leavePreset s d xcal) = true := by
  simp (maxDischargeDepth := 6) only [leavePreset, canonical_calibrateAll, canonical_setPreset, canonical_makeKeys,
    canonical_askReissue, canonical_retireLoad, canonical_dieLinks, h]

theorem canonical_presetWrite (w : Word) : canonical (presetWrite s w) = true := by
  unfold presetWrite
  split <;> simp only [apply_ite canonical, canonical_statSet, canonical_setPreset, canonical_mk, memoriesWf_self, h,
    ite_self]

theorem canonical_presetAbort (d : Nat) : canonical (presetAbort s d) = true := by
  simp only [presetAbort]
  exact canonical_keep (canonical_regPut (canonical_refusePower h ..) ..) ..

theorem nextCanonical_execPartialResetEntry (d : Fin 16) : NextCanonical (execPartialResetEntry d s) := by
  simp (maxDischargeDepth := 4) only [execPartialResetEntry, nextCanonical_next, apply_ite canonical,
    canonical_enterPreset, canonical_actFaults, canonical_presetAbort, canonical_mk, memoriesWf_self, h, ite_self]

theorem nextCanonical_execPartialResetReturn (d : Fin 16) (xcal : List XcalResult) :
    NextCanonical (execPartialResetReturn d xcal s) := by
  simp only [execPartialResetReturn, nextCanonical_next, apply_ite canonical, canonical_leavePreset, h, ite_self]

/-! ## Energy -/

theorem canonical_carryEnergy (k x : Nat) : canonical (carryEnergy s k x).2 = true := h

theorem canonical_addEnergy (pg x : Nat) : canonical (addEnergy s pg x) = true := by
  simp only [addEnergy, canonical_carryEnergy, canonical_regPairSet, h]

theorem canonical_partLedger (l : List Amount) (p : Nat) : canonical (partLedger s l p) = true := by
  simp (maxDischargeDepth := 3) only [partLedger, canonical_carryEnergy, canonical_regPut, canonical_setPart, h]

theorem canonical_windowAdd (l : List Amount) : canonical (windowAdd s l) = true := h

theorem nextCanonical_execLedgerUpdate (others : List EnergyEvents) : NextCanonical (execLedgerUpdate others s) := by
  simp +contextual (maxDischargeDepth := 8) only [execLedgerUpdate, nextCanonical_next, canonical_windowAdd,
    canonical_addEnergy, canonical_carryEnergy, canonical_regPairSet, canonical_partLedger, canonical_foldl,
    canonical_mk, memoriesWf_self, h, implies_true]

theorem canonical_correction (m : GroupMeas) : canonical (correction s m).2.2 = true := by
  simp only [correction, apply_ite canonical, canonical_drawFree, h, ite_self]

theorem nextCanonical_execCorrectionUpdate (meas : List GroupMeas) : NextCanonical (execCorrectionUpdate meas s) := by
  simp +contextual (maxDischargeDepth := 6) only [execCorrectionUpdate, nextCanonical_next, apply_ite canonical,
    canonical_correction, canonical_regSet, canonical_irq, canonical_statSet, canonical_foldl, canonical_mk,
    memoriesWf_self, h, ite_self, implies_true]

theorem nextCanonical_execThinStuck (p : Fin 16) : NextCanonical (execThinStuck p s) := by
  simp only [execThinStuck, nextCanonical_next, apply_ite canonical, canonical_irq, canonical_statSet, h, ite_self]

theorem canonical_coefWrite (o : Nat) (w : Word) : canonical (coefWrite s o w) = true := by
  simp only [coefWrite, apply_ite canonical, canonical_statSet, canonical_regSet, h, ite_self]

/-! ## Power -/

theorem canonical_setPower (b : PowerBlk) (v : Nat) : canonical (setPower s b v) = true := by
  simp (maxDischargeDepth := 3) only [setPower, apply_ite canonical, canonical_noteState, canonical_regPut, h, ite_self]

theorem canonical_setTarget (b : PowerBlk) (v : Nat) : canonical (setTarget s b v) = true := by
  simp only [setTarget, apply_ite canonical, canonical_regPut, h, ite_self]

theorem canonical_setBusy (b : PowerBlk) (v : Bool) : canonical (setBusy s b v) = true := by
  simp only [setBusy, canonical_regPut, h]

theorem canonical_setIso (b : PowerBlk) (v : Bool) : canonical (setIso s b v) = true := by
  unfold setIso
  split <;> simp only [canonical_regPut, h]

theorem canonical_maskCluster (b : PowerBlk) (on : Bool) : canonical (maskCluster s b on) = true := by
  unfold maskCluster
  split <;> simp only [canonical_regPut, h]

theorem canonical_powerBegin (b : PowerBlk) (v : Nat) : canonical (powerBegin s b v) = true := by
  simp (maxDischargeDepth := 4) only [powerBegin, apply_ite canonical, canonical_setBusy, canonical_setTarget,
    canonical_maskCluster, canonical_mk, memoriesWf_self, h, ite_self]

theorem canonical_targetWrite (b : PowerBlk) (v : Nat) : canonical (targetWrite s b v) = true := by
  simp only [targetWrite, apply_ite canonical, canonical_refusePower, canonical_powerBegin, h]
  repeat' split
  all_goals simp only [canonical_refusePower, canonical_powerBegin, h]

theorem canonical_refuseBare (pg : Nat) : canonical (refuseBare s pg) = true := by
  simp only [refuseBare, apply_ite canonical, canonical_refusePower, canonical_regSet, canonical_rawAdd, h, ite_self]

theorem canonical_pstateWrite (pg : Nat) (w : Word) : canonical (pstateWrite s pg w) = true := by
  unfold pstateWrite
  split <;> simp only [apply_ite canonical, canonical_targetWrite, canonical_refuseBare, h, ite_self]

theorem nextCanonical_execPstateWrite (pg : PageId) (w : BitVec 32) : NextCanonical (execPstateWrite pg w s) := by
  unfold execPstateWrite
  split
  · exact nextCanonical_next.2 (canonical_onServed h _ _ (canonical_pstateWrite h ..))
  · exact nextCanonical_next.2 (canonical_emit h _)

theorem canonical_unitStateWrite (c : Fin 1024) (w : Word) : canonical (unitStateWrite s c w) = true := by
  simp +contextual only [unitStateWrite, apply_ite canonical, canonical_refusePower, canonical_powerBegin,
    canonical_foldl, h, ite_self, implies_true]

theorem canonical_powerEnd (b : PowerBlk) : canonical (powerEnd s b) = true := by
  simp only [powerEnd, canonical_setBusy, canonical_mk, memoriesWf_self, h]

theorem canonical_unitWipe (b : PowerBlk) : canonical (unitWipe s b) = true := by
  unfold unitWipe
  split
  · exact tablesWf_iff.1 { tablesWf_iff.2 h with wbuf := memWf_memClear _ _ _ (tablesWf_iff.2 h).wbuf }
  · exact canonical_emptyTables h _
  · exact canonical_clearCluster h _
  · exact h

theorem canonical_recheck (d n : Nat) : canonical (recheck s d n) = true := by
  simp (maxDischargeDepth := 3) only [recheck, apply_ite canonical, canonical_drawFree, canonical_linkByXcal,
    canonical_regPut, h, ite_self]

theorem canonical_powerTo (b : PowerBlk) (v : Nat) : canonical (powerTo s b v) = true := by
  simp (maxDischargeDepth := 4) only [powerTo, apply_ite canonical, canonical_unitWipe, canonical_maskCluster,
    canonical_setPower, canonical_powerEnd, h, ite_self]

theorem nextCanonical_execPowerEntryDone (b : PowerBlk) : NextCanonical (execPowerEntryDone b s) := by
  simp (maxDischargeDepth := 4) only [execPowerEntryDone, nextCanonical_next]
  repeat' split
  all_goals simp (maxDischargeDepth := 4) only [canonical_powerTo, canonical_setIso, canonical_actFaults,
    canonical_enterPreset, canonical_leavePreset, h]

theorem nextCanonical_execHostPending (d : Fin 16) : NextCanonical (execHostPending d s) := by
  simp only [execHostPending, nextCanonical_next]
  split
  · split
    · exact h
    · exact canonical_keep (canonical_setTarget (canonical_refusePower h ..) ..) ..
  · exact h

theorem canonical_isoWrite (d : Nat) (w : Word) : canonical (isoWrite s d w) = true := by
  simp +contextual only [isoWrite, apply_ite canonical, canonical_setIso, canonical_foldl, h, ite_self, implies_true]

/-! ## Board -/

theorem canonical_setStage (n : Nat) : canonical (setStage s n) = true := by
  simp only [setStage, canonical_regPut, h]

theorem canonical_sramPut (a : Nat) (l : List Byte) : canonical (sramPut s a l) = true := by
  unfold sramPut
  split
  · exact tablesWf_iff.1 { tablesWf_iff.2 h with sram := memWf_memWrite _ _ _ _ (tablesWf_iff.2 h).sram }
  · exact h

theorem canonical_extendMr (i : Nat) (data : List Byte) : canonical (extendMr s i data) = true := h

theorem canonical_noteSlot (k n : Nat) : canonical (noteSlot s k n) = true := by
  simp only [noteSlot, apply_ite canonical, canonical_regPut, canonical_mk, memoriesWf_self, h, ite_self]

theorem canonical_bootStop : canonical (bootStop s) = true := by
  simp only [bootStop, canonical_setStage, canonical_mk, memoriesWf_self, h]

theorem canonical_bootDies (o : BootOutcome) : canonical (bootDies s o) = true := by
  simp +contextual (maxDischargeDepth := 6) only [bootDies, apply_ite canonical, canonical_regSet, canonical_setPreset,
    canonical_calibrateAll, canonical_retireLoad, canonical_dieLinks, canonical_hostStat, canonical_foldl, h, ite_self,
    implies_true]

theorem canonical_bootCarve (v : Nat) : canonical (bootCarve s v) = true := by
  simp (maxDischargeDepth := 3) only [bootCarve, apply_ite canonical, canonical_setInit, canonical_initRest, h,
    ite_self]

theorem canonical_bootRecord (cal : List Byte) : canonical (bootRecord s cal) = true := by
  simp +contextual (maxDischargeDepth := 8) only [bootRecord, canonical_regSet, canonical_foldl, canonical_mk,
    memoriesWf_self, h, implies_true]

theorem canonical_bootConfig : canonical (bootConfig s) = true := by
  simp (maxDischargeDepth := 3) only [bootConfig, apply_ite canonical, canonical_nodeIdWrite, canonical_regSet, h,
    ite_self]

theorem canonical_raiseMinimum (k : Nat) : canonical (raiseMinimum s k) = true := by
  simp only [raiseMinimum, apply_ite canonical, canonical_regPut, canonical_pstStore, h, ite_self]

theorem canonical_bootZenber (n : Nat) : canonical (bootZenber s n) = true := by
  simp +contextual (maxDischargeDepth := 12) only [bootZenber, canonical_setStage, canonical_extendMr,
    canonical_noteSlot, canonical_raiseMinimum, canonical_renewNonce, canonical_aliasIssue, canonical_foldl,
    canonical_mk, memoriesWf_self, h, implies_true]

theorem canonical_bootFirmware (o : BootOutcome) (cal : List Byte) : canonical (bootFirmware s o cal) = true := by
  unfold bootFirmware
  split
  · simp (maxDischargeDepth := 8) only [canonical_bootStop, canonical_regPut, canonical_bootDies, canonical_setStage, h]
  · dsimp only
    split <;> simp +contextual (maxDischargeDepth := 8) only [canonical_bootStop, canonical_bootZenber,
      canonical_engineWrites, canonical_bootConfig, canonical_bootRecord, canonical_foldl, canonical_bootCarve,
      canonical_bootDies, canonical_setStage, h, implies_true]

theorem canonical_bootSec (o : BootOutcome) : canonical (bootSec s o) = true := by
  unfold bootSec
  extract_lets s1 s2
  have hs : canonical s2 = true := by
    simp (maxDischargeDepth := 6) only [s2, s1, apply_ite canonical, canonical_sealBreakAct, canonical_deriveKeys,
      canonical_setStage, h, ite_self]
  clear_value s2
  split
  · exact canonical_bootStop hs
  · rename_i a _
    have hstage : canonical (setStage (extendMr (noteSlot s2 0 a) 0 (slotBody s2 0 a)) 3) = true :=
      canonical_setStage (canonical_extendMr (canonical_noteSlot hs ..) ..) _
    dsimp only
    split
    · simp (maxDischargeDepth := 6) only [canonical_bootFirmware, canonical_sramPut, canonical_extendMr,
        canonical_noteSlot, canonical_mk, memoriesWf_self, hstage]
    · exact canonical_bootStop hstage

theorem nextCanonical_execBoot (o : BootOutcome) : NextCanonical (execBoot o s) := by
  simp only [execBoot, nextCanonical_next, apply_ite canonical, canonical_setStage, canonical_bootSec, h, ite_self]

theorem canonical_flashPut (a : Nat) (l : List Byte) : canonical (flashPut s a l) = true :=
  tablesWf_iff.1 { tablesWf_iff.2 h with flash := memWf_memWrite _ _ _ _ (tablesWf_iff.2 h).flash }

theorem canonical_shepherdCheck : canonical (shepherdCheck s).2 = true := by
  unfold shepherdCheck
  split <;> simp only [canonical_engineBytes, h]

theorem canonical_wdtRestart : canonical (wdtRestart s) = true := h

theorem canonical_wdtCfgWrite (w : Word) : canonical (wdtCfgWrite s w) = true := by
  simp only [wdtCfgWrite, apply_ite canonical, canonical_wdtRestart, canonical_regSet, h, ite_self]

theorem nextCanonical_execShepherdTimerCompare (core : Fin 32) (w : TimerWrite) :
    NextCanonical (execShepherdTimerCompare core w s) := by
  unfold execShepherdTimerCompare
  split <;> simp only [nextCanonical_next, apply_ite canonical, canonical_mk, memoriesWf_self, h, ite_self]

theorem canonical_flashCmdWrite (w : Word) : canonical (flashCmdWrite s w) = true := by
  simp only [flashCmdWrite, apply_ite canonical, canonical_regPut, canonical_mk, memoriesWf_self, h, ite_self]

theorem canonical_flashJob (cmd a src n : Nat) : canonical (flashJob s cmd a src n).2.2.2 = true := by
  simp only [flashJob]
  repeat' split
  all_goals simp only [canonical_engineBytes, h]

theorem nextCanonical_execFlashDone (ok : Bool) : NextCanonical (execFlashDone ok s) := by
  simp only [execFlashDone, nextCanonical_next]
  repeat' split
  all_goals simp (maxDischargeDepth := 8) only [canonical_flashPut, canonical_freeBytes, canonical_mk, memoriesWf_self,
    h, canonical_flashJob, canonical_irq, canonical_regPut]

theorem canonical_vrTake (rs : List VrReply) (d : Nat) : canonical (vrTake rs s d) = true := by
  simp only [vrTake, apply_ite canonical, canonical_emit, canonical_regSet, canonical_irq, h, ite_self]

theorem canonical_vrRead (rs : List VrReply) : canonical (vrRead rs s) = true := by
  simp +contextual only [vrRead, canonical_vrTake, canonical_foldl, h, implies_true]

theorem nextCanonical_execVrPoll (rs : List VrReply) : NextCanonical (execVrPoll rs s) := by
  simp only [execVrPoll, nextCanonical_next, apply_ite canonical, canonical_vrRead, canonical_mk, memoriesWf_self, h,
    ite_self]

theorem nextCanonical_execVrAlert (rs : List VrReply) : NextCanonical (execVrAlert rs s) := by
  simp only [execVrAlert, nextCanonical_next, canonical_vrRead, canonical_irq, h]

theorem canonical_tempSet (t : TempReading) : canonical (tempSet s t) = true := by
  simp only [tempSet, apply_ite canonical, canonical_regSet, canonical_irq, h, ite_self]

theorem canonical_tripNow (d : Nat) : canonical (tripNow s d) = true := by
  simp (maxDischargeDepth := 5) only [tripNow, apply_ite canonical, canonical_regPut, canonical_irq, canonical_mk,
    memoriesWf_self, h, ite_self]

theorem nextCanonical_execTempUpdate (ts : List TempReading) : NextCanonical (execTempUpdate ts s) := by
  simp only [execTempUpdate, nextCanonical_next]
  repeat' split
  all_goals simp +contextual (maxDischargeDepth := 8) only [canonical_tempSet, canonical_regPut, canonical_irq,
    canonical_foldl, canonical_mk, memoriesWf_self, h, implies_true, canonical_tripNow]

theorem canonical_tripCtx (c : Nat) : canonical (tripCtx s c) = true := by
  simp only [tripCtx]
  repeat' split
  all_goals simp (maxDischargeDepth := 4) only [canonical_faultReport, canonical_endRaising, canonical_setCtx,
    canonical_abortAct, canonical_stopAct, h]

theorem nextCanonical_execThermalTrip : NextCanonical (execThermalTrip s) := by
  simp +contextual only [execThermalTrip, nextCanonical_next, apply_ite canonical, canonical_tripCtx, canonical_foldl,
    canonical_mk, memoriesWf_self, h, ite_self, implies_true]

/-! ## Operands -/

theorem canonical_vecOp (i : Issue) (u : VUnit) (o : VOp) (l : VLat) (enc : Bool) (srcs : List Dest) (f : State → Nat →
    VecReg) :
    canonical (vecOp i u o l enc srcs f s) = true := by
  simp only [vecOp, canonical_issueOp, h]

theorem canonical_vUnary (i : Issue) (u : VUnit) (o : VOp) (l : VLat) (f : Nat → Nat → Nat) :
    canonical (vUnary i u o l f s) = true := by
  simp only [vUnary, canonical_vecOp, h]

theorem canonical_vBinary (i : Issue) (u : VUnit) (o : VOp) (l : VLat) (scalar : Bool) (f : Nat → Nat → Nat → Nat) :
    canonical (vBinary i u o l scalar f s) = true := by
  simp only [vBinary, canonical_vecOp, h]

theorem canonical_vTernary (i : Issue) (u : VUnit) (o : VOp) (l : VLat) (scalar : Bool) (f : Nat → Nat → Nat → Nat →
    Nat) :
    canonical (vTernary i u o l scalar f s) = true := by
  simp only [vTernary, canonical_vecOp, h]

theorem canonical_vCompare (i : Issue) (u : VUnit) (o : VOp) (l : VLat) (f : Nat → Nat → Nat → Bool) :
    canonical (vCompare i u o l f s) = true := by
  simp only [vCompare, canonical_issueOp, h]

theorem canonical_vScalarOut (i : Issue) (u : VUnit) (o : VOp) (l : VLat) (enc : Bool) (srcs : List Dest) (f : State →
    Nat → BitVec 256 → Nat → Act) :
    canonical (vScalarOut i u o l enc srcs f s) = true := by
  simp only [vScalarOut, canonical_issueOp, h]

/-! ## Control -/

theorem canonical_cScalar (i : Issue) (sd : BitVec 5) (srcs : List Dest) (f : State → Nat → BitVec 64) :
    canonical (cScalar i sd srcs f s) = true := by
  simp only [cScalar, canonical_issueOp, h]

theorem canonical_cBinary (i : Issue) (sd sa sb : BitVec 5) (f : BitVec 64 → BitVec 64 → BitVec 64) :
    canonical (cBinary i sd sa sb f s) = true := by
  simp only [cBinary, canonical_cScalar, h]

theorem nextCanonical_execBentEnd (i : Issue) : NextCanonical (execBentEnd i s) := by
  simp only [execBentEnd, nextCanonical_next, apply_ite canonical, canonical_advance, canonical_setSeq, h, ite_self]

/-! ## Tick -/

theorem canonical_frameMark : canonical (frameMark s) = true := by
  simp only [frameMark, apply_ite canonical, canonical_emit, canonical_mk, memoriesWf_self, h, ite_self]

theorem canonical_refMeasure : canonical (refMeasure s) = true := by
  simp +contextual (maxDischargeDepth := 3) only [refMeasure, apply_ite canonical, canonical_drawFree, canonical_regSet,
    canonical_foldl, h, ite_self, implies_true]

theorem canonical_periodClear : canonical (periodClear s) = true := by
  simp only [periodClear, canonical_clearLate, canonical_mk, memoriesWf_self, h]

theorem canonical_dropEdges (missed : List Nat) : canonical (dropEdges s missed) = true := h

theorem canonical_haltTick (p : Nat) : canonical (haltTick s p) = true := by
  simp only [haltTick]
  repeat' split
  all_goals simp +contextual only [canonical_setPart, canonical_regPut, canonical_foldl, h, implies_true]

theorem canonical_pmapTick : canonical (pmapTick s) = true := by
  unfold pmapTick
  split <;> exact h

theorem canonical_missTick (p : Nat) : canonical (missTick s p) = true := by
  simp only [missTick, canonical_setPart, canonical_holdFrame, h]

theorem canonical_partIdle (p : Nat) : canonical (partIdle s p) = true := by
  simp only [partIdle, canonical_setPart, h]

theorem canonical_partTick (missed : List Nat) (p : Nat) : canonical (partTick s missed p) = true := by
  simp (maxDischargeDepth := 3) only [partTick, apply_ite canonical, canonical_haltTick, canonical_missTick,
    canonical_quiet, canonical_periodEnd, canonical_choose, h, ite_self]

theorem canonical_faultedParts : canonical (faultedParts s) = true := by
  refine canonical_foldl (fun s p h => ?_) _ h
  split
  · simp only [apply_ite canonical, canonical_quiet, h, ite_self]
  · exact h

theorem canonical_decide1 (p : Nat) : canonical (decide1 s p) = true := by
  simp only [decide1, canonical_setPart, h]

theorem nextCanonical_execDecisionPoint : NextCanonical (execDecisionPoint s) := by
  simp +contextual only [execDecisionPoint, nextCanonical_next, canonical_advance, canonical_decide1, canonical_foldl,
    h, implies_true]

theorem nextCanonical_execStall (p : Fin 16) : NextCanonical (execStall p s) := by
  simp (maxDischargeDepth := 3) only [execStall, nextCanonical_next, apply_ite canonical, h]
  repeat' split
  all_goals simp (maxDischargeDepth := 3) only [canonical_setPart, canonical_actFaults, canonical_fault, h]

theorem nextCanonical_execRotationEntryEnd (p : Fin 16) : NextCanonical (execRotationEntryEnd p s) := by
  simp only [execRotationEntryEnd, nextCanonical_next]
  repeat' split
  all_goals simp (maxDischargeDepth := 4) only [canonical_setPart, canonical_faultedParts, canonical_actTick,
    canonical_takeEntry, h, canonical_serve]

/-! ## RaiseTick -/

theorem nextCanonical_execStopEffect (c : Fin 256) : NextCanonical (execStopEffect c s) := by
  simp only [execStopEffect, nextCanonical_next, apply_ite canonical, canonical_endRaising, h, ite_self]

theorem nextCanonical_execHoldEffect (c : Fin 256) : NextCanonical (execHoldEffect c s) := by
  simp only [execHoldEffect, nextCanonical_next, apply_ite canonical, canonical_setRaising, h, ite_self]

theorem nextCanonical_execResumeTick (c : Fin 256) : NextCanonical (execResumeTick c s) := by
  simp (maxDischargeDepth := 5) only [execResumeTick, nextCanonical_next, apply_ite canonical, canonical_irq,
    canonical_setRaising, canonical_faultedParts, canonical_actTick, canonical_serve, h, ite_self]

theorem canonical_freshClusters (c : Nat) : canonical (freshClusters s c) = true := by
  simp +contextual (maxDischargeDepth := 4) only [freshClusters, canonical_loadTables, canonical_loadEntry,
    canonical_clearRegs, canonical_foldl, h, implies_true]

theorem canonical_succeed (c : Nat) (q : Raising) : canonical (succeed s c q) = true := by
  simp only [succeed]
  repeat' split
  all_goals simp (maxDischargeDepth := 5) only [canonical_edgeEnd, canonical_promote, canonical_freshClusters,
    canonical_quiet, canonical_mk, memoriesWf_self, h]

theorem nextCanonical_execPredecessorStop (c : Fin 256) : NextCanonical (execPredecessorStop c s) := by
  unfold execPredecessorStop
  split <;> simp only [nextCanonical_next, apply_ite canonical, canonical_succeed, h, ite_self]

theorem canonical_startSets (c : Nat) : canonical (startSets s c) = true := by
  refine canonical_foldl (fun s n h => ?_) _ h
  split
  · exact h
  · exact canonical_putSet h ..

theorem canonical_startRaising (c : Nat) : canonical (startRaising s c) = true := by
  simp only [startRaising]
  repeat' split
  all_goals simp +contextual (maxDischargeDepth := 12) only [canonical_triggerFire, canonical_startSets,
    canonical_clearRegs, canonical_trailStart, canonical_irq, canonical_serve, canonical_foldl, canonical_mk,
    memoriesWf_self, h, implies_true, canonical_setCtx, canonical_scheduleBrace]

theorem nextCanonical_execRaisingStart (c : Fin 256) : NextCanonical (execRaisingStart c s) := by
  simp (maxDischargeDepth := 3) only [execRaisingStart, nextCanonical_next, apply_ite canonical, canonical_faultedParts,
    canonical_actTick, canonical_startRaising, h, ite_self]

/-! ## Partition -/

theorem canonical_mapApply : canonical (mapApply s) = true := by
  simp +contextual (maxDischargeDepth := 5) only [mapApply, canonical_dieKeysLost, canonical_makeKeys, canonical_regSet,
    canonical_foldl, h, implies_true]

theorem canonical_pmapStat (pending : Bool) (result : Nat) : canonical (pmapStat s pending result) = true := by
  simp only [pmapStat, canonical_regSet, h]

theorem canonical_pmapWrite (w : Word) : canonical (pmapWrite s w) = true := by
  simp only [pmapWrite, apply_ite canonical, canonical_statSet, h]
  repeat' split
  all_goals simp only [canonical_regPut, canonical_pmapStat, canonical_mk, memoriesWf_self, h]

theorem canonical_mapTick (x : PmapPend) : canonical (mapTick s x) = true := by
  simp only [mapTick]
  repeat' split
  all_goals simp (maxDischargeDepth := 5) only [canonical_pmapStat, canonical_mapApply, canonical_actFaults,
    canonical_freshClusters, canonical_fault, canonical_mk, memoriesWf_self, h]

theorem nextCanonical_execPartitionMapApply : NextCanonical (execPartitionMapApply s) := by
  unfold execPartitionMapApply
  split <;> simp only [nextCanonical_next, apply_ite canonical, canonical_mapTick, h, ite_self]

theorem canonical_stagedWrite (k : Nat) (v : Word) : canonical (stagedWrite s k v) = true := by
  simp only [stagedWrite, apply_ite canonical, canonical_statSet, canonical_regSet, h, ite_self]

theorem canonical_rotWrite (p : Nat) (j : Option Nat) (w : Word) : canonical (rotWrite s p j w) = true := by
  simp only [rotWrite, apply_ite canonical, canonical_statSet, h]
  repeat' split
  all_goals simp only [canonical_regSet, h]

theorem canonical_haltWrite (d : Nat) (on : Bool) : canonical (haltWrite s d on) = true := by
  unfold haltWrite
  split <;> simp only [canonical_setPart, h]

theorem canonical_haltConf (p d c : Nat) : canonical (haltConf s p d c) = true := by
  simp +contextual (maxDischargeDepth := 4) only [haltConf, apply_ite canonical, canonical_drawFree,
    canonical_actFaults, canonical_fault, canonical_clearCluster, canonical_foldl, h, ite_self, implies_true]

theorem nextCanonical_execHaltEffect (d : Fin 16) : NextCanonical (execHaltEffect d s) := by
  simp only [execHaltEffect, nextCanonical_next]
  repeat' split
  all_goals simp only [canonical_haltConf, canonical_regPut, h]

theorem canonical_haltCtlWrite (d : Nat) (w : Word) : canonical (haltCtlWrite s d w) = true := by
  simp only [haltCtlWrite, apply_ite canonical, canonical_haltWrite, h, ite_self]

/-! ## Debug -/

theorem canonical_tracePut (r : BitVec 256) : canonical (tracePut s r) = true := by
  simp only [tracePut, apply_ite canonical, canonical_irq, canonical_cntAdd, canonical_carveWrites, canonical_regPut, h,
    ite_self]

theorem nextCanonical_execTraceRecord : NextCanonical (execTraceRecord s) := by
  unfold execTraceRecord
  split <;> simp only [nextCanonical_next, canonical_tracePut, canonical_mk, memoriesWf_self, h]

theorem canonical_fpolicyWrite (c : Nat) (w : Word) : canonical (fpolicyWrite s c w) = true := by
  simp only [fpolicyWrite, apply_ite canonical, canonical_statSet, canonical_regSet, h, ite_self]

theorem canonical_auditWrite (d : Nat) (w : Word) : canonical (auditWrite s d w) = true := by
  simp only [auditWrite]
  exact canonical_keep (canonical_regSet _ _ _ h) ..

theorem canonical_maskedWord (on : Bool) (w : Word) : canonical (maskedWord s on w).2 = true := by
  unfold maskedWord
  split <;> simp only [canonical_countMasked, h]

theorem canonical_peekDie (d : Nat) : canonical (peekDie s d).2 = true := by
  unfold peekDie
  split <;> simp only [canonical_drawFree, canonical_maskedWord, h]

theorem canonical_peekEdge (e : Nat) : canonical (peekEdge s e).2 = true := by
  simp only [peekEdge]
  repeat' split
  all_goals simp only [canonical_maskedWord, canonical_drawFree, h]

/-! ## Bundle -/

theorem nextCanonical_execReservedOpcode (i : Issue) (slot : SlotId) (w : BitVec 44) :
    NextCanonical (execReservedOpcode i slot w s) := by
  simp only [execReservedOpcode, nextCanonical_next, apply_ite canonical, canonical_advance, canonical_issueOp, h,
    ite_self]

/-! ## Load -/

theorem canonical_loadEnd (result err : Nat) : canonical (loadEnd s result err) = true := by
  simp (maxDischargeDepth := 5) only [loadEnd, canonical_regPut, canonical_irq, canonical_regPairSet, canonical_mk,
    memoriesWf_self, h]

theorem canonical_loadRead (a o n : Nat) : canonical (loadRead s a o n).2 = true := by
  induction n generalizing s o with
  | zero => exact h
  | succ n ih =>
    unfold loadRead
    dsimp only
    split
    · exact canonical_engineLine h ..
    · exact ih (canonical_engineLine h ..) _

theorem canonical_planKeep (p : Img) (slot : Nat) : canonical (planKeep p s slot) = true := h

theorem canonical_loadRun (slot a : Nat) : canonical (loadRun s slot a) = true := by
  have hhead := canonical_loadRead h a 0 4
  unfold loadRun
  split
  · exact canonical_loadEnd h ..
  split
  · exact canonical_loadEnd h ..
  dsimp only
  split
  · exact canonical_loadEnd hhead ..
  split
  · exact canonical_loadEnd hhead ..
  split
  · exact canonical_loadEnd hhead ..
  have hrest (n : Nat) := canonical_loadRead hhead a 256 n
  split
  · exact canonical_loadEnd (hrest _) ..
  split
  · exact canonical_loadEnd (hrest _) ..
  · exact canonical_loadEnd (canonical_planKeep (hrest _) ..) ..

theorem canonical_planCmdWrite (w : Word) : canonical (planCmdWrite s w) = true := by
  simp (maxDischargeDepth := 4) only [planCmdWrite, apply_ite canonical, h]
  repeat' split
  all_goals simp (maxDischargeDepth := 4) only [canonical_regPut, canonical_regPairSet, canonical_mk, memoriesWf_self,
    h]

theorem nextCanonical_execLoadComplete : NextCanonical (execLoadComplete s) := by
  unfold execLoadComplete
  split <;> simp only [nextCanonical_next, canonical_loadRun, h]

/-! ## RegRead -/

theorem canonical_loadLatch (b : Blk) (i k n : Nat) : canonical (loadLatch s b i k n) = true := by
  simp +contextual only [loadLatch, canonical_foldl, canonical_mk, memoriesWf_self, h, implies_true]

theorem canonical_errCapt0Clear (pg : Nat) : canonical (errCapt0Clear s pg) = true := by
  simp only [errCapt0Clear, canonical_clrReg, canonical_mk, memoriesWf_self, h]

theorem canonical_readElse (b : Blk) (k : Nat) : ∀ x ∈ readElse s b k, canonical x.2 = true := by
  intro x hx
  unfold readElse at hx
  dsimp only at hx
  split at hx
  · obtain ⟨-, hx⟩ := Option.ite_none_right_eq_some.1 hx
    cases hx
    exact canonical_peekDie h ..
  · obtain ⟨-, hx⟩ := Option.ite_none_right_eq_some.1 hx
    cases hx
    exact canonical_peekEdge h ..
  · cases hx

theorem canonical_regReadAt (b : Blk) (i k : Nat) : canonical (regReadAt s b i k).2 = true := by
  unfold regReadAt
  dsimp only
  split
  · exact canonical_errCapt0Clear h ..
  split
  · exact h
  split
  · next hx => exact canonical_readElse h _ _ _ hx
  split
  · exact canonical_countMasked h ..
  split
  · exact canonical_captClear h ..
  split
  · exact canonical_loadLatch h ..
  · exact h
  · exact h

/-! ## RegOps -/

theorem canonical_cntZero (b : Blk) (pg : Nat) : canonical (cntZero s b pg) = true := by
  simp +contextual only [cntZero, apply_ite canonical, canonical_regSet, canonical_foldl, h, ite_self, implies_true]

theorem canonical_ctrlWrite (b : Blk) (pg : Nat) (w : Word) : canonical (ctrlWrite s b pg w) = true := by
  simp only [ctrlWrite, apply_ite canonical, canonical_cntZero, canonical_regSet, h, ite_self]

theorem canonical_irqForceWrite (b : Blk) (pg : Nat) (w : Word) : canonical (irqForceWrite s b pg w) = true := by
  simp only [irqForceWrite, canonical_orReg, h]

theorem canonical_plainWrite (r : RegRow) (k : Nat) (w : Word) : canonical (plainWrite s r k w) = true := by
  simp only [plainWrite, canonical_regSet, h]

theorem canonical_ringWrite (pg : Nat) (r : RegRow) (k : Nat) (w : Word) : canonical (ringWrite s pg r k w) = true := by
  simp only [ringWrite, apply_ite canonical, canonical_plainWrite, canonical_statSet, canonical_regPut, h, ite_self]

theorem canonical_dieSWrite (r : RegRow) (k : Nat) (w : Word) : canonical (dieSWrite s r k w) = true := by
  simp only [dieSWrite, apply_ite canonical, canonical_stagedWrite, canonical_presetWrite, canonical_rotWrite,
    canonical_pmapWrite, canonical_plainWrite, h, ite_self]

theorem canonical_vltWrite (v i : Nat) (r : RegRow) (k : Nat) (w : Word) : canonical (vltWrite s v i r k w) = true := by
  simp only [vltWrite, apply_ite canonical, canonical_imapWrite, canonical_carveWrite, canonical_retireWrite,
    canonical_initCtrlWrite, canonical_ctxRowsWrite, canonical_plainWrite, h, ite_self]

theorem canonical_sltWrite (e : Nat) (r : RegRow) (k : Nat) (w : Word) : canonical (sltWrite s e r k w) = true := by
  simp only [sltWrite, apply_ite canonical, canonical_setCfgWrite, canonical_setCheck, canonical_setRelease,
    canonical_plainWrite, h, ite_self]

theorem canonical_lseWrite (e : Nat) (r : RegRow) (k : Nat) (w : Word) : canonical (lseWrite s e r k w) = true := by
  simp only [lseWrite, apply_ite canonical, canonical_deflectMaskWrite, canonical_routeHiWrite, canonical_portDimWrite,
    canonical_plainWrite, h, ite_self]

theorem canonical_opnWrite (b : Blk) (blk : Nat) (r : RegRow) (k : Nat) (w : Word) :
    canonical (opnWrite s b blk r k w) = true := by
  simp only [opnWrite, apply_ite canonical, canonical_ifCfgWrite, canonical_plainWrite, canonical_ringWrite,
    canonical_steerHiWrite, h, ite_self]

theorem canonical_dbgWrite (d : Nat) (r : RegRow) (k : Nat) (w : Word) : canonical (dbgWrite s d r k w) = true := by
  simp only [dbgWrite, apply_ite canonical, canonical_auditWrite, canonical_haltCtlWrite, canonical_abortWrite,
    canonical_plainWrite, h, ite_self]

theorem canonical_trlWrite (r : RegRow) (k : Nat) (w : Word) : canonical (trlWrite s r k w) = true := by
  simp only [trlWrite, apply_ite canonical, canonical_trlCfgWrite, canonical_replayRun, canonical_regPut,
    canonical_plainWrite, h, ite_self]

theorem canonical_slotWindowWrite (e off n data : Nat) : ∀ t ∈ slotWindowWrite s e off n data, canonical t = true := by
  intro t ht
  obtain ⟨-, ht⟩ := Option.ite_none_left_eq_some.1 ht
  cases ht
  exact tablesWf_iff.1 { tablesWf_iff.2 h with slotMem := memWf_memWrite _ _ _ _ (tablesWf_iff.2 h).slotMem }

theorem nextCanonical_execSlotTableWindowWrite (e : Fin 3) (off : BitVec 23) (size : AccSize) (data : BitVec 512) :
    NextCanonical (execSlotTableWindowWrite e off size data s) :=
  nextCanonical_next.2 (canonical_getD (canonical_slotWindowWrite h _ _ _ _) (canonical_emit h _))

theorem canonical_regionRead (k n : Nat) : ∀ x ∈ regionRead s k n, canonical x.2 = true := by
  intro x hx
  unfold regionRead at hx
  split at hx
  · obtain ⟨-, hx⟩ := Option.ite_none_left_eq_some.1 hx
    split at hx <;> cases hx <;> exact h
  · split at hx
    · cases hx
    · obtain ⟨-, hx⟩ := Option.ite_none_left_eq_some.1 hx
      cases hx
      exact canonical_regReadAt h ..

theorem canonical_s0Write (x n data : Nat) : ∀ t ∈ s0Write s x n data, canonical t = true := by
  intro t ht
  obtain ⟨-, ht⟩ := Option.ite_none_left_eq_some.1 ht
  split at ht <;> cases ht
  · exact tablesWf_iff.1 { tablesWf_iff.2 h with sram := memWf_memWrite _ _ _ _ (tablesWf_iff.2 h).sram }
  · exact h

theorem canonical_hostGet (a n : Nat) : canonical (hostGet s a n).2 = true := by
  unfold hostGet
  split
  · refine canonical_countAccess (canonical_getD (fun u hu => ?_) h) ..
    obtain ⟨x, hx, rfl⟩ := Option.map_eq_some_iff.1 hu
    exact canonical_regionRead h _ _ _ hx
  · exact h

theorem canonical_hostDram (r : HostReq) (v u : Nat) : canonical (hostDram s r v u) = true := by
  simp only [hostDram, apply_ite canonical, canonical_countPath, canonical_hostError, canonical_queueJob, h, ite_self]

theorem nextCanonical_execLatchedPairRead (a : BitVec 48) : NextCanonical (execLatchedPairRead a s) := by
  simp only [execLatchedPairRead, nextCanonical_next]
  repeat' split
  all_goals simp only [canonical_hostDram, canonical_hostGet, canonical_emit, h]

theorem canonical_onPage (pg : PageId) (f : Blk → Nat → Nat → State) (hf : ∀ b i k, canonical (f b i k) = true) :
    canonical (onPage s pg f) = true := by
  unfold onPage
  split
  · exact canonical_emit h _
  · split
    · exact canonical_emit h _
    · exact hf ..

theorem nextCanonical_execErrCapt0Read (pg : PageId) : NextCanonical (execErrCapt0Read pg s) :=
  nextCanonical_next.2 (canonical_onPage h _ _ fun _ _ _ => canonical_emit (canonical_regReadAt h ..) _)

theorem nextCanonical_execCntClear (pg : PageId) : NextCanonical (execCntClear pg s) :=
  nextCanonical_next.2 (canonical_onPage h _ _ fun _ _ _ => canonical_cntZero h ..)

theorem nextCanonical_execCntFreeze (pg : PageId) (on : Bool) : NextCanonical (execCntFreeze pg on s) :=
  nextCanonical_next.2 (canonical_onPage h _ _ fun _ _ _ => canonical_regPut h ..)

theorem nextCanonical_execIrqForce (pg : PageId) (w : BitVec 32) : NextCanonical (execIrqForce pg w s) :=
  nextCanonical_next.2 (canonical_onPage h _ _ fun _ _ _ => canonical_irqForceWrite h ..)

/-! ## Endpoint -/

theorem canonical_complete (r : LooseReq) (status len data : Nat) :
    canonical (complete s r status len data) = true := by
  simp only [complete, canonical_stageLoose, h]

theorem canonical_looseRead (a : Nat) : canonical (looseRead s a).2.2 = true := by
  simp only [looseRead]
  repeat' split
  all_goals simp (maxDischargeDepth := 3) only [canonical_countPath, canonical_hostLine, h]

theorem canonical_looseWrite (a n data : Nat) : canonical (looseWrite s a n data).2 = true := by
  simp only [looseWrite]
  repeat' split
  all_goals simp (maxDischargeDepth := 3) only [canonical_countPath, canonical_putBytes, h]

theorem canonical_performRd (r : LooseReq) : canonical (performRd s r) = true := by
  unfold performRd
  dsimp only
  split
  · split
    · exact canonical_complete h ..
    · split
      · next hx => exact canonical_complete (canonical_countAccess (canonical_regionRead h _ _ _ hx) ..) ..
      · exact canonical_complete (canonical_countAccess h ..) ..
  · simp only [apply_ite canonical, canonical_complete, canonical_looseRead, h, ite_self]

theorem canonical_performMsg (r : LooseReq) : canonical (performMsg s r) = true := by
  simp only [performMsg, apply_ite canonical, canonical_complete, canonical_epDeliver, h, ite_self]

theorem canonical_setRecv (x : RecvCtx) : canonical (setRecv s x) = true := h

theorem canonical_freeRecv (src : BitVec 16) (stream : BitVec 4) : canonical (freeRecv s src stream) = true := h

theorem canonical_dupDrop : canonical (dupDrop s) = true := by
  simp only [dupDrop, canonical_lseCount, h]

theorem canonical_unstagePkt (r : LooseReq) : canonical (unstagePkt s r) = true := by
  unfold unstagePkt
  split <;> simp only [canonical_unstage, h]

theorem nextCanonical_execClosedContextFree (src : BitVec 16) (stream : BitVec 4) :
    NextCanonical (execClosedContextFree src stream s) := by
  unfold execClosedContextFree
  split <;> simp only [nextCanonical_next, apply_ite canonical, canonical_freeRecv, h, ite_self]

theorem nextCanonical_execRxIdle (src : BitVec 16) (stream : BitVec 4) : NextCanonical (execRxIdle src stream s) := by
  unfold execRxIdle
  split <;> simp only [nextCanonical_next, apply_ite canonical, canonical_freeRecv, h, ite_self]

theorem canonical_setSend (x : SendCtx) : canonical (setSend s x) = true := h

theorem canonical_sendReq (x : SendCtx) (i op flags len addr data : Nat) :
    canonical (sendReq s x i op flags len addr data) = true := by
  simp (maxDischargeDepth := 3) only [sendReq, canonical_setSend, canonical_stageLoose, canonical_mk, memoriesWf_self,
    h]

theorem canonical_takeSend (dst : BitVec 16) (stream : BitVec 4) :
    ∀ x ∈ takeSend s dst stream, canonical x.2 = true := by
  intro x hx
  unfold takeSend at hx
  split at hx <;> obtain ⟨-, hx⟩ := Option.ite_none_left_eq_some.1 hx <;> cases hx <;> exact h

theorem canonical_headOn (q : Nat) : canonical (headOn s q) = true := by
  simp only [headOn, canonical_regPut, h]

theorem canonical_originateLoose (q : Nat) : canonical (originateLoose s q) = true := by
  apply canonical_of_fn_eq
  · delta originateLoose
    rfl
  have hread := canonical_engineLines h 1 .dma (epRecord s q (epHead s q)) 2
  generalize engineLines s 1 .dma (epRecord s q (epHead s q)) 2 = x at hread ⊢
  obtain ⟨line, u⟩ := x
  dsimp only at hread ⊢
  generalize line.bind originReq = req
  cases req with
  | none => exact canonical_headOn (canonical_lseCount hread ..) _
  | some r =>
    dsimp only
    split
    · next ht _ => exact canonical_headOn (canonical_sendReq (canonical_takeSend hread _ _ _ ht) ..) _
    · exact h

theorem nextCanonical_execLooseOriginate (q : Fin 16) : NextCanonical (execLooseOriginate q s) := by
  simp only [execLooseOriginate, nextCanonical_next, apply_ite canonical, canonical_originateLoose, h, ite_self]

theorem nextCanonical_execSendContextIdle (dst : BitVec 16) (stream : BitVec 4) :
    NextCanonical (execSendContextIdle dst stream s) := by
  unfold execSendContextIdle
  split <;> simp only [nextCanonical_next, apply_ite canonical, canonical_sendReq, h, ite_self]

theorem nextCanonical_execSendContextFree (dst : BitVec 16) (stream : BitVec 4) :
    NextCanonical (execSendContextFree dst stream s) := by
  unfold execSendContextFree
  split <;> simp only [nextCanonical_next, apply_ite canonical, canonical_mk, memoriesWf_self, h, ite_self]

theorem canonical_finishReq (q : OutReq) (cpl : LooseReq) : canonical (finishReq s q cpl) = true := by
  simp only [finishReq]
  repeat' split
  all_goals simp (maxDischargeDepth := 5) only [canonical_irq, canonical_epDeliver, canonical_lseCount, canonical_mk,
    memoriesWf_self, h, canonical_setSend]

theorem nextCanonical_execCpl (r : LooseReq) : NextCanonical (execCpl r s) := by
  simp only [execCpl, nextCanonical_next, apply_ite canonical, canonical_lseCount, h]
  repeat' split
  all_goals simp only [canonical_lseCount, canonical_unstagePkt, canonical_finishReq, h]

theorem nextCanonical_execReqTimeout (tag : BitVec 16) : NextCanonical (execReqTimeout tag s) := by
  unfold execReqTimeout
  split <;> simp only [nextCanonical_next, canonical_finishReq, h]

/-! ## The time base -/

theorem canonical_frameCfgWrite (v : Word) : canonical (frameCfgWrite s v) = true := by
  simp only [frameCfgWrite, apply_ite canonical, canonical_statSet, canonical_regPut, canonical_mk, memoriesWf_self, h,
    ite_self]

theorem canonical_wallCmdWrite (v : Word) : canonical (wallCmdWrite s v) = true := by
  simp only [wallCmdWrite, apply_ite canonical, canonical_mk, memoriesWf_self, h, ite_self]

theorem canonical_rateAdjWrite (v : Word) : canonical (rateAdjWrite s v) = true := by
  simp only [rateAdjWrite, canonical_regSet, canonical_mk, memoriesWf_self, h]

theorem canonical_discCtrlWrite (v : Word) : canonical (discCtrlWrite s v) = true := by
  simp only [discCtrlWrite, apply_ite canonical, canonical_statSet, canonical_regPut, canonical_mk, memoriesWf_self, h,
    ite_self]

theorem canonical_timeCapture (capt pps : Bool) (tp : Nat) : canonical (timeCapture s capt pps tp) = true := by
  simp only [timeCapture, apply_ite canonical, canonical_orReg, canonical_mk, memoriesWf_self, h, ite_self]

theorem canonical_captStatWrite (v : Word) : canonical (captStatWrite s v) = true := by
  simp (maxDischargeDepth := 3) only [captStatWrite, apply_ite canonical, canonical_clrReg, canonical_regPut,
    canonical_mk, memoriesWf_self, h, ite_self]

theorem canonical_refHoldover : canonical (refHoldover s) = true := by
  simp (maxDischargeDepth := 3) only [refHoldover, canonical_irq, canonical_orReg, canonical_mk, memoriesWf_self, h]

theorem canonical_setDomain (d : Nat) (x : Domain) : canonical (setDomain s d x) = true := h

theorem canonical_takeFirst (d k : Nat) (free : Int) : canonical (takeFirst s d k free) = true := by
  simp only [takeFirst, apply_ite canonical, canonical_cntMax, canonical_freeLag, canonical_cntAdd, canonical_setDomain,
    h, ite_self]

theorem canonical_catchUp (tp : Int) : canonical (catchUp s tp) = true := by
  simp +contextual only [catchUp, apply_ite canonical, canonical_foldl, canonical_takeFirst, h, ite_self, implies_true]

theorem canonical_stretch1 (d : Nat) (x : Int) : canonical (stretch1 d s x) = true := by
  simp +contextual only [stretch1, apply_ite canonical, canonical_foldl, canonical_setDomain, h, ite_self, implies_true]

theorem canonical_droop (d mv p : Nat) (second : Bool) (tp : Nat) : canonical (droop s d mv p second tp) = true := by
  simp +contextual (maxDischargeDepth := 4) only [droop, apply_ite canonical, canonical_catchUp, canonical_foldl,
    canonical_stretch1, canonical_cntAdd, canonical_mk, memoriesWf_self, h, ite_self, implies_true]

theorem canonical_takeStretch (d tp : Nat) : canonical (takeStretch s d tp) = true := by
  have hcaught := canonical_catchUp h tp
  unfold takeStretch
  dsimp only
  split
  · exact hcaught
  · simp only [apply_ite canonical, canonical_takeFirst, hcaught, ite_self]

theorem canonical_closeDomains (n : Nat) (corr : Int) : canonical (closeDomains s n corr) = true := by
  simp +contextual (maxDischargeDepth := 4) only [closeDomains, canonical_foldl, canonical_regSet, canonical_setDomain,
    canonical_cntAdd, h, implies_true]

theorem canonical_timeTick (n k : Nat) : canonical (timeTick s n k) = true := by
  simp (maxDischargeDepth := 8) only [timeTick, canonical_frameMark, canonical_refMeasure, canonical_taiSet,
    canonical_regSet, canonical_regPut, canonical_closeDomains, canonical_mk, memoriesWf_self, h]

theorem canonical_tickEnded (t : Nat) : canonical (tickEnded s t) = true := by
  simp +contextual (maxDischargeDepth := 5) only [tickEnded, apply_ite canonical, canonical_resolveAborts,
    canonical_rawAdd, canonical_dropEdges, canonical_dropPartition, canonical_advance, canonical_foldl, h, ite_self,
    implies_true]

theorem canonical_periodDecided (missed : List Nat) (n : Nat) : canonical (periodDecided s missed n) = true := by
  simp +contextual (maxDischargeDepth := 8) only [periodDecided, apply_ite canonical, canonical_rollEvents,
    canonical_faultedParts, canonical_actTick, canonical_partTick, canonical_partIdle, canonical_pmapTick,
    canonical_actFaults, canonical_doneTick, canonical_periodClear, canonical_foldl, h, ite_self, implies_true]

theorem canonical_frameTick (n k : Nat) : canonical (frameTick s n k) = true := by
  rw [frameTick_eq]
  exact canonical_periodDecided (canonical_timeTick (canonical_tickEnded h _) ..) ..

/-! ## Resets -/

/-- What a package reset keeps is a part of the registers, and the flash (R415). -/
theorem canonical_packageReset : canonical (packageReset s) = true := by
  have ht := tablesWf_iff.2 (canonical_foldl (fun s i h => canonical_pstDone h i) (List.range 4) h)
  simp only [packageReset, canonical_mk, memoriesWf, regsWf_filter _ ht.regs, ht.flash]
  rfl

theorem canonical_shepherdReset : canonical (shepherdReset s) = true := by
  have hcheck : canonical (shepherdCheck { s with brd.sram := [], brd.timerCmp := [], brd.timerPend := [] }).2 = true :=
    canonical_shepherdCheck (tablesWf_iff.1 { tablesWf_iff.2 h with sram := rfl })
  simp only [shepherdReset, apply_ite canonical, canonical_sramPut, canonical_packageReset, canonical_mk,
    memoriesWf_self, hcheck, ite_self]

theorem canonical_resetWrite (w : Word) : canonical (resetWrite s w) = true := by
  unfold resetWrite
  split
  · exact h
  · split
    · exact canonical_packageReset h
    · exact canonical_shepherdReset h
    · exact h

/-! ## Register writes by address -/

theorem canonical_timWrite (b : Blk) (r : RegRow) (k : Nat) (w : Word) : canonical (timWrite s b r k w) = true := by
  simp only [timWrite, apply_ite canonical, canonical_frameCfgWrite, canonical_discCtrlWrite, canonical_startCtrlWrite,
    canonical_wallCmdWrite, canonical_rateAdjWrite, canonical_captStatWrite, canonical_plainWrite,
    canonical_refCtrlWrite, canonical_nodeIdWrite, canonical_rcmdWrite, canonical_mk, memoriesWf_self, h, ite_self]

theorem canonical_brdWrite (r : RegRow) (k : Nat) (w : Word) : canonical (brdWrite s r k w) = true := by
  simp only [brdWrite, apply_ite canonical, canonical_resetWrite, canonical_wdtCfgWrite, canonical_wdtRestart,
    canonical_flashCmdWrite, canonical_plainWrite, h, ite_self]

theorem canonical_blockWrite (who : Requester) (b : Blk) (i : Nat) (r : RegRow) (k : Nat) (w : Word) :
    canonical (blockWrite s who b i r k w) = true := by
  cases b <;>
    simp only [blockWrite, apply_ite canonical, canonical_timWrite, canonical_brdWrite, canonical_plainWrite,
      canonical_dieSWrite, canonical_vltWrite, canonical_sltWrite, canonical_areaWrite, canonical_lseWrite,
      canonical_opnWrite, canonical_portCfgWrite, canonical_portStart, canonical_coefWrite, canonical_isoWrite,
      canonical_unitStateWrite, canonical_secCmdWrite, canonical_pstWrite, canonical_trlWrite, canonical_commitWrite,
      canonical_bucketWrite, canonical_dbgWrite, canonical_planCmdWrite, canonical_fpolicyWrite, h, ite_self]

theorem canonical_regWriteAt (who : Requester) (b : Blk) (i k : Nat) (w : Word) :
    canonical (regWriteAt s who b i k w) = true := by
  unfold regWriteAt
  dsimp only
  split
  · exact h
  · simp only [apply_ite canonical, canonical_ctrlWrite, canonical_irqForceWrite, canonical_pstateWrite,
      canonical_plainWrite, canonical_blockWrite, h, ite_self]

theorem canonical_regionWrite (who : Requester) (k n data : Nat) :
    ∀ t ∈ regionWrite s who k n data, canonical t = true := by
  intro t ht
  unfold regionWrite at ht
  split at ht
  · obtain ⟨-, ht⟩ := Option.ite_none_left_eq_some.1 ht
    split at ht
    · exact canonical_entryWindowWrite h _ _ _ _ _ ht
    · exact canonical_slotWindowWrite h _ _ _ _ _ ht
  · split at ht
    · cases ht
    · obtain ⟨-, ht⟩ := Option.ite_none_left_eq_some.1 ht
      cases ht
      exact canonical_regWriteAt h ..

theorem canonical_hostPut (who : Requester) (a n data : Nat) : canonical (hostPut s who a n data).2 = true := by
  unfold hostPut
  split
  · exact canonical_countAccess (canonical_getD (canonical_regionWrite h who _ n data) h) ..
  · refine canonical_getD (fun t ht => ?_) h
    obtain ⟨-, ht⟩ := Option.ite_none_right_eq_some.1 ht
    exact canonical_s0Write h _ _ _ _ ht

theorem canonical_hostElse (r : HostReq) : canonical (hostElse s r) = true := by
  simp only [hostElse, apply_ite canonical, canonical_emit, canonical_hostPut, canonical_hostGet, h, ite_self]

/-! ## Loose requests -/

theorem canonical_performWr (r : LooseReq) : canonical (performWr s r) = true := by
  unfold performWr
  dsimp only
  split
  · split
    · exact canonical_complete h ..
    · split
      · next ht => exact canonical_complete (canonical_countAccess (canonical_regionWrite h _ _ _ _ _ ht) ..) ..
      · exact canonical_complete (canonical_countAccess h ..) ..
  · exact canonical_complete (canonical_looseWrite h ..) ..

theorem canonical_perform (r : LooseReq) : canonical (perform s r) = true := by
  unfold perform
  split
  · exact canonical_performMsg h r
  · exact canonical_performRd h r
  · exact canonical_performWr h r
  · exact canonical_complete h ..

theorem canonical_drainWindow (src : BitVec 16) (stream : BitVec 4) (n : Nat) :
    canonical (drainWindow src stream n s) = true := by
  induction n generalizing s with
  | zero => exact h
  | succ n ih =>
    unfold drainWindow
    split
    · exact h
    · split
      · exact h
      · exact ih (canonical_perform (canonical_setRecv h _) _)

theorem canonical_recvTake (x : RecvCtx) (r : LooseReq) : canonical (recvTake s x r) = true := by
  simp only [recvTake, apply_ite canonical, canonical_dupDrop, canonical_drainWindow, canonical_setRecv, h, ite_self]

theorem canonical_requestRx (r : LooseReq) : canonical (requestRx s r) = true := by
  have hunstaged := canonical_unstagePkt h r
  unfold requestRx
  split
  · exact canonical_lseCount h ..
  split
  · exact h
  generalize unstagePkt s r = u at hunstaged ⊢
  dsimp only
  split
  · exact canonical_recvTake hunstaged ..
  · simp only [apply_ite canonical, canonical_complete, canonical_recvTake, canonical_mk, memoriesWf_self, hunstaged,
      ite_self]

/-! ## Commands -/

theorem nextCanonical_execRefInputInvalid (b : Bool) : NextCanonical (execRefInputInvalid b s) := by
  simp (maxDischargeDepth := 3) only [execRefInputInvalid, nextCanonical_next, apply_ite canonical, canonical_refFollow,
    canonical_refHoldover, canonical_irq, canonical_orReg, canonical_clrReg, h, ite_self]

theorem nextCanonical_execPllStart : NextCanonical (execPllStart s) := by
  simp only [execPllStart, nextCanonical_next, apply_ite canonical, canonical_regPut, canonical_mk, memoriesWf_self, h,
    ite_self]

theorem nextCanonical_execDroopStretch (dom : Fin 67) (mv periods : Nat) (second : Bool) (tp : Nat) :
    NextCanonical (execDroopStretch dom mv periods second tp s) := by
  unfold execDroopStretch
  split
  · exact nextCanonical_fault
  · exact nextCanonical_next.2 (canonical_droop h ..)

theorem nextCanonical_execPowerExitDone (b : PowerBlk) : NextCanonical (execPowerExitDone b s) := by
  have hto := canonical_powerTo h b 0
  refine nextCanonical_next.2 ?_
  split
  · exact h
  split
  · exact h
  dsimp only
  split
  · simp +contextual (maxDischargeDepth := 3) only [apply_ite canonical, rejoin, canonical_setDomain, canonical_foldl,
      canonical_recheck, hto, ite_self, implies_true]
  · simp only [apply_ite canonical, canonical_leavePreset, hto, ite_self]
  · exact hto

theorem nextCanonical_execPackageReset (ns : Nat) : NextCanonical (execPackageReset ns s) := by
  simp only [execPackageReset, nextCanonical_next, apply_ite canonical, canonical_packageReset, canonical_drawFree, h,
    ite_self]

theorem nextCanonical_execPowerLoss (keepNew aon : Bool) : NextCanonical (execPowerLoss keepNew aon s) := by
  simp (maxDischargeDepth := 3) only [execPowerLoss, nextCanonical_next, apply_ite canonical, canonical_packageReset,
    canonical_mk, memoriesWf_self, h, ite_self]

theorem nextCanonical_execRecoveryImage (kind : BitVec 2) (img : List (BitVec 8)) :
    NextCanonical (execRecoveryImage kind img s) := by
  simp only [execRecoveryImage, nextCanonical_next, apply_ite canonical, canonical_packageReset, canonical_flashPut, h,
    ite_self]

theorem nextCanonical_execWatchdogExpiry : NextCanonical (execWatchdogExpiry s) := by
  simp (maxDischargeDepth := 3) only [execWatchdogExpiry, nextCanonical_next, apply_ite canonical,
    canonical_shepherdReset, canonical_cntAdd, canonical_wdtRestart, h, ite_self]

theorem nextCanonical_execFrameTick : NextCanonical (execFrameTick s) := by
  unfold execFrameTick
  dsimp only
  split
  · exact nextCanonical_next.2 h
  · split
    · exact nextCanonical_fault
    · exact nextCanonical_next.2 (canonical_frameTick h ..)

theorem nextCanonical_execHostAccess (r : HostReq) : NextCanonical (execHostAccess r s) := by
  unfold execHostAccess
  split
  · exact nextCanonical_next.2 (canonical_hostElse h r)
  · exact nextCanonical_next.2 (canonical_hostDram h ..)

theorem nextCanonical_execRegisterWrite (a : BitVec 48) (w : BitVec 32) : NextCanonical (execRegisterWrite a w s) := by
  refine nextCanonical_next.2 ?_
  split
  · exact canonical_hostDram h ..
  · simp only [apply_ite canonical, apply_ite Prod.snd, canonical_emit, canonical_hostPut, h, ite_self]

theorem nextCanonical_execReorderTimeout (src : BitVec 16) (stream : BitVec 4) :
    NextCanonical (execReorderTimeout src stream s) := by
  refine nextCanonical_next.2 ?_
  split
  · exact h
  · simp (maxDischargeDepth := 3) only [apply_ite canonical, canonical_drainWindow, canonical_setRecv,
      canonical_lseCount, h, ite_self]

/-- Every command keeps the canonical form. -/
theorem nextCanonical_exec (c : Instr) : NextCanonical (exec c s) := by
  cases c with
  | frameTick => exact nextCanonical_execFrameTick h ..
  | decisionPoint => exact nextCanonical_execDecisionPoint h ..
  | stall => exact nextCanonical_execStall h ..
  | frameCfgWrite => exact nextCanonical_next.2 (canonical_frameCfgWrite h ..)
  | wallCmdLoad => exact nextCanonical_next.2 (canonical_wallCmdWrite h ..)
  | discCtrlStep => exact nextCanonical_next.2 (canonical_discCtrlWrite h ..)
  | startCtrlArm => exact nextCanonical_next.2 (canonical_startCtrlWrite h ..)
  | timeCapture => exact nextCanonical_next.2 (canonical_timeCapture h ..)
  | captPop => exact nextCanonical_next.2 h
  | ppsOutPulse => exact nextCanonical_execPpsOutPulse h ..
  | refInputInvalid => exact nextCanonical_execRefInputInvalid h ..
  | refInputValid => exact nextCanonical_execRefInputValid h ..
  | refRevert => exact nextCanonical_execRefRevert h ..
  | holdoverExpired => exact nextCanonical_execHoldoverExpired h ..
  | refSelWrite => exact nextCanonical_next.2 (canonical_refCtrlWrite h ..)
  | pllStart => exact nextCanonical_execPllStart h ..
  | droopStretch => exact nextCanonical_execDroopStretch h ..
  | stretchEcho => exact nextCanonical_next.2 (canonical_takeStretch h ..)
  | bentEnd => exact nextCanonical_execBentEnd h ..
  | rotationEntryEnd => exact nextCanonical_execRotationEntryEnd h ..
  | mnop | vnop | lnop | snop | fnop | cnop => exact nextCanonical_next.2 (canonical_advance h ..)
  | mma | mzero | mdrain | mfill | vclass | vcvt | vins | vact | vrd | vwr | vrdp | bentld | vpre | smovl | smovs | swb
  | sld | sst | xld | fsend | frecv | ffwd | smul | lset | loopb | bseal | bnext | xset | xadv | xmov | gadd | gsub |
  gcmps | gcmp | gtest | tmark =>
    exact nextCanonical_next.2 (canonical_issueOp h ..)
  | vadd | vsub | vmul | vmax | vmin | vand | vor | vxor | vshl | vshr | vsra | vdiv | scalarVadd | scalarVsub |
  scalarVmul | scalarVmax | scalarVmin =>
    exact nextCanonical_next.2 (canonical_vBinary h ..)
  | vfma | vfms | scalarVfma | scalarVfms => exact nextCanonical_next.2 (canonical_vTernary h ..)
  | vabs | vneg | vrcp | vrsq | vsqrt | vexp | vlog | vsin | vcos | vtanh | verf | vmov =>
    exact nextCanonical_next.2 (canonical_vUnary h ..)
  | vcmpeq | vcmplt | vcmple => exact nextCanonical_next.2 (canonical_vCompare h ..)
  | vsel | vpack | vunpk | vscan | vperm | vrot | vbcast | viota | vrng =>
    exact nextCanonical_next.2 (canonical_vecOp h ..)
  | vrsum | vrmax | vrmin | vargmx | vext => exact nextCanonical_next.2 (canonical_vScalarOut h ..)
  | sli | slis | saddi | grd => exact nextCanonical_next.2 (canonical_cScalar h ..)
  | sadd | ssub | sand | sor | sxor | sshl | sshr | ssra => exact nextCanonical_next.2 (canonical_cBinary h ..)
  | traceRecord => exact nextCanonical_execTraceRecord h ..
  | refresh => exact nextCanonical_execRefresh h ..
  | scrub => exact nextCanonical_execScrub h ..
  | hostAccess => exact nextCanonical_execHostAccess h ..
  | hostEngineGuard => exact nextCanonical_execHostEngineGuard h ..
  | ctxRowsWrite => exact nextCanonical_next.2 (canonical_onServed h _ _ (canonical_ctxRowsWrite h ..))
  | carveWrite => exact nextCanonical_next.2 (canonical_onServed h _ _ (canonical_carveWrite h ..))
  | imapWrite => exact nextCanonical_next.2 (canonical_onServed h _ _ (canonical_imapWrite h ..))
  | retire => exact nextCanonical_next.2 (canonical_onServed h _ _ (canonical_retireWrite h ..))
  | initCtrlStart => exact nextCanonical_next.2 (canonical_onServed h _ _ (canonical_initCtrlWrite h ..))
  | initComplete => exact nextCanonical_execInitComplete h ..
  | errLogRead | ceLastRead | vcollLastRead | derrLastRead | collLastRead | xcollLastRead | auditLastRead =>
    exact nextCanonical_next.2 (canonical_onServed h _ _ (canonical_captRead h ..))
  | bind | update | release => exact nextCanonical_next.2 (canonical_onServed h _ _ (canonical_commitWrite h ..))
  | bucketCommit => exact nextCanonical_next.2 (canonical_onServed h _ _ (canonical_bucketWrite h ..))
  | commitComplete => exact nextCanonical_execCommitComplete h ..
  | entryWindowWrite => exact nextCanonical_execEntryWindowWrite h ..
  | leashedSend => exact nextCanonical_next.2 (canonical_slotSend h ..)
  | deferredSend => exact nextCanonical_next.2 (canonical_deferredSend h ..)
  | latePacketSend => exact nextCanonical_execLatePacketSend h ..
  | laneTake => exact nextCanonical_execLaneTake h ..
  | laneDrive => exact nextCanonical_execLaneDrive h ..
  | seqFrameRx => exact nextCanonical_next.2 (canonical_frameRx h ..)
  | combineStep => exact nextCanonical_next.2 (canonical_combineStep h ..)
  | setCheck => exact nextCanonical_next.2 (canonical_setCheck h ..)
  | setRelease => exact nextCanonical_next.2 (canonical_setRelease h ..)
  | setCfgWrite => exact nextCanonical_next.2 (canonical_setCfgWrite h ..)
  | ringCfgWrite | stageCfgWrite => exact nextCanonical_next.2 (canonical_areaWrite h ..)
  | scollLastRead | ovwLastRead => exact nextCanonical_next.2 (canonical_captRead h ..)
  | linkDown => exact nextCanonical_next.2 (canonical_linkDown h ..)
  | brace | cack | prepare | reRaise | prepareAck | commit | abort | stop | hold | resume | faultReport =>
    exact nextCanonical_next.2 (canonical_cmdAct h ..)
  | portEnable | portDisable | forceDown | kindWrite => exact nextCanonical_next.2 (canonical_portCfgWrite h ..)
  | phyAligned => exact nextCanonical_execPhyAligned h ..
  | helloSend => exact nextCanonical_execHelloSend h ..
  | hello => exact nextCanonical_next.2 (canonical_helloTake h ..)
  | probe => exact nextCanonical_execProbe h ..
  | echo => exact nextCanonical_next.2 (canonical_echoTake h ..)
  | readySend => exact nextCanonical_execReadySend h ..
  | ready => exact nextCanonical_execReady h ..
  | down => exact nextCanonical_execDown h ..
  | trainTimeout => exact nextCanonical_execTrainTimeout h ..
  | phyLockLoss => exact nextCanonical_execPhyLockLoss h ..
  | retrain => exact nextCanonical_execRetrain h ..
  | nakRx => exact nextCanonical_execNakRx h ..
  | replay => exact nextCanonical_next.2 (canonical_replayAll h ..)
  | replayTimeout => exact nextCanonical_execReplayTimeout h ..
  | ackTimer => exact nextCanonical_execAckTimer h ..
  | ackRx => exact nextCanonical_next.2 (canonical_ackTake h ..)
  | creditRx => exact nextCanonical_execCreditRx h ..
  | linkRekey => exact nextCanonical_execLinkRekey h ..
  | keyUpdate => exact nextCanonical_execKeyUpdate h ..
  | keyCerts => exact nextCanonical_execKeyCerts h ..
  | keySecret => exact nextCanonical_execKeySecret h ..
  | keyFinish => exact nextCanonical_execKeyFinish h ..
  | keyResend => exact nextCanonical_next.2 (canonical_keyResend h ..)
  | authHoldoffEnd => exact nextCanonical_next.2 (canonical_setLink h ..)
  | looseForward => exact nextCanonical_execLooseForward h ..
  | looseOriginate => exact nextCanonical_execLooseOriginate h ..
  | msg | rd | wr | close => exact nextCanonical_next.2 (canonical_requestRx h ..)
  | cpl => exact nextCanonical_execCpl h ..
  | reorderTimeout => exact nextCanonical_execReorderTimeout h ..
  | reqTimeout => exact nextCanonical_execReqTimeout h ..
  | sendContextIdle => exact nextCanonical_execSendContextIdle h ..
  | sendContextFree => exact nextCanonical_execSendContextFree h ..
  | closedContextFree => exact nextCanonical_execClosedContextFree h ..
  | rxIdle => exact nextCanonical_execRxIdle h ..
  | commandRx => exact nextCanonical_next.2 (canonical_commandRx h ..)
  | cmdRetry => exact nextCanonical_execCmdRetry h ..
  | routeHiWrite => exact nextCanonical_next.2 (canonical_routeHiWrite h ..)
  | portDimWrite => exact nextCanonical_next.2 (canonical_portDimWrite h ..)
  | deflectMaskWrite => exact nextCanonical_next.2 (canonical_deflectMaskWrite h ..)
  | pause => exact nextCanonical_next.2 (canonical_regSet _ _ _ h)
  | drained => exact nextCanonical_execDrained h ..
  | openFrameRx => exact nextCanonical_next.2 (canonical_openRx h ..)
  | openRxDeliver => exact nextCanonical_execOpenRxDeliver h ..
  | openTx => exact nextCanonical_execOpenTx h ..
  | ifCfgWrite => exact nextCanonical_next.2 (canonical_ifCfgWrite h ..)
  | steerHiWrite => exact nextCanonical_next.2 (canonical_steerHiWrite h ..)
  | openIfDown => exact nextCanonical_next.2 (canonical_ifDown h ..)
  | mgmtCommand => exact nextCanonical_execMgmtCommand h ..
  | rcmdArm => exact nextCanonical_execRcmdArm h ..
  | armReplay => exact nextCanonical_execArmReplay h ..
  | rcmdStart => exact nextCanonical_next.2 (canonical_rcmdStart h ..)
  | rcmdPrepare => exact nextCanonical_next.2 (canonical_rcmdPrepare h ..)
  | rcmdReRaise => exact nextCanonical_next.2 (canonical_rcmdReRaise h ..)
  | rcmdStop => exact nextCanonical_next.2 (canonical_rcmdStop h ..)
  | rcmdHold => exact nextCanonical_next.2 (canonical_rcmdHold h ..)
  | rcmdResume => exact nextCanonical_next.2 (canonical_rcmdResume h ..)
  | rcmdDiscard => exact nextCanonical_next.2 (canonical_rcmdDiscard h ..)
  | prepTimeout => exact nextCanonical_execPrepTimeout h ..
  | noCommit => exact nextCanonical_execNoCommit h ..
  | raisingStart => exact nextCanonical_execRaisingStart h ..
  | stopEffect => exact nextCanonical_execStopEffect h ..
  | holdEffect => exact nextCanonical_execHoldEffect h ..
  | resumeTick => exact nextCanonical_execResumeTick h ..
  | predecessorStop => exact nextCanonical_execPredecessorStop h ..
  | nodeIdWrite => exact nextCanonical_next.2 (canonical_nodeIdWrite h ..)
  | trlCfgWrite => exact nextCanonical_next.2 (canonical_trlCfgWrite h ..)
  | certChain => exact nextCanonical_execCertChain h ..
  | ctxCreate => exact nextCanonical_next.2 (canonical_ctxCreate h ..)
  | ctxDestroy => exact nextCanonical_next.2 (canonical_ctxDestroy h ..)
  | ctxCert => exact nextCanonical_execCtxCert h ..
  | sessionOpen => exact nextCanonical_next.2 (canonical_sessionOpen h ..)
  | sessionFinish => exact nextCanonical_next.2 (canonical_sessionFinish h ..)
  | ioKeys => exact nextCanonical_execIoKeys h ..
  | access => exact nextCanonical_execAccess h ..
  | hostSessionClose => exact nextCanonical_execHostSessionClose h ..
  | importBegin => exact nextCanonical_execImportBegin h ..
  | importChunks => exact nextCanonical_execImportChunks h ..
  | importEnd => exact nextCanonical_execImportEnd h ..
  | ownerEnrol => exact nextCanonical_next.2 (canonical_ownerEnrol h ..)
  | ownerTransfer => exact nextCanonical_next.2 (canonical_ownerTransfer h ..)
  | rollback => exact nextCanonical_next.2 (canonical_ownerRollback h ..)
  | identityDestroy => exact nextCanonical_next.2 (canonical_identityDestroy h ..)
  | sealArm => exact nextCanonical_next.2 (canonical_sealArm h ..)
  | sealDisarm => exact nextCanonical_next.2 (canonical_sealDisarm h ..)
  | sealClear => exact nextCanonical_next.2 (canonical_sealClear h ..)
  | mgmtKey => exact nextCanonical_next.2 (canonical_mgmtKey h ..)
  | fabricAnchor => exact nextCanonical_next.2 (canonical_fabricAnchor h ..)
  | nonceRenewal => exact nextCanonical_next.2 (canonical_renewNonce h ..)
  | sealBreak => exact nextCanonical_execSealBreak h ..
  | presenceAsserted => exact nextCanonical_execPresenceAsserted h ..
  | presenceAbort => exact nextCanonical_execPresenceAbort h ..
  | aliasReissue => exact nextCanonical_execAliasReissue h ..
  | debugAttach => exact nextCanonical_execDebugAttach h ..
  | ledgerUpdate => exact nextCanonical_execLedgerUpdate h ..
  | correctionUpdate => exact nextCanonical_execCorrectionUpdate h ..
  | thinStuck => exact nextCanonical_execThinStuck h ..
  | pstateWrite pg w => exact nextCanonical_execPstateWrite h pg w
  | powerEntryDone => exact nextCanonical_execPowerEntryDone h ..
  | powerExitDone => exact nextCanonical_execPowerExitDone h ..
  | hostPending => exact nextCanonical_execHostPending h ..
  | unitStateWrite => exact nextCanonical_next.2 (canonical_onServed h _ _ (canonical_unitStateWrite h ..))
  | isoRelease => exact nextCanonical_next.2 (canonical_onServed h _ _ (canonical_isoWrite h ..))
  | packageReset => exact nextCanonical_execPackageReset h ..
  | resetPackage | resetShepherd => exact nextCanonical_next.2 (canonical_resetWrite h ..)
  | watchdogExpiry => exact nextCanonical_execWatchdogExpiry h ..
  | wdtKick => exact nextCanonical_next.2 (canonical_wdtRestart h ..)
  | shepherdTimerCompare => exact nextCanonical_execShepherdTimerCompare h ..
  | boot => exact nextCanonical_execBoot h ..
  | recoveryImage => exact nextCanonical_execRecoveryImage h ..
  | presetEnter | presetRelease => exact nextCanonical_next.2 (canonical_presetWrite h ..)
  | partialResetEntry => exact nextCanonical_execPartialResetEntry h ..
  | partialResetReturn => exact nextCanonical_execPartialResetReturn h ..
  | pstWrite => exact nextCanonical_next.2 (canonical_pstWrite h ..)
  | pstWriteDone => exact nextCanonical_next.2 (canonical_pstDone h ..)
  | flashErase | flashProgram => exact nextCanonical_next.2 (canonical_flashCmdWrite h ..)
  | flashDone => exact nextCanonical_execFlashDone h ..
  | vrPoll => exact nextCanonical_execVrPoll h ..
  | vrAlert => exact nextCanonical_execVrAlert h ..
  | tempUpdate => exact nextCanonical_execTempUpdate h ..
  | thermalTrip => exact nextCanonical_execThermalTrip h ..
  | registerWrite => exact nextCanonical_execRegisterWrite h ..
  | latchedPairRead => exact nextCanonical_execLatchedPairRead h ..
  | errCapt0Read => exact nextCanonical_execErrCapt0Read h ..
  | cntClear => exact nextCanonical_execCntClear h ..
  | cntFreeze => exact nextCanonical_execCntFreeze h ..
  | irqForce => exact nextCanonical_execIrqForce h ..
  | apply | applyAtReraise => exact nextCanonical_next.2 (canonical_pmapWrite h ..)
  | partitionMapApply => exact nextCanonical_execPartitionMapApply h ..
  | rotationWrite => exact nextCanonical_next.2 (canonical_rotWrite h ..)
  | slotTableWindowWrite => exact nextCanonical_execSlotTableWindowWrite h ..
  | load | unload => exact nextCanonical_next.2 (canonical_planCmdWrite h ..)
  | loadComplete => exact nextCanonical_execLoadComplete h ..
  | fpolicyWrite => exact nextCanonical_next.2 (canonical_fpolicyWrite h ..)
  | auditCtrlWrite => exact nextCanonical_next.2 (canonical_auditWrite h ..)
  | halt | haltRelease => exact nextCanonical_next.2 (canonical_haltWrite h ..)
  | haltEffect => exact nextCanonical_execHaltEffect h ..
  | abortSessionCommit | abortBucketCommit | abortInitCtrl => exact nextCanonical_next.2 (canonical_abortWrite h ..)
  | raisingPreparation => exact nextCanonical_execRaisingPreparation h ..
  | reservedOpcode => exact nextCanonical_execReservedOpcode h ..
  | openIfUp => exact nextCanonical_execOpenIfUp h ..
  | powerLoss => exact nextCanonical_execPowerLoss h ..

end

/-- Settles O4: no command writes a register at its reset value, or a byte 0, into a table, or breaks its order. -/
theorem canonicalFormIsKept : Obligations.CanonicalFormIsKept := by
  unfold Obligations.CanonicalFormIsKept
  intro s t hs hstep
  unfold step at hstep
  split at hstep
  · cases hstep
    exact hs
  · next c rest _ => exact (nextCanonical_exec (s := { s with pending := rest }) hs c).next t hstep

end Sys2Proof.Proofs

end

section

/-! PROOF. The windows of a vault: writes of CTX_ROWS, CARVE and IMAP, and a host access to a row of no window (R202,
R203, R206, R456). -/

namespace Sys2Proof.Proofs
open Sys2Proof Sys2Proof.Machine Sys2Proof.Safety Sys2Proof.Laws

/-! ## The pages of a vault and of a host access's path -/

theorem onServed_vlt {s : State} {v : Nat} (hv : v < 1024) (hs : presetState s (v / 64) ≠ 4) (f : State → State) :
    onServed s (pgVlt v) f = f s := by
  have hpg : pgVlt v = pageBase (v / 64) (0x1000 * (0x140 + v % 64)) := by simp only [pgVlt, pageBase]; omega
  exact if_pos (hpg ▸ pageServed_cdie_isSome s (by omega) (by omega) (.inr hs))

/-- A path from S0 passes D2D pages alone. -/
theorem mem_hostPath_d2d {d pg : Nat} (hd : d < 16) (h : pg ∈ hostPath 3 d) :
    ∃ x j, pg = pgD2d x j ∧ j < 8 := by
  rcases List.mem_cons.1 h with rfl | h
  · exact ⟨19, d / 4, rfl, by omega⟩
  · obtain ⟨j, -, rfl⟩ := List.mem_map.1 h
    exact ⟨_, 1, rfl, by decide⟩

/-- A register of a page that is none of a die's D2D pages is not counted on a path. -/
theorem regGet_countAccess_hostPath (s : State) {d : Nat} (hd : d < 16) (ok : Bool) {k : Nat}
    (hk : k % 0x1000000 < 0x20000 ∨ 0x28000 ≤ k % 0x1000000) :
    regGet (countAccess s (hostPath 3 d) ok) k = regGet s k := by
  refine (countAccess_only s _ ok).2 k fun hmem => ?_
  obtain ⟨pg, hpg, hmem⟩ := List.mem_flatMap.1 hmem
  obtain ⟨x, j, rfl, hj⟩ := mem_hostPath_d2d hd hpg
  simp only [List.mem_cons, List.not_mem_nil, or_false, pgD2d, pageBase] at hmem
  omega

theorem regGet_vlt_countAccess (s : State) {d : Nat} (hd : d < 16) (ok : Bool) (v : Nat) {o : Nat} (ho : o < 0x1000) :
    regGet (countAccess s (hostPath 3 d) ok) (pgVlt v + o) = regGet s (pgVlt v + o) :=
  regGet_countAccess_hostPath s hd ok (.inr (by simp only [pgVlt, pageBase]; omega))

theorem presetState_countAccess (s : State) {d : Nat} (hd : d < 16) (ok : Bool) :
    presetState (countAccess s (hostPath 3 d) ok) d = presetState s d :=
  congrArg (wfield · 0 3)
    (regGet_countAccess_hostPath s hd ok (k := pgDieS + 0x310 + 4 * d) (by simp only [pgDieS, pageBase]; omega))

theorem dieServes_countAccess (s : State) {d : Nat} (hd : d < 16) (ok : Bool) :
    dieServes (countAccess s (hostPath 3 d) ok) d = dieServes s d := by
  have hp : regGet (countAccess s (hostPath 3 d) ok) (pgDie d + 0x24) = regGet s (pgDie d + 0x24) :=
    regGet_countAccess_hostPath s hd ok (by simp only [pgDie, pageBase]; omega)
  rw [dieServes, dieServes, presetState_countAccess s hd ok, regField, regField, hp]

/-! ## Windows and the owner of a row -/

/-- A mask that covers a field leaves it. -/
theorem wfield_and_of_ones (x : Word) {m : Word} {lo w : Nat} (hm : ∀ i < w, m.getLsbD (lo + i) = true) :
    wfield (x &&& m) lo w = wfield x lo w := by
  refine Nat.eq_of_testBit_eq fun i => ?_
  rw [testBit_wfield, testBit_wfield, BitVec.getLsbD_and]
  by_cases hi : i < w
  · rw [hm i hi, Bool.and_true]
  · simp [hi]

theorem winOf_and_mask (w : Word) : winOf (w &&& 0x7FFF7FFF) = winOf w :=
  Prod.ext (wfield_and_of_ones w (by decide)) (wfield_and_of_ones w (by decide))

theorem rowOwner_eq_none_iff {s : State} {v row : Nat} : rowOwner s v row = none ↔
    inWin (carveRows s v) row = false ∧ ∀ c < 256, inWin (ctxRows s v c) row = false := by
  unfold rowOwner
  split
  · simp [*]
  · rename_i h
    simp [h]

/-- The owner of a row depends on the window registers of its vault alone. -/
theorem rowOwner_congr {s t : State} {v : Nat} (h : ∀ o < 0x1000, regGet t (pgVlt v + o) = regGet s (pgVlt v + o))
    (row : Nat) : rowOwner t v row = rowOwner s v row := by
  have hcarve : carveRows t v = carveRows s v := congrArg winOf (h 0x44 (by decide))
  have hctx : ∀ c ∈ List.range 256, inWin (ctxRows t v c) row = inWin (ctxRows s v c) row := fun c hc => by
    have hc := List.mem_range.1 hc
    rw [ctxRows, ctxRows, Nat.add_assoc, h _ (by omega)]
  simp only [rowOwner, hcarve, List.find?_congr hctx]

theorem rowOwner_countAccess (s : State) {d : Nat} (hd : d < 16) (ok : Bool) (v row : Nat) :
    rowOwner (countAccess s (hostPath 3 d) ok) v row = rowOwner s v row :=
  rowOwner_congr (fun _ ho => regGet_vlt_countAccess s hd ok v ho) row

/-! ## Host accesses to DRAM -/

/-- Whether a host access to DRAM is answered with an error at its vault (R206, R213, R441). -/
def dramRefused (s : State) (r : HostReq) (v u : Nat) : Bool :=
  !dieServes s (v / 64) || r.len = 0 || 64 < r.addr.toNat % 64 + r.len.toNat || (rowOwner s v (u / 0x10000)).isNone

/-- A host access to DRAM is counted on its path, and refused or queued. -/
theorem hostDram_eq (s : State) (r : HostReq) {v : Nat} (hv : v < 1024) (u : Nat) : hostDram s r v u =
    if dramRefused s r v u then emit (countAccess s (hostPath 3 (v / 64)) false) (.errorDone r.tag)
    else queueJob (countAccess s (hostPath 3 (v / 64)) true) v (.access r u) := by
  have hd : v / 64 < 16 := by omega
  have hserve : dieServes (countPath s 3 (v / 64) 0x44) (v / 64) = dieServes s (v / 64) :=
    dieServes_countAccess s hd true
  have howner : rowOwner (countPath s 3 (v / 64) 0x44) v (u / 0x10000) = rowOwner s v (u / 0x10000) :=
    rowOwner_countAccess s hd true v _
  simp only [hostDram, dramRefused, hserve, howner]
  rfl

theorem exec_hostAccess_dram {s : State} {r : HostReq} {v u : Nat} (h : dramMap s r.addr.toNat = some (v, u)) :
    exec (.hostAccess r) s = .next (hostDram s r v u) := by
  show execHostAccess r s = _
  simp only [execHostAccess, h]

/-- A refused access changes the counters of its path, and is answered with an error. -/
theorem exec_hostAccess_refused {s : State} {r : HostReq} {v u : Nat} (h : dramMap s r.addr.toNat = some (v, u))
    (hr : dramRefused s r v u = true) :
    ∃ t, exec (.hostAccess r) s = .next t ∧ t = { s with regs := t.regs, out := s.out ++ [.errorDone r.tag] } ∧
      regsBut s t ((hostPath 3 (v / 64)).flatMap fun p => [p + 0x44, p + 0x48]) := by
  have honly := countAccess_only s (hostPath 3 (v / 64)) false
  refine ⟨_, exec_hostAccess_dram h, ?_⟩
  rw [hostDram_eq s r (dramMap_lt h), if_pos hr]
  exact ⟨by rw [honly.1]; rfl, honly.2⟩

/-! ## Writes of the window registers -/

/-- A write that STAT bit 0 refuses changes nothing else. -/
theorem statSet_refuses (s : State) (pg : Nat) :
    onlyRegs s (statSet s pg 0) [pg + 0xC] ∧ regBit (statSet s pg 0) (pg + 0xC) 0 = true :=
  ⟨statSet_only s pg 0, regBit_statSet s pg (by decide)⟩

section
variable {s : State} (v : Fin 1024) (hs : presetState s (v.val / 64) ≠ 4) (w : Word)
include hs

theorem exec_ctxRowsWrite (c : Fin 256) :
    exec (.ctxRowsWrite v c w) s = .next (ctxRowsWrite s v.val c.val w) := congrArg _ (onServed_vlt v.isLt hs _)

theorem exec_carveWrite : exec (.carveWrite v w) s = .next (carveWrite s v.val w) :=
  congrArg _ (onServed_vlt v.isLt hs _)

theorem exec_ctxRowsWrite_taken (c : Fin 256) (hok : windowOk s v.val (winOf (w &&& 0x7FFF7FFF)) c.val = true)
    (hfree : ctxHolds s c.val = false) : ∃ t, exec (.ctxRowsWrite v c w) s = .next t ∧
      onlyRegs s t [pgVlt v.val + 0x400 + 4 * c.val] ∧ ctxRows t v.val c.val = winOf w := by
  refine ⟨_, exec_ctxRowsWrite v hs w c, ?_⟩
  simp only [ctxRowsWrite, hok, hfree, Bool.not_false, Bool.and_self, if_true]
  exact ⟨regSet_only .., by rw [ctxRows, regGet_regSet_self, winOf_and_mask]⟩

theorem exec_ctxRowsWrite_refused (c : Fin 256)
    (hno : windowOk s v.val (winOf (w &&& 0x7FFF7FFF)) c.val = false ∨ ctxHolds s c.val = true) :
    ∃ t, exec (.ctxRowsWrite v c w) s = .next t ∧ onlyRegs s t [pgVlt v.val + 0xC] ∧
      regBit t (pgVlt v.val + 0xC) 0 = true := by
  have hcond : (windowOk s v.val (winOf (w &&& 0x7FFF7FFF)) c.val && !ctxHolds s c.val) = false := by
    rcases hno with h | h <;> simp only [h, Bool.false_and, Bool.not_true, Bool.and_false]
  refine ⟨_, exec_ctxRowsWrite v hs w c, ?_⟩
  simp only [ctxRowsWrite, hcond]
  exact statSet_refuses ..

theorem exec_carveWrite_taken (hok : windowOk s v.val (winOf (w &&& 0x7FFF7FFF)) domCarve = true) :
    ∃ t, exec (.carveWrite v w) s = .next t ∧ onlyRegs s t [pgVlt v.val + 0x44] ∧ carveRows t v.val = winOf w := by
  refine ⟨_, exec_carveWrite v hs w, ?_⟩
  simp only [carveWrite, hok, if_true]
  exact ⟨regSet_only .., by rw [carveRows, regGet_regSet_self, winOf_and_mask]⟩

theorem exec_carveWrite_refused (hno : windowOk s v.val (winOf (w &&& 0x7FFF7FFF)) domCarve = false) :
    ∃ t, exec (.carveWrite v w) s = .next t ∧ onlyRegs s t [pgVlt v.val + 0xC] ∧
      regBit t (pgVlt v.val + 0xC) 0 = true := by
  refine ⟨_, exec_carveWrite v hs w, ?_⟩
  simp only [carveWrite, hno]
  exact statSet_refuses ..

end

/-- No vault of the die has a window, as a write of IMAP asks. -/
theorem dieWindowsEmpty_iff (s : State) (d : Nat) :
    ((dieVaults d).all fun v => (carveRows s v).2 = 0 && (List.range 256).all fun c => (ctxRows s v c).2 = 0) = true ↔
      ∀ i < 64, (carveRows s (64 * d + i)).2 = 0 ∧ ∀ k < 256, (ctxRows s (64 * d + i) k).2 = 0 := by
  simp [dieVaults]

section
variable {s : State} (d : Fin 16) (hs : presetState s d.val ≠ 4) (w : Word)
include hs

theorem exec_imapWrite : exec (.imapWrite d w) s = .next (imapWrite s d.val w) :=
  congrArg _ (onServed_vlt (v := 64 * d.val) (by omega) (by rwa [Nat.mul_div_cancel_left _ (by decide)]) _)

theorem exec_imapWrite_taken
    (h : ∀ i < 64, (carveRows s (64 * d.val + i)).2 = 0 ∧ ∀ k < 256, (ctxRows s (64 * d.val + i) k).2 = 0) :
    ∃ t, exec (.imapWrite d w) s = .next t ∧ onlyRegs s t [pgVlt (64 * d.val) + 0x40] ∧
      regGet t (pgVlt (64 * d.val) + 0x40) = (w &&& 3) := by
  refine ⟨_, exec_imapWrite d hs w, ?_⟩
  rw [imapWrite, if_pos ((dieWindowsEmpty_iff s d.val).2 h)]
  exact ⟨regSet_only .., regGet_regSet_self ..⟩

theorem exec_imapWrite_refused
    (h : ∃ i < 64, (carveRows s (64 * d.val + i)).2 ≠ 0 ∨ ∃ k < 256, (ctxRows s (64 * d.val + i) k).2 ≠ 0) :
    ∃ t, exec (.imapWrite d w) s = .next t ∧ onlyRegs s t [pgVlt (64 * d.val) + 0xC] ∧
      regBit t (pgVlt (64 * d.val) + 0xC) 0 = true := by
  refine ⟨_, exec_imapWrite d hs w, ?_⟩
  rw [imapWrite, if_neg]
  · exact statSet_refuses ..
  · rw [dieWindowsEmpty_iff]
    obtain ⟨i, hi, hcarve | ⟨k, hk, hctx⟩⟩ := h
    · exact fun hall => hcarve (hall i hi).1
    · exact fun hall => hctx ((hall i hi).2 k hk)

end

/-- A row outside every window of its vault has no owner. -/
theorem rowOwner_eq_none_of_outside {s : State} {v row : Nat}
    (h : ∀ x ∈ [carveRows s v] ++ (List.range 256).map (ctxRows s v), row < x.1 ∨ x.1 + x.2 ≤ row) :
    rowOwner s v row = none := by
  have hout : ∀ x ∈ [carveRows s v] ++ (List.range 256).map (ctxRows s v), inWin x row = false := fun x hx => by
    have := h x hx
    simp only [inWin, Bool.and_eq_false_iff, decide_eq_false_iff_not]
    omega
  exact rowOwner_eq_none_iff.2 ⟨hout _ (by simp), fun c hc => hout _ (by simpa using .inr ⟨c, hc, rfl⟩)⟩

/-- Settles O24: a window register takes a value that keeps the rules, and otherwise STAT bit 0 is all that changes;
a row of no window has no owner, so that an access to it is refused. -/
theorem windowsStayApart : Obligations.WindowsStayApart := by
  unfold Obligations.WindowsStayApart
  intro s v c d w hv hd
  refine ⟨fun ⟨hok, hfree⟩ => exec_ctxRowsWrite_taken v hv w c hok hfree, exec_ctxRowsWrite_refused v hv w c,
    exec_carveWrite_taken v hv w, exec_carveWrite_refused v hv w, exec_imapWrite_taken d hd w,
    exec_imapWrite_refused d hd w, fun r u hmap hout => exec_hostAccess_refused hmap ?_⟩
  simp [dramRefused, rowOwner_eq_none_of_outside hout]

end Sys2Proof.Proofs

end

section

/-! PROOF. The upkeep of a vault: retired bank-rows, window initialisation and its abort, refresh and scrub (R208, R209,
R218, R220, R221, R223, R471). -/

namespace Sys2Proof.Proofs
open Sys2Proof Sys2Proof.Machine Sys2Proof.Safety Sys2Proof.Laws

/-! ## Events of the ledger -/

theorem sameButEvents_iff {s t : State} : sameButEvents t s ↔ ∃ n, t = { s with nrg.now := n } := by
  refine ⟨fun h => ⟨_, h⟩, ?_⟩
  rintro ⟨n, rfl⟩
  rfl

theorem countEv_sameButEvents (s : State) (pg : Nat) (p : Option Nat) (k : EventKind) (n : Nat) :
    sameButEvents (countEv s pg p k n) s := by
  unfold sameButEvents countEv
  split <;> rfl

theorem sameButEvents_trans {s t u : State} (h : sameButEvents u t) (g : sameButEvents t s) : sameButEvents u s := by
  unfold sameButEvents at *
  rw [g] at h
  exact h

/-! ## Stored lines -/

theorem lineData_congr {s t : State} (h : t.vlt.mem = s.vlt.mem) (v u : Nat) : lineData t v u = lineData s v u := by
  rw [lineData, h, lineData]

theorem sideOf_congr {s t : State} (h : t.vlt.side = s.vlt.side) (v u : Nat) : sideOf t v u = sideOf s v u := by
  rw [sideOf, h, sideOf]

theorem keyGenOf_congr {s t : State} (h : t.sec = s.sec) (die dom : Nat) : keyGenOf t die dom = keyGenOf s die dom := by
  rw [keyGenOf, h, keyGenOf]

theorem regGet_congr {s t : State} (h : t.regs = s.regs) (k : Nat) : regGet t k = regGet s k := by
  rw [regGet, h, regGet]

theorem lineData_storeLine_self (s : State) (v u dom data : Nat) (p : Bool) :
    lineData (storeLine s v u dom data p) v u = data % 2 ^ (8 * 64) := memNat_memWrite_self ..

/-- Another line of the vault keeps its bytes. -/
theorem lineData_storeLine_of_ne (s : State) (v dom data : Nat) (p : Bool) {u x : Nat} (h : x / 64 ≠ u / 64) :
    lineData (storeLine s v u dom data p) v x = lineData s v x := memNat_memWrite_outside _ _ _ _ _ _ (by omega)

theorem sideOf_storeLine_self (s : State) (v u dom data : Nat) (p : Bool) :
    sideOf (storeLine s v u dom data p) v u =
      { dom := dom, keyGen := keyGenOf s (v / 64) dom, poison := p, bad := 0 } := tabGet_tabSet_self ..

theorem sideOf_storeLine_of_ne (s : State) (v dom data : Nat) (p : Bool) {u x : Nat} (h : x / 64 ≠ u / 64) :
    sideOf (storeLine s v u dom data p) v x = sideOf s v x :=
  tabGet_tabSet_of_ne _ _ _ fun he => h (by simpa [lineKey] using he)

/-! ## The retired-row table -/

/-- An entry of the table names its bank-row. -/
theorem isRetired_of_entry {s : State} {v row bank n : Nat} (hn : n < 16) (hrow : row < 0x8000) (hbank : bank < 32)
    (h : regNat s (pgVlt v + 0x800 + 4 * n) = row + bank * 0x8000 + 0x80000000) : isRetired s v row bank = true := by
  refine List.any_eq_true.2 ⟨n, List.mem_range.2 hn, ?_⟩
  simp only [h, bitOf, Nat.testBit_eq_decide_div_mod_eq, Bool.and_eq_true, decide_eq_true_eq]
  omega

section
variable {s : State} (v : Fin 1024) (hs : presetState s (v.val / 64) ≠ 4) (w : Word)
include hs

theorem exec_retire : exec (.retire v w) s = .next (retireWrite s v.val w) := congrArg _ (onServed_vlt v.isLt hs _)

/-- A bank-row that is retired takes the next entry. -/
theorem exec_retire_taken (hrow : wfield w 0 15 < vaultRows) (hn : regField s (pgVlt v.val + 0x6C) 0 5 < 16)
    (hnew : isRetired s v.val (wfield w 0 15) (wfield w 15 5) = false) :
    ∃ t, exec (.retire v w) s = .next t ∧
      onlyRegs s t [pgVlt v.val + 0x800 + 4 * regField s (pgVlt v.val + 0x6C) 0 5, pgVlt v.val + 0x6C] ∧
      isRetired t v.val (wfield w 0 15) (wfield w 15 5) = true ∧
      regField t (pgVlt v.val + 0x6C) 0 5 = regField s (pgVlt v.val + 0x6C) 0 5 + 1 ∧
      regBit t (pgVlt v.val + 0x6C) 8 = false := by
  generalize hnum : regField s (pgVlt v.val + 0x6C) 0 5 = n at hn ⊢
  have hrow' : wfield w 0 15 < 0x8000 := wfield_lt ..
  have hbank : wfield w 15 5 < 32 := wfield_lt ..
  have hadd : ¬(decide (vaultRows ≤ wfield w 0 15) || decide (16 ≤ n) ||
      isRetired s v.val (wfield w 0 15) (wfield w 15 5)) = true := by
    simp [hnew, Nat.not_le.2 hrow, Nat.not_le.2 hn]
  refine ⟨_, exec_retire v hs w, ?_⟩
  simp only [retireWrite, retireAdd, hnum, if_neg hadd]
  refine ⟨onlyRegs_mono (onlyRegs_trans (onlyRegs_trans (regSet_only ..) (regPut_only ..)) (regPut_only ..)) (by simp),
    isRetired_of_entry hn hrow' hbank ?_, ?_, ?_⟩
  · have hkey : pgVlt v.val + 0x800 + 4 * n ≠ pgVlt v.val + 0x6C := by omega
    rw [regNat, (regPut_only ..).2 _ (by simpa using hkey), (regPut_only ..).2 _ (by simpa using hkey),
      regGet_regSet_self, BitVec.toNat_ofNat, Nat.mod_eq_of_lt (by omega)]
  · rw [regField_regPut_of_disjoint _ _ (by decide) (.inl (by decide)),
      regField_regPut_self _ _ (by omega) (by decide)]
  · rw [regBit_regPut_self _ _ _ _ _ (by decide)]
    rfl

/-- A bank-row that the table cannot take sets the error bit. -/
theorem exec_retire_refused (h : vaultRows ≤ wfield w 0 15 ∨ 16 ≤ regField s (pgVlt v.val + 0x6C) 0 5 ∨
      isRetired s v.val (wfield w 0 15) (wfield w 15 5) = true) :
    ∃ t, exec (.retire v w) s = .next t ∧ onlyRegs s t [pgVlt v.val + 0x6C] ∧
      regBit t (pgVlt v.val + 0x6C) 8 = true ∧
      regField t (pgVlt v.val + 0x6C) 0 5 = regField s (pgVlt v.val + 0x6C) 0 5 := by
  have hadd : (decide (vaultRows ≤ wfield w 0 15) || decide (16 ≤ regField s (pgVlt v.val + 0x6C) 0 5) ||
      isRetired s v.val (wfield w 0 15) (wfield w 15 5)) = true := by
    simpa only [Bool.or_eq_true, decide_eq_true_eq, or_assoc] using h
  refine ⟨_, exec_retire v hs w, ?_⟩
  simp only [retireWrite, retireAdd, if_pos hadd]
  refine ⟨regPut_only .., ?_, regField_regPut_of_disjoint _ _ (by decide) (.inl (by decide))⟩
  rw [regBit_regPut_self _ _ _ _ _ (by decide)]
  rfl

end

/-! ## Window initialisation -/

theorem find?_tabIns {α : Type} (k : Nat) (x : α) (t : Tab α) :
    (tabIns k x t).find? (fun e => e.1 = k) = some (k, x) := by
  induction t with
  | nil => simp [tabIns]
  | cons e t ih =>
    obtain ⟨j, y⟩ := e
    rw [tabIns]
    split
    · simp
    · split
      · simp
      · rename_i hne
        rw [List.find?_cons_of_neg (by simpa using Ne.symm hne), ih]

theorem setInit_regs (s : State) (v : Nat) (x : Option InitRun) : (setInit s v x).regs = s.regs := rfl

/-- A run that begins or ends after registers changed. -/
theorem setInit_of_onlyRegs {s t : State} {ks : List Nat} (h : onlyRegs s t ks) (v : Nat) (x : Option InitRun) :
    setInit t v x = { s with regs := (setInit t v x).regs, vlt.init := (setInit t v x).vlt.init } := by
  obtain ⟨regs, rfl⟩ : ∃ regs, t = { s with regs := regs } := ⟨_, h.1⟩
  rfl

theorem initOf_congr {s t : State} (h : t.vlt.init = s.vlt.init) (v : Nat) : initOf t v = initOf s v := by
  rw [initOf, h, initOf]

theorem ctxHolds_congr {s t : State} (h : t.rai = s.rai) (c : Nat) : ctxHolds t c = ctxHolds s c := by
  simp only [ctxHolds, raising, ctx, h]

@[simp] theorem initOf_setInit (s : State) (v : Nat) (x : Option InitRun) : initOf (setInit s v x) v = x := by
  cases x with
  | none => simp [initOf, setInit, tabErase]
  | some i => simp [initOf, setInit, find?_tabIns]

/-- The context and the bits that INIT_CTRL reads are those of the word written. -/
theorem initCtrl_word (w : Word) : wfield (wset w 31 1 1) 0 8 = wfield w 0 8 ∧
    (wset w 31 1 1).getLsbD 31 = true ∧ (wset w 31 1 1).getLsbD 8 = w.getLsbD 8 :=
  ⟨wfield_wset_of_disjoint _ (by decide) (.inl (by decide)), by rw [getLsbD_wset _ _ _ _ _ (by decide)]; rfl,
    by rw [getLsbD_wset _ _ _ _ _ (by decide)]; rfl⟩

theorem exec_initCtrlStart_begins {s : State} (v : Fin 1024) (hs : presetState s (v.val / 64) ≠ 4) (w : Word)
    (hidle : initOf s v.val = none) (h8 : w.getLsbD 8 = false) (hrows : (ctxRows s v.val (wfield w 0 8)).2 ≠ 0)
    (hfree : ctxHolds s (wfield w 0 8) = false) :
    ∃ t, exec (.initCtrlStart v w) s = .next t ∧ t = { s with regs := t.regs, vlt.init := t.vlt.init } ∧
      regsBut s t [pgVlt v.val + 0x70] ∧ regBit t (pgVlt v.val + 0x70) 30 = false ∧
      initOf t v.val = some { dom := wfield w 0 8, next := 0, rows := (ctxRows s v.val (wfield w 0 8)).2,
                              first := (ctxRows s v.val (wfield w 0 8)).1, aborted := false } := by
  obtain ⟨hctx, h31, hcarve⟩ := initCtrl_word w
  have hwin : ctxRows (regPut s (pgVlt v.val + 0x70) 0 9 (wfield (wset w 31 1 1) 0 9)) v.val (wfield w 0 8) =
      ctxRows s v.val (wfield w 0 8) :=
    congrArg winOf ((regPut_only ..).2 _ (by simp only [List.mem_singleton]; omega))
  have hholds : ctxHolds (regPut s (pgVlt v.val + 0x70) 0 9 (wfield (wset w 31 1 1) 0 9)) (wfield w 0 8) = false :=
    (ctxHolds_congr (regPut_rai ..) _).trans hfree
  have hx : exec (.initCtrlStart v w) s = .next (initCtrlWrite s v.val (wset w 31 1 1)) :=
    congrArg _ (onServed_vlt v.isLt hs _)
  refine ⟨_, hx, ?_⟩
  simp only [initCtrlWrite, hidle, hctx, h31, hcarve, h8, hwin, hrows, hholds, Option.isSome_none, Bool.not_true,
    Bool.not_false, Bool.and_false, Bool.or_self, decide_false, if_false, Bool.false_eq_true]
  have honly := onlyRegs_trans (regPut_only s (pgVlt v.val + 0x70) 0 9 (wfield (wset w 31 1 1) 0 9))
    (regPut_only _ (pgVlt v.val + 0x70) 30 1 0)
  refine ⟨setInit_of_onlyRegs honly .., fun k hk => ?_, ?_, initOf_setInit ..⟩
  · rw [regGet_congr (setInit_regs ..), honly.2 k (by simpa using hk)]
  · rw [regBit, regGet_congr (setInit_regs ..), ← regBit, regBit_regPut_self _ _ _ _ _ (by decide)]
    rfl

/-- A run that has written its last column writes no more. -/
theorem initRest_done {s : State} {v : Nat} {i : InitRun} (h : initOf s v = some i) (hend : i.rows * 512 ≤ i.next)
    (n : Nat) : initRest v n s = s := by
  cases n with
  | zero => rfl
  | succ n => simp only [initRest, h, if_pos hend]

/-- A run that has one column left writes that. -/
theorem initRest_last {s : State} {v : Nat} {i : InitRun} (h : initOf s v = some i) (hend : i.next + 1 = i.rows * 512) :
    initRest v (i.rows * 512) s = initWrite s v i := by
  have hgo : ¬ i.rows * 512 ≤ i.next := by omega
  rw [← hend]
  simp only [initRest, h, if_neg hgo]
  exact initRest_done (initOf_setInit ..) (by simp only; omega) _

/-- The end of a run: interrupt 2 of the vault's page `pg`, and a completion for the aborts of this tick period.
The lemmas hold for any page; with the vault's own number in its place the kernel would compute with it. -/
def initEnded (s : State) (v pg : Nat) : State := noteLatched (irq (setInit s v none) pg 2) (v / 64) 3 (v % 64)

theorem initEnded_eq (s : State) (v pg : Nat) : initEnded s v pg =
    { s with regs := (initEnded s v pg).regs, vlt.init := (initEnded s v pg).vlt.init,
             rai.latched := s.rai.latched ++ [⟨v / 64, 3, v % 64⟩] } := rfl

theorem initEnded_clu (s : State) (v pg : Nat) : (initEnded s v pg).clu = s.clu := rfl
theorem initEnded_ses (s : State) (v pg : Nat) : (initEnded s v pg).ses = s.ses := rfl
theorem initEnded_mem (s : State) (v pg : Nat) : (initEnded s v pg).vlt.mem = s.vlt.mem := rfl
theorem initEnded_side (s : State) (v pg : Nat) : (initEnded s v pg).vlt.side = s.vlt.side := rfl

theorem initOf_initEnded (s : State) (v pg : Nat) : initOf (initEnded s v pg) v = none :=
  (initOf_congr (s := setInit s v none) rfl v).trans (initOf_setInit ..)

theorem regGet_initEnded (s : State) (v pg k : Nat) :
    regGet (initEnded s v pg) k = regGet (irq (setInit s v none) pg 2) k := regGet_congr rfl k

theorem regsBut_initEnded (s : State) (v pg : Nat) : regsBut s (initEnded s v pg) [pg + 0x10] := fun k hk => by
  rw [regGet_initEnded, (irq_only ..).2 k hk, regGet_congr (setInit_regs ..)]

theorem regBit_initEnded (s : State) (v pg : Nat) : regBit (initEnded s v pg) (pg + 0x10) 2 = true := by
  rw [regBit, regGet_initEnded, ← regBit, regBit_irq _ _ (by decide)]

theorem exec_initComplete {s : State} (v : Fin 1024) {i : InitRun} (h : initOf s v.val = some i)
    (ha : i.aborted = false) : exec (.initComplete v) s =
      .next (initEnded (initRest v.val (i.rows * 512) s) v.val (pgVlt v.val)) := by
  show execInitComplete v s = _
  simp only [execInitComplete, h, ha, Bool.false_eq_true, if_false]
  rfl

theorem exec_initComplete_ended {s : State} (v : Fin 1024) {i : InitRun} (h : initOf s v.val = some i)
    (hend : i.rows = 0 ∨ i.next = 512 * i.rows) (ha : i.aborted = false) :
    ∃ t, exec (.initComplete v) s = .next t ∧
      t = { s with regs := t.regs, vlt.init := t.vlt.init,
                   rai.latched := s.rai.latched ++ [⟨v.val / 64, 3, v.val % 64⟩] } ∧
      initOf t v.val = none ∧ regsBut s t [pgVlt v.val + 0x10] ∧ regBit t (pgVlt v.val + 0x10) 2 = true := by
  refine ⟨_, exec_initComplete v h ha, ?_⟩
  rw [initRest_done h (by omega)]
  exact ⟨initEnded_eq .., initOf_initEnded .., regsBut_initEnded s v.val _, regBit_initEnded ..⟩

theorem initWrite_eq (s : State) (v : Nat) (i : InitRun) : initWrite s v i =
    setInit (storeLine (storeLine (baseCols s v 1) v (initColumn i) i.dom 0 false) v (initColumn i + 64) i.dom 0
      false) v (some { i with next := i.next + 1 }) := rfl

@[simp] theorem lineData_setInit (s : State) (v : Nat) (x : Option InitRun) (w u : Nat) :
    lineData (setInit s v x) w u = lineData s w u := lineData_congr rfl ..

@[simp] theorem sideOf_setInit (s : State) (v : Nat) (x : Option InitRun) (w u : Nat) :
    sideOf (setInit s v x) w u = sideOf s w u := sideOf_congr rfl ..

@[simp] theorem keyGenOf_storeLine (s : State) (v u dom data : Nat) (p : Bool) (die x : Nat) :
    keyGenOf (storeLine s v u dom data p) die x = keyGenOf s die x := keyGenOf_congr rfl ..

@[simp] theorem keyGenOf_baseCols (s : State) (v n die x : Nat) : keyGenOf (baseCols s v n) die x = keyGenOf s die x :=
  keyGenOf_congr (countEv_sec ..) ..

/-- The last column of a run: two lines of zeros under the owner's keys. -/
theorem initWrite_lines (s : State) (v : Nat) (i : InitRun) : ∀ u ∈ [initColumn i, initColumn i + 64],
    lineData (initWrite s v i) v u = 0 ∧ sideOf (initWrite s v i) v u =
      { dom := i.dom, keyGen := keyGenOf s (v / 64) i.dom, poison := false, bad := 0 } := by
  have hne : initColumn i / 64 ≠ (initColumn i + 64) / 64 := by omega
  simp only [initWrite_eq, List.forall_mem_cons, List.not_mem_nil, false_imp_iff, implies_true, and_true,
    lineData_setInit, sideOf_setInit, lineData_storeLine_of_ne _ _ _ _ _ hne, sideOf_storeLine_of_ne _ _ _ _ _ hne,
    lineData_storeLine_self, sideOf_storeLine_self, keyGenOf_storeLine, keyGenOf_baseCols, Nat.zero_mod]

theorem initWrite_clu (s : State) (v : Nat) (i : InitRun) : (initWrite s v i).clu = s.clu :=
  countEv_clu ..

theorem initWrite_ses (s : State) (v : Nat) (i : InitRun) : (initWrite s v i).ses = s.ses :=
  countEv_ses ..

theorem initWrite_regs (s : State) (v : Nat) (i : InitRun) : (initWrite s v i).regs = s.regs :=
  countEv_regs ..

theorem exec_initComplete_last {s : State} (v : Fin 1024) {i : InitRun} (h : initOf s v.val = some i)
    (hend : i.next + 1 = 512 * i.rows) (ha : i.aborted = false) :
    ∃ t, exec (.initComplete v) s = .next t ∧ initOf t v.val = none ∧ t.clu = s.clu ∧ t.ses = s.ses ∧
      regsBut s t [pgVlt v.val + 0x10] ∧ regBit t (pgVlt v.val + 0x10) 2 = true ∧
      ∀ u ∈ [initColumn i, initColumn i + 64], lineData t v.val u = 0 ∧
        sideOf t v.val u = { dom := i.dom, keyGen := keyGenOf s (v.val / 64) i.dom, poison := false, bad := 0 } := by
  refine ⟨_, exec_initComplete v h ha, ?_⟩
  rw [initRest_last h (by omega)]
  refine ⟨initOf_initEnded .., (initEnded_clu ..).trans (initWrite_clu ..),
    (initEnded_ses ..).trans (initWrite_ses ..), fun k hk => ?_, regBit_initEnded .., fun u hu => ?_⟩
  · rw [regsBut_initEnded _ _ _ k hk, regGet_congr (initWrite_regs ..)]
  · rw [lineData_congr (initEnded_mem ..), sideOf_congr (initEnded_side ..)]
    exact initWrite_lines s v.val i u hu

/-! ## Aborts of an initialisation -/

section
variable {s : State} (d : Fin 16) {a : BitVec 12} (ha : a.toNat < 64)
include ha

theorem abortPending_init : abortPending s ⟨d.val, 3, a.toNat⟩ = (initOf s (64 * d.val + a.toNat)).isSome := by
  simp [abortPending, ha]

/-- A run is marked; the tick reports it. -/
theorem exec_abortInitCtrl_running {i : InitRun} (h : initOf s (64 * d.val + a.toNat) = some i) :
    ∃ t, exec (.abortInitCtrl d a) s = .next t ∧
      t = { s with vlt.init := t.vlt.init, rai.aborts := s.rai.aborts ++ [⟨d.val, 3, a.toNat⟩] } ∧
      initOf t (64 * d.val + a.toNat) = some { i with aborted := true } := by
  have hp : abortPending s ⟨d.val, 3, a.toNat⟩ = true := by rw [abortPending_init d ha, h]; rfl
  have hmark : abortMark s ⟨d.val, 3, a.toNat⟩ =
      setInit s (64 * d.val + a.toNat) (some { i with aborted := true }) := by
    simp [abortMark, h]
  have hx : exec (.abortInitCtrl d a) s =
      .next { setInit s (64 * d.val + a.toNat) (some { i with aborted := true }) with
        rai.aborts := s.rai.aborts ++ [⟨d.val, 3, a.toNat⟩] } := by
    show execAbortInitCtrl d a s = _
    simp only [execAbortInitCtrl, abortWrite, show BitVec.ofNat 2 3 = 3 from rfl, hp, hmark]
    rfl
  exact ⟨_, hx, rfl,
    (initOf_congr (s := setInit s _ (some { i with aborted := true })) rfl _).trans (initOf_setInit ..)⟩

/-- One that has completed in this tick period waits for the tick as well. -/
theorem exec_abortInitCtrl_late (h : initOf s (64 * d.val + a.toNat) = none)
    (hl : (⟨d.val, 3, a.toNat⟩ : AbortReq) ∈ s.rai.latched) :
    exec (.abortInitCtrl d a) s = .next { s with rai.aborts := s.rai.aborts ++ [⟨d.val, 3, a.toNat⟩] } := by
  have hp : abortPending s ⟨d.val, 3, a.toNat⟩ = false := by rw [abortPending_init d ha, h]; rfl
  have hlate : abortLate s ⟨d.val, 3, a.toNat⟩ = true := by
    simp only [abortLate, List.contains_eq_mem, hl, decide_true, Bool.true_or]
  show execAbortInitCtrl d a s = _
  simp only [execAbortInitCtrl, abortWrite, show BitVec.ofNat 2 3 = 3 from rfl, hp, hlate]
  rfl

/-- An abort that names no job reads NONE at once (log 39). -/
theorem exec_abortInitCtrl_none (h : initOf s (64 * d.val + a.toNat) = none)
    (hl : (⟨d.val, 3, a.toNat⟩ : AbortReq) ∉ s.rai.latched) :
    ∃ t, exec (.abortInitCtrl d a) s = .next t ∧ onlyRegs s t [pgDbg d.val + 0x74, pgDbg d.val + 0x10] ∧
      regField t (pgDbg d.val + 0x74) 0 2 = 0 ∧ regBit t (pgDbg d.val + 0x10) 1 = true := by
  have hp : abortPending s ⟨d.val, 3, a.toNat⟩ = false := by rw [abortPending_init d ha, h]; rfl
  have hlate : abortLate s ⟨d.val, 3, a.toNat⟩ = false := by
    simpa [abortLate] using hl
  have hx : exec (.abortInitCtrl d a) s = .next (irq (regPut s (pgDbg d.val + 0x74) 0 2 0) (pgDbg d.val) 1) := by
    show execAbortInitCtrl d a s = _
    simp only [execAbortInitCtrl, abortWrite, show BitVec.ofNat 2 3 = 3 from rfl, hp, hlate]
    rfl
  refine ⟨_, hx, onlyRegs_trans (regPut_only ..) (irq_only ..), ?_, regBit_irq _ _ (by decide)⟩
  rw [regField_of_but (irq_only ..).2 (by simp), regField_regPut_self _ _ (by decide) (by decide)]

end

/-! ## Refresh -/

/-- The open rows that a refresh closes with rule 14 (R208, R212): `t0` is the frame's first cycle. -/
def refreshClosed (s : State) (v t0 : Nat) : State :=
  (List.range 32).foldl (fun s b =>
    if (openRow s v b).isSome && !impliedComes s v b t0 then
      vaultBreach (setOpenRow s v b none) v 14 b (refreshPos s)
    else s) s

/-- The rows that a refresh refreshes. -/
def refreshedRows (s : State) (v : Nat) : State :=
  let n := frameLen s / 1024
  let r := (tabGet 0 v s.vlt.refPtr + n) % vaultRows
  let s := countEv s (pgVlt v) none .refresh (32 * n)
  { s with vlt.refPtr := tabSet 0 v r s.vlt.refPtr }

theorem exec_refresh (s : State) (v : Fin 1024) : exec (.refresh v) s = .next (refreshedRows
    (refreshClosed (advance s (max s.clu.cyc (originOf s v.val + refreshPos s))) v.val (originOf s v.val)) v.val) := by
  show execRefresh v s = _
  simp only [execRefresh, refreshClosed, refreshedRows]

theorem openRow_congr {s t : State} (h : t.vlt = s.vlt) (v b : Nat) : openRow t v b = openRow s v b := by
  rw [openRow, h, openRow]

/-- A vault with every bank closed has no row to close. -/
theorem refreshClosed_eq_self {s : State} {v : Nat} (h : ∀ b < 32, openRow s v b = none) (t0 : Nat) :
    refreshClosed s v t0 = s :=
  foldl_eq_self fun b hb => if_neg (by simp [h b (List.mem_range.1 hb)])

theorem refreshedRows_sameButEvents (s : State) (v : Nat) : sameButEvents (refreshedRows s v)
    { s with vlt.refPtr := tabSet 0 v ((tabGet 0 v s.vlt.refPtr + frameLen s / 1024) % vaultRows) s.vlt.refPtr } := by
  obtain ⟨n, hn⟩ := sameButEvents_iff.1 (countEv_sameButEvents s (pgVlt v) none .refresh (32 * (frameLen s / 1024)))
  simp only [refreshedRows, hn]
  rfl

theorem exec_refresh_quiet {s : State} (v : Fin 1024) (hpipe : s.clu.pipe = [])
    (hclosed : ∀ b < 32, openRow s v.val b = none) :
    ∃ t, exec (.refresh v) s = .next t ∧ sameButEvents t { s with
      clu.cyc := max s.clu.cyc (originOf s v.val + refreshPos s)
      vlt.refPtr := tabSet 0 v.val ((tabGet 0 v.val s.vlt.refPtr + frameLen s / 1024) % 24576) s.vlt.refPtr } := by
  refine ⟨_, exec_refresh s v, ?_⟩
  rw [advance_idle _ _ (by simp [hpipe]), ← Nat.max_assoc, Nat.max_self, refreshClosed_eq_self]
  · exact refreshedRows_sameButEvents _ v.val
  · exact fun b hb => (openRow_congr rfl ..).trans (hclosed b hb)

/-! ## The scrubber -/

theorem scrubOpen_setScrubOpen (s : State) (v : Nat) (x : Option Nat) : scrubOpen (setScrubOpen s v x) v = x := by
  cases x <;> simp [scrubOpen, setScrubOpen]

theorem setScrubOpen_eq (s : State) (v : Nat) (x : Option Nat) :
    setScrubOpen s v x = { s with vlt.scrubRow := (setScrubOpen s v x).vlt.scrubRow } := rfl

/-- In the guard of a frame that gives the host engine no accesses, the scrubber alone acts. -/
theorem exec_hostEngineGuard_unserved {s : State} (v : Fin 1024) (n : Nat) (h : hostServes s v.val = false) :
    ∃ t, exec (.hostEngineGuard v n false) s = .next t ∧ t = { s with vlt.scrubRow := t.vlt.scrubRow } ∧
      scrubOpen t v.val = if 16 ≤ n then scrubPick s v.val (banksNext s v.val) else none := by
  have hx : exec (.hostEngineGuard v n false) s = .next (scrubGuard s v.val n) := by
    show execHostEngineGuard v n false s = _
    simp only [execHostEngineGuard, h, Bool.not_false, Bool.true_or, if_true]
  exact ⟨_, hx, setScrubOpen_eq .., scrubOpen_setScrubOpen ..⟩

/-- With no row open, or one whose bank the frame's bundles touch, the window stays unused. -/
theorem exec_scrub_unused {s : State} (v : Fin 1024)
    (h : scrubOpen s v.val = none ∨ ∃ x, scrubOpen s v.val = some x ∧ x / 0x8000 ∈ banksNow s v.val) :
    ∃ t, exec (.scrub v) s = .next t ∧ t = { s with vlt.scrubRow := t.vlt.scrubRow } ∧ scrubOpen t v.val = none := by
  have hrow : ((scrubOpen s v.val).filter fun x => !(banksNow s v.val).contains (x / 0x8000)) = none := by
    rcases h with h | ⟨x, h, hx⟩
    · rw [h]
      rfl
    · simp [h, hx]
  have hx : exec (.scrub v) s = .next (setScrubOpen s v.val none) := by
    show execScrub v s = _
    simp only [execScrub, hrow]
  exact ⟨_, hx, setScrubOpen_eq .., scrubOpen_setScrubOpen ..⟩

theorem exec_scrub_row {s : State} (v : Fin 1024) {x : Nat} (h : scrubOpen s v.val = some x)
    (hx : x / 0x8000 ∉ banksNow s v.val) :
    exec (.scrub v) s = .next (scrubSegment (setScrubOpen s v.val none) v.val x) := by
  have hrow : ((scrubOpen s v.val).filter fun x => !(banksNow s v.val).contains (x / 0x8000)) = some x := by
    simp [h, hx]
  show execScrub v s = _
  simp only [execScrub, hrow]

/-- A vault without windows has no row with an owner. -/
theorem rowOwner_eq_none_of_empty {s : State} {v : Nat} (hcarve : (carveRows s v).2 = 0)
    (hctx : ∀ c < 256, (ctxRows s v c).2 = 0) (row : Nat) : rowOwner s v row = none := by
  have hout : ∀ x : Nat × Nat, x.2 = 0 → inWin x row = false := fun x hx => by
    simp only [inWin, hx, Bool.and_eq_false_iff, decide_eq_false_iff_not]
    omega
  exact rowOwner_eq_none_iff.2 ⟨hout _ hcarve, fun c hc => hout _ (hctx c hc)⟩

/-- Over rows without an owner the scrubber reads nothing that it checks. -/
theorem scrubLines_sameButEvents {s : State} {v : Nat} (h : ∀ row, rowOwner s v row = none) (x i n : Nat) :
    sameButEvents (scrubLines s v x i n) s := by
  have hev : sameButEvents (baseCols (countEv s (pgVlt v) none .activation 1) v (n / 2)) s :=
    sameButEvents_trans (countEv_sameButEvents ..) (countEv_sameButEvents ..)
  unfold scrubLines
  generalize baseCols _ v (n / 2) = t at hev ⊢
  have hnone : ∀ row, rowOwner t v row = none := fun row =>
    (rowOwner_congr (fun o _ => by rw [hev]; rfl) row).trans (h row)
  rw [foldl_eq_self fun k _ => by simp only [scrubLine, hnone]]
  exact hev

/-- A whole bank-row of the patrol in a frame of 2,048 cycles or more. -/
theorem patrolSegment_whole {s : State} (v x : Nat) (hx : regField s (pgVlt v + 0x4C) 0 20 = x)
    (hlen : 16 ≤ scrubEnd s) :
    ∃ p, patrolSegment s v = patrolOn (scrubLines { s with vlt.patrolAt := p } v x 0 32) v x := by
  refine ⟨tabSet 0 v (max (tabGet 0 v s.vlt.patrolAt) (1572864 * nowPeriods s - patrolStep s v) + patrolStep s v)
    s.vlt.patrolAt, ?_⟩
  simp only [patrolSegment, hx, Nat.not_lt.2 hlen, decide_false, Bool.false_and, Bool.false_eq_true, if_false]

/-- Within a bank the patrol moves to the next row. -/
theorem patrolOn_next {s : State} (v : Nat) {x : Nat} (hbank : x < 0x100000) (hrow : x % 0x8000 < 24575) : ∃ half,
    patrolOn s v x = regSet { s with vlt.scrubHalf := half } (pgVlt v + 0x4C) (BitVec.ofNat 32 (x + 1)) := by
  have hrows : x % 0x8000 + 1 < vaultRows := by unfold vaultRows; omega
  have hnext : x % 0x8000 + 1 + x / 0x8000 * 0x8000 = x + 1 := by omega
  have hlt : x + 1 < 32 * 0x8000 := by omega
  exact ⟨tabSet false v false s.vlt.scrubHalf, by simp only [patrolOn, if_pos hrows, hnext, if_pos hlt]⟩

/-- The state when the patrol has moved on: a register, the scrubber's tables and the ledger's events. -/
def patrolled (s : State) (v k : Nat) (w : Word) (at_ : Tab Nat) (half : Tab Bool) (now : List EventCount) : State :=
  regSet { setScrubOpen s v none with vlt.patrolAt := at_, vlt.scrubHalf := half, nrg.now := now } k w

theorem patrolled_sameButEvents (s : State) (v k : Nat) (w : Word) (at_ : Tab Nat) (half : Tab Bool)
    (now : List EventCount) : let t := patrolled s v k w at_ half now
    sameButEvents t { s with regs := t.regs, vlt.scrubHalf := t.vlt.scrubHalf, vlt.scrubRow := t.vlt.scrubRow,
                             vlt.patrolAt := t.vlt.patrolAt } := rfl

theorem regsBut_patrolled (s : State) (v k : Nat) (w : Word) (at_ : Tab Nat) (half : Tab Bool)
    (now : List EventCount) : regsBut s (patrolled s v k w at_ half now) [k] := fun j hj => (regSet_only ..).2 j hj

theorem scrubOpen_patrolled (s : State) (v k : Nat) (w : Word) (at_ : Tab Nat) (half : Tab Bool)
    (now : List EventCount) : scrubOpen (patrolled s v k w at_ half now) v = none := scrubOpen_setScrubOpen s v none

theorem exec_scrub_patrol {s : State} (v : Fin 1024) {x : Nat} (hpos : regField s (pgVlt v.val + 0x4C) 0 20 = x)
    (hopen : scrubOpen s v.val = some x) (hbank : x / 0x8000 ∉ banksNow s v.val)
    (hrev : tabGet [] v.val s.vlt.revisit = []) (hlen : 2048 ≤ frameLen s) (hcarve : (carveRows s v.val).2 = 0)
    (hctx : ∀ c < 256, (ctxRows s v.val c).2 = 0) (hrow : x % 0x8000 < 24575) :
    ∃ t, exec (.scrub v) s = .next t ∧
      sameButEvents t { s with regs := t.regs, vlt.scrubHalf := t.vlt.scrubHalf, vlt.scrubRow := t.vlt.scrubRow,
                               vlt.patrolAt := t.vlt.patrolAt } ∧
      regsBut s t [pgVlt v.val + 0x4C] ∧ regNat t (pgVlt v.val + 0x4C) = x + 1 ∧ scrubOpen t v.val = none := by
  have hx20 : x < 0x100000 := hpos ▸ wfield_lt ..
  have hseg : scrubSegment (setScrubOpen s v.val none) v.val x = patrolSegment (setScrubOpen s v.val none) v.val := by
    simp only [scrubSegment, show tabGet [] v.val (setScrubOpen s v.val none).vlt.revisit = [] from hrev,
      List.any_nil, Bool.false_eq_true, if_false]
  obtain ⟨p, hp⟩ := patrolSegment_whole (s := setScrubOpen s v.val none) v.val x hpos
    (show 16 ≤ frameLen s / 128 by omega)
  have howner := rowOwner_eq_none_of_empty hcarve hctx
  obtain ⟨n, hn⟩ := sameButEvents_iff.1 (scrubLines_sameButEvents
    (s := { setScrubOpen s v.val none with vlt.patrolAt := p }) (v := v.val) (fun row => howner row) x 0 32)
  rw [hn] at hp
  obtain ⟨half, hhalf⟩ := patrolOn_next
    (s := { setScrubOpen s v.val none with vlt.patrolAt := p, nrg.now := n }) v.val hx20 hrow
  have hx : exec (.scrub v) s = .next (patrolled s v.val (pgVlt v.val + 0x4C) (BitVec.ofNat 32 (x + 1)) p half n) :=
    (exec_scrub_row v hopen hbank).trans (by rw [hseg, hp, hhalf]; rfl)
  refine ⟨_, hx, patrolled_sameButEvents .., regsBut_patrolled s v.val _ _ _ _ _, ?_, scrubOpen_patrolled ..⟩
  rw [regNat, patrolled, regGet_regSet_self, BitVec.toNat_ofNat, Nat.mod_eq_of_lt (by omega)]

/-- Settles O25: each command of a vault's upkeep by what it writes; a run of initialisation ends when no column is
left, and over rows of no owner the scrubber moves its position alone. -/
theorem vaultsAreMaintained : Obligations.VaultsAreMaintained := by
  unfold Obligations.VaultsAreMaintained
  refine ⟨fun s v w d => ?_, fun s v => ?_⟩
  · intro n row bank init hs
    exact ⟨exec_retire_taken v hs w, exec_retire_refused v hs w, exec_initCtrlStart_begins v hs w,
      fun i => exec_initComplete_ended v, fun i => exec_initComplete_last v, fun a ha =>
      ⟨fun i => exec_abortInitCtrl_running d ha, exec_abortInitCtrl_late d ha, exec_abortInitCtrl_none d ha⟩⟩
  · exact ⟨fun hpipe _ => exec_refresh_quiet v hpipe, exec_hostEngineGuard_unserved v, exec_scrub_unused v,
      fun x => exec_scrub_patrol v⟩

end Sys2Proof.Proofs

end

section

/-! PROOF. Host accesses: outside DRAM, refused or queued at a vault, and served in the guard (R213, R214, R217, R382,
R412, R440 to R444). -/

namespace Sys2Proof.Proofs
open Sys2Proof Sys2Proof.Machine Sys2Proof.Safety Sys2Proof.Laws

/-! ## Host accesses outside DRAM -/

theorem exec_hostAccess_else {s : State} {r : HostReq} (h : dramMap s r.addr.toNat = none) :
    exec (.hostAccess r) s = .next (hostElse s r) := by
  show execHostAccess r s = _
  simp only [execHostAccess, h]

theorem hostElse_empty {s : State} {r : HostReq} (h : r.len = 0) : hostElse s r = emit s (.errorDone r.tag) := by
  simp [hostElse, h]

theorem len_toNat_ne_zero {r : HostReq} (h : r.len ≠ 0) : r.len.toNat ≠ 0 := fun hz => h (BitVec.eq_of_toNat_eq hz)

section
variable {s : State} {r : HostReq} (hlen : r.len ≠ 0)
include hlen

theorem hostElse_write (hw : r.write = true) {b : Bool} {t : State}
    (h : hostPut s r.who r.addr.toNat r.len.toNat r.data.toNat = (b, t)) :
    hostElse s r = emit t (if b then .writeDone r.tag else .errorDone r.tag) := by
  simp only [hostElse, if_neg (len_toNat_ne_zero hlen), hw, if_true, h]

theorem hostElse_read (hw : r.write = false) {t : State} {d : Nat}
    (h : hostGet s r.addr.toNat r.len.toNat = (some d, t)) :
    hostElse s r = emit t (.readDone r.tag (BitVec.ofNat 512 d)) := by
  simp only [hostElse, if_neg (len_toNat_ne_zero hlen), hw, Bool.false_eq_true, if_false, h]

theorem hostElse_read_error (hw : r.write = false) {t : State}
    (h : hostGet s r.addr.toNat r.len.toNat = (none, t)) : hostElse s r = emit t (.errorDone r.tag) := by
  simp only [hostElse, if_neg (len_toNat_ne_zero hlen), hw, Bool.false_eq_true, if_false, h]

/-- An access that fails either way is answered with an error. -/
theorem hostElse_error {t : State} (hput : hostPut s r.who r.addr.toNat r.len.toNat r.data.toNat = (false, t))
    (hget : hostGet s r.addr.toNat r.len.toNat = (none, t)) : hostElse s r = emit t (.errorDone r.tag) := by
  cases hw : r.write with
  | true => exact hostElse_write hlen hw hput
  | false => exact hostElse_read_error hlen hw hget

end

/-! ### The S0 range -/

/-- An address in no region of the S0 range is answered with an error (R412). -/
theorem hostElse_unserved {s : State} {r : HostReq} (hk : regKey r.addr.toNat = none)
    (h : r.len = 0 ∨ r.addr.toNat < s0Base ∨ s0Base + 0x100000000 < r.addr.toNat + r.len.toNat ∨
      s0Part (r.addr.toNat - s0Base) = none) : hostElse s r = emit s (.errorDone r.tag) := by
  by_cases hlen : r.len = 0
  · exact hostElse_empty hlen
  · have hwrite : ∀ n d, s0Part (r.addr.toNat - s0Base) = none → s0Write s (r.addr.toNat - s0Base) n d = none :=
      fun n d hp => by simp [s0Write, hp]
    have hread : ∀ n, s0Part (r.addr.toNat - s0Base) = none → s0Read s (r.addr.toNat - s0Base) n = none :=
      fun n hp => by simp [s0Read, hp]
    by_cases hin : s0Base ≤ r.addr.toNat ∧ r.addr.toNat + r.len.toNat ≤ s0Base + 0x100000000
    · have hp : s0Part (r.addr.toNat - s0Base) = none := by
        rcases h with h | h | h | h
        · exact absurd h hlen
        · omega
        · omega
        · exact h
      exact hostElse_error hlen (by simp [hostPut, hk, hin, hwrite _ _ hp]) (by simp [hostGet, hk, hin, hread _ hp])
    · have hcond : (decide (s0Base ≤ r.addr.toNat) &&
          decide (r.addr.toNat + r.len.toNat ≤ s0Base + 0x100000000)) = false := by
        simpa using hin
      exact hostElse_error hlen (by simp [hostPut, hk, hcond]) (by simp [hostGet, hk, hcond])

section
variable {s : State} {r : HostReq} (hlen : r.len ≠ 0) (hlo : s0Base + 0x1000000 ≤ r.addr.toNat)
  (hhi : r.addr.toNat + r.len.toNat ≤ s0Base + 0x1400000)
include hlen hlo hhi

/-- An access of any length that lies in shepherd SRAM. -/
theorem s0Part_ends_sram : (s0Base ≤ r.addr.toNat ∧ r.addr.toNat + r.len.toNat ≤ s0Base + 0x100000000) ∧
    s0Part (r.addr.toNat - s0Base) = some 1 ∧ s0Part (r.addr.toNat - s0Base + r.len.toNat - 1) = some 1 := by
  have hpos := len_toNat_ne_zero hlen
  exact ⟨by omega, s0Part_sram (by omega) (by omega), s0Part_sram (by omega) (by omega)⟩

theorem hostElse_sram_write (hk : regKey r.addr.toNat = none) (hw : r.write = true) :
    hostElse s r = { s with
    brd.sram := memWrite s.brd.sram (r.addr.toNat - s0Base - 0x1000000) r.len.toNat r.data.toNat
    out := s.out ++ [.writeDone r.tag] } := by
  obtain ⟨hin, hfirst, hlast⟩ := s0Part_ends_sram hlen hlo hhi
  rw [hostElse_write hlen hw (b := true) (t := { s with
    brd.sram := memWrite s.brd.sram (r.addr.toNat - s0Base - 0x1000000) r.len.toNat r.data.toNat })
    (by simp [hostPut, hk, hin, s0Write, hfirst, hlast])]
  rfl

theorem hostElse_sram_read (hk : regKey r.addr.toNat = none) (hw : r.write = false) : hostElse s r = { s with
    out := s.out ++ [.readDone r.tag
      (BitVec.ofNat 512 (memNat s.brd.sram (r.addr.toNat - s0Base - 0x1000000) r.len.toNat))] } := by
  obtain ⟨hin, hfirst, hlast⟩ := s0Part_ends_sram hlen hlo hhi
  exact hostElse_read hlen hw (by simp [hostGet, hk, hin, s0Read, hfirst, hlast])

end

/-! ### The register regions -/

section
variable {s : State} {r : HostReq} {k : Nat} (hk : regKey r.addr.toNat = some k) (hlen : r.len ≠ 0)
include hk hlen

/-- Another length than 4, a misaligned address and a page that no die serves err (R442, R444). -/
theorem hostElse_register_error (hwin : windowAt (kDie k) (k % 0x1000000) = none)
    (h : r.len.toNat ≠ 4 ∨ k % 4 ≠ 0 ∨ pageServed s k = none) :
    hostElse s r = emit (countAccess s (regPath (kDie k)) false) (.errorDone r.tag) := by
  have hnone : regionWrite s r.who k r.len.toNat r.data.toNat = none ∧ regionRead s k r.len.toNat = none := by
    cases hp : pageServed s k with
    | none => simp [regionWrite, regionRead, hwin, hp]
    | some x =>
      have hbad : r.len.toNat ≠ 4 ∨ k % 4 ≠ 0 := by simpa [hp] using h
      rcases hbad with h | h <;> simp [regionWrite, regionRead, hwin, hp, h]
  exact hostElse_error hlen (by simp [hostPut, hk, hnone.1]) (by simp [hostGet, hk, hnone.2])

/-- The session entry window is read (R382). -/
theorem hostElse_entry_read {off : Nat} (hwin : windowAt (kDie k) (k % 0x1000000) = some (true, off))
    (hw : r.write = false) (hn : r.len.toNat ∈ [4, 8, 64]) (hoff : off % r.len.toNat = 0)
    (hs : presetState s (kDie k) ≠ 4) :
    hostElse s r = emit (countAccess s (regPath (kDie k)) true) (.readDone r.tag
      (BitVec.ofNat 512 (entNat s (kDie k) (off / 1024) (off % 1024) r.len.toNat))) := by
  have hread : regionRead s k r.len.toNat = some (entNat s (kDie k) (off / 1024) (off % 1024) r.len.toNat, s) := by
    simp only [List.mem_cons, List.not_mem_nil, or_false] at hn
    rcases hn with h | h | h <;> rw [h] at hoff ⊢ <;> simp [regionRead, hwin, hoff, hs]
  exact hostElse_read hlen hw (by simp [hostGet, hk, hread])

end

section
variable {s : State} {r : HostReq} {k : Nat} (hk : regKey r.addr.toNat = some k)
  (hwin : windowAt (kDie k) (k % 0x1000000) = none) (hp : (pageServed s k).isSome = true) (h4 : k % 4 = 0)
  (hlen : r.len.toNat = 4)
include hk hwin hp h4 hlen

/-- A 4-byte access of a served page is a core's register access (R440, R444). -/
theorem hostElse_register_write (hcore : r.who = .core) (hw : r.write = true) :
    ∃ t, exec (.registerWrite r.addr (r.data.setWidth 32)) s = .next t ∧
      exec (.hostAccess r) s = .next (emit t (.writeDone r.tag)) := by
  obtain ⟨⟨b, i⟩, hbi⟩ := Option.isSome_iff_exists.1 hp
  have hne : r.len ≠ 0 := fun h => by simp [h] at hlen
  have hword : BitVec.ofNat 32 r.data.toNat = r.data.setWidth 32 := rfl
  refine ⟨_, exec_registerWrite_served hk h4 hwin hbi _, ?_⟩
  rw [exec_hostAccess_else (dramMap_of_regKey s hk), hostElse_write hne hw (b := true)
    (t := countAccess (regWriteAt s .core b i k (r.data.setWidth 32)) (regPath (kDie k)) true)]
  · rfl
  · simp [hostPut, hk, regionWrite, hwin, hbi, hlen, h4, hcore, hword]

theorem hostElse_register_read (hw : r.write = false) :
    ∃ t x, exec (.latchedPairRead r.addr) s = .next (emit t (.value x)) ∧
      exec (.hostAccess r) s = .next (emit t (.readDone r.tag (x.setWidth 512))) := by
  obtain ⟨⟨b, i⟩, hbi⟩ := Option.isSome_iff_exists.1 hp
  have hne : r.len ≠ 0 := fun h => by simp [h] at hlen
  obtain ⟨w, t, hread⟩ : ∃ w t, regReadAt s b i k = (w, t) := ⟨_, _, rfl⟩
  refine ⟨_, w, exec_latchedPairRead_served hk h4 hwin hbi hread, ?_⟩
  rw [exec_hostAccess_else (dramMap_of_regKey s hk), hostElse_read hne hw
    (t := countAccess t (regPath (kDie k)) true) (d := w.toNat)]
  · rw [BitVec.ofNat_toNat]
  · simp [hostGet, hk, regionRead, hwin, hbi, hlen, h4, hread]

end

/-! ## Host accesses to DRAM: refused or queued -/

theorem dieServes_eq_false {s : State} {d : Nat}
    (h : presetState s d ∈ [2, 4, 5] ∨ regField s (pgDie d + 0x24) 0 2 ∈ [2, 3]) : dieServes s d = false := by
  simp only [List.mem_cons, List.not_mem_nil, or_false] at h
  simp only [dieServes, Bool.and_eq_false_iff, decide_eq_false_iff_not]
  omega

@[simp] theorem hostQ_setHostQ (s : State) (v : Nat) (l : List HostQ) : hostQ (setHostQ s v l) v = l :=
  tabGet_tabSet_self ..

/-- A good request waits at its vault. -/
theorem exec_hostAccess_queued {s : State} {r : HostReq} {v u : Nat} (h : dramMap s r.addr.toNat = some (v, u))
    (hr : dramRefused s r v u = false) :
    ∃ t, exec (.hostAccess r) s = .next t ∧ t = { s with regs := t.regs, vlt.hostq := t.vlt.hostq } ∧
      (hostQ t v).map (·.job) = (hostQ s v).map (·.job) ++ [.access r u] ∧
      (∀ x, x ≠ v → hostQ t x = hostQ s x) ∧ regsBut s t ((hostPath 3 (v / 64)).map (· + 0x44)) := by
  have honly : onlyRegs s (countAccess s (hostPath 3 (v / 64)) true) ((hostPath 3 (v / 64)).map (· + 0x44)) :=
    countOn_only ..
  refine ⟨_, exec_hostAccess_dram h, ?_⟩
  rw [hostDram_eq s r (dramMap_lt h), if_neg (by simp [hr])]
  obtain ⟨regs, hregs⟩ : ∃ regs, countAccess s (hostPath 3 (v / 64)) true = { s with regs := regs } := ⟨_, honly.1⟩
  rw [hregs] at honly ⊢
  refine ⟨rfl, ?_, fun x hx => tabGet_tabSet_of_ne _ _ _ hx, honly.2⟩
  rw [queueJob, hostQ_setHostQ, List.map_append]
  rfl

/-! ## A host access in the guard -/

/-- The first column of a burst is placed at its first position, and its bank is precharged 28 positions after the burst
began (R211). -/
theorem burstPlace_init {last : Nat} (h : 28 ≤ last) (bank row : Nat) (write : Bool) :
    ∃ y, burstPlace Burst.init 16 last bank row write = some y := by
  cases write <;> simp [burstPlace, burstOpen, Burst.init, afterOpt, bankPre, h]

/-- A read, or the write of a whole line, takes one column, if the scrubber leaves its bank alone (R213, R214). -/
theorem burstJob_access {r : HostReq} {u : Nat} {bank : Option Nat} (hcol : r.write = true → r.len = 64)
    (hbank : bank ≠ some (u / 0x800 % 32)) (x : Burst) (first last : Nat) :
    burstJob x first last bank (.access r u) u =
      burstPlace x first last (u / 0x800 % 32) (u / 0x10000) r.write := by
  cases hw : r.write with
  | true => simp [burstJob, hbank, hw, hcol hw]
  | false => simp [burstJob, hbank, hw]

theorem serveBurst_idle {s : State} {v : Nat} (hq : hostQ s v = []) (hi : initOf s v = none) (first last n : Nat)
    (x : Burst) : serveBurst v first last n x s = s := by
  cases n with
  | zero => rfl
  | succ n => simp [serveBurst, hq, hi]

/-- The only job of a queue is served, and then nothing is left to do. -/
theorem serveBurst_access {s : State} {v u first last n : Nat} {r : HostReq} {x y : Burst}
    (hq : hostQ s v = [⟨.access r u, false, false⟩])
    (hy : burstJob x first last ((scrubOpen s v).map (· / 0x8000)) (.access r u) u = some y) {t : State}
    (ht : serveAccess (countEv s (pgVlt v) none .activation (y.acts.length - x.acts.length)) v u r = t)
    (htq : t.vlt.hostq = s.vlt.hostq) (hti : initOf t v = none) :
    serveBurst v first last (n + 1) x s = setHostQ t v [] := by
  have hfind : (hostQ s v).find? (fun q => !q.aborted && !q.late && !jobDone q.job) =
      some ⟨.access r u, false, false⟩ := by
    rw [hq]
    rfl
  have hnext : jobNext (hostQ t v) ⟨.access r u, false, false⟩ (.access r u) = [] := by
    rw [hostQ, htq, ← hostQ, hq]
    simp [jobNext]
  simp only [serveBurst, hfind, jobColumn, hy, jobWrite, ht, hnext]
  exact serveBurst_idle (hostQ_setHostQ ..) ((initOf_congr rfl v).trans hti) ..

/-- The guard of a frame whose vault has one access waiting: the scrubber's row and the ledger's events apart, what the
guard does is to serve it. -/
theorem exec_hostEngineGuard_access {s : State} (v : Fin 1024) {u n : Nat} {r : HostReq}
    (hq : hostQ s v.val = [⟨.access r u, false, false⟩]) (hinit : initOf s v.val = none)
    (hserve : hostServes s v.val = true) (hdie : dieServes s (v.val / 64) = true) (hn : 41 ≤ n)
    (hcol : r.write = true → r.len = 64)
    (hbank : (scrubPick s v.val (banksNext s v.val)).map (· / 0x8000) ≠ some (u / 0x800 % 32)) :
    ∃ row now, ∀ t, serveAccess { s with vlt.scrubRow := row, nrg.now := now } v.val u r = t →
      t.vlt.hostq = s.vlt.hostq → t.vlt.init = s.vlt.init →
      exec (.hostEngineGuard v n false) s = .next (setHostQ t v.val []) := by
  obtain ⟨m, rfl⟩ : ∃ m, n = m + 1 := ⟨n - 1, by omega⟩
  have hguard : scrubGuard s v.val (m + 1) = setScrubOpen s v.val (scrubPick s v.val (banksNext s v.val)) := by
    simp only [scrubGuard, if_pos (show 16 ≤ m + 1 by omega)]
  have hx : exec (.hostEngineGuard v (m + 1) false) s = .next (serveBurst v.val 16 (m + 1 - 13) (m + 1) Burst.init
      (setScrubOpen s v.val (scrubPick s v.val (banksNext s v.val)))) := by
    show execHostEngineGuard v (m + 1) false s = _
    simp only [execHostEngineGuard, hserve, hdie, hguard, if_neg (show ¬ m + 1 < 41 by omega), Bool.not_true,
      Bool.or_self, Bool.false_and, Bool.false_eq_true, if_false]
  obtain ⟨y, hy⟩ := burstPlace_init (show 28 ≤ m + 1 - 13 by omega) (u / 0x800 % 32) (u / 0x10000) r.write
  rw [← burstJob_access hcol hbank] at hy
  obtain ⟨now, hnow⟩ := sameButEvents_iff.1 (countEv_sameButEvents (setScrubOpen s v.val
    (scrubPick s v.val (banksNext s v.val))) (pgVlt v.val) none .activation (y.acts.length - Burst.init.acts.length))
  rw [← scrubOpen_setScrubOpen s v.val (scrubPick s v.val (banksNext s v.val))] at hy
  refine ⟨(setScrubOpen s v.val (scrubPick s v.val (banksNext s v.val))).vlt.scrubRow, now, fun t ht htq hti => ?_⟩
  rw [hx, serveBurst_access (s := setScrubOpen s v.val _) (t := t) hq hy (by rw [hnow]; exact ht) htq
    ((initOf_congr hti _).trans hinit)]

/-- A requester with an open context's access bit reads and writes its rows (R382). -/
theorem rowAccess_open {s : State} {c : Nat} {who : Requester} (hc : c < 256) (hconf : (ctx s c).conf = false)
    (hacc : (ctx s c).access.getLsbD (accessBit who) = true) (write : Bool) : rowAccess s c who write = 0 := by
  have hne : c ≠ domCarve := by unfold domCarve; omega
  simp [rowAccess, hne, hconf, hacc]

/-- One column of a vault for the host: its counter, and an event of the ledger. -/
theorem countCols_eq (s : State) (v n : Nat) : ∃ regs now,
    countCols s v n = { s with regs := regs, nrg.now := now } ∧ regsBut s { s with regs := regs } [pgVlt v + 0x78] := by
  have honly := cntAdd_only s (pgVlt v + 0x78) n
  obtain ⟨now, hnow⟩ := sameButEvents_iff.1
    (countEv_sameButEvents (cntAdd s (pgVlt v + 0x78) n) (pgVlt v) none .column n)
  refine ⟨_, now, ?_, fun k hk => honly.2 k hk⟩
  rw [countCols, baseCols, hnow]
  obtain ⟨regs, hregs⟩ : ∃ regs, cntAdd s (pgVlt v + 0x78) n = { s with regs := regs } := ⟨_, honly.1⟩
  rw [hregs]

section
variable {s : State} {v u c : Nat} {r : HostReq} (howner : rowOwner s v (u / 0x10000) = some c)
include howner

/-- A readable line is read and given. -/
theorem serveAccess_read (hacc : rowAccess s c r.who false = 0) (hw : r.write = false)
    (hk : lineKind s v u c = (0, false)) : serveAccess s v u r = emit (countCols s v 1) (.readDone r.tag
      (BitVec.ofNat 512 (bitsOf (lineData s v u) (8 * (u % 64)) (8 * r.len.toNat)))) := by
  obtain ⟨regs, now, hcols, -⟩ := countCols_eq s v 1
  have hkind : lineKind (countCols s v 1) v u c = (0, false) := by rw [hcols]; exact hk
  have hdata : lineData (countCols s v 1) v u = lineData s v u := lineData_congr (by rw [hcols]) ..
  have hline : hostLine s r.who v u c = (some (lineData s v u), countCols s v 1) := by
    simp [hostLine, hacc, readLine, hkind, hdata, noteLine]
  simp only [serveAccess, howner, hw, Bool.false_eq_true, if_false, hostRead, hline]

/-- A whole line is stored under its owner's keys. -/
theorem serveAccess_write (hacc : rowAccess s c r.who true = 0) (hw : r.write = true) (hlen : r.len = 64)
    (hret : isRetired s v (u / 0x10000) (u / 0x800 % 32) = false) : serveAccess s v u r =
      emit (storeLine (countCols s v 1) v u c r.data.toNat r.poison) (.writeDone r.tag) := by
  simp [serveAccess, howner, hw, hostWrite, writeRefused, hacc, hret, putBytes, hlen]

end

/-- The state when the write of a line is done, and `l` is the queue. -/
def lineServed (s : State) (v u dom data : Nat) (p : Bool) (o : Out) (l : List HostQ) : State :=
  setHostQ (emit (storeLine s v u dom data p) o) v l

/-- A stored line leaves every byte of another. -/
theorem memByte_lineServed_of_ne (s : State) {v u x y : Nat} (dom data : Nat) (p : Bool) (o : Out) (l : List HostQ)
    (hu : u < vaultSize) (hy : y < vaultSize) (h : (x, y / 64) ≠ (v, u / 64)) :
    memByte (lineServed s v u dom data p o l).vlt.mem (x * vaultSize + y) =
      memByte s.vlt.mem (x * vaultSize + y) := by
  refine memByte_memWrite_outside _ _ _ _ _ ?_
  rw [ne_eq, Prod.mk.injEq] at h
  unfold vaultSize at *
  omega

theorem lineData_lineServed (s : State) (v u dom data : Nat) (p : Bool) (o : Out) (l : List HostQ) :
    lineData (lineServed s v u dom data p o l) v u = data % 2 ^ (8 * 64) :=
  (lineData_congr (s := storeLine s v u dom data p) rfl ..).trans (lineData_storeLine_self ..)

theorem sideOf_lineServed (s : State) (v u dom data : Nat) (p : Bool) (o : Out) (l : List HostQ) :
    sideOf (lineServed s v u dom data p o l) v u =
      { dom := dom, keyGen := keyGenOf s (v / 64) dom, poison := p, bad := 0 } :=
  (sideOf_congr (s := storeLine s v u dom data p) rfl ..).trans (sideOf_storeLine_self ..)

section
variable {s : State} (v : Fin 1024) {u c n : Nat} {r : HostReq}
  (hq : hostQ s v.val = [⟨.access r u, false, false⟩]) (hinit : initOf s v.val = none)
  (hserve : hostServes s v.val = true) (hdie : dieServes s (v.val / 64) = true) (hn : 41 ≤ n)
  (howner : rowOwner s v.val (u / 0x10000) = some c) (hc : c < 256) (hconf : (ctx s c).conf = false)
  (hacc : (ctx s c).access.getLsbD (accessBit r.who) = true)
  (hbank : (scrubPick s v.val (banksNext s v.val)).map (· / 0x8000) ≠ some (u / 0x800 % 32))
include hq hinit hserve hdie hn howner hc hconf hacc hbank

theorem exec_hostEngineGuard_read (hw : r.write = false) (hk : lineKind s v.val u c = (0, false)) :
    ∃ t, exec (.hostEngineGuard v n false) s = .next t ∧
      sameButEvents t { s with regs := t.regs, vlt.hostq := t.vlt.hostq, vlt.scrubRow := t.vlt.scrubRow,
                               out := t.out } ∧ hostQ t v.val = [] ∧
      t.out = s.out ++ [.readDone r.tag
        (BitVec.ofNat 512 (bitsOf (lineData s v.val u) (8 * (u % 64)) (8 * r.len.toNat)))] ∧
      regsBut s t [pgVlt v.val + 0x78] := by
  obtain ⟨row, now, hguard⟩ := exec_hostEngineGuard_access v hq hinit hserve hdie hn (by simp [hw]) hbank
  have hread := serveAccess_read (s := { s with vlt.scrubRow := row, nrg.now := now }) (r := r) howner
    (rowAccess_open hc hconf hacc false) hw hk
  obtain ⟨regs, now', hcols, hregs⟩ := countCols_eq { s with vlt.scrubRow := row, nrg.now := now } v.val 1
  rw [hcols] at hread
  exact ⟨_, hguard _ hread rfl rfl, rfl, hostQ_setHostQ .., rfl, hregs⟩

theorem exec_hostEngineGuard_write (hw : r.write = true) (hlen : r.len = 64)
    (hret : isRetired s v.val (u / 0x10000) (u / 0x800 % 32) = false) :
    ∃ t, exec (.hostEngineGuard v n false) s = .next t ∧ hostQ t v.val = [] ∧
      t.out = s.out ++ [.writeDone r.tag] ∧ lineData t v.val u = r.data.toNat ∧
      (sideOf t v.val u).poison = r.poison ∧ (sideOf t v.val u).dom = c ∧ t.ses = s.ses ∧ t.clu = s.clu ∧
      regsBut s t [pgVlt v.val + 0x78] ∧
      ∀ x y, x < 1024 → y < vaultSize → (x, y / 64) ≠ (v.val, u / 64) → u < vaultSize →
        memByte t.vlt.mem (x * vaultSize + y) = memByte s.vlt.mem (x * vaultSize + y) := by
  obtain ⟨row, now, hguard⟩ := exec_hostEngineGuard_access v hq hinit hserve hdie hn (fun _ => hlen) hbank
  have hwrite := serveAccess_write (s := { s with vlt.scrubRow := row, nrg.now := now }) (r := r) howner
    (rowAccess_open hc hconf hacc true) hw hlen hret
  obtain ⟨regs, now', hcols, hregs⟩ := countCols_eq { s with vlt.scrubRow := row, nrg.now := now } v.val 1
  rw [hcols] at hwrite
  have hx : exec (.hostEngineGuard v n false) s =
      .next (lineServed { s with vlt.scrubRow := row, regs := regs, nrg.now := now' } v.val u c r.data.toNat r.poison
        (.writeDone r.tag) []) := hguard _ hwrite rfl rfl
  refine ⟨_, hx, hostQ_setHostQ .., rfl, ?_, ?_, ?_, rfl, rfl, hregs, fun x y _ hy hne hu =>
    memByte_lineServed_of_ne _ _ _ _ _ _ hu hy hne⟩
  · rw [lineData_lineServed, Nat.mod_eq_of_lt r.data.isLt]
  · rw [sideOf_lineServed]
  · rw [sideOf_lineServed]

end

/-- Settles O26: outside DRAM an access is a read or write of the S0 range or of a register, which errs where no part
serves it; in DRAM it is refused or queued at its vault, and in the guard the host engine serves what waits there. -/
theorem hostAccessesAreServed : Obligations.HostAccessesAreServed := by
  unfold Obligations.HostAccessesAreServed
  intro s r a
  refine ⟨fun hmap hk h => ?unserved, fun hmap hk hlen hlo hhi => ?sram, fun k hmap hk hlen => ?register,
    fun v u hmap h => ?refused, fun v u c hmap hdie hlen hline howner => ?queued,
    fun v u c n hq hinit hserve hdie hn howner hc hconf hacc hbank => ?guard⟩
  case unserved => exact (exec_hostAccess_else hmap).trans (congrArg _ (hostElse_unserved hk h))
  case sram =>
    exact ⟨fun hw => by rw [exec_hostAccess_else hmap, hostElse_sram_write hlen hlo hhi hk hw],
      fun hw => by rw [exec_hostAccess_else hmap, hostElse_sram_read hlen hlo hhi hk hw]⟩
  case register =>
    refine ⟨fun hwin => ⟨fun h => ?_, fun hp h4 h4len hcore => ?_⟩, fun off hwin hw hn hoff hs => ?_⟩
    · rw [exec_hostAccess_else hmap, hostElse_register_error hk hlen hwin h]
    · exact ⟨hostElse_register_write hk hwin hp h4 h4len hcore, hostElse_register_read hk hwin hp h4 h4len⟩
    · rw [exec_hostAccess_else hmap, hostElse_entry_read hk hlen hwin hw hn hoff hs]
  case refused => exact exec_hostAccess_refused hmap (by simp [dramRefused, dieServes_eq_false h])
  case queued => exact exec_hostAccess_queued hmap (by simpa [dramRefused, hdie, howner, Nat.not_lt.2 hline] using hlen)
  case guard =>
    exact ⟨exec_hostEngineGuard_read v hq hinit hserve hdie hn howner hc hconf hacc hbank,
      exec_hostEngineGuard_write v hq hinit hserve hdie hn howner hc hconf hacc hbank⟩

end Sys2Proof.Proofs

end

section

/-! PROOF. The state of sessions: what is read of an entry, a binding and a queue after a change, which registers and
memory a slot's home rests on, and how a command shows its result (R237, R239, R245, R246, R255). -/

namespace Sys2Proof.Proofs
open Sys2Proof Sys2Proof.Machine Sys2Proof.Safety Sys2Proof.Laws

/-! ## Entries, bindings and queues -/

theorem onServed_ses {s : State} {d : Nat} (hd : d < 16) (hs : presetState s d ≠ 4) (f : State → State) :
    onServed s (pgSes d) f = f s := by
  have hdie : kDie (pgSes d) = d := by unfold kDie pgSes pageBase; omega
  have hpage : kPage (pgSes d) = 0x2000 := by unfold kPage pgSes pageBase; omega
  have hat : pageAt d 0x2000 = some (.ses, 0) := by simp [pageAt, hd, show ¬ 20 ≤ d by omega]
  rw [onServed, pageServed, hdie, hpage, hat]
  simp [hs]

theorem entNat_entSet_self (s : State) (d e o n x : Nat) : entNat (entSet s d e o n x) d e o n = x % 2 ^ (8 * n) :=
  memNat_memWrite_self ..

/-- Other bytes of the same entry. -/
theorem entNat_entSet_of_disjoint (s : State) (d e n x : Nat) {o o' n' : Nat} (h : o' + n' ≤ o ∨ o + n ≤ o') :
    entNat (entSet s d e o n x) d e o' n' = entNat s d e o' n' :=
  memNat_memWrite_outside _ _ _ _ _ _ (by unfold entKey; omega)

theorem entState_entSet_state (s : State) (d e : Nat) {x : Nat} (hx : x < 256) :
    entState (entSet s d e 4 1 x) d e = x := by
  rw [entState, entNat_entSet_self]
  exact Nat.mod_eq_of_lt hx

@[simp] theorem boundOf_setBound_self (s : State) (d e : Nat) (x : Option (Nat × Nat)) :
    boundOf (setBound s d e x) d e = x := tabGet_tabSet_self ..

/-- Another entry keeps its binding. -/
theorem boundOf_setBound_of_ne (s : State) (x : Option (Nat × Nat)) {d e d' e' : Nat} (he : e < 2560) (he' : e' < 2560)
    (h : (d', e') ≠ (d, e)) : boundOf (setBound s d e x) d' e' = boundOf s d' e' := by
  have hkey : 2560 * d' + e' ≠ 2560 * d + e := fun hkey =>
    h (Prod.ext (show d' = d by omega) (show e' = e by omega))
  exact tabGet_tabSet_of_ne _ _ _ hkey

/-- The binding of an entry rests on the table of bindings alone. -/
theorem boundOf_congr {s t : State} (h : t.ses.bound = s.ses.bound) (d e : Nat) : boundOf t d e = boundOf s d e := by
  rw [boundOf, h, boundOf]

theorem entNat_congr {s t : State} (h : t.ses.table = s.ses.table) (d e o n : Nat) :
    entNat t d e o n = entNat s d e o n := by
  rw [entNat, h, entNat]

theorem hostQ_congr {s t : State} (h : t.vlt = s.vlt) (v : Nat) : hostQ t v = hostQ s v := by
  rw [hostQ, h, hostQ]

theorem hostQ_setHostQ_of_ne (s : State) {v x : Nat} (l : List HostQ) (h : x ≠ v) :
    hostQ (setHostQ s v l) x = hostQ s x := tabGet_tabSet_of_ne _ _ _ h

theorem queueJob_eq (s : State) (v : Nat) (j : HostJob) :
    queueJob s v j = { s with vlt.hostq := (queueJob s v j).vlt.hostq } := rfl

/-- A queued job stands behind the jobs of its vault. -/
theorem hostQ_queueJob_jobs (s : State) (v : Nat) (j : HostJob) :
    (hostQ (queueJob s v j) v).map (·.job) = (hostQ s v).map (·.job) ++ [j] := by
  rw [queueJob, hostQ_setHostQ, List.map_append]
  rfl

/-! ## The home of a slot -/

section
variable {s t : State} (hrai : t.rai = s.rai) (hmem : t.vlt.mem = s.vlt.mem) (himap : ∀ n, imapMode t n = imapMode s n)
include hmem himap

/-- A byte of DRAM rests on the bytes of the vaults and on how the vaults of a die interleave. -/
theorem dramByte_congr (a : Nat) : dramByte t a = dramByte s a := by
  have hmap : dramMap t a = dramMap s a := by simp only [dramMap, himap]
  rw [dramByte, hmap, hmem, dramByte]

theorem dramNat_congr (a n : Nat) : dramNat t a n = dramNat s a n := by
  induction n generalizing a with
  | zero => rfl
  | succ n ih => rw [dramNat, dramNat, dramByte_congr hmem himap, ih]

include hrai

theorem ctxClusters_congr (c : Nat) : ctxClusters t c = ctxClusters s c := by
  have himg : ctxImg t c = ctxImg s c := by
    rw [ctxImg, planSlot, raising, ctx, hrai]
    rfl
  have hcl : ∀ img h, imgClusters t img h = imgClusters s img h := fun img h =>
    List.filter_congr fun k _ => by
      simp only [imgHasCluster, imgNat, dramNat_congr hmem himap]
  rw [ctxClusters, himg, hcl, ctxClusters]

theorem slotHome_congr (c slot : Nat) : slotHome t c slot = slotHome s c slot := by
  unfold slotHome
  rw [ctxClusters_congr hrai hmem himap]

theorem leadVault_congr (c : Nat) : leadVault t c = leadVault s c := by
  rw [leadVault, ctxClusters_congr hrai hmem himap, leadVault]

end

/-- The SES page holds no IMAP. -/
theorem imapMode_of_ses {s t : State} {d o : Nat} (ho : o < 0x1000) (h : regsBut s t [pgSes d + o]) (n : Nat) :
    imapMode t n = imapMode s n := by
  have hk : pgVlt (64 * n) + 0x40 ∉ [pgSes d + o] := by
    simp only [List.mem_singleton, pgVlt, pgSes, pageBase]
    omega
  rw [imapMode, regField_of_but h hk, imapMode]

/-! ## How a command shows its result -/

theorem wset_mod (x : Word) (lo w v : Nat) : wset x lo w (v % 2 ^ w) = wset x lo w v := by
  simp only [wset, setBits, Nat.mod_mod]

/-- The field takes the low bits of what is put. -/
theorem regField_regPut_mod (s : State) (k : Nat) {lo w : Nat} (v : Nat) (hw : lo + w ≤ 32) :
    regField (regPut s k lo w v) k lo w = v % 2 ^ w := by
  rw [regPut, ← wset_mod]
  exact regField_regPut_self s k (Nat.mod_lt _ (Nat.two_pow_pos w)) hw

/-- A result in the low bits of a register other than IRQ_STAT, with an interrupt. -/
theorem result_interrupts (s : State) {k pg w b : Nat} (v : Nat) (hk : k ≠ pg + 0x10) (hw : w ≤ 32) (hb : b < 32) :
    let t := irq (regPut s k 0 w v) pg b
    onlyRegs s t [k, pg + 0x10] ∧ regField t k 0 w = v % 2 ^ w ∧ regBit t (pg + 0x10) b = true := by
  refine ⟨onlyRegs_trans (regPut_only ..) (irq_only ..), ?_, regBit_irq _ _ hb⟩
  rw [regField_of_but (irq_only ..).2 (by simpa using hk), regField_regPut_mod _ _ _ (by omega)]

end Sys2Proof.Proofs

end

section

/-! PROOF. Session commits: COMMIT and BUCKET_COMMIT, refused or queued, and what completes (R245 to R247, R252, R255,
R494). -/

namespace Sys2Proof.Proofs
open Sys2Proof Sys2Proof.Machine Sys2Proof.Safety Sys2Proof.Laws

/-! ## A write of COMMIT -/

/-- Another field of the word than the one that is replaced. -/
theorem extractLsb'_wset_of_disjoint (x : Word) {lo w v lo' w' : Nat} (hw : lo' + w' ≤ 32)
    (h : lo' + w' ≤ lo ∨ lo + w ≤ lo') : (wset x lo w v).extractLsb' lo' w' = x.extractLsb' lo' w' := by
  refine BitVec.eq_of_getLsbD_eq fun i hi => ?_
  rw [BitVec.getLsbD_extractLsb', BitVec.getLsbD_extractLsb', getLsbD_wset _ _ _ _ _ (by omega), if_neg (by omega)]

/-- A kind in bits [13:12] of the word leaves the entry and the REASON. -/
theorem commit_word (w : Word) {n : Nat} (hn : n < 4) : wfield (wset w 12 2 n) 0 12 = wfield w 0 12 ∧
    wfield (wset w 12 2 n) 12 2 = n ∧ (wset w 12 2 n).extractLsb' 16 8 = w.extractLsb' 16 8 :=
  ⟨wfield_wset_of_disjoint _ (by decide) (.inl (by decide)), wfield_wset_self _ hn (by decide),
    extractLsb'_wset_of_disjoint _ (by decide) (.inr (by decide))⟩

theorem exec_commit {s : State} {d : Fin 16} (hs : presetState s d.val ≠ 4) {w : Word} {x : Instr × Nat}
    (hx : x ∈ [(Instr.bind d w, 1), (.update d w, 2), (.release d w, 3)]) :
    exec x.1 s = .next (commitWrite s d.val (wset w 12 2 x.2)) ∧ x.2 ∈ [1, 2, 3] := by
  simp only [List.mem_cons, List.not_mem_nil, or_false] at hx
  rcases hx with rfl | rfl | rfl <;> exact ⟨congrArg _ (onServed_ses d.isLt hs _), by simp⟩

/-- The job of a COMMIT with KIND `n` (R245). -/
def kindOf (n : Nat) : CommitKind := if n = 1 then .bind else if n = 2 then .update else .release

theorem kindOf_eq_bind (n : Nat) : kindOf n = .bind ↔ n = 1 := by
  unfold kindOf
  split
  · simp [*]
  · split <;> simp [*]

theorem kindOf_eq_release {n : Nat} (hn : n ∈ [1, 2, 3]) : kindOf n = .release ↔ n = 3 := by
  simp only [List.mem_cons, List.not_mem_nil, or_false] at hn
  rcases hn with rfl | rfl | rfl <;> decide

/-- The entry's binding as a COMMIT with KIND `n` finds it: a BIND takes context and slot from the entry. -/
def commitBinds (s : State) (d e n : Nat) : State :=
  if n = 1 then setBound s d e (some (entNat s d e 1 1, entSlot s d e)) else s

/-- The state with the commit of entry `e` queued at vault `v`. -/
def commitQueued (s : State) (d e n v : Nat) (reason : BitVec 8) : State :=
  queueJob (entSet s d e 4 1 (if n = 1 then 1 else if n = 2 then 3 else 4)) v (.commit d e (kindOf n) reason 0 false)

theorem commitWrite_refused {s : State} {d : Nat} {w : Word} (hr : commitCheck s d w.toNat ≠ 0) :
    commitWrite s d w = irq (regPut s (pgSes d + 0x44) 0 3 (commitCheck s d w.toNat)) (pgSes d) 1 := if_pos hr

theorem commitWrite_queued {s t : State} {d c slot v p : Nat} {w : Word} (hr : commitCheck s d w.toNat = 0)
    (ht : commitBinds (regPut s (pgSes d + 0x44) 0 3 0) d (wfield w 0 12) (wfield w 12 2) = t)
    (hb : boundOf t d (wfield w 0 12) = some (c, slot)) (hh : slotHome t c slot = some (v, p)) :
    commitWrite s d w = commitQueued t d (wfield w 0 12) (wfield w 12 2) v (w.extractLsb' 16 8) := by
  subst ht
  unfold commitWrite
  rw [hr]
  simp only [ne_eq, not_true_eq_false, if_false]
  unfold commitBinds wfield at hb hh
  simp only [hb, hh]
  rfl

theorem commitBinds_eq (s : State) (d e n : Nat) :
    commitBinds s d e n = { s with ses.bound := (commitBinds s d e n).ses.bound } := by
  unfold commitBinds
  split <;> rfl

theorem commitQueued_eq (s : State) (d e n v : Nat) (reason : BitVec 8) : commitQueued s d e n v reason =
    { s with ses.table := (commitQueued s d e n v reason).ses.table
             vlt.hostq := (commitQueued s d e n v reason).vlt.hostq } := rfl

theorem commitQueued_regs (s : State) (d e n v : Nat) (reason : BitVec 8) :
    (commitQueued s d e n v reason).regs = s.regs := rfl
theorem commitQueued_bound (s : State) (d e n v : Nat) (reason : BitVec 8) :
    (commitQueued s d e n v reason).ses.bound = s.ses.bound := rfl

theorem hostQ_commitQueued (s : State) (d e n v : Nat) (reason : BitVec 8) :
    (hostQ (commitQueued s d e n v reason) v).map (·.job) =
      (hostQ s v).map (·.job) ++ [.commit d e (kindOf n) reason 0 false] := hostQ_queueJob_jobs ..

theorem entState_commitQueued (s : State) (d e v : Nat) (reason : BitVec 8) {n : Nat} (hn : n ∈ [1, 2, 3]) :
    entState (commitQueued s d e n v reason) d e = [0, 1, 3, 4].getD n 0 := by
  simp only [List.mem_cons, List.not_mem_nil, or_false] at hn
  rcases hn with rfl | rfl | rfl <;> exact entState_entSet_state s d e (by decide)

section
variable {s r : State} {ks : List Nat} (h : onlyRegs s r ks)
include h

theorem commitBinds_regs (d e n : Nat) :
    commitBinds r d e n = { s with regs := r.regs, ses.bound := (commitBinds r d e n).ses.bound } := by
  rw [commitBinds_eq, h.1]

theorem hostQ_commitBinds (d e n v : Nat) : hostQ (commitBinds r d e n) v = hostQ s v := by
  rw [commitBinds_regs h]
  rfl

theorem slotHome_commitBinds {d o : Nat} (hks : ks = [pgSes d + o]) (ho : o < 0x1000) (e n c slot : Nat) :
    slotHome (commitBinds r d e n) c slot = slotHome s c slot := by
  have hu := commitBinds_regs h d e n
  generalize commitBinds r d e n = u at hu
  have hbut : regsBut s u [pgSes d + o] := fun k hk => by
    rw [regGet_congr (s := r) (by rw [hu]), h.2 k (hks ▸ hk)]
  exact slotHome_congr (by rw [hu]) (by rw [hu]) (imapMode_of_ses ho hbut) c slot

/-- The slot that a COMMIT takes, from the entry or from its binding, is its binding afterwards. -/
theorem boundOf_commitBinds {d e n c slot : Nat}
    (hb : if n = 1 then (entNat s d e 1 1, entSlot s d e) = (c, slot) else boundOf s d e = some (c, slot)) :
    boundOf (commitBinds r d e n) d e = some (c, slot) := by
  have hbound : boundOf r d e = boundOf s d e := boundOf_congr (by rw [h.1]) d e
  have hent : ∀ o m, entNat r d e o m = entNat s d e o m := entNat_congr (by rw [h.1]) d e
  unfold commitBinds
  split at hb
  · rw [if_pos ‹_›, boundOf_setBound_self, ← hb, entSlot, entSlot, hent, hent]
  · rw [if_neg ‹_›, hbound, hb]

end

/-- One that passes every check sets RESULT 0, moves the entry's STATE, and waits at its vault. -/
theorem commitWrite_accepted {s t : State} {d c slot v p n : Nat} {w : Word} (hn : n ∈ [1, 2, 3])
    (hr : commitCheck s d (wset w 12 2 n).toNat = 0) (hh : slotHome s c slot = some (v, p))
    (hb : if n = 1 then (entNat s d (wfield w 0 12) 1 1, entSlot s d (wfield w 0 12)) = (c, slot)
      else boundOf s d (wfield w 0 12) = some (c, slot)) (ht : commitWrite s d (wset w 12 2 n) = t) :
    t = { s with regs := t.regs, ses.table := t.ses.table, ses.bound := t.ses.bound, vlt.hostq := t.vlt.hostq } ∧
    regsBut s t [pgSes d + 0x44] ∧ regField t (pgSes d + 0x44) 0 3 = 0 ∧
    boundOf t d (wfield w 0 12) = some (c, slot) ∧ entState t d (wfield w 0 12) = [0, 1, 3, 4].getD n 0 ∧
    (hostQ t v).map (·.job) =
      (hostQ s v).map (·.job) ++ [.commit d (wfield w 0 12) (kindOf n) (w.extractLsb' 16 8) 0 false] := by
  have hn4 : n < 4 := by
    simp only [List.mem_cons, List.not_mem_nil, or_false] at hn
    omega
  obtain ⟨hentry, hkind, hreason⟩ := commit_word w hn4
  have hput := regPut_only s (pgSes d + 0x44) 0 3 0
  have hbound := boundOf_commitBinds hput hb
  have hhome := (slotHome_commitBinds hput rfl (by decide) (wfield w 0 12) n c slot).trans hh
  have hqueued := commitWrite_queued hr rfl (by rw [hentry, hkind]; exact hbound) (by rw [hentry, hkind]; exact hhome)
  rw [ht, hentry, hkind, hreason] at hqueued
  have hu := commitBinds_regs hput d (wfield w 0 12) n
  have hq := hostQ_commitBinds hput d (wfield w 0 12) n v
  have hresult := regField_regPut_self s (pgSes d + 0x44) (lo := 0) (w := 3) (v := 0) (by decide) (by decide)
  generalize regPut s (pgSes d + 0x44) 0 3 0 = r at *
  generalize commitBinds r d (wfield w 0 12) n = u at *
  have hregs : t.regs = r.regs := by rw [hqueued, commitQueued_regs, hu]
  refine ⟨?_, fun k hk => (regGet_congr hregs k).trans (hput.2 k hk), ?_, ?_, ?_, ?_⟩
  · rw [hqueued, commitQueued_eq, hu]
  · rw [regField, regGet_congr hregs]
    exact hresult
  · rw [hqueued, boundOf_congr (commitQueued_bound ..), hbound]
  · rw [hqueued, entState_commitQueued _ _ _ _ _ hn]
  · rw [hqueued, hostQ_commitQueued, hq]

/-! ## A write of BUCKET_COMMIT -/

section
variable {s : State} {d : Fin 16} (hs : presetState s d.val ≠ 4) (w : Word)
include hs

theorem exec_bucketCommit : exec (.bucketCommit d w) s = .next (bucketWrite s d.val w) :=
  congrArg _ (onServed_ses d.isLt hs _)

theorem exec_bucketCommit_refused (hr : bucketCheck s d.val w.toNat ≠ 0) :
    ∃ t, exec (.bucketCommit d w) s = .next t ∧ onlyRegs s t [pgSes d.val + 0x4C, pgSes d.val + 0x10] ∧
      regField t (pgSes d.val + 0x4C) 0 3 = bucketCheck s d.val w.toNat % 8 ∧
      regBit t (pgSes d.val + 0x10) 1 = true := by
  refine ⟨_, exec_bucketCommit hs w, ?_⟩
  rw [bucketWrite, if_pos hr]
  exact result_interrupts s _ (by omega) (by decide) (by decide)

theorem exec_bucketCommit_accepted {v : Nat} (hr : bucketCheck s d.val w.toNat = 0)
    (hv : leadVault s (wfield w 0 8) = some v) : ∃ t, exec (.bucketCommit d w) s = .next t ∧
      t = { s with regs := t.regs, vlt.hostq := t.vlt.hostq } ∧
      (hostQ t v).map (·.job) = (hostQ s v).map (·.job) ++
        [.bucket d.val (wfield w 0 8) (w.extractLsb' 8 4) false] := by
  obtain ⟨r, hput⟩ : ∃ r, regPut s (pgSes d.val + 0x4C) 0 3 0 = r := ⟨_, rfl⟩
  obtain ⟨hrs, hbut⟩ : onlyRegs s r [pgSes d.val + 0x4C] := hput ▸ regPut_only ..
  have hlead : leadVault r (wfield w 0 8) = some v :=
    (leadVault_congr (by rw [hrs]) (by rw [hrs]) (imapMode_of_ses (by decide) hbut) _).trans hv
  have hwrite : bucketWrite s d.val w =
      queueJob r v (.bucket d.val (wfield w 0 8) (w.extractLsb' 8 4) false) := by
    unfold wfield at hlead
    simp only [bucketWrite, hr, hput, ne_eq, not_true_eq_false, if_false, hlead]
    rfl
  refine ⟨_, exec_bucketCommit hs w, ?_⟩
  rw [hwrite]
  constructor
  · rw [queueJob_eq, hrs]
  · rw [hostQ_queueJob_jobs, hrs]
    rfl

end

/-! ## A completion is noted -/

theorem pageOfKey_pgSes {d o : Nat} (hd : d < 16) (ho : o < 0x1000) : pageOfKey (pgSes d + o) = pgSes d := by
  unfold pageOfKey pgSes pageBase
  omega

theorem frozen_congr {s t : State} (h : t.regs = s.regs) (pg : Nat) : frozen t pg = frozen s pg := by
  rw [frozen, regBit, regGet_congr h, frozen, regBit]

theorem trailNote_eq (s : State) (c rcd : Nat) :
    trailNote s c rcd = { s with rai.trail := (trailNote s c rcd).rai.trail } := by
  unfold trailNote
  split <;> rfl

/-- A completion on page `pg`: DONE_COUNT, interrupt 0, and a note for the aborts of this tick period. The page is a
variable of its own, so that the kernel does not compute with its number. -/
def doneNoted (s : State) (pg d job target : Nat) : State :=
  noteLatched (irq (cntAdd s (pg + 0x54) 1) pg 0) d job target

theorem doneNoted_regs (s : State) (pg d job target : Nat) :
    (doneNoted s pg d job target).regs = (irq (cntAdd s (pg + 0x54) 1) pg 0).regs := rfl

theorem doneNoted_eq (s : State) (pg d job target : Nat) : doneNoted s pg d job target =
    { s with regs := (doneNoted s pg d job target).regs
             rai.latched := (doneNoted s pg d job target).rai.latched } := by
  have h := onlyRegs_trans (cntAdd_only s (pg + 0x54) 1) (irq_only _ pg 0)
  rw [doneNoted, noteLatched, h.1]

theorem regsBut_doneNoted (s : State) (pg d job target : Nat) :
    regsBut s (doneNoted s pg d job target) [pg + 0x10, pg + 0x54] := fun k hk => by
  have h := onlyRegs_trans (cntAdd_only s (pg + 0x54) 1) (irq_only _ pg 0)
  rw [regGet_congr (doneNoted_regs ..), h.2 k (by simpa [and_comm] using hk)]

theorem regBit_doneNoted (s : State) (pg d job target : Nat) :
    regBit (doneNoted s pg d job target) (pg + 0x10) 0 = true := by
  rw [regBit, regGet_congr (doneNoted_regs ..)]
  exact regBit_irq _ pg (by decide)

theorem doneCount_doneNoted (s : State) {pg : Nat} (hpg : pageOfKey (pg + 0x54) = pg) (hf : frozen s pg = false)
    (d job target : Nat) : regGet (doneNoted s pg d job target) (pg + 0x54) = regGet s (pg + 0x54) + 1 := by
  rw [regGet_congr (doneNoted_regs ..), (irq_only ..).2 _ (by simp)]
  exact cntAdd_counts s _ 1 (by rw [hpg, hf])

/-! ## A session commit completes -/

/-- The entry when its commit has completed: a release empties it with its REASON, another commit leaves it BOUND. -/
def entryDone (s : State) (d e : Nat) (k : CommitKind) (reason : BitVec 8) : State :=
  if k = .release then setBound (entSet (entSet s d e 4 1 0) d e 5 1 reason.toNat) d e none else entSet s d e 4 1 2

theorem entryDone_eq (s : State) (d e : Nat) (k : CommitKind) (reason : BitVec 8) : entryDone s d e k reason =
    { s with ses.table := (entryDone s d e k reason).ses.table
             ses.bound := (entryDone s d e k reason).ses.bound } := by
  unfold entryDone
  split <;> rfl

theorem entryDone_release_table (s : State) (d e : Nat) (reason : BitVec 8) :
    (entryDone s d e .release reason).ses.table =
      (entSet (entSet s d e 4 1 0) d e 5 1 reason.toNat).ses.table := rfl

theorem entryDone_release (s : State) (d e : Nat) (reason : BitVec 8) : let t := entryDone s d e .release reason
    boundOf t d e = none ∧ entState t d e = 0 ∧ entNat t d e 5 1 = reason.toNat := by
  refine ⟨boundOf_setBound_self .., ?_, ?_⟩
  · rw [entState, entNat_congr (entryDone_release_table ..), entNat_entSet_of_disjoint _ _ _ _ _ (.inl (by decide)),
      ← entState, entState_entSet_state _ _ _ (by decide)]
  · rw [entNat_congr (entryDone_release_table ..), entNat_entSet_self]
    exact Nat.mod_eq_of_lt reason.isLt

/-- A release leaves the binding of every other entry. -/
theorem boundOf_entryDone_of_ne (s : State) (reason : BitVec 8) {d e x y : Nat} (he : e < 2560) (hy : y < 2560)
    (h : (x, y) ≠ (d, e)) : boundOf (entryDone s d e .release reason) x y = boundOf s x y :=
  (boundOf_setBound_of_ne _ none he hy h).trans (boundOf_congr rfl x y)

theorem entryDone_bound {k : CommitKind} (hk : k ≠ .release) (s : State) (d e : Nat) (reason : BitVec 8) :
    (entryDone s d e k reason).ses.bound = s.ses.bound ∧ entState (entryDone s d e k reason) d e = 2 := by
  rw [entryDone, if_neg hk]
  exact ⟨rfl, entState_entSet_state s d e (by decide)⟩

/-- The completion of entry `e` on page `pg`: noted, and in DONE_LAST, which takes `w`. -/
def commitNoted (s : State) (pg d e : Nat) (w : Word) : State :=
  { regSet (doneNoted s pg d 1 e) (pg + 0x58) w with
    ses.fresh := (regSet (doneNoted s pg d 1 e) (pg + 0x58) w).ses.fresh ++ [(d, e)] }

theorem commitNoted_regs (s : State) (pg d e : Nat) (w : Word) :
    (commitNoted s pg d e w).regs = (regSet (doneNoted s pg d 1 e) (pg + 0x58) w).regs := rfl

theorem commitNoted_eq (s : State) (pg d e : Nat) (w : Word) : commitNoted s pg d e w =
    { s with regs := (commitNoted s pg d e w).regs, rai.latched := (commitNoted s pg d e w).rai.latched
             ses.fresh := (commitNoted s pg d e w).ses.fresh } := by
  rw [commitNoted, regSet, doneNoted_eq]

theorem regsBut_commitNoted (s : State) (pg d e : Nat) (w : Word) :
    regsBut s (commitNoted s pg d e w) [pg + 0x10, pg + 0x54, pg + 0x58] := fun k hk => by
  simp only [List.mem_cons, List.not_mem_nil, or_false, not_or] at hk
  rw [regGet_congr (commitNoted_regs ..), (regSet_only ..).2 k (by simp [hk]),
    regsBut_doneNoted _ _ _ _ _ k (by simp [hk])]

theorem commitNoted_shows (s : State) {pg : Nat} (hpg : pageOfKey (pg + 0x54) = pg) (hf : frozen s pg = false)
    (d e : Nat) (w : Word) : let t := commitNoted s pg d e w
    regBit t (pg + 0x10) 0 = true ∧ regGet t (pg + 0x54) = regGet s (pg + 0x54) + 1 ∧ regGet t (pg + 0x58) = w := by
  intro t
  have hbut : regsBut (doneNoted s pg d 1 e) t [pg + 0x58] := fun k hk =>
    (regGet_congr (commitNoted_regs ..) k).trans ((regSet_only ..).2 k hk)
  refine ⟨?_, ?_, ?_⟩
  · rw [regBit_of_but hbut (by simp), regBit_doneNoted]
  · rw [hbut _ (by simp), doneCount_doneNoted s hpg hf]
  · rw [regGet_congr (commitNoted_regs ..), regGet_regSet_self]

/-- What the completion of a bound entry's commit does: a trail record, SEQ, the entry, and the completion's note. -/
theorem completeCommit_eq {s : State} {d e c slot : Nat} (h : boundOf s d e = some (c, slot)) (k : CommitKind)
    (reason : BitVec 8) : ∃ rcd seq, completeCommit s d e k reason =
      commitNoted (entryDone (entSet (trailNote s c rcd) d e 8 4 seq) d e k reason) (pgSes d) d e
        (BitVec.ofNat 32 (e + 0x80000000)) := by
  unfold completeCommit
  rw [h]
  exact ⟨_, _, rfl⟩

section
variable {s : State} {v : Fin 1024} {d : Nat} (hd : d < 16) (hf : frozen s (pgSes d) = false)
include hd hf

/-- The written commit of a bound entry completes: its entry, its note, and its place in the queue. -/
theorem exec_commitComplete_commit {e c slot col : Nat} {k : CommitKind} {reason : BitVec 8} (he : e < 2560)
    (hq : hostQ s v.val = [⟨.commit d e k reason col true, false, false⟩]) (hb : boundOf s d e = some (c, slot)) :
    ∃ t u, exec (.commitComplete v) s = .next t ∧ u.ses.bound = s.ses.bound ∧
      t.ses.table = (entryDone u d e k reason).ses.table ∧ t.ses.bound = (entryDone u d e k reason).ses.bound ∧
      hostQ t v.val = [] ∧ regBit t (pgSes d + 0x10) 0 = true ∧
      regGet t (pgSes d + 0x54) = regGet s (pgSes d + 0x54) + 1 ∧ regNat t (pgSes d + 0x58) = e + 0x80000000 ∧
      t.vlt.mem = s.vlt.mem ∧ t.clu = s.clu ∧ regsBut s t [pgSes d + 0x10, pgSes d + 0x54, pgSes d + 0x58] := by
  obtain ⟨rcd, seq, hcomplete⟩ := completeCommit_eq (s := setHostQ s v.val []) hb k reason
  have hx : exec (.commitComplete v) s = .next (completeCommit (setHostQ s v.val []) d e k reason) := by
    show execCommitComplete v s = _
    simp only [execCommitComplete, hq, List.find?_cons, jobDone, List.erase_cons_head]
  rw [hcomplete, trailNote_eq] at hx
  generalize (trailNote _ c rcd).rai.trail = trail at hx
  generalize hu : entSet _ d e 8 4 seq = u at hx
  have hregs : (entryDone u d e k reason).regs = s.regs := by rw [entryDone_eq, ← hu]; rfl
  have hvlt : (entryDone u d e k reason).vlt = (setHostQ s v.val []).vlt := by rw [entryDone_eq, ← hu]; rfl
  have hclu : (entryDone u d e k reason).clu = s.clu := by rw [entryDone_eq, ← hu]; rfl
  have hbound : u.ses.bound = s.ses.bound := by rw [← hu]; rfl
  obtain ⟨hirq, hcount, hlast⟩ := commitNoted_shows (entryDone u d e k reason)
    (pageOfKey_pgSes hd (by decide : 0x54 < 0x1000)) ((frozen_congr hregs _).trans hf) d e
    (BitVec.ofNat 32 (e + 0x80000000))
  have hbut := regsBut_commitNoted (entryDone u d e k reason) (pgSes d) d e (BitVec.ofNat 32 (e + 0x80000000))
  have ht := commitNoted_eq (entryDone u d e k reason) (pgSes d) d e (BitVec.ofNat 32 (e + 0x80000000))
  generalize commitNoted (entryDone u d e k reason) (pgSes d) d e (BitVec.ofNat 32 (e + 0x80000000)) = t at *
  have htvlt : t.vlt = (setHostQ s v.val []).vlt := by rw [ht, hvlt]
  have hqueue : hostQ t v.val = [] := (hostQ_congr htvlt _).trans (hostQ_setHostQ ..)
  refine ⟨t, u, hx, hbound, by rw [ht], by rw [ht], hqueue, hirq, ?_, ?_, ?_, ?_, fun j hj => ?_⟩
  · rw [hcount, regGet_congr hregs]
  · rw [regNat, hlast, BitVec.toNat_ofNat, Nat.mod_eq_of_lt (by omega)]
  · rw [htvlt]
    rfl
  · rw [ht, hclu]
  · rw [hbut j hj, regGet_congr hregs]

theorem exec_commitComplete_release {e c slot col : Nat} {reason : BitVec 8} (he : e < 2560)
    (hq : hostQ s v.val = [⟨.commit d e .release reason col true, false, false⟩])
    (hb : boundOf s d e = some (c, slot)) :
    ∃ t, exec (.commitComplete v) s = .next t ∧ hostQ t v.val = [] ∧ boundOf t d e = none ∧ entState t d e = 0 ∧
      entNat t d e 5 1 = reason.toNat ∧ regBit t (pgSes d + 0x10) 0 = true ∧
      regGet t (pgSes d + 0x54) = regGet s (pgSes d + 0x54) + 1 ∧ regNat t (pgSes d + 0x58) = e + 0x80000000 ∧
      t.vlt.mem = s.vlt.mem ∧ t.clu = s.clu ∧
      regsBut s t [pgSes d + 0x10, pgSes d + 0x54, pgSes d + 0x58] ∧
      ∀ x y, (x, y) ≠ (d, e) → boundOf t x y = boundOf s x y ∨ 2560 ≤ y := by
  obtain ⟨t, u, hx, hu, htable, hbound, hqueue, hirq, hcount, hlast, hmem, hclu, hbut⟩ :=
    exec_commitComplete_commit hd hf he hq hb
  obtain ⟨hfree, hstate, hreason⟩ := entryDone_release u d e reason
  refine ⟨t, hx, hqueue, (boundOf_congr hbound d e).trans hfree, (entNat_congr htable ..).trans hstate,
    (entNat_congr htable ..).trans hreason, hirq, hcount, hlast, hmem, hclu, hbut, fun x y hne => ?_⟩
  by_cases hy : y < 2560
  · exact .inl (by rw [boundOf_congr hbound, boundOf_entryDone_of_ne _ _ he hy hne, boundOf_congr hu])
  · exact .inr (by omega)

theorem exec_commitComplete_bound {e c slot col : Nat} {k : CommitKind} {reason : BitVec 8} (he : e < 2560)
    (hk : k ≠ .release) (hq : hostQ s v.val = [⟨.commit d e k reason col true, false, false⟩])
    (hb : boundOf s d e = some (c, slot)) :
    ∃ t, exec (.commitComplete v) s = .next t ∧ hostQ t v.val = [] ∧ t.ses.bound = s.ses.bound ∧
      entState t d e = 2 ∧ regBit t (pgSes d + 0x10) 0 = true ∧
      regGet t (pgSes d + 0x54) = regGet s (pgSes d + 0x54) + 1 ∧ regNat t (pgSes d + 0x58) = e + 0x80000000 ∧
      t.vlt.mem = s.vlt.mem ∧ t.clu = s.clu ∧
      regsBut s t [pgSes d + 0x10, pgSes d + 0x54, pgSes d + 0x58] := by
  obtain ⟨t, u, hx, hu, htable, hbound, hqueue, hirq, hcount, hlast, hmem, hclu, hbut⟩ :=
    exec_commitComplete_commit hd hf he hq hb
  obtain ⟨hkept, hstate⟩ := entryDone_bound hk u d e reason
  exact ⟨t, hx, hqueue, hbound.trans (hkept.trans hu), (entNat_congr htable ..).trans hstate, hirq, hcount, hlast,
    hmem, hclu, hbut⟩

theorem exec_commitComplete_bucket {c : Nat} {b : BitVec 4}
    (hq : hostQ s v.val = [⟨.bucket d c b true, false, false⟩]) :
    ∃ t, exec (.commitComplete v) s = .next t ∧ hostQ t v.val = [] ∧ regBit t (pgSes d + 0x10) 0 = true ∧
      regGet t (pgSes d + 0x54) = regGet s (pgSes d + 0x54) + 1 ∧ t.ses = s.ses ∧ t.vlt.mem = s.vlt.mem ∧
      regsBut s t [pgSes d + 0x10, pgSes d + 0x54] := by
  obtain ⟨rcd, hcomplete⟩ : ∃ rcd, completeBucket (setHostQ s v.val []) d c b =
      doneNoted (trailNote (setHostQ s v.val []) c rcd) (pgSes d) d 2 c := ⟨_, rfl⟩
  have hx : exec (.commitComplete v) s = .next (completeBucket (setHostQ s v.val []) d c b) := by
    show execCommitComplete v s = _
    simp only [execCommitComplete, hq, List.find?_cons, jobDone, List.erase_cons_head]
  rw [hcomplete] at hx
  have hu := trailNote_eq (setHostQ s v.val []) c rcd
  generalize trailNote (setHostQ s v.val []) c rcd = u at hu hx
  have hregs : u.regs = s.regs := by rw [hu]; rfl
  have hvlt : u.vlt = (setHostQ s v.val []).vlt := by rw [hu]
  have hses : u.ses = s.ses := by rw [hu]; rfl
  have ht := doneNoted_eq u (pgSes d) d 2 c
  have htvlt : (doneNoted u (pgSes d) d 2 c).vlt = (setHostQ s v.val []).vlt := by rw [ht, hvlt]
  refine ⟨_, hx, (hostQ_congr htvlt _).trans (hostQ_setHostQ ..), regBit_doneNoted .., ?_, ?_, ?_, fun j hj => ?_⟩
  · rw [doneCount_doneNoted u (pageOfKey_pgSes hd (by decide : 0x54 < 0x1000)) ((frozen_congr hregs _).trans hf),
      regGet_congr hregs]
  · rw [ht, hses]
  · rw [htvlt]
    rfl
  · rw [regsBut_doneNoted _ _ _ _ _ j hj, regGet_congr hregs]

end

/-- Settles O28: a commit that a check fails shows its RESULT and interrupt 1; one that passes waits at its vault; a
completion is counted, and a release empties its entry. -/
theorem commitsAreCheckedAndComplete : Obligations.CommitsAreCheckedAndComplete := by
  unfold Obligations.CommitsAreCheckedAndComplete
  refine ⟨fun s d w hs => ⟨fun x hx => ?commit, ?bucket⟩, fun s v d e c slot reason b hd he hf => ?complete⟩
  case commit =>
    obtain ⟨hexec, hn⟩ := exec_commit hs hx
    intro r entry
    refine ⟨fun hr => ?refused, fun c slot v p hr hh hb => ?accepted⟩
    case refused =>
      rw [commitWrite_refused hr] at hexec
      exact ⟨_, hexec, result_interrupts s _ (by omega) (by decide) (by decide)⟩
    case accepted =>
      obtain ⟨hkept, hbut, hresult, hbound, hstate, hqueue⟩ := commitWrite_accepted hn hr hh hb rfl
      exact ⟨_, kindOf x.2, hexec, hkept, hbut, hresult, hbound, hstate, hqueue, kindOf_eq_bind x.2,
        kindOf_eq_release hn⟩
  case bucket =>
    exact ⟨exec_bucketCommit_refused hs w, fun v hr hv => exec_bucketCommit_accepted hs w hr hv⟩
  case complete =>
    exact ⟨fun hq hb => exec_commitComplete_release hd hf he hq hb,
      fun k hk hq hb => exec_commitComplete_bound hd hf he hk hq hb, fun hq => exec_commitComplete_bucket hd hf hq⟩

end Sys2Proof.Proofs

end

section

/-! PROOF. The entry window, and aborts of session and bucket commits (R236, R237, R471). -/

namespace Sys2Proof.Proofs
open Sys2Proof Sys2Proof.Machine Sys2Proof.Safety Sys2Proof.Laws

/-! ## The entry window -/

/-- Byte `i` of a window write at offset `o` of entry `e`: an RW byte is written. -/
def windowByte (d e o data : Nat) (s : State) (i : Nat) : State :=
  if entryRw (o + i) then entSet s d e (o + i) 1 (bitsOf data (8 * i) (if o + i = 3 then 2 else 8)) else s

/-- What a window write keeps: all but the entries, and there every byte but the `n` RW bytes that it writes. -/
def WindowKeeps (s : State) (d e o n : Nat) (t : State) : Prop :=
  t = { s with ses.table := t.ses.table } ∧
  ∀ a, (∀ i < n, entryRw (o + i) = true → a ≠ entKey d e (o + i)) → memByte t.ses.table a = memByte s.ses.table a

theorem windowByte_keeps {s t : State} {d e o n : Nat} (data : Nat) {i : Nat} (hi : i < n)
    (h : WindowKeeps s d e o n t) : WindowKeeps s d e o n (windowByte d e o data t i) := by
  obtain ⟨ht, hbytes⟩ := h
  unfold windowByte
  split
  case isTrue hrw =>
    refine ⟨?_, fun a ha => ?_⟩
    · rw [entSet, ht]
    · have hne := ha i hi hrw
      exact (memByte_memWrite_outside _ _ _ _ _ (by omega)).trans (hbytes a ha)
  case isFalse => exact ⟨ht, hbytes⟩

/-- Byte 3 of an entry, the high byte of SLOT, has two bits; the other RW bytes are whole (R237). -/
theorem entNat_windowByte_self (s : State) (d e o data : Nat) {i : Nat} (h : entryRw (o + i) = true) :
    entNat (windowByte d e o data s i) d e (o + i) 1 = bitsOf data (8 * i) (if o + i = 3 then 2 else 8) := by
  rw [windowByte, if_pos h, entNat_entSet_self]
  refine Nat.mod_eq_of_lt (Nat.lt_of_lt_of_le (Nat.mod_lt _ (Nat.two_pow_pos _)) ?_)
  split <;> decide

theorem entNat_windowByte_of_ne (s : State) (d e o data : Nat) {i j : Nat} (h : j ≠ i) :
    entNat (windowByte d e o data s i) d e (o + j) 1 = entNat s d e (o + j) 1 := by
  unfold windowByte
  split
  · exact entNat_entSet_of_disjoint _ _ _ _ _ (by omega)
  · rfl

/-- Byte after byte, a window write writes its RW bytes and no other byte. -/
theorem foldl_windowByte (s : State) (d e o n data : Nat) :
    let t := (List.range n).foldl (windowByte d e o data) s
    WindowKeeps s d e o n t ∧ ∀ i < n, entryRw (o + i) = true →
      entNat t d e (o + i) 1 = bitsOf data (8 * i) (if o + i = 3 then 2 else 8) := by
  obtain ⟨hkeep, -, hbytes⟩ := foldl_turns (I := WindowKeeps s d e o n) (view := fun t i => entNat t d e (o + i) 1)
    (Q := fun i _ y => entryRw (o + i) = true → y = bitsOf data (8 * i) (if o + i = 3 then 2 else 8))
    (f := windowByte d e o data) (l := List.range n) List.nodup_range
    (fun _ _ hi => windowByte_keeps data (List.mem_range.1 hi))
    (fun t _ _ _ => entNat_windowByte_self t d e o data)
    (fun t _ _ => entNat_windowByte_of_ne t d e o data) (s := s) ⟨rfl, fun _ _ => rfl⟩
  exact ⟨hkeep, fun i hi => hbytes i (List.mem_range.2 hi)⟩

section
variable {s : State} {d : Fin 16} {off : BitVec 22} {z : AccSize} (x : BitVec 512) (he : off.toNat / 1024 < 2560)
  (ho : off.toNat % 1024 % accBytes z = 0) (hs : presetState s d.val ≠ 4)
include he ho hs

theorem exec_entryWindowWrite : exec (.entryWindowWrite d off z x) s = .next
    (if entState s d.val (off.toNat / 1024) ≠ 0 && entState s d.val (off.toNat / 1024) ≠ 2 then
      (if (List.range (accBytes z)).any fun i => entryRw (off.toNat % 1024 + i) then statSet s (pgSes d.val) 0 else s)
    else (List.range (accBytes z)).foldl
      (windowByte d.val (off.toNat / 1024) (off.toNat % 1024) x.toNat) s) := by
  have hserved : (decide (2560 ≤ off.toNat / 1024) || decide (off.toNat % 1024 % accBytes z ≠ 0) ||
      decide (presetState s d.val = 4)) = false := by
    simp [ho, hs, he]
  show execEntryWindowWrite d off z x s = _
  rw [execEntryWindowWrite, entryWindowWrite, hserved]
  rfl

/-- An empty or bound entry takes the RW bytes. -/
theorem exec_entryWindowWrite_taken
    (h : entState s d.val (off.toNat / 1024) = 0 ∨ entState s d.val (off.toNat / 1024) = 2) :
    ∃ t, exec (.entryWindowWrite d off z x) s = .next t ∧
      WindowKeeps s d.val (off.toNat / 1024) (off.toNat % 1024) (accBytes z) t ∧
      ∀ i < accBytes z, entryRw (off.toNat % 1024 + i) = true →
        entNat t d.val (off.toNat / 1024) (off.toNat % 1024 + i) 1 =
          bitsOf x.toNat (8 * i) (if off.toNat % 1024 + i = 3 then 2 else 8) := by
  refine ⟨_, exec_entryWindowWrite x he ho hs, ?_⟩
  rw [if_neg (by simpa [or_iff_not_imp_left] using h)]
  exact foldl_windowByte ..

/-- An entry with a commit under way takes none; STAT bit 0 says so. -/
theorem exec_entryWindowWrite_locked (h0 : entState s d.val (off.toNat / 1024) ≠ 0)
    (h2 : entState s d.val (off.toNat / 1024) ≠ 2) :
    ∃ t, exec (.entryWindowWrite d off z x) s = .next t ∧ onlyRegs s t [pgSes d.val + 0xC] ∧
      ((∃ i < accBytes z, entryRw (off.toNat % 1024 + i) = true) → regBit t (pgSes d.val + 0xC) 0 = true) := by
  refine ⟨_, exec_entryWindowWrite x he ho hs, ?_⟩
  rw [if_pos (by simp [h0, h2])]
  split
  case isTrue => exact ⟨statSet_only .., fun _ => regBit_statSet _ _ (by decide)⟩
  case isFalse hnone =>
    refine ⟨onlyRegs_refl .., fun ⟨i, hi, hrw⟩ => absurd ?_ hnone⟩
    exact List.any_eq_true.2 ⟨i, List.mem_range.2 hi, hrw⟩

end

/-! ## Aborts of commits -/

/-- A job with its mark, if it is the one that the abort names. -/
def abortMarked (a : AbortReq) (q : HostQ) : HostQ := if abortNames a false q.job then { q with aborted := true } else q

/-- One vault's turn in marking what an abort names. -/
def abortMarkAt (a : AbortReq) (s : State) (v : Nat) : State :=
  if (hostQ s v).any (fun q => abortNames a false q.job) then setHostQ s v ((hostQ s v).map (abortMarked a)) else s

theorem abortMark_eq_foldl {a : AbortReq} (h : a.job ≠ 3) (s : State) :
    abortMark s a = (dieVaults a.die).foldl (abortMarkAt a) s := if_neg h

theorem abortMarkAt_eq (a : AbortReq) (s : State) (v : Nat) :
    abortMarkAt a s v = { s with vlt.hostq := (abortMarkAt a s v).vlt.hostq } := by
  unfold abortMarkAt
  split <;> rfl

/-- A queue in which the abort names nothing is its own marked queue. -/
theorem hostQ_abortMarkAt_self (a : AbortReq) (s : State) (v : Nat) :
    hostQ (abortMarkAt a s v) v = (hostQ s v).map (abortMarked a) := by
  unfold abortMarkAt
  split
  case isTrue => exact hostQ_setHostQ ..
  case isFalse h =>
    have hnone : ∀ q ∈ hostQ s v, abortMarked a q = q := fun q hq =>
      if_neg fun hnamed => h (List.any_eq_true.2 ⟨q, hq, hnamed⟩)
    exact ((List.map_congr_left hnone).trans (List.map_id' _)).symm

theorem hostQ_abortMarkAt_of_ne (a : AbortReq) (s : State) {v x : Nat} (h : x ≠ v) :
    hostQ (abortMarkAt a s v) x = hostQ s x := by
  unfold abortMarkAt
  split
  · exact hostQ_setHostQ_of_ne _ _ h
  · rfl

theorem nodup_dieVaults (d : Nat) : (dieVaults d).Nodup :=
  List.Nodup.map (fun _ _ h => by simpa using h) List.nodup_range

theorem abortMark_marks {a : AbortReq} (h : a.job ≠ 3) (s : State) : let t := abortMark s a
    t = { s with vlt.hostq := t.vlt.hostq } ∧ ∀ v ∈ dieVaults a.die, hostQ t v = (hostQ s v).map (abortMarked a) := by
  rw [abortMark_eq_foldl h]
  obtain ⟨hkeep, -, hmarks⟩ := foldl_turns (I := fun t : State => t = { s with vlt.hostq := t.vlt.hostq })
    (view := hostQ) (Q := fun _ l m => m = l.map (abortMarked a)) (f := abortMarkAt a) (nodup_dieVaults a.die)
    (fun t v _ ht => by rw [abortMarkAt_eq, ht])
    (fun t v _ _ => hostQ_abortMarkAt_self a t v) (fun t _ _ => hostQ_abortMarkAt_of_ne a t) (s := s) rfl
  exact ⟨hkeep, hmarks⟩

section
variable {s : State} {d : Nat} {j target : Nat}

theorem abortWrite_pending (h : abortPending s ⟨d, BitVec.ofNat 2 j, target⟩ = true) : abortWrite s d j target =
    { abortMark s ⟨d, BitVec.ofNat 2 j, target⟩ with
      rai.aborts := (abortMark s ⟨d, BitVec.ofNat 2 j, target⟩).rai.aborts ++ [⟨d, BitVec.ofNat 2 j, target⟩] } := by
  simp only [abortWrite, h, Bool.true_or, if_true]

theorem abortWrite_late (h : abortPending s ⟨d, BitVec.ofNat 2 j, target⟩ = false)
    (hl : abortLate s ⟨d, BitVec.ofNat 2 j, target⟩ = true) : abortWrite s d j target =
      { s with rai.aborts := s.rai.aborts ++ [⟨d, BitVec.ofNat 2 j, target⟩] } := by
  simp only [abortWrite, h, hl, Bool.or_true, Bool.false_eq_true, if_true, if_false]

theorem abortWrite_none (h : abortPending s ⟨d, BitVec.ofNat 2 j, target⟩ = false)
    (hl : abortLate s ⟨d, BitVec.ofNat 2 j, target⟩ = false) :
    abortWrite s d j target = irq (regPut s (pgDbg d + 0x74) 0 2 0) (pgDbg d) 1 := by
  simp only [abortWrite, h, hl, Bool.or_false, Bool.false_eq_true, if_false]

end

/-- An ABORT of a session or bucket commit by name is the write of DBG.ABORT with that job. -/
theorem exec_abort {d : Fin 16} {a : BitVec 12} {x : Instr × BitVec 2}
    (hx : x ∈ [(Instr.abortSessionCommit d a, (1 : BitVec 2)), (.abortBucketCommit d a, 2)]) (s : State) :
    exec x.1 s = .next (abortWrite s d.val x.2.toNat a.toNat) ∧ x.2 ≠ 3 := by
  simp only [List.mem_cons, List.not_mem_nil, or_false] at hx
  rcases hx with rfl | rfl
  · exact ⟨rfl, by simp⟩
  · exact ⟨rfl, by simp⟩

/-- Settles O29: the window writes the RW bytes of an empty or bound entry and none of another; an abort marks what it
names, waits where that has completed, and else reads NONE at once. -/
theorem entryWindowAndAborts : Obligations.EntryWindowAndAborts := by
  unfold Obligations.EntryWindowAndAborts
  refine ⟨fun s d off z x => ?window, fun s d a x hx => ?abort⟩
  case window =>
    intro e o n he ho hs
    refine ⟨fun h => ?_, exec_entryWindowWrite_locked x he ho hs⟩
    obtain ⟨t, hexec, ⟨hkept, hother⟩, hbytes⟩ := exec_entryWindowWrite_taken x he ho hs h
    exact ⟨t, hexec, hkept, hbytes, hother⟩
  case abort =>
    intro r
    obtain ⟨hexec, hjob⟩ := exec_abort hx s
    have hr : r = ⟨d.val, BitVec.ofNat 2 x.2.toNat, a.toNat⟩ := by simp [r]
    refine ⟨fun hp => ?pending, fun hp hl => ?late, fun hp hl => ?none⟩
    case pending =>
      obtain ⟨hkept, hmarks⟩ := abortMark_marks (a := r) hjob s
      rw [abortWrite_pending (hr ▸ hp), ← hr] at hexec
      refine ⟨_, hexec, ?_, hmarks⟩
      rw [hkept]
    case late => rw [hexec, abortWrite_late (hr ▸ hp) (hr ▸ hl), ← hr]
    case none =>
      rw [abortWrite_none (hr ▸ hp) (hr ▸ hl)] at hexec
      exact ⟨_, hexec, result_interrupts s 0 (by omega) (by decide) (by decide)⟩

end Sys2Proof.Proofs

end

section

/-! PROOF. Lane entries: a TAKE or a DRIVE of a frame that issues (R268). -/

namespace Sys2Proof.Proofs
open Sys2Proof Sys2Proof.Machine Sys2Proof.Safety Sys2Proof.Laws

/-- The move of a lane entry, as the stage that it puts under way. -/
def laneAct (s : State) (e c pos : Nat) (x : BitVec 64) : Act :=
  let link := BitVec.ofNat 3 (laneLink x)
  let lane := BitVec.ofNat 5 (laneNo x)
  let line := laneLine x + (pos - lanePos x)
  if laneDir x then .edgeRead link lane (laneArea s e c x) line else .edgeTake link lane (laneArea s e c x) line

/-- With nothing in flight, a good entry at a position of its run puts its move under way in its cycle, and nothing else
happens. -/
theorem laneMove_idle {s : State} {e pos : Nat} {x : BitVec 64} {q c : Nat} (hpipe : s.clu.pipe = [])
    (hpart : edgeLanePart s e (laneLink x) (laneNo x) = some q) (hrun : (part s q).run = some c)
    (hissue : issues (part s q).kind = true) (hgood : laneGood e x = true) (hlo : lanePos x ≤ pos)
    (hhi : pos ≤ lanePos x + laneRun x) :
    let n := max s.clu.cyc ((part s q).origin + pos)
    laneMove s e pos x = { s with
      clu.cyc := n
      clu.pipe := [{ unit := 1024 + e, slot := laneGroup s e c x, issue := n, stage := n, act := laneAct s e c pos x }] } := by
  intro n
  have hmoves : (!issues (part s q).kind || !laneGood e x || decide (pos < lanePos x) ||
      decide (lanePos x + laneRun x < pos)) = false := by
    simp [hissue, hgood, hlo, hhi]
  have hadvance : advance s n = { s with clu.cyc := n } := by
    rw [advance_idle s n (by simp [hpipe]), Nat.max_eq_right (Nat.le_max_left ..)]
  simp only [laneMove, hpart, hrun, hmoves, Bool.false_eq_true, if_false]
  change pushEv (advance s n) _ = _
  rw [hadvance, pushEv, hpipe]
  rfl

/-- Settles O31: an entry moves the line of its position in its cycle, by the command of its own direction alone. -/
theorem laneEntriesMoveLines : Obligations.LaneEntriesMoveLines := by
  unfold Obligations.LaneEntriesMoveLines
  intro s e pos x q c hpipe _ hpart hrun hissue hgood hlo hhi n line go link lane
  have hmove := laneMove_idle hpipe hpart hrun hissue hgood hlo hhi
  have htake : exec (.laneTake e pos x) s = .next (if laneDir x then s else laneMove s e.val pos.toNat x) := rfl
  have hdrive : exec (.laneDrive e pos x) s = .next (if laneDir x then laneMove s e.val pos.toNat x else s) := rfl
  refine ⟨fun hdir => ?take, fun hdir => ?drive⟩
  case take =>
    rw [laneAct, hdir] at hmove
    rw [htake, hdrive, hdir]
    exact ⟨congrArg _ hmove, rfl⟩
  case drive =>
    rw [laneAct, hdir] at hmove
    rw [htake, hdrive, hdir]
    exact ⟨congrArg _ hmove, rfl⟩

end Sys2Proof.Proofs

end

section

/-! PROOF. Table sets and landing areas: CHECK and RELEASE of a set, the writes that place sets and areas, and the
slot-table window (R262, R263, R285, R286, R458). -/

namespace Sys2Proof.Proofs
open Sys2Proof Sys2Proof.Machine Sys2Proof.Safety Sys2Proof.Laws

/-! ## The sets of an edge die -/

theorem setOf_putSet_self (s : State) (e k : Nat) (x : SetSt) : setOf (putSet s e k x) e k = x :=
  tabGet_tabSet_self ..

/-- Another set of the die, or any set of another one. -/
theorem setOf_putSet_of_ne (s : State) (x : SetSt) {e k d j : Nat} (hk : k < 4) (hj : j < 4) (h : (d, j) ≠ (e, k)) :
    setOf (putSet s e k x) d j = setOf s d j := by
  have hne : d * 4 + j ≠ e * 4 + k := fun he => h (Prod.ext (by dsimp only; omega) (by dsimp only; omega))
  exact tabGet_tabSet_of_ne _ _ _ hne

/-- A register changes in one field, and a set of the die is put in place: what then shows both. -/
theorem putSet_regPut_shows (s : State) (e k key : Nat) (x : SetSt) {i : Nat} (hi : i < 32) (v : Nat) :
    let t := putSet (regPut s key i 1 v) e k x
    t = { s with regs := t.regs, edge.sets := t.edge.sets } ∧ regsBut s t [key] ∧ regBit t key i = v.testBit 0 ∧
      setOf t e k = x := by
  have hbit : regBit (regPut s key i 1 v) key i = v.testBit 0 := by simp [regBit_regPut_self s key i 1 v hi]
  exact ⟨rfl, (regPut_only s ..).2, hbit, setOf_putSet_self ..⟩

/-! ## CHECK and RELEASE (R263, R285) -/

/-- What CHECK asks of the set that its pages hold. -/
def setPasses (s : State) (e k : Nat) : Prop :=
  (setPages s e k).1 + (setPages s e k).2 ≤ 128 ∧
    setGood s e (regField s (setCfgKey e k) 16 16) (Config.decodeSet (setBytes s e k)) = true

section
variable {s : State} {e k : Nat} (hidle : (setOf s e k).state ≠ .running)
include hidle

theorem setCheck_loads (hgood : setPasses s e k) : setCheck s e k =
    putSet (regPut s (setCtrlKey e k) 5 1 0) e k
      { state := .loaded, tables := Config.decodeSet (setBytes s e k), ctx := none } := by
  obtain ⟨hpages, hset⟩ := hgood
  simp only [setCheck, hidle, if_false, hpages, hset, decide_true, Bool.and_self, if_true]

theorem setCheck_refuses (hbad : ¬setPasses s e k) :
    setCheck s e k = irq (regPut s (setCtrlKey e k) 5 1 1) (pgSlt e) 2 := by
  refine (if_neg hidle).trans (if_neg ?_)
  simpa [setPasses] using hbad

/-- A set that keeps the rules is loaded, and the bit that shows a refusal is clear. -/
theorem setCheck_loaded (hgood : setPasses s e k) : let t := setCheck s e k
    t = { s with regs := t.regs, edge.sets := t.edge.sets } ∧ regsBut s t [setCtrlKey e k] ∧
      regBit t (setCtrlKey e k) 5 = false ∧
      setOf t e k = { state := .loaded, tables := Config.decodeSet (setBytes s e k), ctx := none } := by
  rw [setCheck_loads hidle hgood]
  exact putSet_regPut_shows s e k (setCtrlKey e k) _ (by decide) 0

/-- Any other stays out, shown by its bit and interrupt 2. -/
theorem setCheck_refused (hbad : ¬setPasses s e k) : let t := setCheck s e k
    onlyRegs s t [setCtrlKey e k, pgSlt e + 0x10] ∧ regBit t (setCtrlKey e k) 5 = true ∧
      regBit t (pgSlt e + 0x10) 2 = true := by
  have hne : setCtrlKey e k ≠ pgSlt e + 0x10 := by unfold setCtrlKey; omega
  have hput : regBit (regPut s (setCtrlKey e k) 5 1 1) (setCtrlKey e k) 5 = true :=
    regBit_regPut_self s _ _ _ _ (by decide)
  rw [setCheck_refuses hidle hbad]
  refine ⟨onlyRegs_trans (regPut_only ..) (irq_only ..), ?_, regBit_irq _ _ (by decide)⟩
  rw [regBit_of_but (irq_only ..).2 (by simpa using hne), hput]

end

theorem setRelease_empties {s : State} {e k : Nat} (h : (setOf s e k).state = .loaded ∨ (setOf s e k).state = .cached) :
    setRelease s e k = putSet s e k SetSt.init := by
  rcases h with h | h <;> simp only [setRelease, h]

/-! ## The writes that place a set (R285) -/

/-- Whether the pages that a write of SET_CFG names meet those of another set of the die. -/
def setClash (s : State) (e k : Nat) (w : Word) : Prop :=
  ∃ j < 4, j ≠ k ∧ winMeet (wfield w 0 7, wfield w 8 7) (setPages s e j) = true

theorem setClash_iff (s : State) (e k : Nat) (w : Word) :
    ((List.range 4).any fun j => j ≠ k && winMeet (wfield w 0 7, wfield w 8 7) (setPages s e j)) = true ↔
      setClash s e k w := by
  simp [setClash]

/-- The mask of SET_CFG covers its fields. -/
theorem wfield_setCfg_mask (w : Word) {lo n : Nat} (h : ∀ i < n, (0xFFFF7F7F#32).getLsbD (lo + i) = true) :
    wfield (w &&& 0xFFFF7F7F) lo n = wfield w lo n := wfield_and_of_ones w h

theorem setCfgWrite_taken {s : State} {e k : Nat} {w : Word} (hidle : (setOf s e k).state ≠ .running)
    (hfree : ¬setClash s e k w) : let t := setCfgWrite s e k w
    onlyRegs s t [setCfgKey e k] ∧ setPages t e k = (wfield w 0 7, wfield w 8 7) ∧
      regField t (setCfgKey e k) 16 16 = wfield w 16 16 := by
  have hwrite : setCfgWrite s e k w = regSet s (setCfgKey e k) (w &&& 0xFFFF7F7F) := by
    refine if_neg ?_
    rw [Bool.or_eq_true, decide_eq_true_eq, setClash_iff]
    exact not_or.2 ⟨hidle, hfree⟩
  rw [hwrite]
  refine ⟨regSet_only .., Prod.ext ?_ ?_, ?_⟩ <;>
    simp only [setPages, regField, regGet_regSet_self]
  · exact wfield_setCfg_mask w (by decide)
  · exact wfield_setCfg_mask w (by decide)
  · exact wfield_setCfg_mask w (by decide)

theorem setCfgWrite_refused {s : State} {e k : Nat} {w : Word}
    (h : (setOf s e k).state = .running ∨ setClash s e k w) : let t := setCfgWrite s e k w
    onlyRegs s t [pgSlt e + 0xC] ∧ regBit t (pgSlt e + 0xC) 0 = true := by
  have hwrite : setCfgWrite s e k w = statSet s (pgSlt e) 0 := by
    refine if_pos ?_
    rw [Bool.or_eq_true, decide_eq_true_eq, setClash_iff]
    exact h
  rw [hwrite]
  exact statSet_refuses ..

/-! ## Landing areas (R286) -/

theorem areaWrite_taken {s : State} {e c : Nat} {w : Word} (hc : regField s (pgLnd e + 0x40) 0 8 = c) (o n : Nat)
    (h : areaRefused s e c (wfield w 0 9, n * wfield w 16 9) = false) : let t := areaWrite s e o n w
    onlyRegs s t [bankKey (pgLnd e + o) c] ∧ regGet t (bankKey (pgLnd e + o) c) = (w &&& 0x1FF01FF) := by
  simp only [areaWrite, hc, h, Bool.false_eq_true, if_false]
  exact ⟨regSet_only .., regGet_regSet_self ..⟩

theorem areaWrite_refused {s : State} {e c : Nat} {w : Word} (hc : regField s (pgLnd e + 0x40) 0 8 = c) (o n : Nat)
    (h : areaRefused s e c (wfield w 0 9, n * wfield w 16 9) = true) : let t := areaWrite s e o n w
    onlyRegs s t [pgLnd e + 0xC] ∧ regBit t (pgLnd e + 0xC) 0 = true := by
  simp only [areaWrite, hc, h, if_true]
  exact statSet_refuses ..

/-- RING_CFG counts entries of four parts, STAGE_CFG an area of one. -/
theorem exec_areaWrite {e : Fin 3} {w : Word} {x : Instr × Nat × Nat}
    (hx : x ∈ [(Instr.ringCfgWrite e w, 0x44, 4), (.stageCfgWrite e w, 0x48, 1)]) (s : State) :
    exec x.1 s = .next (areaWrite s e.val x.2.1 x.2.2 w) := by
  simp only [List.mem_cons, List.not_mem_nil, or_false] at hx
  rcases hx with rfl | rfl
  · rfl
  · rfl

/-! ## The slot-table window (R262, R458) -/

section
variable (s : State) (e : Fin 3) {off : BitVec 23} {z : AccSize} (x : BitVec 512) (halign : off.toNat % accBytes z = 0)
include halign

/-- An aligned access lies within the window: only the pages of a set deny it. -/
theorem exec_slotTableWindowWrite : exec (.slotTableWindowWrite e off z x) s = .next
    (if pageTaken s e.val (off.toNat / 0x10000) then emit s (.errorDone 0)
    else { s with
      edge.slotMem := memWrite s.edge.slotMem (e.val * 0x800000 + off.toNat) (accBytes z) x.toNat }) := by
  have hfits : ¬slotMemSize < off.toNat + accBytes z := by
    have hlt := off.isLt
    unfold slotMemSize
    cases z <;> (simp only [accBytes] at halign ⊢; omega)
  show execSlotTableWindowWrite e off z x s = _
  simp only [execSlotTableWindowWrite, slotWindowWrite, halign, ne_eq, not_true_eq_false, decide_false, Bool.false_or, hfits]
  cases pageTaken s e.val (off.toNat / 0x10000) <;> rfl

end

/-- Settles O33: each command takes what keeps the sets and the areas apart, and of any other shows the refusal alone. -/
theorem tableSetsAndAreas : Obligations.TableSetsAndAreas := by
  unfold Obligations.TableSetsAndAreas
  intro s e k w set new good
  refine ⟨fun hidle => ?check, fun hheld => ?release, fun hidle hfree => ?taken, fun hclash => ?refused,
    fun x hx => ?area, fun off z x halign => ?window⟩
  case check => exact ⟨_, rfl, setCheck_loaded hidle, setCheck_refused hidle⟩
  case release =>
    have hexec : exec (.setRelease e k) s = .next (putSet s e.val k.val SetSt.init) :=
      congrArg _ (setRelease_empties hheld)
    exact ⟨_, hexec, rfl, setOf_putSet_self .., fun d j hj hne => setOf_putSet_of_ne s _ k.isLt hj hne⟩
  case taken =>
    refine ⟨_, rfl, setCfgWrite_taken hidle fun ⟨j, hj, hne, hmeet⟩ => ?_⟩
    rw [hfree j hj hne] at hmeet
    exact absurd hmeet (by decide)
  case refused => exact ⟨_, rfl, setCfgWrite_refused hclash⟩
  case area =>
    exact ⟨fun h => ⟨_, exec_areaWrite hx s, areaWrite_taken rfl _ _ h⟩,
      fun h => ⟨_, exec_areaWrite hx s, areaWrite_refused rfl _ _ h⟩⟩
  case window =>
    have hexec := exec_slotTableWindowWrite s e x halign
    refine ⟨fun hfree => ?_, fun htaken => ?_⟩
    · rw [hfree] at hexec
      exact ⟨_, hexec, rfl, memNat_memWrite_self .., fun a ha => memByte_memWrite_outside _ _ _ _ _ ha⟩
    · rw [htaken] at hexec
      exact hexec

end Sys2Proof.Proofs

end

section

/-! PROOF. What a leashed packet leaves behind when it goes out, and the sends in their unit, deferred and late (R261,
R270, R271, R290, R298, R300). -/

namespace Sys2Proof.Proofs
open Sys2Proof Sys2Proof.Machine Sys2Proof.Safety Sys2Proof.Laws

/-! ## Ports and their pages -/

@[simp] theorem linkOf_setLink_self (s : State) (p : Nat) (k : Link) : linkOf (setLink s p k) p = k :=
  tabGet_tabSet_self ..

theorem linkOf_congr {s t : State} (h : t.link = s.link) (p : Nat) : linkOf t p = linkOf s p := by
  rw [linkOf, h, linkOf]

theorem pageOfKey_pgSlt {e o : Nat} (he : e < 3) (ho : o < 0x1000) : pageOfKey (pgSlt e + o) = pgSlt e := by
  simp only [pageOfKey, pgSlt, pageBase]
  omega

/-- The partition of a port is named in the S0 page alone. -/
theorem partOfPort_of_but {s t : State} {ks : List Nat} (h : regsBut s t ks) {p : Nat} (hp : pgDieS + 0x840 + 4 * p ∉ ks) :
    partOfPort t p = partOfPort s p := by
  have hword : regNat t (pgDieS + 0x840 + 4 * p) = regNat s (pgDieS + 0x840 + 4 * p) := congrArg BitVec.toNat (h _ hp)
  rw [partOfPort, liveAssign, hword]
  rfl

theorem portCtx_of_but {s t : State} {ks : List Nat} (h : regsBut s t ks) (hsets : t.edge.sets = s.edge.sets)
    (hrai : t.rai = s.rai) {p : Nat} (hp : pgDieS + 0x840 + 4 * p ∉ ks) : portCtx t p = portCtx s p := by
  simp only [portCtx, portCtxs, partCtx, part, partOfPort_of_but h hp, hsets, hrai]

theorem raising_congr {s t : State} (h : t.rai = s.rai) : raising t = raising s := by
  funext c
  rw [raising, ctx, h, raising, ctx]

/-- The header of a frame shows the port's link and its context's raising. -/
theorem linkHeader_of_but {s t : State} {ks : List Nat} (h : regsBut s t ks) (hsets : t.edge.sets = s.edge.sets)
    (hrai : t.rai = s.rai) (hlink : t.link = s.link) {p : Nat} (hp : pgDieS + 0x840 + 4 * p ∉ ks) (kind aux : Nat)
    (replay : Bool) : linkHeader t p kind aux replay = linkHeader s p kind aux replay := by
  rw [linkHeader, portCtx_of_but h hsets hrai hp, linkOf_congr hlink, raising_congr hrai]
  rfl

/-! ## A frame goes out -/

/-- A frame goes out whole, and its port notes it (R291, R298). -/
theorem sendRaw_eq (s : State) (p kind aux : Nat) (replay : Bool) (ext : BitVec 176) (body : List Byte) (stomped : Bool) :
    ∃ (regs : Tab Word) (nak : Nat) (owed : List Nat),
      sendRaw s p kind aux replay ext body stomped = { s with
        regs := regs
        link := tabSet Link.init p { linkOf s p with
          txc := (linkOf s p).txc + 1, nakSet := false, nakUntil := nak, owed := owed } s.link
        out := s.out ++ [.frame p (wireFrame (linkOf s p) (linkHeader s p kind aux replay) ext body stomped)] } ∧
      regsBut s { s with regs := regs } [pgPrt p + 0x94] := by
  obtain ⟨hcount, hbut⟩ : onlyRegs s (if (linkOf s p).nakSet then cntAdd s (pgPrt p + 0x94) 1 else s)
      [pgPrt p + 0x94] := by
    split
    · exact cntAdd_only ..
    · exact onlyRegs_refl ..
  rw [hcount] at hbut
  simp only [sendRaw]
  rw [hcount]
  exact ⟨_, _, _, rfl, hbut⟩

/-- What a sequenced frame leaves at its port: the next SEQ, the count of frames, and its entry in the replay buffer
(R298, R300). -/
def SeqKept (s t : State) (p kind : Nat) (ext : BitVec 176) (body : List Byte) (vc : Nat) : Prop :=
  (linkOf t p).nextSeq = (linkOf s p).nextSeq + 1 ∧ (linkOf t p).txc = (linkOf s p).txc + 1 ∧
  (linkOf t p).rbuf = (linkOf s p).rbuf ++ [⟨(linkOf s p).nextSeq, BitVec.ofNat 4 kind, ext, body, entryLines kind,
    BitVec.ofNat 2 vc⟩] ∧
  ∀ q, q ≠ p → linkOf t q = linkOf s q

/-- The bytes of a sequenced frame that goes out next. -/
def seqFrame (s : State) (p kind : Nat) (ext : BitVec 176) (body : List Byte) : List Byte :=
  wireFrame (linkOf s p) (linkHeader s p kind (linkOf s p).nextSeq.toNat false) ext body false

/-- A port's link with a frame of the next SEQ in its replay buffer. -/
def linkNoted (k : Link) (kind : Nat) (ext : BitVec 176) (body : List Byte) (vc : Nat) : Link :=
  { k with
    nextSeq := k.nextSeq + 1
    rbuf := k.rbuf ++ [⟨k.nextSeq, BitVec.ofNat 4 kind, ext, body, entryLines kind, BitVec.ofNat 2 vc⟩] }

/-- The header and the seal of a frame do not rest on its own entry in the replay buffer. -/
theorem wireFrame_linkNoted (s : State) (p kind : Nat) (ext : BitVec 176) (body : List Byte) (vc : Nat) :
    wireFrame (linkNoted (linkOf s p) kind ext body vc)
      (linkHeader (setLink s p (linkNoted (linkOf s p) kind ext body vc)) p kind (linkOf s p).nextSeq.toNat false)
      ext body false = seqFrame s p kind ext body := by
  have hheader : linkHeader (setLink s p (linkNoted (linkOf s p) kind ext body vc)) p kind
      (linkOf s p).nextSeq.toNat false = linkHeader s p kind (linkOf s p).nextSeq.toNat false := by
    rw [linkHeader, linkOf_setLink_self]
    rfl
  rw [hheader]
  rfl

theorem ite_regPut_only (s : State) (c : Prop) [Decidable c] (k lo w v : Nat) :
    onlyRegs s (if c then regPut s k lo w v else s) [k] := by
  split
  · exact regPut_only ..
  · exact onlyRegs_refl ..

/-- A sequenced frame goes out under the next SEQ, and stays in the replay buffer (R298, R300). -/
theorem sendSeq_sends (s : State) (p kind : Nat) (ext : BitVec 176) (body : List Byte) (vc : Nat) :
    let t := sendSeq s p kind ext body vc
    t = { s with regs := t.regs, link := t.link, out := s.out ++ [.frame p (seqFrame s p kind ext body)] } ∧
      regsBut s t [pgPrt p + 0x64, pgPrt p + 0x94] ∧ SeqKept s t p kind ext body vc := by
  intro t
  obtain ⟨regs, nak, owed, hsend, hsendbut⟩ := sendRaw_eq (setLink s p (linkNoted (linkOf s p) kind ext body vc)) p kind
    (linkOf s p).nextSeq.toNat false ext body false
  rw [linkOf_setLink_self, wireFrame_linkNoted] at hsend
  obtain ⟨hlevel, hlevelbut⟩ : onlyRegs (sendRaw (setLink s p (linkNoted (linkOf s p) kind ext body vc)) p kind
      (linkOf s p).nextSeq.toNat false ext body false) t [pgPrt p + 0x64] := ite_regPut_only ..
  rw [hsend] at hlevel hlevelbut
  have hlink : t.link = tabSet Link.init p { linkNoted (linkOf s p) kind ext body vc with
      txc := (linkOf s p).txc + 1, nakSet := false, nakUntil := nak, owed := owed }
      (tabSet Link.init p (linkNoted (linkOf s p) kind ext body vc) s.link) := by rw [hlevel]; rfl
  have hself : linkOf t p = { linkNoted (linkOf s p) kind ext body vc with
      txc := (linkOf s p).txc + 1, nakSet := false, nakUntil := nak, owed := owed } := by
    rw [linkOf, hlink, tabGet_tabSet_self]
  refine ⟨?_, fun k hk => ?_, ?_, ?_, ?_, fun q hq => ?_⟩
  · rw [hlevel]
    rfl
  · simp only [List.mem_cons, List.not_mem_nil, or_false, not_or] at hk
    exact (hlevelbut k (by simpa using hk.1)).trans (hsendbut k (by simpa using hk.2))
  · rw [hself]
    rfl
  · rw [hself]
  · rw [hself]
    rfl
  · rw [linkOf, hlink, tabGet_tabSet_of_ne _ _ _ hq, tabGet_tabSet_of_ne _ _ _ hq, linkOf]

/-! ## A unit carries a packet (R256, R290) -/

theorem unitRoom_congr {s t : State} (hused : t.edge.used = s.edge.used) (htime : t.time = s.time) (p : Nat) (u : PortUnit) :
    unitRoom t p u = unitRoom s p u := by
  have hlen : frameLen t = frameLen s := by rw [frameLen, htime, frameLen]
  have hdata : dataSlots t = dataSlots s := by rw [dataSlots, hlen, dataSlots]
  have hloose : looseSlots t = looseSlots s := by rw [looseSlots, hlen, looseSlots]
  have hsize : unitSize t u = unitSize s u := by
    cases u
    · rw [unitSize, hdata, unitSize]
    · rw [unitSize, hloose, unitSize]
    · rw [unitSize, linkBytes, slotBytes, hlen, hdata, hloose, unitSize, linkBytes, slotBytes]
  rw [unitRoom, hsize, unitUsed, hused, unitRoom, unitUsed]

/-- The fill that follows `n` bytes in a unit. -/
def fillAfter (s : State) (p : Nat) (u : PortUnit) (n : Nat) : List Out :=
  let left := unitRoom s p u - n
  if left = 0 ∨ 64 ≤ left then [] else [.fill p left]

/-- A unit notes what it has carried, and fills a rest below 64 bytes. -/
theorem carry_fills (s : State) (p : Nat) (u : PortUnit) (n : Nat) : ∃ used, carry s p u n =
    { s with edge.used := used, out := s.out ++ fillAfter s p u n } := by
  by_cases h : unitRoom s p u - n = 0 ∨ 64 ≤ unitRoom s p u - n
  · simp only [carry, fillAfter, h, if_true, decide_eq_true_eq, Bool.or_eq_true, List.append_nil]
    exact ⟨_, rfl⟩
  · simp only [carry, fillAfter, h, if_false, decide_eq_true_eq, Bool.or_eq_true]
    exact ⟨_, rfl⟩

/-- What a packet puts on the wire in a unit: its frame, and the fill after it. -/
def packetOut (s : State) (p : Nat) (u : PortUnit) (y : Leashed) : List Out :=
  .frame p (seqFrame s p (lKind y) (BitVec.ofNat 176 y.hdr.toNat) (lBody y)) ::
    fillAfter s p u (packetBytes (lShort y.hdr))

/-- What a packet leaves at its port. -/
def PacketKept (s t : State) (p : Nat) (y : Leashed) : Prop :=
  SeqKept s t p (lKind y) (BitVec.ofNat 176 y.hdr.toNat) (lBody y) 0

/-- A packet leaves in a unit. -/
theorem sendIn_sends (s : State) (p : Nat) (u : PortUnit) (y : Leashed) :
    let t := sendIn s p u y
    t = { s with
      regs := t.regs
      link := t.link
      out := s.out ++ packetOut s p u y
      edge.used := t.edge.used } ∧
    regsBut s t [pgPrt p + 0x64, pgPrt p + 0x94] ∧ PacketKept s t p y := by
  intro t
  obtain ⟨hsend, hbut, hkept⟩ := sendSeq_sends s p (lKind y) (BitVec.ofNat 176 y.hdr.toNat) (lBody y) 0
  obtain ⟨used, ht⟩ : ∃ used, t = _ := carry_fills (sendSeq s p (lKind y) (BitVec.ofNat 176 y.hdr.toNat) (lBody y) 0)
    p u (packetBytes (lShort y.hdr))
  generalize sendSeq s p (lKind y) (BitVec.ofNat 176 y.hdr.toNat) (lBody y) 0 = r at *
  obtain ⟨regs, link, rfl⟩ : ∃ regs link, r = { s with
      regs := regs
      link := link
      out := s.out ++ [.frame p (seqFrame s p (lKind y) (BitVec.ofNat 176 y.hdr.toNat) (lBody y))] } := ⟨_, _, hsend⟩
  clear_value t
  subst ht
  refine ⟨?_, hbut, hkept⟩
  simp only [List.append_assoc]
  rfl

/-! ## The packet of a slot entry (R257, R271) -/

theorem lShort_leashedHdr (dst src rid due route f : Nat) (short : Bool) :
    lShort (leashedHdr dst src rid due route f (b2n short)) = short := by
  have hlow : dst % 2 ^ 24 + (src % 2 ^ 24) <<< 24 + (rid % 2 ^ 16) <<< 48 + (due % 2 ^ 32) <<< 64 +
      (route % 2 ^ 16) <<< 96 + (f % 256) <<< 112 < 2 ^ 120 := by
    simp only [Nat.shiftLeft_eq]
    omega
  rw [lShort, leashedHdr, BitVec.getLsbD_ofNat, Nat.shiftLeft_eq (b2n short), Nat.mul_comm, Nat.add_comm,
    Nat.testBit_two_pow_mul_add _ hlow]
  cases short <;> rfl

theorem lDst_leashedHdr (src rid due route f flags : Nat) {dst : Nat} (h : dst < 2 ^ 24) :
    lDst (leashedHdr dst src rid due route f flags) = dst := by
  simp only [lDst, byteFld, bitsOf, leashedHdr, BitVec.toNat_ofNat, Nat.shiftLeft_eq]
  omega

theorem lShort_originate (s : State) (e c : Nat) (x : SlotEntry) (f : BitVec 64) :
    lShort (originate s e c x f).hdr = x.short := lShort_leashedHdr ..

theorem lDst_originate (s : State) (e c : Nat) (x : SlotEntry) (f : BitVec 64) :
    lDst (originate s e c x f).hdr = x.dst.toNat := lDst_leashedHdr _ _ _ _ _ _ x.dst.isLt

theorem short_of_slotEntry {b : PortBent} {short : Bool} {slot : BitVec 11} {x : SlotEntry}
    (h : slotEntry b short slot = some x) : x.short = short := by
  have hx := List.find?_some h
  simp only [Bool.and_eq_true, decide_eq_true_eq] at hx
  exact hx.1

/-! ## Late packets (R261) -/

theorem length_insRank {α : Type} (r : α → Nat) (x : α) (l : List α) : (insRank r x l).length = l.length + 1 := by
  induction l with
  | nil => rfl
  | cons y l ih =>
    rw [insRank]
    split
    · rfl
    · rw [List.length_cons, ih, List.length_cons]

theorem mem_insRank {α : Type} (r : α → Nat) (x : α) (l : List α) : x ∈ insRank r x l := by
  induction l with
  | nil => exact List.mem_singleton.2 rfl
  | cons y l ih =>
    rw [insRank]
    split
    · exact List.mem_cons_self
    · exact List.mem_cons_of_mem y ih

/-- A packet joins the late queue of its port while that has room. -/
theorem lateAdd_joins (s : State) (p c : Nat) (x : Leashed) (h : (tabGet [] p s.edge.late).length < 256) :
    let t := lateAdd s p c x
    t = { s with regs := t.regs, edge.late := t.edge.late } ∧ regsBut s t [pgSlt (p / 16) + 0x50] ∧
      x ∈ tabGet [] p t.edge.late ∧
      (tabGet [] p t.edge.late).length = (tabGet [] p s.edge.late).length + 1 := by
  intro t
  let rank := fun y : Leashed => (lDue y.hdr - lDue x.hdr + 0x80000000).toNat
  obtain ⟨hcount, hbut⟩ : onlyRegs
      { s with edge.late := tabSet [] p (insRank rank x (tabGet [] p s.edge.late)) s.edge.late } t
      [pgSlt (p / 16) + 0x50] := by
    simp only [t, lateAdd, Nat.not_le.2 h, if_false]
    exact cntMax_only ..
  have hlate : tabGet [] p t.edge.late = insRank rank x (tabGet [] p s.edge.late) := by
    rw [hcount]
    exact tabGet_tabSet_self ..
  rw [hlate]
  refine ⟨?_, hbut, mem_insRank .., length_insRank ..⟩
  rw [hcount]

/-! ## A send in its unit (R271) -/

/-- A buffer that no TAKE of the frame writes waits for no line. -/
theorem takenLines_eq_nil {s : State} {ts : TableSet} {e c : Nat} {x : SlotEntry}
    (h : ∀ i < packetLines x.short, takeWrites s ts e c (x.stage.toNat + i) = false) (t deadline late : Nat) :
    (if deadline < late then (List.range (packetLines x.short)).filterMap fun i =>
        if takeWrites s ts e c (x.stage.toNat + i) then some (landAddr (stageAddr s e c) (x.stage.toNat + i)) else none
      else missingLines s ts e c x t) = [] := by
  split
  · exact List.filterMap_eq_nil_iff.2 fun i hi => by simp [h i (List.mem_range.1 hi)]
  · exact List.filterMap_eq_nil_iff.2 fun i hi => by simp [h i (List.mem_range.1 hi)]

/-- The state in which a unit's own packet has been handled, in cycle `n`. -/
def unitHandled (s : State) (n : Nat) (key : Nat × Bool × Nat) : State :=
  { s with clu.cyc := n, edge.sent := s.edge.sent ++ [key] }

theorem slotSend_whole {s : State} {p c : Nat} {short : Bool} {slot : BitVec 11} {ts : TableSet} {b : PortBent}
    {x : SlotEntry} (hpipe : s.clu.pipe = []) (hserved : servedBent s p = some (c, ts, b))
    (hslot : slotEntry b short slot = some x) (hsent : (p, short, slot.toNat) ∉ s.edge.sent)
    (hwhole : ∀ i < packetLines short, takeWrites s ts (p / 16) c (x.stage.toNat + i) = false) :
    ∃ n, slotSend s p short slot =
      sendLeashed (unitHandled s n (p, short, slot.toNat)) p c
        (slotUnit short slot.toNat) (originate s (p / 16) c x (raising s c).frame) := by
  obtain ⟨n, hn⟩ : ∃ n, advance s (unitCycle s (p / 16) (unitStart short slot.toNat)) = { s with clu.cyc := n } :=
    ⟨_, advance_idle s _ (by simp [hpipe])⟩
  have hserved' : servedBent { s with clu.cyc := n } p = some (c, ts, b) := hserved
  have hnew : s.edge.sent.contains (p, short, slot.toNat) = false := by simpa using hsent
  rw [← short_of_slotEntry hslot] at hwhole
  have hmiss := takenLines_eq_nil (s := unitHandled s n (p, short, slot.toNat)) hwhole
  refine ⟨n, ?_⟩
  simp only [slotSend, hn, hserved', hslot, hnew, Bool.false_eq_true, if_false]
  exact if_pos (List.isEmpty_iff.2 (hmiss ..))

theorem sendLeashed_fits {s : State} {p c : Nat} {u : PortUnit} {y : Leashed} (hup : leashUp s p c = true)
    (hfits : fitsUnit s p u y = true) : sendLeashed s p c u y = sendIn s p u y := by
  simp [sendLeashed, hup, hfits]

/-- A slot entry whose buffer is whole, with SEQ space and room in its unit, leaves there (R271). -/
theorem exec_leashedSend_whole {s : State} {p : Fin 48} {c : Nat} {short : Bool} {slot : BitVec 11} {ts : TableSet}
    {b : PortBent} {x : SlotEntry} (hpipe : s.clu.pipe = []) (hserved : servedBent s p.val = some (c, ts, b))
    (hslot : slotEntry b short slot = some x) (hsent : (p.val, short, slot.toNat) ∉ s.edge.sent)
    (hup : leashUp s p.val c = true) (hseq : seqFits s p.val (if short then 2 else 1) = true)
    (hroom : packetBytes short ≤ unitRoom s p.val (slotUnit short slot.toNat))
    (hwhole : ∀ i < packetLines short, takeWrites s ts (p.val / 16) c (x.stage.toNat + i) = false) :
    let y := originate s (p.val / 16) c x (raising s c).frame
    ∃ t, exec (.leashedSend p short slot) s = .next t ∧
      t = { s with
        regs := t.regs
        link := t.link
        out := s.out ++ packetOut s p.val (slotUnit short slot.toNat) y
        clu.cyc := t.clu.cyc
        edge.sent := s.edge.sent ++ [(p.val, short, slot.toNat)]
        edge.used := t.edge.used } ∧
      PacketKept s t p.val y ∧ regsBut s t [pgPrt p.val + 0x64, pgPrt p.val + 0x94] := by
  intro y
  have hshort : lShort y.hdr = short := (lShort_originate ..).trans (short_of_slotEntry hslot)
  have hfits : fitsUnit s p.val (slotUnit short slot.toNat) y = true := by
    simp only [fitsUnit, lKind, hshort, hseq, hroom, decide_true, Bool.and_self]
  obtain ⟨n, hsend⟩ := slotSend_whole hpipe hserved hslot hsent hwhole
  have hin := sendLeashed_fits (s := unitHandled s n (p.val, short, slot.toNat)) hup hfits
  obtain ⟨ht, hbut, hkept⟩ := sendIn_sends (unitHandled s n (p.val, short, slot.toNat)) p.val
    (slotUnit short slot.toNat) y
  refine ⟨_, congrArg Host.Outcome.next (hsend.trans hin), ?_, hkept, hbut⟩
  rw [ht]
  rfl

/-! ## Deferred sends (R271) -/

/-- The first deferred send of a port that is complete joins the port's late packets. -/
theorem exec_deferredSend_late {s : State} {p : Fin 48} {d : Deferred}
    (hready : (tabGet [] p.val s.edge.deferred).find? (deferredReady s) = some d)
    (hup : leashUp s p.val d.ctx = true) (hlen : (tabGet [] p.val s.edge.late).length < 256) :
    ∃ t, exec (.deferredSend p) s = .next t ∧
      t = { s with regs := t.regs, edge.deferred := t.edge.deferred, edge.late := t.edge.late } ∧
      tabGet [] p.val t.edge.deferred = (tabGet [] p.val s.edge.deferred).erase d ∧
      originate s (p.val / 16) d.ctx d.ent d.frame ∈ tabGet [] p.val t.edge.late ∧
      (tabGet [] p.val t.edge.late).length = (tabGet [] p.val s.edge.late).length + 1 ∧
      regsBut s t [pgSlt (p.val / 16) + 0x50] := by
  obtain ⟨q, hq⟩ : ∃ q, tabSet [] p.val ((tabGet [] p.val s.edge.deferred).erase d) s.edge.deferred = q := ⟨_, rfl⟩
  have hself : tabGet [] p.val q = (tabGet [] p.val s.edge.deferred).erase d := by rw [← hq, tabGet_tabSet_self]
  have hup' : leashUp { s with edge.deferred := q } p.val d.ctx = true := hup
  have hsend : deferredSend s p.val = lateAdd { s with edge.deferred := q } p.val d.ctx
      (originate s (p.val / 16) d.ctx d.ent d.frame) := by
    simp only [deferredSend, hready, hq, hup', if_true]
    rfl
  obtain ⟨ht, hbut, hmem, hcount⟩ := lateAdd_joins { s with edge.deferred := q } p.val d.ctx
    (originate s (p.val / 16) d.ctx d.ent d.frame) hlen
  refine ⟨_, congrArg Host.Outcome.next hsend, ?_, ?_, hmem, hcount, hbut⟩
  · rw [ht]
  · rw [ht]
    exact hself

/-! ## Late packets (R261, R316) -/

/-- Storing what an entry holds changes no reading. -/
theorem tabGet_tabSet_held {α : Type} [DecidableEq α] {d v : α} {k : Nat} {t : Tab α} (h : tabGet d k t = v) (j : Nat) :
    tabGet d j (tabSet d k v t) = tabGet d j t := by
  by_cases hj : j = k
  · rw [hj, tabGet_tabSet_self, h]
  · exact tabGet_tabSet_of_ne d v t hj

theorem replayUnit_idle {s : State} {p : Nat} (h : (linkOf s p).replaying = false) (u : PortUnit) (n : Nat) :
    replayUnit p u n s = s := by
  cases n with
  | zero => rfl
  | succ n => simp [replayUnit, replayNext, h]

/-- With no command and no replay that waits, a unit for late packets is left as it is. -/
theorem sendQueued_idle {s : State} {p : Nat} {u : PortUnit} (hup : portUp s p = true)
    (hreplay : (linkOf s p).replaying = false) (hclass : unitClass s p u = .empty)
    (hq : tabGet [] p s.loose.cmdq = []) :
    sendQueued s p u = { s with loose.cmdq := tabSet [] p [] s.loose.cmdq } := by
  simp [sendQueued, hup, hclass, replayFits, replayNext, hreplay, hq, sendCmds]

theorem lateSend_first {s : State} {p : Nat} {u : PortUnit} {y : Leashed} {l : List Leashed}
    (hlate : tabGet [] p s.edge.late = y :: l) (hclass : unitClass s p u = .empty)
    (hfits : fitsUnit s p u y = true) : Machine.lateSend s p u =
      sendIn (cntAdd { s with edge.late := tabSet [] p l s.edge.late } (pgSlt (p / 16) + 0x48) 1) p u y := by
  simp [Machine.lateSend, lateFits, hlate, hclass, hfits]

/-- A count outside the port's own registers and the S0 page does not change what a packet puts on the wire. -/
theorem packetOut_of_but {s t : State} {ks : List Nat} (h : regsBut s t ks) (hsets : t.edge.sets = s.edge.sets)
    (hused : t.edge.used = s.edge.used) (hrai : t.rai = s.rai) (hlink : t.link = s.link) (htime : t.time = s.time)
    {p : Nat} (hp : pgDieS + 0x840 + 4 * p ∉ ks) (u : PortUnit) (y : Leashed) :
    packetOut t p u y = packetOut s p u y := by
  simp only [packetOut, seqFrame, linkHeader_of_but h hsets hrai hlink hp, linkOf_congr hlink, fillAfter,
    unitRoom_congr hused htime]

/-- The first late packet leaves in a unit that nothing else takes, and is counted. -/
theorem exec_latePacketSend_first {s : State} {p : Fin 48} {u : PortUnit} {y : Leashed} {l : List Leashed}
    (hlate : tabGet [] p.val s.edge.late = y :: l) (hq : tabGet [] p.val s.loose.cmdq = [])
    (hclass : unitClass s p.val u = .empty) (hfits : fitsUnit s p.val u y = true)
    (hfrozen : frozen s (pgSlt (p.val / 16)) = false) :
    ∃ t, exec (.latePacketSend ⟨p, u⟩) s = .next t ∧
      t = { s with
        regs := t.regs
        link := t.link
        out := s.out ++ packetOut s p.val u y
        edge.late := t.edge.late
        edge.used := t.edge.used
        loose.cmdq := t.loose.cmdq } ∧
      tabGet [] p.val t.edge.late = l ∧ (∀ q, tabGet [] q t.loose.cmdq = tabGet [] q s.loose.cmdq) ∧
      PacketKept s t p.val y ∧
      regGet t (pgSlt (p.val / 16) + 0x48) = regGet s (pgSlt (p.val / 16) + 0x48) + 1 ∧
      regsBut s t [pgSlt (p.val / 16) + 0x48, pgPrt p.val + 0x64, pgPrt p.val + 0x94] := by
  have he : p.val / 16 < 3 := by omega
  obtain ⟨⟨⟨hup, hreplay⟩, -⟩, -⟩ : ((portUp s p.val = true ∧ (linkOf s p.val).replaying = false) ∧
      rbufLines (linkOf s p.val) + entryLines (lKind y) ≤ 2048) ∧
      packetBytes (lShort y.hdr) ≤ unitRoom s p.val u := by
    simpa only [fitsUnit, seqFits, Bool.and_eq_true, Bool.not_eq_true', decide_eq_true_eq] using hfits
  have hqueue := tabGet_tabSet_held hq
  have hlater : tabGet [] p.val (tabSet [] p.val l s.edge.late) = l := tabGet_tabSet_self ..
  have hsend : exec (.latePacketSend ⟨p, u⟩) s = .next (sendIn (cntAdd { s with
      loose.cmdq := tabSet [] p.val [] s.loose.cmdq
      edge.late := tabSet [] p.val l s.edge.late } (pgSlt (p.val / 16) + 0x48) 1) p.val u y) := by
    show Host.Outcome.next (Machine.lateSend (sendQueued (replayUnit p.val u rbufMax s) p.val u) p.val u) = _
    rw [replayUnit_idle hreplay, sendQueued_idle hup hreplay hclass hq,
      lateSend_first (s := { s with loose.cmdq := tabSet [] p.val [] s.loose.cmdq }) hlate hclass hfits]
  generalize tabSet [] p.val [] s.loose.cmdq = q at *
  generalize tabSet [] p.val l s.edge.late = r at *
  have hcount := cntAdd_counts { s with loose.cmdq := q, edge.late := r } (pgSlt (p.val / 16) + 0x48) 1
    (by rw [pageOfKey_pgSlt he (by decide)]; exact hfrozen)
  obtain ⟨hadd, haddbut⟩ := cntAdd_only { s with loose.cmdq := q, edge.late := r } (pgSlt (p.val / 16) + 0x48) 1
  obtain ⟨ht, hbut, hkept⟩ := sendIn_sends
    (cntAdd { s with loose.cmdq := q, edge.late := r } (pgSlt (p.val / 16) + 0x48) 1) p.val u y
  generalize cntAdd { s with loose.cmdq := q, edge.late := r } (pgSlt (p.val / 16) + 0x48) 1 = v at *
  obtain ⟨regs, rfl⟩ : ∃ regs, v = { s with regs := regs, loose.cmdq := q, edge.late := r } := ⟨_, hadd⟩
  rw [packetOut_of_but (s := s) (ks := [pgSlt (p.val / 16) + 0x48]) haddbut rfl rfl rfl rfl rfl
    (by simp only [List.mem_singleton, pgDieS, pgSlt, pageBase]; omega)] at ht
  refine ⟨_, hsend, ?_, ?_, ?_, hkept, ?_, ?_⟩
  · rw [ht]
  · rw [ht]
    exact hlater
  · rw [ht]
    exact hqueue
  · refine (hbut _ ?_).trans hcount
    simp only [List.mem_cons, List.not_mem_nil, or_false, pgPrt, pgSlt, pageBase]
    omega
  · intro k hk
    rw [List.mem_cons, not_or] at hk
    exact (hbut k hk.2).trans (haddbut k (by simpa using hk.1))

/-- Settles O30: a whole packet leaves in its unit under the next SEQ; a deferred send that is complete becomes late; the
first late packet leaves in an empty unit. -/
theorem leashedPacketsAreSent : Obligations.LeashedPacketsAreSent := by
  unfold Obligations.LeashedPacketsAreSent
  intro s p e k sent kept
  refine ⟨fun short slot c ts b x hpipe _ hserved hslot hsent hup hseq hroom hwhole => ?unit,
    fun d hready hup hlen => exec_deferredSend_late hready hup hlen,
    fun u y l hlate hq hclass hfits hfrozen => exec_latePacketSend_first hlate hq hclass hfits hfrozen⟩
  case unit =>
    obtain ⟨t, hexec, ht, hkept, hbut⟩ := exec_leashedSend_whole hpipe hserved hslot hsent hup hseq hroom hwhole
    exact ⟨t, hexec, ht, (lShort_originate ..).trans (short_of_slotEntry hslot), lDst_originate .., hkept, hbut⟩

end Sys2Proof.Proofs

end

section

/-! PROOF. Landings and combine steps: what an accepted leashed frame writes and counts, and what a combine step adds (R263,
R273 to R276, R290, R298). -/

namespace Sys2Proof.Proofs
open Sys2Proof Sys2Proof.Machine Sys2Proof.Safety Sys2Proof.Laws

/-! ## What a frame that passes its check tells its port -/

/-- The state once a port has counted a frame and noted what its headers say: registers, links and frame reports. -/
def frameNoted (s : State) (regs : Tab Word) (link : Tab Link) (partner : Tab (BitVec 64)) : State :=
  { s with regs := regs, link := link, edge.partner := partner }

theorem frameNoted_again (s : State) (regs : Tab Word) (link : Tab Link) (partner partner' : Tab (BitVec 64)) :
    frameNoted (frameNoted s regs link partner) (frameNoted s regs link partner).regs
      (frameNoted s regs link partner).link partner' = frameNoted s regs link partner' := rfl

theorem forwardEntry_frameNoted (s : State) (regs : Tab Word) (link : Tab Link) (partner : Tab (BitVec 64))
    (ts : TableSet) (p c route : Nat) :
    forwardEntry (frameNoted s regs link partner) ts p c route = forwardEntry s ts p c route := rfl

theorem srcReports_eq (s : State) (c : Nat) (x : Leashed) :
    ∃ partner, srcReports s c x = frameNoted s s.regs s.link partner := by
  unfold srcReports
  refine List.foldlRecOn (motive := fun t => ∃ partner, t = frameNoted s s.regs s.link partner) _ _ ⟨_, rfl⟩ ?_
  rintro t ⟨partner, rfl⟩ p -
  exact iteInduction (motive := fun t => ∃ partner, t = frameNoted s s.regs s.link partner)
    (fun _ => ⟨_, rfl⟩) (fun _ => ⟨_, rfl⟩)

/-- A port's link once a frame has passed: a replay has come, and the keys follow its phase. -/
def linkHeard (k : Link) (v : RxView) : Link :=
  let k := if rReplay v then { k with nakUntil := 0 } else k
  if rPhase v = k.keyPhase.toNat then { k with keys := tabSet none (2 * ((rPhase v + 1) % 2) + 1) none k.keys } else k

theorem linkHeard_eq (k : Link) (v : RxView) :
    ∃ nak keys, linkHeard k v = { k with nakUntil := nak, keys := keys } := by
  obtain ⟨nak, hnak⟩ : ∃ nak, (if rReplay v then { k with nakUntil := 0 } else k) = { k with nakUntil := nak } := by
    split
    · exact ⟨_, rfl⟩
    · exact ⟨_, rfl⟩
  simp only [linkHeard, hnak]
  split
  · exact ⟨_, _, rfl⟩
  · exact ⟨_, _, rfl⟩

theorem notePassed_eq (s : State) (p : Nat) (v : RxView) : ∃ partner,
    notePassed s p v = frameNoted s s.regs (tabSet Link.init p (linkHeard (linkOf s p) v) s.link) partner := by
  have hlink : notePassed s p v =
      match rFrameValid v, portCtx (setLink s p (linkHeard (linkOf s p) v)) p with
      | true, some c => noteReport (setLink s p (linkHeard (linkOf s p) v)) p c (rFrame v)
      | _, _ => setLink s p (linkHeard (linkOf s p) v) := rfl
  rw [hlink]
  split
  · exact ⟨_, rfl⟩
  · exact ⟨_, rfl⟩

/-! ## A frame in sequence (R298) -/

/-- The leashed packet of a frame. -/
def rxPacket (v : RxView) : Leashed :=
  { hdr := v.ext.setWidth 160, payload := BitVec.ofNat 8192 (bytesNat v.plain) }

/-- The next SEQ is expected once a frame is passed on. -/
def seqAccepted (s t : State) (p : Nat) : State :=
  setLink t p { linkOf t p with expect := (linkOf s p).expect + 1 }

/-- A port that is UP finds a leashed frame that passes its check, with the SEQ that it expects. -/
structure InSequence (s : State) (p : Nat) (f : RxFrame) (v : RxView) : Prop where
  up : (linkOf s p).state = .up
  found : ∃ bytes, rxFind (linkOf s p) f.bytes = some bytes ∧ rxRead (linkOf s p) f bytes = v
  passes : framePasses v = true
  kind : rKind v = 1 ∨ rKind v = 2
  seq : rSeq v = (linkOf s p).expect

/-- Such a frame is passed on, and the next SEQ is expected. -/
theorem exec_seqFrameRx_accepts {s : State} {p : Fin 48} {f : RxFrame} {v : RxView} (h : InSequence s p.val f v) :
    ∃ regs link partner, regsBut s { s with regs := regs } [pgPrt p.val + 0x80, pgPrt p.val + 0x84] ∧
      exec (.seqFrameRx p f) s = .next (seqAccepted s (leashedRx (frameNoted s regs link partner) p.val (rxPacket v)
        f.start (rReplay v) true) p.val) := by
  obtain ⟨hstate, ⟨bytes, hfind, hv⟩, hpass, hkind, hseq⟩ := h
  obtain ⟨hcount, hbut⟩ : onlyRegs s (cntAdd (cntAdd s (pgPrt p.val + 0x80) f.corr) (pgPrt p.val + 0x84)
      (f.uncorr + f.markers)) [pgPrt p.val + 0x80, pgPrt p.val + 0x84] :=
    onlyRegs_trans (cntAdd_only ..) (cntAdd_only ..)
  have hexec : exec (.seqFrameRx p f) s = .next (viewRx (cntAdd (cntAdd s (pgPrt p.val + 0x80) f.corr)
      (pgPrt p.val + 0x84) (f.uncorr + f.markers)) p.val f.start v) := by
    show Host.Outcome.next (frameRx s p.val f) = _
    simp [frameRx, hstate, hfind, hv]
  generalize cntAdd (cntAdd s (pgPrt p.val + 0x80) f.corr) (pgPrt p.val + 0x84) (f.uncorr + f.markers) = r at *
  obtain ⟨regs, rfl⟩ : ∃ regs, r = { s with regs := regs } := ⟨_, hcount⟩
  obtain ⟨partner, hnote⟩ := notePassed_eq { s with regs := regs } p.val v
  have hlink : linkOf (notePassed { s with regs := regs } p.val v) p.val = linkHeard (linkOf s p.val) v := by
    rw [hnote]
    exact tabGet_tabSet_self ..
  obtain ⟨nak, keys, hheard⟩ := linkHeard_eq (linkOf s p.val) v
  have hup : (linkOf (notePassed { s with regs := regs } p.val v) p.val).state = .up := by rw [hlink, hheard, ← hstate]
  have hexpect : (linkOf (notePassed { s with regs := regs } p.val v) p.val).expect = (linkOf s p.val).expect := by
    rw [hlink, hheard]
  have hnotloose : rKind v ≠ 3 := by omega
  have hview : viewRx { s with regs := regs } p.val f.start v =
      seqRx (notePassed { s with regs := regs } p.val v) p.val f.start v := by
    rcases hkind with h | h <;> simp [viewRx, hpass, hup, h]
  have hrx : seqRx (notePassed { s with regs := regs } p.val v) p.val f.start v = seqAccepted s
      (leashedRx (notePassed { s with regs := regs } p.val v) p.val (rxPacket v) f.start (rReplay v) true) p.val := by
    simp only [seqRx, hexpect, hseq, hpass, passOn, hnotloose, if_true, if_false]
    rfl
  refine ⟨regs, tabSet Link.init p.val (linkHeard (linkOf s p.val) v) s.link, partner, hbut, ?_⟩
  rw [hexec, hview, hrx, hnote]
  rfl

/-! ## What the state of a noted frame shows of its packet -/

theorem findSome?_congr_mem {α β : Type} {f g : α → Option β} {l : List α} (h : ∀ x ∈ l, f x = g x) :
    l.findSome? f = l.findSome? g := by
  induction l with
  | nil => rfl
  | cons x l ih =>
    rw [List.findSome?_cons, List.findSome?_cons, h x List.mem_cons_self, ih fun y hy => h y (List.mem_cons_of_mem x hy)]

section
variable {s : State} {regs : Tab Word} {p : Nat}
  (hbut : regsBut s { s with regs := regs } [pgPrt p + 0x80, pgPrt p + 0x84]) (link : Tab Link)
  (partner : Tab (BitVec 64))
include hbut

theorem regGet_frameNoted {k : Nat} (hk : k ≠ pgPrt p + 0x80 ∧ k ≠ pgPrt p + 0x84) :
    regGet (frameNoted s regs link partner) k = regGet s k := hbut k (by simpa using hk)

/-- The areas of a context are named on the landing page. -/
theorem ringAddr_frameNoted (e c d : Nat) : ringAddr (frameNoted s regs link partner) e c d = ringAddr s e c d := by
  rw [ringAddr, regGet_frameNoted hbut link partner (by simp only [bankKey, pgLnd, pgPrt, pageBase]; omega), ringAddr]

theorem stageAddr_frameNoted (e c : Nat) : stageAddr (frameNoted s regs link partner) e c = stageAddr s e c := by
  rw [stageAddr, regGet_frameNoted hbut link partner (by simp only [bankKey, pgLnd, pgPrt, pageBase]; omega), stageAddr]

theorem setForRaise_frameNoted (q rid : Nat) :
    setForRaise (frameNoted s regs link partner) q rid = setForRaise s q rid := by
  have hrid : ∀ k ∈ List.range 4, regField (frameNoted s regs link partner) (pgSlt (q / 16) + 0x100 + 0x10 * k) 16 16 =
      regField s (pgSlt (q / 16) + 0x100 + 0x10 * k) 16 16 := fun k hk => by
    have := List.mem_range.1 hk
    exact congrArg (wfield · 16 16) (regGet_frameNoted hbut link partner (by simp only [pgSlt, pgPrt, pageBase]; omega))
  unfold setForRaise
  refine findSome?_congr_mem fun k hk => ?_
  dsimp only
  rw [hrid k hk]
  rfl

theorem bentAhead_frameNoted (ts : TableSet) (e c q k : Nat) :
    bentAhead (frameNoted s regs link partner) ts e c q k = bentAhead s ts e c q k := by
  have hread : bucketLineVal (frameNoted s regs link partner) ts e c = bucketLineVal s ts e c := by
    rw [bucketLineVal, stageAddr_frameNoted hbut]
    rfl
  rw [bentAhead, hread]
  rfl

theorem expectOf_frameNoted (ts : TableSet) (e c d n : Nat) :
    expectOf (frameNoted s regs link partner) ts e c d n = expectOf s ts e c d n := by
  have hknown : bucketKnown (frameNoted s regs link partner) ts e c = bucketKnown s ts e c := by
    rw [bucketKnown, stageAddr_frameNoted hbut]
    rfl
  simp only [expectOf, hknown, bentAhead_frameNoted hbut]
  rfl

end

/-! ## Landing (R263, R273, R275) -/

/-- A payload is written at its ring entry, and counted as lines. -/
theorem landAt_eq (s : State) (p c : Nat) (x : Leashed) (line : Nat) : ∃ now landed, landAt s p c x line = { s with
    nrg.now := now
    edge.landing := memWrite s.edge.landing (landAddr (ringAddr s (p / 16) c (lDue x.hdr).toNat) line)
      (64 * packetLines (lShort x.hdr)) x.payload.toNat
    edge.landed := landed } := by
  have hcount : countEv s (pgLnd (p / 16)) (some (ctx s c).part) .line (packetLines (lShort x.hdr)) = _ :=
    countEv_sameButEvents ..
  rw [landAt, hcount]
  exact ⟨_, _, rfl⟩

/-- A gate counter gains 1. -/
theorem countLanding_eq (s : State) (e c d n : Nat) (pegEn : Bool) (peg : BitVec 14) : ∃ pegs,
    countLanding s e c d n pegEn peg = { s with
      edge.gc := tabSet 0 (gcKey e c d n) (gcOf s e c d n + 1) s.edge.gc
      edge.pegWait := pegs } := by
  cases pegEn
  · exact ⟨_, rfl⟩
  · exact ⟨_, rfl⟩

/-- The frame whose ring entry a packet is for. -/
def landFrame (s : State) (c : Nat) (x : Leashed) : Nat := (raising s c).frame.toNat + dueAhead s c (lDue x.hdr)

/-- The address of the ring entry's line that a forward entry names. -/
def landPlace (s : State) (p c w : Nat) (x : Leashed) : Nat :=
  landAddr (ringAddr s (p / 16) c (lDue x.hdr).toNat) (bitsOf w 3 19)

/-- A packet of context `c` at port `p` that lands by forward entry `w`: no duplicate, within its window, and not above
its gate's expectation, where that is known (log 104). -/
structure Lands (s : State) (ts : TableSet) (p c w : Nat) (x : Leashed) : Prop where
  served : setForRaise s p (lRaise x.hdr) = some (ts, c)
  good : lReserved x.hdr = false
  direct : lDiverted x.hdr = false
  entry : forwardEntry s ts p c (lRoute x.hdr) = w
  action : bitsOf w 0 3 = 2
  single : tabGet false (edgeKey (p / 16) c) s.edge.dupWin = false
  ahead : 1 ≤ dueAhead s c (lDue x.hdr)
  within : dueAhead s c (lDue x.hdr) ≤ 3
  expected : ∀ m, expectOf s ts (p / 16) c (landFrame s c x) (bitsOf w 22 4) = some m →
    (gcOf s (p / 16) c (landFrame s c x) (bitsOf w 22 4)).toNat + 1 ≤ m

section
variable {s : State} {regs : Tab Word} {p c w : Nat} {x : Leashed} {ts : TableSet} (h : Lands s ts p c w x)
  (hbut : regsBut s { s with regs := regs } [pgPrt p + 0x80, pgPrt p + 0x84]) (link : Tab Link)
  (partner : Tab (BitVec 64))
include h hbut

/-- It goes to its landing. -/
theorem leashedRx_landing (start : Nat) (replay : Bool) :
    ∃ partner', leashedRx (frameNoted s regs link partner) p x start replay true =
      landPacket (frameNoted s regs link partner') ts p c x w := by
  obtain ⟨hset, hreserved, hdiverted, hentry, haction, -⟩ := h
  obtain ⟨partner', hreport⟩ := srcReports_eq (frameNoted s regs link partner) c x
  refine ⟨partner', ?_⟩
  subst hentry
  simp only [leashedRx, hreserved, setForRaise_frameNoted hbut, hset, hdiverted, Bool.and_false, Bool.false_eq_true,
    if_false, if_true, hreport, frameNoted_again, forwardEntry_frameNoted, haction]

/-- No test refuses it. -/
theorem landCase_lands : landCase (frameNoted s regs link partner) ts p c x (bitsOf w 3 19) (bitsOf w 22 4) =
    .lands (landFrame s c x) := by
  have hnew : dupDiscard (frameNoted s regs link partner) p c x (bitsOf w 3 19) = false :=
    Bool.and_eq_false_iff.2 (.inl h.single)
  have hwindow : (decide (dueAhead s c (lDue x.hdr) = 0) || decide (3 < dueAhead s c (lDue x.hdr))) = false := by
    have hahead := h.ahead
    have hwithin := h.within
    simp only [Bool.or_eq_false_iff, decide_eq_false_iff_not]
    omega
  have hahead : dueAhead (frameNoted s regs link partner) c (lDue x.hdr) = dueAhead s c (lDue x.hdr) := rfl
  simp only [landCase, hnew, hahead, hwindow, expectOf_frameNoted hbut, Bool.false_eq_true, if_false]
  change (match expectOf s ts (p / 16) c (landFrame s c x) (bitsOf w 22 4) with | some _ => _ | none => _) = _
  cases hm : expectOf s ts (p / 16) c (landFrame s c x) (bitsOf w 22 4) with
  | none => rfl
  | some m => exact if_neg (Nat.not_lt.2 (h.expected m hm))

/-- Its payload is written and its gate counts. -/
theorem landPacket_writes : ∃ now landed pegs, landPacket (frameNoted s regs link partner) ts p c x w =
    { frameNoted s regs link partner with
      nrg.now := now
      edge.landing := memWrite s.edge.landing (landPlace s p c w x) (64 * packetLines (lShort x.hdr)) x.payload.toNat
      edge.landed := landed
      edge.gc := tabSet 0 (gcKey (p / 16) c (landFrame s c x) (bitsOf w 22 4))
        (gcOf s (p / 16) c (landFrame s c x) (bitsOf w 22 4) + 1) s.edge.gc
      edge.pegWait := pegs } := by
  obtain ⟨now, landed, hwrite⟩ := landAt_eq (frameNoted s regs link partner) p c x (bitsOf w 3 19)
  obtain ⟨pegs, hgate⟩ := countLanding_eq (landAt (frameNoted s regs link partner) p c x (bitsOf w 3 19)) (p / 16) c
    (landFrame s c x) (bitsOf w 22 4) (bitOf w 26) (BitVec.ofNat 14 (bitsOf w 27 14))
  rw [ringAddr_frameNoted hbut] at hwrite
  refine ⟨now, landed, pegs, ?_⟩
  simp only [landPacket, landCase_lands h hbut]
  rw [hgate, hwrite]
  rfl

end

/-- What an accepted landing leaves: its payload at its ring address, a count at its gate, and the next SEQ. -/
theorem exec_seqFrameRx_lands {s : State} {p : Fin 48} {f : RxFrame} {v : RxView} {ts : TableSet} {c w : Nat}
    (hseq : InSequence s p.val f v) (h : Lands s ts p.val c w (rxPacket v)) :
    let x := rxPacket v
    let a := landPlace s p.val c w x
    let m := 64 * packetLines (lShort x.hdr)
    let d := landFrame s c x
    let n := bitsOf w 22 4
    ∃ t, exec (.seqFrameRx p f) s = .next t ∧ memNat t.edge.landing a m = x.payload.toNat % 2 ^ (8 * m) ∧
      (∀ y, y < a ∨ a + m ≤ y → memByte t.edge.landing y = memByte s.edge.landing y) ∧
      gcOf t (p.val / 16) c d n = gcOf s (p.val / 16) c d n + 1 ∧
      (linkOf t p.val).expect = (linkOf s p.val).expect + 1 ∧
      regsBut s t [pgPrt p.val + 0x80, pgPrt p.val + 0x84] ∧ t.out = s.out ∧ t.clu = s.clu ∧
      t.edge.sets = s.edge.sets := by
  intro x a m d n
  obtain ⟨regs, link, partner, hbut, hexec⟩ := exec_seqFrameRx_accepts hseq
  obtain ⟨partner', hland⟩ := leashedRx_landing h hbut link partner f.start (rReplay v)
  obtain ⟨now, landed, pegs, hwrite⟩ := landPacket_writes h hbut link partner'
  rw [hland, hwrite] at hexec
  exact ⟨_, hexec, memNat_memWrite_self .., fun y hy => memByte_memWrite_outside _ _ _ _ _ hy, tabGet_tabSet_self ..,
    congrArg Link.expect (linkOf_setLink_self ..), hbut, rfl, rfl, rfl⟩

/-! ## Frames of no running raising (R263) -/

/-- A packet whose raising no running set serves is a stray. -/
theorem leashedRx_unserved {s : State} {p : Nat} {x : Leashed} (h : setForRaise s p (lRaise x.hdr) = none)
    (start : Nat) (replay : Bool) : leashedRx s p x start replay true = stray s p := by
  cases hreserved : lReserved x.hdr <;> simp [leashedRx, hreserved, h]

/-- It is only counted, and the next SEQ is expected. -/
theorem exec_seqFrameRx_unserved {s : State} {p : Fin 48} {f : RxFrame} {v : RxView} (hseq : InSequence s p.val f v)
    (hset : setForRaise s p.val (lRaise (rxPacket v).hdr) = none) (hfrozen : frozen s (pgSlt (p.val / 16)) = false) :
    ∃ t, exec (.seqFrameRx p f) s = .next t ∧ (linkOf t p.val).expect = (linkOf s p.val).expect + 1 ∧
      regGet t (pgSlt (p.val / 16) + 0x44) = regGet s (pgSlt (p.val / 16) + 0x44) + 1 ∧
      regsBut s t [pgSlt (p.val / 16) + 0x44, pgPrt p.val + 0x80, pgPrt p.val + 0x84] ∧
      t.edge.landing = s.edge.landing ∧ t.edge.gc = s.edge.gc := by
  have he : p.val / 16 < 3 := by omega
  obtain ⟨regs, link, partner, hbut, hexec⟩ := exec_seqFrameRx_accepts hseq
  have hother : ∀ o < 0x1000, regGet (frameNoted s regs link partner) (pgSlt (p.val / 16) + o) =
      regGet s (pgSlt (p.val / 16) + o) := fun o ho =>
    regGet_frameNoted hbut link partner (by simp only [pgSlt, pgPrt, pageBase]; omega)
  have hfrozen' : frozen (frameNoted s regs link partner) (pageOfKey (pgSlt (p.val / 16) + 0x44)) = false := by
    rw [pageOfKey_pgSlt he (by decide), frozen, regBit, hother 8 (by decide)]
    exact hfrozen
  have hcount := cntAdd_counts _ _ 1 hfrozen'
  obtain ⟨hadd, haddbut⟩ := cntAdd_only (frameNoted s regs link partner) (pgSlt (p.val / 16) + 0x44) 1
  rw [leashedRx_unserved ((setForRaise_frameNoted hbut ..).trans hset), stray] at hexec
  generalize cntAdd (frameNoted s regs link partner) (pgSlt (p.val / 16) + 0x44) 1 = r at *
  refine ⟨_, hexec, congrArg Link.expect (linkOf_setLink_self ..), hcount.trans ?_, fun k hk => ?_, ?_, ?_⟩
  · rw [hother _ (by decide)]
    rfl
  · rw [List.mem_cons, not_or] at hk
    exact (haddbut k (by simpa using hk.1)).trans (hbut k hk.2)
  · rw [hadd]
    rfl
  · rw [hadd]
    rfl

/-! ## Combine steps (R276) -/

/-- What a combine step puts in its target: the first one of a group without a seed its hold, any other the sum. -/
def combinedValue (s : State) (ring : Nat) (g : Group) (w : Nat × Nat) : Nat :=
  let m := 64 * packetLines g.short
  let hold := memNat s.edge.landing (landAddr ring w.2) m
  if w.1 = 1 ∧ g.seed = false then hold
  else combineBytes g.fmt.toNat m (memNat s.edge.landing (landAddr ring g.target.toNat) m) hold

/-- The state in which a step's target is written and the step has ended. -/
def stepEnded (s : State) (key ring : Nat) (g : Group) (w : Nat × Nat) (st : CombSt) (now : List EventCount) : State :=
  { s with
    nrg.now := now
    edge.landing := memWrite s.edge.landing (landAddr ring g.target.toNat) (64 * packetLines g.short)
      (combinedValue s ring g w)
    edge.comb := tabSet { waiting := [], ended := 0 } key { waiting := st.waiting.erase w, ended := w.1 } s.edge.comb }

theorem combineStep_ends {s : State} {e c gi due : Nat} {ts : TableSet} {g : Group} {w : Nat × Nat} {st : CombSt}
    (hst : tabGet { waiting := [], ended := 0 } (combKey e c due gi) s.edge.comb = st)
    (hset : ctxSet s e c = some ts) (hgroup : ts.groups[gi]? = some g) (hready : stepReady s c g due st = true)
    (hnext : (st.waiting.find? fun x => x.1 = st.ended + 1) = some w) : ∃ now,
    let t := cntAdd (stepEnded s (combKey e c due gi) (ringAddr s e c due) g w st now) (bankKey (pgLnd e + 0x50) c) 1
    combineStep s e c gi due =
      if w.1 = g.steps.toNat then countLanding t e c due g.counter.toNat g.pegEn g.peg else t := by
  have hcount : countEv s (pgLnd e) (some (ctx s c).part) .line (packetLines g.short) = _ := countEv_sameButEvents ..
  have hvalue : (if (decide (w.1 = 1) && !g.seed) = true then
        memNat s.edge.landing (landAddr (ringAddr s e c due) w.2) (64 * packetLines g.short)
      else combineBytes g.fmt.toNat (64 * packetLines g.short)
        (memNat s.edge.landing (landAddr (ringAddr s e c due) g.target.toNat) (64 * packetLines g.short))
        (memNat s.edge.landing (landAddr (ringAddr s e c due) w.2) (64 * packetLines g.short))) =
      combinedValue s (ringAddr s e c due) g w := by
    simp [combinedValue]
  refine ⟨(countEv s (pgLnd e) (some (ctx s c).part) .line (packetLines g.short)).nrg.now, ?_⟩
  simp only [combineStep, hset, hgroup, hst, hready, hnext, Bool.not_true, Bool.false_eq_true, if_false, hvalue]
  rw [hcount]
  rfl

/-- A ready step writes its target and ends; the last one of its group counts at the gate. -/
theorem exec_combineStep {s : State} {e : Fin 3} {c : Fin 256} {i : BitVec 11} {due : BitVec 32} {ts : TableSet}
    {g : Group} {w : Nat × Nat} {st : CombSt}
    (hst : tabGet { waiting := [], ended := 0 } (combKey e.val c.val due.toNat i.toNat) s.edge.comb = st)
    (hset : ctxSet s e.val c.val = some ts) (hgroup : ts.groups[i.toNat]? = some g)
    (hready : stepReady s c.val g due.toNat st = true)
    (hnext : (st.waiting.find? fun x => x.1 = st.ended + 1) = some w) :
    let m := 64 * packetLines g.short
    let ring := ringAddr s e.val c.val due.toNat
    let a := landAddr ring g.target.toNat
    ∃ t, exec (.combineStep e c i due) s = .next t ∧
      memNat t.edge.landing a m = combinedValue s ring g w % 2 ^ (8 * m) ∧
      (∀ x, x < a ∨ a + m ≤ x → memByte t.edge.landing x = memByte s.edge.landing x) ∧
      tabGet { waiting := [], ended := 0 } (combKey e.val c.val due.toNat i.toNat) t.edge.comb =
        { waiting := st.waiting.erase w, ended := w.1 } ∧
      (w.1 ≠ g.steps.toNat → t.edge.gc = s.edge.gc) ∧
      (w.1 = g.steps.toNat → gcOf t e.val c.val due.toNat g.counter.toNat =
        gcOf s e.val c.val due.toNat g.counter.toNat + 1) ∧
      t.clu = s.clu ∧ t.out = s.out ∧ regsBut s t [bankKey (pgLnd e.val + 0x50) c.val] := by
  intro m ring a
  obtain ⟨now, hstep⟩ := combineStep_ends hst hset hgroup hready hnext
  obtain ⟨hcount, hbut⟩ := cntAdd_only (stepEnded s (combKey e.val c.val due.toNat i.toNat) ring g w st now)
    (bankKey (pgLnd e.val + 0x50) c.val) 1
  have hexec : exec (.combineStep e c i due) s = .next _ := congrArg Host.Outcome.next hstep
  generalize cntAdd (stepEnded s (combKey e.val c.val due.toNat i.toNat) ring g w st now)
    (bankKey (pgLnd e.val + 0x50) c.val) 1 = r at *
  obtain ⟨regs, rfl⟩ : ∃ regs, r = { stepEnded s (combKey e.val c.val due.toNat i.toNat) ring g w st now with
    regs := regs } := ⟨_, hcount⟩
  by_cases hlast : w.1 = g.steps.toNat
  case pos =>
    obtain ⟨pegs, hgate⟩ := countLanding_eq
      { stepEnded s (combKey e.val c.val due.toNat i.toNat) ring g w st now with regs := regs }
      e.val c.val due.toNat g.counter.toNat g.pegEn g.peg
    rw [if_pos hlast, hgate] at hexec
    exact ⟨_, hexec, memNat_memWrite_self .., fun x hx => memByte_memWrite_outside _ _ _ _ _ hx, tabGet_tabSet_self ..,
      fun hne => absurd hlast hne, fun _ => tabGet_tabSet_self .., rfl, rfl, hbut⟩
  case neg =>
    rw [if_neg hlast] at hexec
    exact ⟨_, hexec, memNat_memWrite_self .., fun x hx => memByte_memWrite_outside _ _ _ _ _ hx, tabGet_tabSet_self ..,
      fun _ => rfl, fun heq => absurd heq hlast, rfl, rfl, hbut⟩

/-- Settles O32: an accepted landing writes its ring entry and counts, one of no running raising is only counted, and a
combine step writes its target and counts when it is its group's last. -/
theorem landingsAndCombines : Obligations.LandingsAndCombines := by
  unfold Obligations.LandingsAndCombines
  refine fun s => ⟨?landing, ?unserved, ?combine⟩
  case landing =>
    intro p f bytes ts c w e v h d n a m hup hfind hpass hkind hseq hset hgood hdirect hentry haction hsingle hahead
      hwithin hexpect
    exact exec_seqFrameRx_lands ⟨hup, ⟨bytes, hfind, rfl⟩, hpass, hkind, hseq⟩
      ⟨hset, hgood, hdirect, hentry, haction, hsingle, hahead, hwithin, hexpect⟩
  case unserved =>
    intro p f bytes v hup hfind hpass hkind hseq hset hfrozen
    exact exec_seqFrameRx_unserved ⟨hup, ⟨bytes, hfind, rfl⟩, hpass, hkind, hseq⟩ hset hfrozen
  case combine =>
    intro e c i due ts g w st m ring a hold hset hgroup hready hnext
    exact exec_combineStep rfl hset hgroup hready hnext

end Sys2Proof.Proofs

end

section

/-! PROOF. What a port that goes down leaves at the ports: the searches for braces and the diverted packets write no port, no
register of a PRT page and no lost raising (R282 to R284, R304, R315, R348). -/
namespace Sys2Proof.Proofs
open Sys2Proof Sys2Proof.Machine Sys2Proof.Safety Sys2Proof.Laws

/-! ## Changes that leave the ports as they are -/

/-- A key of a PRT page. -/
def PrtKey (k : Nat) : Prop := 0x40000 ≤ k % 0x1000000 ∧ k % 0x1000000 < 0x50000

/-- From `s` to `t` the ports, the registers of their pages, the lost raisings, the clusters and the sessions are as
before. -/
structure LeavesPorts (s t : State) : Prop where
  link : t.link = s.link
  lost : t.edge.lost = s.edge.lost
  clu : t.clu = s.clu
  ses : t.ses = s.ses
  regs : ∀ k, PrtKey k → regGet t k = regGet s k

namespace LeavesPorts

theorem refl (s : State) : LeavesPorts s s := ⟨rfl, rfl, rfl, rfl, fun _ _ => rfl⟩

theorem trans {s t u : State} (h : LeavesPorts s t) (g : LeavesPorts t u) : LeavesPorts s u :=
  ⟨g.link.trans h.link, g.lost.trans h.lost, g.clu.trans h.clu, g.ses.trans h.ses,
    fun k hk => (g.regs k hk).trans (h.regs k hk)⟩

theorem of_onlyRegs {s t : State} {ks : List Nat} (h : onlyRegs s t ks) (hk : ∀ k ∈ ks, ¬PrtKey k) : LeavesPorts s t := by
  obtain ⟨ht, hbut⟩ := h
  refine ⟨?_, ?_, ?_, ?_, fun k hp => hbut k fun hm => hk k hm hp⟩ <;> rw [ht]

theorem of_onlyReg {s t : State} {k : Nat} (h : onlyRegs s t [k]) (hk : ¬PrtKey k) : LeavesPorts s t :=
  .of_onlyRegs h (by simpa using hk)

/-- What else a state holds may change. -/
theorem of_eq {s t : State} (hregs : t.regs = s.regs) (hlink : t.link = s.link) (hlost : t.edge.lost = s.edge.lost)
    (hclu : t.clu = s.clu) (hses : t.ses = s.ses) : LeavesPorts s t :=
  ⟨hlink, hlost, hclu, hses, fun k _ => by rw [regGet, regGet, hregs]⟩

theorem foldl {α : Type} {f : State → α → State} (h : ∀ s x, LeavesPorts s (f s x)) (l : List α) (s : State) :
    LeavesPorts s (l.foldl f s) := by
  induction l generalizing s with
  | nil => exact .refl s
  | cons x l ih => exact (h s x).trans (ih _)

end LeavesPorts

theorem leavesPorts_loose (s : State) (x : Loose) : LeavesPorts s { s with loose := x } := .of_eq rfl rfl rfl rfl rfl
theorem leavesPorts_vlt (s : State) (x : Vaults) : LeavesPorts s { s with vlt := x } := .of_eq rfl rfl rfl rfl rfl
theorem leavesPorts_rai (s : State) (x : Raise) : LeavesPorts s { s with rai := x } := .of_eq rfl rfl rfl rfl rfl

theorem countEv_leavesPorts (s : State) (pg : Nat) (p : Option Nat) (k : EventKind) (n : Nat) :
    LeavesPorts s (countEv s pg p k n) :=
  .of_eq (countEv_regs ..) (countEv_link ..) (congrArg (·.lost) (countEv_edge ..)) (countEv_clu ..) (countEv_ses ..)

/-! ## Pages that are no port's -/

theorem not_prtKey {d o : Nat} (h : o < 0x40000 ∨ (0x50000 ≤ o ∧ o < 0x1000000)) : ¬PrtKey (pageBase d o) := by
  simp only [PrtKey, pageBase]
  omega

theorem not_prtKey_vlt (v : Nat) {o : Nat} (h : o < 0x1000) : ¬PrtKey (pgVlt v + o) := by
  rw [pgVlt, pageBase_add]
  exact not_prtKey (by omega)

theorem not_prtKey_lse (e : Nat) {o : Nat} (h : o < 0x1000) : ¬PrtKey (pgLse e + o) := by
  rw [pgLse, pageBase_add]
  exact not_prtKey (by omega)

theorem not_prtKey_slt (e : Nat) {o : Nat} (h : o < 0x1000) : ¬PrtKey (pgSlt e + o) := by
  rw [pgSlt, pageBase_add]
  exact not_prtKey (by omega)

theorem not_prtKey_d2d (d : Nat) {j o : Nat} (hj : j < 8) (h : o < 0x1000) : ¬PrtKey (pgD2d d j + o) := by
  rw [pgD2d, pageBase_add]
  exact not_prtKey (by omega)

/-! ## Lines written by an engine of edge die 1 -/

theorem countPath_leavesPorts (s : State) {d o : Nat} (hd : d < 16) (ho : o < 0x1000) :
    LeavesPorts s (countPath s 1 d o) := by
  refine .of_onlyRegs (countOn_only s (hostPath 1 d) o) fun k hk => ?_
  obtain ⟨pg, hpg, rfl⟩ := List.mem_map.1 hk
  rcases List.mem_cons.1 hpg with rfl | hpg
  · exact not_prtKey_d2d 17 (by omega) ho
  · obtain ⟨j, -, rfl⟩ := List.mem_map.1 hpg
    exact not_prtKey_d2d _ (by decide) ho

theorem countCols_leavesPorts (s : State) (v n : Nat) : LeavesPorts s (countCols s v n) :=
  (LeavesPorts.of_onlyReg (cntAdd_only s _ n) (not_prtKey_vlt v (by decide))).trans (countEv_leavesPorts ..)

/-- An event of a vault is counted, captured, and interrupts. -/
theorem vaultEvent_leavesPorts (s : State) (v : Nat) {c k : Nat} (x b : Nat) (hc : c < 0x1000) (hk : k < 0x1000) :
    LeavesPorts s (irq (lastCapt (cntAdd s (pgVlt v + c) 1) (pgVlt v + k) x) (pgVlt v) b) :=
  .of_onlyRegs (onlyRegs_trans (onlyRegs_trans (cntAdd_only ..) (lastCapt_only ..)) (irq_only ..)) (by
    simp only [List.cons_append, List.nil_append, List.forall_mem_cons, List.not_mem_nil,
      false_imp_iff, implies_true, and_true]
    exact ⟨not_prtKey_vlt v hc, not_prtKey_vlt v hk, not_prtKey_vlt v (by decide)⟩)

theorem noteLine_leavesPorts (s : State) (v u source : Nat) (k : Nat × Bool) :
    LeavesPorts s (noteLine s v u source k) := by
  have hfailed (t : State) (h : LeavesPorts s t) : LeavesPorts s (if k.1 = 0 then t else
      irq (lastCapt (cntAdd t (pgVlt v + (if k.1 = 3 then 0x5C else 0x58)) 1) (pgVlt v + 0x60) (lineLog u k.1 source))
        (pgVlt v) 0) := by
    split
    · exact h
    · exact h.trans (vaultEvent_leavesPorts t v _ _ (by split <;> decide) (by decide))
  refine hfailed _ ?_
  split
  · exact (vaultEvent_leavesPorts s v _ 4 (by decide) (by decide)).trans (leavesPorts_vlt _ _)
  · exact .refl s

theorem putBytes_leavesPorts (s : State) (v u dom n data : Nat) (poison : Bool) :
    LeavesPorts s (putBytes s v u dom n data poison).2 := by
  have hread : LeavesPorts s (readLine (countCols s v 1) v u dom 1).2.2 :=
    (countCols_leavesPorts s v 1).trans (noteLine_leavesPorts ..)
  unfold putBytes
  dsimp only
  split
  · exact (countCols_leavesPorts s v 1).trans (leavesPorts_vlt _ _)
  · split
    · exact (hread.trans (countCols_leavesPorts _ v 1)).trans (leavesPorts_vlt _ _)
    · exact hread

theorem engineWrite_leavesPorts (s : State) (who : Requester) (a n data : Nat) :
    LeavesPorts s (engineWrite s 1 who a n data).2 := by
  unfold engineWrite
  split
  · exact .refl s
  · rename_i v u hmap
    have hd : v / 64 < 16 := by have := dramMap_lt hmap; omega
    have hreq : LeavesPorts s (countPath s 1 (v / 64) 0x44) := countPath_leavesPorts s hd (by decide)
    have herror := hreq.trans (countPath_leavesPorts (countPath s 1 (v / 64) 0x44) hd (o := 0x48) (by decide))
    have hput := fun dom => hreq.trans (putBytes_leavesPorts (countPath s 1 (v / 64) 0x44) v u dom n data false)
    dsimp only
    split
    · exact herror
    · split
      · exact herror
      · split
        · exact hput _
        · exact (hput _).trans (countPath_leavesPorts _ hd (by decide))

theorem engineWrites_leavesPorts (who : Requester) (f : Nat) (s : State) (a n x : Nat) :
    LeavesPorts s (engineWrites s 1 who a n x f).2 := by
  induction f generalizing s a n x with
  | zero => exact .refl s
  | succ f ih =>
    unfold engineWrites
    split
    · exact .refl s
    · exact (engineWrite_leavesPorts s who ..).trans (ih ..)

/-! ## Commands sent -/

theorem carveWrites_leavesPorts (s : State) (a n x : Nat) : LeavesPorts s (carveWrites s 1 a n x) := by
  unfold carveWrites
  split
  · exact engineWrites_leavesPorts ..
  · exact .refl s

theorem deliverCmd_leavesPorts (s : State) (f : CmdFrame) : LeavesPorts s (deliverCmd s f) := by
  unfold deliverCmd epDeliver
  dsimp only
  split
  · exact .refl s
  · exact (carveWrites_leavesPorts ..).trans
      (.of_onlyReg (regPut_only ..) (not_prtKey_lse 1 (o := 0x20C + 0x10 * 31) (by decide)))

theorem enqueueCmd_leavesPorts (s : State) (p : Nat) (f : CmdFrame) : LeavesPorts s (enqueueCmd s p f) := by
  unfold enqueueCmd
  dsimp only
  split
  · exact .of_onlyReg (cntAdd_only ..) (not_prtKey_lse _ (by decide))
  · exact leavesPorts_loose ..

theorem floodOn_leavesPorts (s : State) (f : CmdFrame) (but : Option Nat) : LeavesPorts s (floodOn s f but) := by
  refine LeavesPorts.foldl (fun t p => ?_) _ s
  split
  · exact enqueueCmd_leavesPorts ..
  · exact .refl t

theorem floodActed_leavesPorts (s : State) (code raiseId len body : Nat) :
    LeavesPorts s (floodActed s code raiseId len body) :=
  LeavesPorts.trans (((leavesPorts_loose ..).trans (leavesPorts_loose ..)).trans (floodOn_leavesPorts ..))
    (deliverCmd_leavesPorts ..)

/-! ## Braces and diverted packets -/

theorem fault_leavesPorts_slt (s : State) (code e pos arg : Nat) (c : Option Nat) :
    LeavesPorts s (fault s code (pgSlt e) pos arg c) :=
  (LeavesPorts.of_onlyRegs (capture_only s (pgSlt e) code pos arg) (by
    simp only [List.forall_mem_cons, List.not_mem_nil, false_imp_iff, implies_true, and_true]
    exact ⟨not_prtKey_slt e (by decide), not_prtKey_slt e (by decide)⟩)).trans (leavesPorts_rai ..)

theorem scheduleBrace_leavesPorts (s : State) (c : Nat) (id : BitVec 16) (f : BitVec 64) :
    LeavesPorts s (scheduleBrace s c id f) := by
  have hwindows : LeavesPorts s (openWindows s c) :=
    LeavesPorts.foldl (fun t e => show LeavesPorts t
      { t with edge.dupWin := tabSet false (edgeKey e c) true t.edge.dupWin } from .of_eq rfl rfl rfl rfl rfl) _ s
  refine hwindows.trans (.foldl (fun t e => ?_) _ _)
  split
  · exact .refl t
  · exact .of_eq rfl rfl rfl rfl rfl

/-- The search for a brace at a port (R282, R284). -/
theorem braceSearch_leavesPorts (s : State) (p c : Nat) : LeavesPorts s (braceSearch s p c) := by
  unfold braceSearch
  split
  · exact .refl s
  · split
    · exact fault_leavesPorts_slt ..
    · split
      · exact (floodActed_leavesPorts ..).trans (scheduleBrace_leavesPorts ..)
      · exact .refl s

/-- A full late queue drops a packet with a fault; any other holds it, and its high-water mark is raised. -/
theorem lateAdd_eq (s : State) (p c : Nat) (x : Leashed) :
    lateAdd s p c x = fault s 0x12 (pgSlt (p / 16)) 0 p (some c) ∨
    ∃ l n, lateAdd s p c x = cntMax { s with edge.late := l } (pgSlt (p / 16) + 0x50) n := by
  unfold lateAdd
  dsimp only
  split
  · exact .inl rfl
  · exact .inr ⟨_, _, rfl⟩

/-- From `s` to `t` the ports are left as they are, and the stacked memory is too. -/
def LeavesPortsAndVaults (s t : State) : Prop := LeavesPorts s t ∧ t.vlt = s.vlt

theorem fault_vlt (s : State) (code pg pos arg : Nat) (c : Option Nat) : (fault s code pg pos arg c).vlt = s.vlt :=
  by rw [(fault_keeps s code pg pos arg c).2]

theorem lateAdd_leaves (s : State) (p c : Nat) (x : Leashed) : LeavesPortsAndVaults s (lateAdd s p c x) := by
  rcases lateAdd_eq s p c x with h | ⟨l, n, h⟩ <;> rw [h]
  · exact ⟨fault_leavesPorts_slt .., fault_vlt ..⟩
  · have hlate : LeavesPorts s { s with edge.late := l } := .of_eq rfl rfl rfl rfl rfl
    have hmax := cntMax_only { s with edge.late := l } (pgSlt (p / 16) + 0x50) n
    exact ⟨hlate.trans (.of_onlyReg hmax (not_prtKey_slt _ (by decide))), (vlt_of_onlyRegs hmax).trans rfl⟩

/-- A packet that is diverted, if a brace lets it, becomes a late packet of another port (R283). -/
theorem divert_eq (s : State) (p c : Nat) (x : Leashed) :
    divert s p c x = s ∨ ∃ q c' y, divert s p c x = lateAdd s q c' y := by
  unfold divert
  split
  · exact .inl rfl
  · split
    · exact .inl rfl
    · split
      · exact .inl rfl
      · exact .inr ⟨_, _, _, rfl⟩

theorem divert_leaves (s : State) (p c : Nat) (x : Leashed) : LeavesPortsAndVaults s (divert s p c x) := by
  rcases divert_eq s p c x with h | ⟨q, c', y, h⟩ <;> rw [h]
  · exact ⟨.refl s, rfl⟩
  · exact lateAdd_leaves ..

theorem stageLoose_leaves (s : State) (e : Nat) (inPort : Option Nat) (r : LooseReq) :
    LeavesPortsAndVaults s (stageLoose s e inPort r) :=
  ⟨(countEv_leavesPorts ..).trans (leavesPorts_loose ..), countEv_vlt ..⟩

theorem takeBack_leaves (s : State) (p : Nat) (x : ReplayEnt) : LeavesPortsAndVaults s (takeBack s p x) := by
  unfold takeBack
  split
  · exact stageLoose_leaves ..
  · split
    · exact divert_leaves ..
    · exact ⟨.refl s, rfl⟩

theorem foldl_leavesPortsAndVaults {α : Type} {f : State → α → State} (h : ∀ s x, LeavesPortsAndVaults s (f s x))
    (l : List α) (s : State) : LeavesPortsAndVaults s (l.foldl f s) := by
  refine ⟨.foldl (fun s x => (h s x).1) l s, ?_⟩
  induction l generalizing s with
  | nil => rfl
  | cons x l ih => exact (ih _).trans (h s x).2

/-- The packets that a port held leave it (R283, R304). -/
theorem emptyPort_leaves (s : State) (p : Nat) (rbuf : List ReplayEnt) : LeavesPortsAndVaults s (emptyPort s p rbuf) := by
  obtain ⟨hback, hvlt⟩ := foldl_leavesPortsAndVaults (fun t x => takeBack_leaves t p x) rbuf s
  have hlate (t : State) (x : Leashed) : LeavesPortsAndVaults t (match setForRaise t p (lRaise x.hdr) with
      | some (_, c) => divert t p c x
      | none => t) := by
    split
    · exact divert_leaves ..
    · exact ⟨.refl t, rfl⟩
  have hnone (t : State) : LeavesPorts t { t with edge.late := tabSet [] p [] t.edge.late } := .of_eq rfl rfl rfl rfl rfl
  unfold emptyPort
  generalize rbuf.foldl (fun t x => takeBack t p x) s = t at *
  obtain ⟨hdivert, hvlt'⟩ := foldl_leavesPortsAndVaults hlate (tabGet [] p t.edge.late)
    { t with edge.late := tabSet [] p [] t.edge.late }
  exact ⟨(hback.trans (hnone t)).trans hdivert, hvlt'.trans hvlt⟩

end Sys2Proof.Proofs

end

section

/-! PROOF. The frames that a port sends of its own, and a port that goes down (R290, R291, R293, R303, R304, R376, R378). -/
namespace Sys2Proof.Proofs
open Sys2Proof Sys2Proof.Machine Sys2Proof.Safety Sys2Proof.Laws

/-! ## Ports -/

theorem linkOf_setLink_of_ne (s : State) {p q : Nat} (k : Link) (h : q ≠ p) : linkOf (setLink s p k) q = linkOf s q :=
  tabGet_tabSet_of_ne _ _ _ h

@[simp] theorem regGet_setLink (s : State) (p : Nat) (k : Link) (j : Nat) : regGet (setLink s p k) j = regGet s j := rfl

/-- Ports are read from the table of links alone. -/
theorem linkOf_of_onlyRegs {s t : State} {ks : List Nat} (h : onlyRegs s t ks) (p : Nat) : linkOf t p = linkOf s p :=
  linkOf_congr (by rw [h.1]) p

theorem prtKey_pgPrt (p : Nat) {o : Nat} (h : o < 0x1000) : PrtKey (pgPrt p + o) := by
  simp only [PrtKey, pgPrt, pageBase]
  omega

theorem pageOfKey_pgPrt {p o : Nat} (hp : p < 48) (ho : o < 0x1000) : pageOfKey (pgPrt p + o) = pgPrt p := by
  simp only [pageOfKey, pgPrt, pageBase]
  omega

/-! ## Frames of a port's own -/

/-- What its own frames change of a port: their count, and the NAK and the credits that they carry. -/
def SameButSent (k k' : Link) : Prop :=
  k' = { k with txc := k'.txc, nakSet := k'.nakSet, nakUntil := k'.nakUntil, owed := k'.owed }

theorem SameButSent.of_eq {k k' : Link} {txc : BitVec 64} {nak : Bool} {until' : Nat} {owed : List Nat}
    (h : k' = { k with txc := txc, nakSet := nak, nakUntil := until', owed := owed }) : SameButSent k k' := by
  subst h
  rfl

/-- From `s` to `t` port `p` becomes `k` and then sends `n` frames or more of its own; nothing else is done. -/
structure PortSends (s t : State) (p : Nat) (k : Link) (n : Nat) : Prop where
  only : t = { s with regs := t.regs, link := t.link, out := t.out, edge.used := t.edge.used }
  regs : regsBut s t [pgPrt p + 0x94]
  own : SameButSent k (linkOf t p)
  others : ∀ q, q ≠ p → linkOf t q = linkOf s q
  grows : s.out.length + n ≤ t.out.length

namespace PortSends
variable {s t u : State} {p : Nat} {k : Link} {m n : Nat}

theorem refl (s : State) (p : Nat) : PortSends s s p (linkOf s p) 0 :=
  ⟨rfl, fun _ _ => rfl, rfl, fun _ _ => rfl, le_rfl⟩

theorem trans (h : PortSends s t p k m) (g : PortSends t u p (linkOf t p) n) : PortSends s u p k (m + n) where
  only := by
    rw [g.only, h.only]
  regs j hj := (g.regs j hj).trans (h.regs j hj)
  own := by
    have hg := g.own
    rw [SameButSent, h.own] at hg
    exact hg
  others q hq := (g.others q hq).trans (h.others q hq)
  grows := by have := h.grows; have := g.grows; omega

theorem mono (h : PortSends s t p k m) (hn : n ≤ m) : PortSends s t p k n :=
  { h with grows := by have := h.grows; omega }

/-- What the port was before is lost. -/
theorem of_setLink {j : Link} (h : PortSends (setLink s p j) t p k n) : PortSends s t p k n where
  only := h.only
  regs := h.regs
  own := h.own
  others q hq := (h.others q hq).trans (linkOf_setLink_of_ne s j hq)
  grows := h.grows

theorem foldl {α : Type} {f : State → α → State} (h : ∀ s x, PortSends s (f s x) p (linkOf s p) 1) (l : List α)
    (s : State) : PortSends s (l.foldl f s) p (linkOf s p) l.length := by
  induction l generalizing s with
  | nil => exact .refl s p
  | cons x l ih => exact ((h s x).trans (ih _)).mono (by rw [List.length_cons]; omega)

end PortSends

/-- The bytes of a TRAIN or KEY frame of port `p`. -/
def placedFrame (s : State) (p kind : Nat) (body : List Byte) : List Byte :=
  wireFrame (linkOf s p) (linkHeader s p kind body.length false) 0 body false

theorem sendFrame_sends (s : State) (p kind : Nat) (body : List Byte) :
    let t := sendFrame s p kind body.length false 0 body
    t.out = s.out ++ [.frame p (placedFrame s p kind body)] ∧ PortSends s t p (linkOf s p) 1 := by
  obtain ⟨regs, nak, owed, hsend, hbut⟩ := sendRaw_eq s p kind body.length false 0 body false
  rw [sendFrame, hsend]
  exact ⟨rfl, rfl, hbut, .of_eq (tabGet_tabSet_self ..), fun q hq => tabGet_tabSet_of_ne _ _ _ hq,
    by simp⟩

/-- A frame of a port's own goes out at its place, and fewer than 64 bytes that are left of its unit are filled (R290). -/
theorem sendPlaced_sends (s : State) (p kind d : Nat) (body : List Byte) :
    let t := sendPlaced s p kind d body
    (∃ fs : List Out, (fs = [] ∨ ∃ m, 0 < m ∧ m < 64 ∧ fs = [.fill p m]) ∧
      t.out = s.out ++ .frame p (placedFrame s p kind body) :: fs) ∧
    PortSends s t p (linkOf s p) 1 := by
  obtain ⟨hout, hsend⟩ := sendFrame_sends s p kind body
  unfold sendPlaced
  dsimp only
  generalize sendFrame s p kind body.length false 0 body = t at *
  split
  · rename_i u hu
    obtain ⟨used, hcarry⟩ := carry_fills t p u (50 + body.length)
    rw [hcarry]
    refine ⟨⟨fillAfter t p u (50 + body.length), ?_, ?_⟩, hsend.trans (n := 0) ⟨rfl, fun _ _ => rfl, rfl, fun _ _ => rfl, ?_⟩⟩
    · unfold fillAfter
      dsimp only
      split
      · exact .inl rfl
      · exact .inr ⟨_, by omega, by omega, rfl⟩
    · rw [hout, List.append_assoc]
      rfl
    · rw [List.length_append]
      omega
  · exact ⟨⟨[], .inl rfl, hout⟩, hsend⟩

/-- A message of a key exchange is one frame or more (R376). -/
theorem sendKey_sends (s : State) (p msg : Nat) (m : List Byte) :
    PortSends s (sendKey s p msg m) p (linkOf s p) 1 := by
  refine (PortSends.foldl (fun t i => (sendPlaced_sends t p 7 0 _).2) _ s).mono ?_
  exact (le_max_left ..).trans_eq List.length_range.symm

/-! ## A port goes down -/

theorem runningOn_congr {s t : State} (hsets : t.edge.sets = s.edge.sets) (hrai : t.rai = s.rai) (p : Nat) :
    runningOn t p = runningOn s p := by
  rw [runningOn, runningOn, portCtxs, portCtxs, hsets, raising_congr hrai]

theorem nowPeriods_congr {s t : State} (htime : t.time = s.time) (hclu : t.clu = s.clu) : nowPeriods t = nowPeriods s := by
  rw [nowPeriods, nowPeriods, elapsed, elapsed, htime, hclu]

/-- The holdoff of a port follows from its latest AUTH down, the time and AUTH_HOLDOFF (R378). -/
theorem holdoffAfter_congr {s t : State} {k k' : Link} (hreg : regGet t (pgSec + 0x90) = regGet s (pgSec + 0x90))
    (htime : t.time = s.time) (hclu : t.clu = s.clu) (hat : k'.authAt = k.authAt) (hlen : k'.holdLen = k.holdLen) :
    holdoffAfter t k' = holdoffAfter s k := by
  rw [holdoffAfter, holdoffAfter, regField, regField, hreg, nowPeriods_congr htime hclu, hat, hlen]

theorem portLost_congr {s t : State} (h : t.edge.lost = s.edge.lost) (p c : Nat) : portLost t p c = portLost s p c := by
  rw [portLost, portLost, h]

/-- The raisings that run on a port lose it; none regains it. -/
theorem portLost_loseTo {s : State} {p c : Nat} (h : c ∈ runningOn s p) : portLost (loseTo s p) p c = true := by
  unfold loseTo
  have hkept (l : List Nat) (t : State) (ht : portLost t p c = true ∨ c ∈ l) :
      portLost (l.foldl (fun s c => { s with edge.lost := tabSet false (p * 256 + c) true s.edge.lost }) t) p c = true := by
    induction l generalizing t with
    | nil => exact ht.resolve_right List.not_mem_nil
    | cons d l ih =>
      refine ih _ ?_
      by_cases hcd : c = d
      · subst hcd
        exact .inl (tabGet_tabSet_self false (p * 256 + c) true t.edge.lost)
      · rw [List.mem_cons, or_iff_right hcd] at ht
        exact ht.imp_left (tabGet_tabSet_of_ne false true t.edge.lost (by omega : p * 256 + c ≠ p * 256 + d)).trans
  exact hkept _ s (.inr h)

theorem loseTo_eq (s : State) (p : Nat) : loseTo s p = { s with edge.lost := (loseTo s p).edge.lost } := by
  unfold loseTo
  generalize runningOn s p = l
  induction l generalizing s with
  | nil => rfl
  | cons c l ih => rw [List.foldl_cons, ih]

/-- From `s` to `t` port `p` has gone down with cause `code`, is counted, and interrupts (R303, R304). -/
structure DownNoted (s t : State) (p code : Nat) : Prop where
  state : (linkOf t p).state = .down
  cause : (linkOf t p).cause = BitVec.ofNat 4 code
  keys : (linkOf t p).keys = []
  rbuf : (linkOf t p).rbuf = []
  credits : (linkOf t p).credits = [0, 0, 0, 0]
  holdoff : code = 6 → (linkOf t p).holdoff = holdoffAfter s (linkOf s p)
  regs : ∀ k, PrtKey k → k ∉ [pgPrt p + 0x94, pgPrt p + 0xA4, pgPrt p + 0x10] → regGet t k = regGet s k
  counted : frozen s (pgPrt p) = false → regGet t (pgPrt p + 0xA4) = regGet s (pgPrt p + 0xA4) + 1
  interrupts : regBit t (pgPrt p + 0x10) 1 = true
  clu : t.clu = s.clu
  ses : t.ses = s.ses

/-- What follows at braces and other queues leaves it so. -/
theorem DownNoted.leaves {s t u : State} {p code : Nat} (h : DownNoted s t p code) (g : LeavesPorts t u) :
    DownNoted s u p code := by
  have hlink := linkOf_congr g.link p
  exact {
    state := by rw [hlink, h.state]
    cause := by rw [hlink, h.cause]
    keys := by rw [hlink, h.keys]
    rbuf := by rw [hlink, h.rbuf]
    credits := by rw [hlink, h.credits]
    holdoff := fun hc => by rw [hlink, h.holdoff hc]
    regs := fun k hk hne => (g.regs k hk).trans (h.regs k hk hne)
    counted := fun hf => (g.regs _ (prtKey_pgPrt p (by decide))).trans (h.counted hf)
    interrupts := (congrArg (·.getLsbD 1) (g.regs _ (prtKey_pgPrt p (by decide)))).trans h.interrupts
    clu := g.clu.trans h.clu
    ses := g.ses.trans h.ses }

/-- Port `p` is down, and has sent its DOWN frame; it is not counted yet. -/
def downState (s : State) (p code : Nat) (frames : Bool) : State :=
  let s := if frames && (linkOf s p).lanesUp then sendTrain s p (5 + code <<< 16) else s
  let s := setLink s p (downLink (linkOf s p) code)
  if code = 6 then holdOff s p else s

/-- Port `p` is down, and counted. -/
def downCounted (s : State) (p code : Nat) (frames : Bool) : State :=
  irq (cntAdd (downState s p code frames) (pgPrt p + 0xA4) 1) (pgPrt p) 1

/-- The raisings that ran on port `p` have lost it, and have looked for braces. -/
def downSearched (s : State) (p : Nat) : State :=
  (runningOn s p).foldl (fun s c => braceSearch s p c) (loseTo s p)

theorem linkDown_eq {s : State} {p : Nat} (code : Nat) (frames : Bool) (hd : (linkOf s p).state ≠ .disabled)
    (hn : (linkOf s p).state ≠ .down) :
    linkDown s p code frames = emptyPort (downSearched (downCounted s p code frames) p) p (linkOf s p).rbuf := by
  unfold linkDown downSearched downCounted downState
  dsimp only
  split
  · contradiction
  · contradiction
  · rfl

/-- The DOWN frame goes out, and then the port is down. -/
theorem downState_sends (s : State) (p code : Nat) (frames : Bool) : ∃ t, PortSends s t p (linkOf s p) 0 ∧
    downState s p code frames = if code = 6 then holdOff (setLink t p (downLink (linkOf t p) code)) p
      else setLink t p (downLink (linkOf t p) code) := by
  by_cases hframes : (frames && (linkOf s p).lanesUp) = true
  · exact ⟨_, (sendPlaced_sends s p 6 0 _).2.mono (Nat.zero_le 1), by rw [downState, if_pos hframes]; rfl⟩
  · exact ⟨s, .refl s p, by rw [downState, if_neg hframes]⟩

/-- Its frame, its link and its units are all that has changed. -/
theorem downState_only (s : State) (p code : Nat) (frames : Bool) :
    let u := downState s p code frames
    u = { s with regs := u.regs, link := u.link, out := u.out, edge.used := u.edge.used } ∧
    regsBut s u [pgPrt p + 0x94] := by
  obtain ⟨t, hsend, heq⟩ := downState_sends s p code frames
  have honly := hsend.only
  have hregs := hsend.regs
  rw [heq]
  split
  all_goals
    refine ⟨?_, hregs⟩
    rw [honly]
    rfl

theorem linkOf_holdOff (s : State) (p : Nat) : linkOf (holdOff s p) p = { linkOf s p with
    holdoff := holdoffAfter s (linkOf s p)
    holdLen := holdoffAfter s (linkOf s p)
    authAt := some (nowPeriods s) } := linkOf_setLink_self ..

/-- What the port then holds (R304, R378). -/
theorem linkOf_downState (s : State) (p code : Nat) (frames : Bool) : ∃ k' n l a, SameButSent (linkOf s p) k' ∧
    linkOf (downState s p code frames) p = { downLink k' code with holdoff := n, holdLen := l, authAt := a } ∧
    (code = 6 → n = holdoffAfter s (linkOf s p)) := by
  obtain ⟨t, hsend, heq⟩ := downState_sends s p code frames
  have hreg : regGet t (pgSec + 0x90) = regGet s (pgSec + 0x90) :=
    hsend.regs _ (by simp only [List.mem_singleton, pgSec, pgPrt, pageBase]; omega)
  have hafter : holdoffAfter (setLink t p (downLink (linkOf t p) code)) (downLink (linkOf t p) code) =
      holdoffAfter s (linkOf s p) :=
    holdoffAfter_congr hreg (by rw [hsend.only]; rfl) (by rw [hsend.only]; rfl) (by rw [hsend.own]; rfl)
      (by rw [hsend.own]; rfl)
  rw [heq]
  split
  · rw [linkOf_holdOff, linkOf_setLink_self, hafter]
    exact ⟨linkOf t p, _, _, _, hsend.own, rfl, fun _ => rfl⟩
  · rename_i hcode
    exact ⟨linkOf t p, _, _, _, hsend.own, linkOf_setLink_self .., fun h => absurd h hcode⟩

theorem downCounted_only (s : State) (p code : Nat) (frames : Bool) :
    let u := downCounted s p code frames
    u = { s with regs := u.regs, link := u.link, out := u.out, edge.used := u.edge.used } := by
  intro u
  obtain ⟨honly, -⟩ := downState_only s p code frames
  obtain ⟨hregs, -⟩ : onlyRegs (downState s p code frames) u _ := onlyRegs_trans (cntAdd_only ..) (irq_only ..)
  rw [hregs, honly]

theorem downCounted_noted {p : Nat} (hp : p < 48) (s : State) (code : Nat) (frames : Bool) :
    DownNoted s (downCounted s p code frames) p code := by
  obtain ⟨k', n, l, a, -, hlink, hhold⟩ := linkOf_downState s p code frames
  obtain ⟨honly, hbut⟩ := downState_only s p code frames
  have hcount := cntAdd_only (downState s p code frames) (pgPrt p + 0xA4) 1
  have hcounts := cntAdd_counts (downState s p code frames) (pgPrt p + 0xA4) 1
  rw [pageOfKey_pgPrt hp (by decide)] at hcounts
  have hirq := irq_only (cntAdd (downState s p code frames) (pgPrt p + 0xA4) 1) (pgPrt p) 1
  have hself : linkOf (downCounted s p code frames) p =
      { downLink k' code with holdoff := n, holdLen := l, authAt := a } :=
    (linkOf_of_onlyRegs (onlyRegs_trans hcount hirq) p).trans hlink
  have hwhole := downCounted_only s p code frames
  refine {
    state := by rw [hself]; rfl
    cause := by rw [hself]; rfl
    keys := by rw [hself]; rfl
    rbuf := by rw [hself]; rfl
    credits := by rw [hself]; rfl
    holdoff := fun h => by rw [hself]; exact hhold h
    regs := fun k _ hne => ?_
    counted := fun hf => ?_
    interrupts := regBit_irq _ _ (by decide)
    clu := by rw [hwhole]
    ses := by rw [hwhole] }
  · simp only [List.mem_cons, List.not_mem_nil, or_false, not_or] at hne
    obtain ⟨hnak, hdown, hstat⟩ := hne
    exact (hirq.2 k (by simpa using hstat)).trans ((hcount.2 k (by simpa using hdown)).trans (hbut k (by simpa using hnak)))
  · have hfrozen : frozen (downState s p code frames) (pgPrt p) = false := (regBit_of_but hbut (by simp) 1).trans hf
    exact (hirq.2 _ (by simp)).trans ((hcounts hfrozen).trans (congrArg (· + 1) (hbut _ (by simp))))

/-- Port `p` has gone down from `s` to `t`, and the raisings that ran on it have lost it (R303, R304). -/
structure WentDown (s t : State) (p code : Nat) : Prop extends DownNoted s t p code where
  lost : ∀ c ∈ runningOn s p, portLost t p c = true
  vlt : runningOn s p = [] → t.vlt = s.vlt

/-- The port's loss is noted, and it stays so while braces are looked for. -/
theorem downSearched_wentDown {s t : State} {p code : Nat} (h : DownNoted s t p code) (hsets : t.edge.sets = s.edge.sets)
    (hrai : t.rai = s.rai) (hvlt : t.vlt = s.vlt) : WentDown s (downSearched t p) p code := by
  have hlose := loseTo_eq t p
  have hruns := runningOn_congr hsets hrai p
  have hsearch : LeavesPorts (loseTo t p) (downSearched t p) := .foldl (fun t c => braceSearch_leavesPorts t p c) _ _
  have hnoted : DownNoted s (loseTo t p) p code := by
    rw [hlose]
    exact { h with }
  refine { hnoted.leaves hsearch with
    lost := fun c hc => (portLost_congr hsearch.lost p c).trans (portLost_loseTo (by rwa [hruns]))
    vlt := fun hnone => ?_ }
  rw [downSearched, hruns, hnone, hlose]
  exact hvlt

theorem linkDown_goesDown {s : State} {p : Nat} (hp : p < 48) (code : Nat) (frames : Bool)
    (hd : (linkOf s p).state ≠ .disabled) (hn : (linkOf s p).state ≠ .down) :
    WentDown s (linkDown s p code frames) p code := by
  have honly := downCounted_only s p code frames
  have hsearched := downSearched_wentDown (downCounted_noted hp s code frames) (by rw [honly]) (by rw [honly])
    (by rw [honly])
  obtain ⟨hempty, hvlt⟩ := emptyPort_leaves (downSearched (downCounted s p code frames) p) p (linkOf s p).rbuf
  rw [linkDown_eq code frames hd hn]
  exact { hsearched.leaves hempty with
    lost := fun c hc => (portLost_congr hempty.lost p c).trans (hsearched.lost c hc)
    vlt := fun h => hvlt.trans (hsearched.vlt h) }

/-- A port that is down already records the cause alone. -/
theorem linkDown_again {s : State} {p : Nat} (code : Nat) (frames : Bool) (h : (linkOf s p).state = .down) :
    linkDown s p code frames = setLink s p { linkOf s p with cause := BitVec.ofNat 4 code } := by
  unfold linkDown
  dsimp only
  split
  · simp_all
  · rfl
  · contradiction

theorem linkDown_disabled {s : State} {p : Nat} (code : Nat) (frames : Bool) (h : (linkOf s p).state = .disabled) :
    linkDown s p code frames = s := by
  unfold linkDown
  dsimp only
  split
  · rfl
  · simp_all
  · contradiction

/-- Every port but a disabled one is down then, with that cause; of its page it writes the counts of DOWNs and of NAKs and
IRQ_STAT. -/
theorem linkDown_down {s : State} {p : Nat} (hp : p < 48) (code : Nat) (frames : Bool)
    (hd : (linkOf s p).state ≠ .disabled) :
    let t := linkDown s p code frames
    (linkOf t p).state = .down ∧ (linkOf t p).cause = BitVec.ofNat 4 code ∧
      ∀ k, PrtKey k → k ∉ [pgPrt p + 0x94, pgPrt p + 0xA4, pgPrt p + 0x10] → regGet t k = regGet s k := by
  intro t
  by_cases hn : (linkOf s p).state = .down
  · simp only [t, linkDown_again code frames hn, linkOf_setLink_self]
    exact ⟨hn, trivial, fun _ _ _ => rfl⟩
  · have h := linkDown_goesDown hp code frames hd hn
    exact ⟨h.state, h.cause, h.regs⟩

end Sys2Proof.Proofs

end

section

/-! PROOF. The configuration of a port, and its going down (R287, R295, R303, R304, R341). -/
namespace Sys2Proof.Proofs
open Sys2Proof Sys2Proof.Machine Sys2Proof.Safety Sys2Proof.Laws

/-! ## The word that a write of PRT.CFG stores -/

theorem getLsbD_and_cfgMask (w : Word) {i : Nat} (hi : i < 5) : (w &&& 0x1F).getLsbD i = w.getLsbD i := by
  have hmask : (0x1F : Word).getLsbD i = true := by
    interval_cases i <;> rfl
  rw [BitVec.getLsbD_and, hmask, Bool.and_true]

theorem wfield_and_cfgMask (w : Word) : wfield (w &&& 0x1F) 0 2 = wfield w 0 2 :=
  wfield_and_of_ones w (by decide)

/-! ## A write of PRT.CFG that is taken -/

section
variable (s : State) (p : Nat) (w : Word)

/-- PRT.CFG holds the word, and a port of another KIND than 2 has no open interfaces. -/
def portConfigured : State :=
  let s := regSet s (pgPrt p + 0x40) (w &&& 0x1F)
  if wfield w 0 2 = 2 then s else openOff s p

theorem portCfgWrite_taken {s : State} {p : Nat} {w : Word}
    (h : wfield w 0 2 = portKind s p ∨ (linkOf s p).state = .disabled ∧ portNamed s p = false) :
    portCfgWrite s p w = if !w.getLsbD 2 then portOff (portConfigured s p w) p
      else if w.getLsbD 5 then portForced (portConfigured s p w) p else portStart (portConfigured s p w) p := by
  have htaken : ¬(decide (wfield w 0 2 ≠ portKind s p) &&
      (decide ((linkOf s p).state ≠ .disabled) || portNamed s p)) = true := by
    rcases h with h | ⟨hd, hn⟩
    · simp [h]
    · simp [hd, hn]
  exact if_neg htaken

theorem portCfgWrite_refused {s : State} {p : Nat} {w : Word} (hkind : wfield w 0 2 ≠ portKind s p)
    (h : (linkOf s p).state ≠ .disabled ∨ portNamed s p = true) : portCfgWrite s p w = statSet s (pgPrt p) 0 := by
  refine if_pos ?_
  rcases h with h | h <;> simp [hkind, h]

/-- The registers that a write of PRT.CFG may change: CFG, and the state and IRQ_STAT of the port's open interfaces. -/
def cfgRegs (p : Nat) : List Nat := [pgPrt p + 0x40, pgOpn p + 0x44, pgOpn p + 0x10]

@[simp] theorem regGet_pauseClear (s : State) (k n j : Nat) : regGet (pauseClear s k n) j = regGet s j := rfl

/-- Open interfaces that are down already stay as they are. -/
theorem openOff_down {s : State} {p : Nat} (h : regField s (pgOpn p + 0x44) 0 4 = 0) : openOff s p = s := if_pos h

/-- Other open interfaces go down, and interrupt. -/
theorem openOff_up {s : State} {p : Nat} (h : regField s (pgOpn p + 0x44) 0 4 ≠ 0) : ∃ t,
    onlyRegs s t [pgOpn p + 0x44, pgOpn p + 0x10] ∧ regGet t (pgOpn p + 0x44) = 0 ∧
    openOff s p = pauseClear t (pauseKey p) 4 :=
  ⟨_, onlyRegs_trans (regSet_only s (pgOpn p + 0x44) 0) (irq_only _ (pgOpn p) 1),
    ((irq_only ..).2 _ (by simp)).trans (regGet_regSet_self ..), if_neg h⟩

theorem openOff_only :
    let t := openOff s p
    t = { s with regs := t.regs, opn := t.opn } ∧ regsBut s t [pgOpn p + 0x44, pgOpn p + 0x10] := by
  by_cases h : regField s (pgOpn p + 0x44) 0 4 = 0
  · rw [openOff_down h]
    exact ⟨rfl, fun _ _ => rfl⟩
  · obtain ⟨t, ⟨ht, hbut⟩, -, heq⟩ := openOff_up h
    rw [heq]
    refine ⟨?_, hbut⟩
    rw [pauseClear, ht]

theorem openOff_state : regField (openOff s p) (pgOpn p + 0x44) 0 4 = 0 := by
  by_cases h : regField s (pgOpn p + 0x44) 0 4 = 0
  · rw [openOff_down h, h]
  · obtain ⟨t, -, hstate, heq⟩ := openOff_up h
    rw [heq]
    exact congrArg (wfield · 0 4) ((regGet_pauseClear ..).trans hstate)

theorem portConfigured_eq : ∃ u, onlyRegs s u [pgPrt p + 0x40] ∧ regGet u (pgPrt p + 0x40) = (w &&& 0x1F) ∧
    portConfigured s p w = if wfield w 0 2 = 2 then u else openOff u p :=
  ⟨_, regSet_only .., regGet_regSet_self .., rfl⟩

theorem portConfigured_only :
    let t := portConfigured s p w
    t = { s with regs := t.regs, opn := t.opn } ∧ regsBut s t (cfgRegs p) := by
  obtain ⟨u, ⟨hset, hsetbut⟩, -, heq⟩ := portConfigured_eq s p w
  rw [heq]
  split
  · exact ⟨by rw [hset], fun k hk => hsetbut k fun h => hk (List.mem_cons.2 (.inl (List.mem_singleton.1 h)))⟩
  · obtain ⟨hoff, hbut⟩ := openOff_only u p
    refine ⟨by rw [hoff, hset], fun k hk => ?_⟩
    rw [cfgRegs, List.mem_cons, not_or] at hk
    exact (hbut k hk.2).trans (hsetbut k (by simpa using hk.1))

/-- Where the interfaces are down or KIND is 2, CFG alone changes. -/
theorem portConfigured_quiet (h : regField s (pgOpn p + 0x44) 0 4 = 0 ∨ wfield w 0 2 = 2) :
    onlyRegs s (portConfigured s p w) [pgPrt p + 0x40] := by
  obtain ⟨u, hset, -, heq⟩ := portConfigured_eq s p w
  rw [heq]
  split
  · exact hset
  · rename_i hkind
    rw [openOff_down]
    · exact hset
    · exact (regField_of_but hset.2 (by simp only [List.mem_singleton, pgPrt, pgOpn, pageBase]; omega) 0 4).trans
        (h.resolve_right hkind)

theorem regGet_portConfigured : regGet (portConfigured s p w) (pgPrt p + 0x40) = (w &&& 0x1F) := by
  obtain ⟨u, -, hself, heq⟩ := portConfigured_eq s p w
  rw [heq]
  split
  · exact hself
  · refine ((openOff_only u p).2 _ ?_).trans hself
    simp only [List.mem_cons, List.not_mem_nil, or_false, pgPrt, pgOpn, pageBase]
    omega

theorem portKind_portConfigured : portKind (portConfigured s p w) p = wfield w 0 2 := by
  rw [portKind, regField, regGet_portConfigured, wfield_and_cfgMask]

theorem regBit_portConfigured {i : Nat} (hi : i < 5) :
    regBit (portConfigured s p w) (pgPrt p + 0x40) i = w.getLsbD i := by
  rw [regBit, regGet_portConfigured, getLsbD_and_cfgMask w hi]

theorem openState_portConfigured (h : wfield w 0 2 ≠ 2) :
    regField (portConfigured s p w) (pgOpn p + 0x44) 0 4 = 0 := by
  rw [portConfigured, if_neg h]
  exact openOff_state ..

theorem linkOf_portConfigured (q : Nat) : linkOf (portConfigured s p w) q = linkOf s q :=
  linkOf_congr (by rw [(portConfigured_only s p w).1]) q

theorem portMac_portConfigured : portMac (portConfigured s p w) p = portMac s p := by
  have hword (o : Nat) (ho : o = 0x5C ∨ o = 0x60) : regNat (portConfigured s p w) (pgPrt p + o) = regNat s (pgPrt p + o) :=
    congrArg BitVec.toNat ((portConfigured_only s p w).2 _ (by
      simp only [cfgRegs, List.mem_cons, List.not_mem_nil, or_false, pgPrt, pgOpn, pageBase]; omega))
  rw [portMac, portMac, regPair, regPair, hword _ (.inl rfl), Nat.add_assoc, hword _ (.inr rfl)]

end

/-- `t` keeps the open interfaces of `s`, and all registers but CFG, where a write of CFG of kind `kind` touches none of
the port's interfaces. -/
def CfgQuiet (s t : State) (p kind : Nat) : Prop :=
  regField s (pgOpn p + 0x44) 0 4 = 0 ∨ kind = 2 → t.opn = s.opn ∧ regsBut s t [pgPrt p + 0x40]

theorem portConfigured_cfgQuiet (s : State) (p : Nat) (w : Word) :
    CfgQuiet s (portConfigured s p w) p (wfield w 0 2) := by
  intro h
  obtain ⟨honly, hbut⟩ := portConfigured_quiet s p w h
  exact ⟨by rw [honly], hbut⟩

/-! ## What follows of it -/

theorem portStart_starts {s : State} {p : Nat} (hd : (linkOf s p).state = .disabled)
    (hon : regBit s (pgPrt p + 0x40) 2 = true) (hkind : portKind s p = 1) (hmac : macGood s p = true) :
    portStart s p = enterPhy s p := by
  refine if_pos ?_
  simp [hd, hon, hkind, hmac]

/-- A port without ENABLE is disabled, and has gone down for it. -/
theorem portOff_disables {s : State} {p : Nat} (hp : p < 48) (h : (linkOf s p).state ≠ .disabled) :
    portOff s p = setLink (noteState (linkDown s p 9 true) (pgPrt p)) p
      { linkOf (linkDown s p 9 true) p with state := .disabled } := by
  obtain ⟨hstate, -, -⟩ := linkDown_down hp 9 true h
  exact if_neg (by rw [hstate]; decide)

theorem portOff_disabled {s : State} {p : Nat} (h : (linkOf s p).state = .disabled) : portOff s p = s := by
  rw [portOff, linkDown_disabled 9 true h]
  exact if_pos h

theorem portForced_takesDown {s : State} {p : Nat} (h : (linkOf s p).state ≠ .disabled) :
    portForced s p = linkDown s p 9 true := if_neg h

/-- A disabled Chroip port goes down too, and is counted. -/
theorem portForced_disabled {s : State} {p : Nat} (h : (linkOf s p).state = .disabled) (hkind : portKind s p = 1) :
    let t := portForced s p
    (linkOf t p).state = .down ∧ (linkOf t p).cause = 9 ∧ regBit t (pgPrt p + 0x10) 1 = true := by
  intro t
  have hforced : t = irq (cntAdd (setLink (noteState s (pgPrt p)) p { linkOf s p with state := .down, cause := 9 })
      (pgPrt p + 0xA4) 1) (pgPrt p) 1 := (if_pos h).trans (if_pos hkind)
  have hlink : linkOf t p = { linkOf s p with state := .down, cause := 9 } := by
    rw [hforced]
    exact (linkOf_of_onlyRegs (onlyRegs_trans (cntAdd_only ..) (irq_only ..)) p).trans (linkOf_setLink_self ..)
  refine ⟨by rw [hlink], by rw [hlink], ?_⟩
  rw [hforced]
  exact regBit_irq _ _ (by decide)

/-- A port that enters PHY, with what it keeps of its past (R295, R310). -/
def phyLink (s : State) (p : Nat) : Link :=
  { Link.init with
    state := .phy, cause := (linkOf s p).cause, holdoff := (linkOf s p).holdoff, holdLen := (linkOf s p).holdLen,
    authAt := (linkOf s p).authAt, mac := BitVec.ofNat 48 (portMac s p) }

theorem enterPhy_of_disabled {s : State} {p : Nat} (h : (linkOf s p).state = .disabled) :
    enterPhy s p = setLink (noteState s (pgPrt p)) p (phyLink s p) := by
  rw [enterPhy, if_pos h]
  rfl

theorem enterPhy_of_ne {s : State} {p : Nat} (h : (linkOf s p).state ≠ .disabled) :
    enterPhy s p = setLink s p (phyLink s p) := by
  rw [enterPhy, if_neg h]
  rfl

/-! ## Writes of PRT.CFG -/

section
variable {s : State} {p : Fin 48} {w : Word}

theorem exec_portEnable (hd : (linkOf s p.val).state = .disabled) (hn : portNamed s p.val = false)
    (hkind : wfield w 0 2 = 1) (hmac : macGood s p.val = true) (hforce : w.getLsbD 5 = false) :
    ∃ t, exec (.portEnable p w) s = .next t ∧
      t = { s with regs := t.regs, link := t.link, opn := t.opn, nrg.parts := t.nrg.parts } ∧
      regsBut s t (cfgRegs p.val) ∧ CfgQuiet s t p.val (wfield w 0 2) ∧
      (linkOf t p.val).state = .phy ∧ (linkOf t p.val).mac = BitVec.ofNat 48 (portMac s p.val) ∧
      portKind t p.val = 1 ∧ regBit t (pgPrt p.val + 0x40) 2 = true ∧ ∀ q, q ≠ p.val → linkOf t q = linkOf s q := by
  have hkind' : wfield (wset w 2 1 1) 0 2 = wfield w 0 2 := wfield_wset_of_disjoint w (by decide) (.inl (by decide))
  have hon : (wset w 2 1 1).getLsbD 2 = true := getLsbD_wset w 2 1 1 2 (by decide)
  have hforce' : (wset w 2 1 1).getLsbD 5 = false := (getLsbD_wset w 2 1 1 5 (by decide)).trans hforce
  have hwrite := portCfgWrite_taken (w := wset w 2 1 1) (.inr ⟨hd, hn⟩)
  obtain ⟨honly, hbut⟩ := portConfigured_only s p.val (wset w 2 1 1)
  have hquiet := portConfigured_cfgQuiet s p.val (wset w 2 1 1)
  have hlink := linkOf_portConfigured s p.val (wset w 2 1 1)
  have hchip := portKind_portConfigured s p.val (wset w 2 1 1)
  have hbit := regBit_portConfigured s p.val (wset w 2 1 1) (i := 2) (by decide)
  have haddr := portMac_portConfigured s p.val (wset w 2 1 1)
  rw [hkind'] at hquiet hchip
  simp only [hon, hforce', Bool.not_true, Bool.false_eq_true, if_false] at hwrite
  generalize portConfigured s p.val (wset w 2 1 1) = u at *
  have hdis : (linkOf u p.val).state = .disabled := (congrArg (·.state) (hlink p.val)).trans hd
  have hstart := portStart_starts hdis (hbit.trans hon) (hchip.trans hkind) (by rw [macGood, haddr]; exact hmac)
  rw [hstart, enterPhy_of_disabled hdis] at hwrite
  have hself : linkOf (setLink (noteState u (pgPrt p.val)) p.val (phyLink u p.val)) p.val = phyLink u p.val :=
    linkOf_setLink_self ..
  refine ⟨_, congrArg Host.Outcome.next hwrite, ?_, hbut, hquiet, by rw [hself]; rfl, by rw [hself, ← haddr]; rfl,
    hchip.trans hkind, hbit.trans hon, fun q hq => (linkOf_setLink_of_ne _ _ hq).trans (hlink q)⟩
  rw [honly]
  rfl

theorem exec_portDisable (hd : (linkOf s p.val).state ≠ .disabled) (hkind : wfield w 0 2 = portKind s p.val) :
    ∃ t, exec (.portDisable p w) s = .next t ∧ (linkOf t p.val).state = .disabled ∧ (linkOf t p.val).cause = 9 ∧
      regBit t (pgPrt p.val + 0x40) 2 = false ∧
      ((linkOf s p.val).state = .down →
        t = { s with regs := t.regs, link := t.link, opn := t.opn, nrg.parts := t.nrg.parts } ∧
        regsBut s t (cfgRegs p.val) ∧ CfgQuiet s t p.val (wfield w 0 2)) := by
  have hkind' : wfield (wset w 2 1 0) 0 2 = wfield w 0 2 := wfield_wset_of_disjoint w (by decide) (.inl (by decide))
  have hoff : (wset w 2 1 0).getLsbD 2 = false := getLsbD_wset w 2 1 0 2 (by decide)
  have hwrite := portCfgWrite_taken (w := wset w 2 1 0) (.inl (hkind'.trans hkind))
  obtain ⟨honly, hbut⟩ := portConfigured_only s p.val (wset w 2 1 0)
  have hquiet := portConfigured_cfgQuiet s p.val (wset w 2 1 0)
  have hlink := linkOf_portConfigured s p.val (wset w 2 1 0) p.val
  have hbit := regBit_portConfigured s p.val (wset w 2 1 0) (i := 2) (by decide)
  rw [hkind'] at hquiet
  simp only [hoff, Bool.not_false, if_true] at hwrite
  generalize portConfigured s p.val (wset w 2 1 0) = u at *
  have hup : (linkOf u p.val).state ≠ .disabled := by rwa [hlink]
  obtain ⟨-, hcause, hregs⟩ := linkDown_down p.isLt 9 true hup
  rw [portOff_disables p.isLt hup] at hwrite
  refine ⟨_, congrArg Host.Outcome.next hwrite, by rw [linkOf_setLink_self], by rw [linkOf_setLink_self, hcause]; rfl,
    ?_, fun hdown => ?_⟩
  · have hcfg := hregs (pgPrt p.val + 0x40) (prtKey_pgPrt _ (by decide)) (by simp)
    exact ((congrArg (·.getLsbD 2) hcfg).trans hbit).trans hoff
  · rw [linkDown_again 9 true (by rw [hlink, hdown])]
    refine ⟨?_, hbut, hquiet⟩
    rw [honly]
    rfl

/-- What FORCE_DOWN makes of a write of PRT.CFG that is taken. -/
theorem exec_forceDown_taken (hon : w.getLsbD 2 = true)
    (h : wfield w 0 2 = portKind s p.val ∨ (linkOf s p.val).state = .disabled ∧ portNamed s p.val = false) :
    exec (.forceDown p w) s = .next (portForced (portConfigured s p.val (wset w 5 1 1)) p.val) ∧
      portKind (portConfigured s p.val (wset w 5 1 1)) p.val = wfield w 0 2 := by
  have hkind' : wfield (wset w 5 1 1) 0 2 = wfield w 0 2 := wfield_wset_of_disjoint w (by decide) (.inl (by decide))
  have hon' : (wset w 5 1 1).getLsbD 2 = true := (getLsbD_wset w 5 1 1 2 (by decide)).trans hon
  have hforce : (wset w 5 1 1).getLsbD 5 = true := getLsbD_wset w 5 1 1 5 (by decide)
  have hwrite := portCfgWrite_taken (w := wset w 5 1 1) (by rwa [hkind'])
  simp only [hon', hforce, Bool.not_true, Bool.false_eq_true, if_false, if_true] at hwrite
  exact ⟨congrArg Host.Outcome.next hwrite, (portKind_portConfigured ..).trans hkind'⟩

theorem exec_forceDown (hd : (linkOf s p.val).state ≠ .disabled) (hon : w.getLsbD 2 = true)
    (hkind : wfield w 0 2 = portKind s p.val) :
    ∃ t, exec (.forceDown p w) s = .next t ∧ (linkOf t p.val).state = .down ∧ (linkOf t p.val).cause = 9 := by
  obtain ⟨hexec, -⟩ := exec_forceDown_taken hon (.inl hkind)
  have hup : (linkOf (portConfigured s p.val (wset w 5 1 1)) p.val).state ≠ .disabled := by
    rwa [linkOf_portConfigured]
  obtain ⟨hstate, hcause, -⟩ := linkDown_down p.isLt 9 true hup
  rw [portForced_takesDown hup] at hexec
  exact ⟨_, hexec, hstate, hcause⟩

theorem exec_forceDown_disabled (hd : (linkOf s p.val).state = .disabled) (hn : portNamed s p.val = false)
    (hon : w.getLsbD 2 = true) (hkind : wfield w 0 2 = 1) :
    ∃ t, exec (.forceDown p w) s = .next t ∧ (linkOf t p.val).state = .down ∧ (linkOf t p.val).cause = 9 ∧
      regBit t (pgPrt p.val + 0x10) 1 = true := by
  obtain ⟨hexec, hchip⟩ := exec_forceDown_taken hon (.inr ⟨hd, hn⟩)
  exact ⟨_, hexec, portForced_disabled (by rwa [linkOf_portConfigured]) (hchip.trans hkind)⟩

theorem exec_kindWrite (hd : (linkOf s p.val).state = .disabled) (hn : portNamed s p.val = false)
    (hoff : w.getLsbD 2 = false) :
    ∃ t, exec (.kindWrite p w) s = .next t ∧ t = { s with regs := t.regs, opn := t.opn } ∧
      regsBut s t (cfgRegs p.val) ∧ CfgQuiet s t p.val (wfield w 0 2) ∧ portKind t p.val = wfield w 0 2 ∧
      (wfield w 0 2 ≠ 2 → regField t (pgOpn p.val + 0x44) 0 4 = 0) := by
  have hwrite := portCfgWrite_taken (w := w) (.inr ⟨hd, hn⟩)
  obtain ⟨honly, hbut⟩ := portConfigured_only s p.val w
  simp only [hoff, Bool.not_false, if_true] at hwrite
  rw [portOff_disabled (by rwa [linkOf_portConfigured])] at hwrite
  exact ⟨_, congrArg Host.Outcome.next hwrite, honly, hbut, portConfigured_cfgQuiet s p.val w, portKind_portConfigured ..,
    openState_portConfigured s p.val w⟩

theorem exec_kindWrite_refused (hkind : wfield w 0 2 ≠ portKind s p.val)
    (h : (linkOf s p.val).state ≠ .disabled ∨ portNamed s p.val = true) :
    ∃ t, exec (.kindWrite p w) s = .next t ∧ onlyRegs s t [pgPrt p.val + 0xC] ∧ regBit t (pgPrt p.val + 0xC) 0 = true :=
  ⟨_, congrArg Host.Outcome.next (portCfgWrite_refused hkind h), statSet_refuses ..⟩

end

/-- Settles O34: writes of PRT.CFG start a port, disable it, force it down, change its KIND or are refused; a port that
goes down holds nothing, is lost to what runs on it, is counted, and interrupts. -/
theorem portsAreConfigured : Obligations.PortsAreConfigured := by
  unfold Obligations.PortsAreConfigured
  intro s p w k cfg quiet opnRegs
  refine ⟨exec_portEnable, exec_portDisable, exec_forceDown, exec_forceDown_disabled, exec_kindWrite,
    exec_kindWrite_refused, fun cause hd hn hfrozen => ?down⟩
  case down =>
    have h := linkDown_goesDown p.isLt (downCode cause) (cause ≠ .phyLock) hd hn
    exact ⟨_, rfl, h.state, h.cause, h.keys, h.rbuf, h.credits, h.counted hfrozen, h.interrupts, h.lost, h.clu, h.ses,
      h.vlt⟩

end Sys2Proof.Proofs

end

section

/-! PROOF. Training of a port, from PHY to UP and back (R295 to R297, R303, R433). -/
namespace Sys2Proof.Proofs
open Sys2Proof Sys2Proof.Machine Sys2Proof.Safety Sys2Proof.Laws

/-! ## Lanes and their seeds (R427, R433) -/

/-- The registers that a store of persistent register `i` writes: its value, its wear, and STAT and IRQ_STAT of its page. -/
def seedRegs (i : Nat) : List Nat := [pstKey i, pstPage i + 0x800 + 4 * (i % 256), pstPage i + 0xC, pstPage i + 0x10]

/-- A persistent register's own key is none of those that another one's store writes. -/
theorem pstKey_not_mem_seedRegs {i j : Nat} (hi : i < 1024) (hj : j < 1024) (h : i ≠ j) : pstKey i ∉ seedRegs j := by
  simp only [seedRegs, List.mem_cons, List.not_mem_nil, or_false, pstKey, pstPage, pgPst, pageBase]
  omega

theorem pstNat_one (s : State) (i : Nat) : pstNat s i 1 = regNat s (pstKey i) := by
  simp [pstNat, List.range_succ]

/-- A store is performed (R427, R429). -/
theorem pstStore_stores (s : State) (i : Nat) (v : Word) :
    onlyRegs s (pstStore s i v) (seedRegs i) ∧ regGet (pstStore s i v) (pstKey i) = v := by
  have hworn (t : State) (w : Nat) :
      onlyRegs t (if 1000000 < w then statSet t (pstPage i) 3 else t) [pstPage i + 0xC] := by
    split
    · exact statSet_only ..
    · exact onlyRegs_refl ..
  have hnoted : onlyRegs (regSet s (pstKey i) v) (pstStore s i v) _ :=
    onlyRegs_trans (onlyRegs_trans (regSet_only ..) (hworn ..)) (irq_only ..)
  refine ⟨onlyRegs_trans (regSet_only ..) hnoted, (hnoted.2 _ ?_).trans (regGet_regSet_self ..)⟩
  simp only [List.cons_append, List.nil_append, List.mem_cons, List.not_mem_nil, or_false, pstKey, pstPage]
  omega

/-- A lane's seed is valid (R433). -/
def SeedValid (s : State) (i : Nat) : Prop := bitOf (pstNat s i 1) 31 = true

theorem seedValid_congr {s t : State} {i : Nat} (h : regGet t (pstKey i) = regGet s (pstKey i)) :
    SeedValid t i ↔ SeedValid s i := by
  rw [SeedValid, SeedValid, pstNat_one, pstNat_one, regNat, regNat, h]

/-- The word of a seed that training reaches is marked valid. -/
theorem bitOf_newSeed (x : BitVec 24) : bitOf (BitVec.ofNat 32 (0x80000000 + x.toNat)).toNat 31 = true := by
  have hx := x.isLt
  rw [BitVec.toNat_ofNat, Nat.mod_eq_of_lt (by omega), bitOf, show 0x80000000 = 2 ^ 31 from rfl,
    Nat.testBit_two_pow_add_eq, Nat.testBit_lt_two_pow (by omega), Bool.not_false]

/-- From `s` to `t` lanes are trained: free values are drawn, and the seeds of the registers `l` may be stored. -/
def LanesTrained (s t : State) (l : List Nat) : Prop :=
  t = { s with regs := t.regs, free := t.free } ∧ regsBut s t (l.flatMap seedRegs)

/-- A lane keeps a valid seed, or is trained in full; then its seed is stored where it differs. -/
theorem trainLane_eq (s : State) (i : Nat) : (SeedValid s i ∧ trainLane s i = { s with free := s.free + 1 }) ∨
    ∃ x : BitVec 24, trainLane s i = if pstNat s i 1 = 0x80000000 + x.toNat then { s with free := s.free + 2 }
      else pstStore { s with free := s.free + 2 } i (BitVec.ofNat 32 (0x80000000 + x.toNat)) := by
  by_cases h : (bitOf (pstNat s i 1) 31 && (drawFree s 1).1 = 1) = true
  · exact .inl ⟨(Bool.and_eq_true_iff.1 h).1, if_pos h⟩
  · exact .inr ⟨_, if_neg h⟩

theorem trainLane_trains (s : State) (i : Nat) :
    let t := trainLane s i
    (t = { s with regs := t.regs, free := t.free } ∧ regsBut s t (seedRegs i)) ∧ SeedValid t i := by
  rcases trainLane_eq s i with ⟨hvalid, heq⟩ | ⟨x, heq⟩
  · rw [heq]
    exact ⟨⟨rfl, fun _ _ => rfl⟩, hvalid⟩
  · rw [heq]
    have hnew := bitOf_newSeed x
    split
    · rename_i hsame
      refine ⟨⟨rfl, fun _ _ => rfl⟩, ?_⟩
      rwa [← hsame, BitVec.toNat_ofNat, Nat.mod_eq_of_lt] at hnew
      rw [pstNat_one]
      exact (regGet s (pstKey i)).isLt
    · obtain ⟨⟨honly, hbut⟩, hself⟩ := pstStore_stores { s with free := s.free + 2 } i
        (BitVec.ofNat 32 (0x80000000 + x.toNat))
      refine ⟨⟨by rw [honly], hbut⟩, ?_⟩
      rwa [SeedValid, pstNat_one, regNat, hself]

/-- The lanes of a list are trained in turn; each then has a valid seed. -/
theorem foldl_trainLane (l : List Nat) (hl : ∀ i ∈ l, i < 1024) (s : State) : LanesTrained s (l.foldl trainLane s) l ∧
    ∀ i < 1024, i ∈ l ∨ SeedValid s i → SeedValid (l.foldl trainLane s) i := by
  induction l generalizing s with
  | nil => exact ⟨⟨rfl, fun _ _ => rfl⟩, fun i _ h => h.resolve_left List.not_mem_nil⟩
  | cons j l ih =>
    obtain ⟨⟨hlane, hlanebut⟩, hvalid⟩ := trainLane_trains s j
    obtain ⟨⟨hrest, hrestbut⟩, hrestvalid⟩ := ih (fun i hi => hl i (List.mem_cons_of_mem j hi)) (trainLane s j)
    refine ⟨⟨?_, fun k hk => ?_⟩, fun i hi h => hrestvalid i hi ?_⟩
    · rw [List.foldl_cons, hrest, hlane]
    · rw [List.flatMap_cons, List.mem_append, not_or] at hk
      exact (hrestbut k hk.2).trans (hlanebut k hk.1)
    · by_cases hij : i = j
      · exact .inr (hij ▸ hvalid)
      · rw [List.mem_cons, or_iff_right hij] at h
        exact h.imp_right (seedValid_congr (hlanebut _ (pstKey_not_mem_seedRegs hi (hl j List.mem_cons_self) hij))).2

/-- PHY_ALIGNED: the lanes of a port in PHY are trained, and it enters HELLO. -/
theorem exec_phyAligned {s : State} {p : Fin 48} (h : (linkOf s p.val).state = .phy) :
    let seeds := (List.range 4).map fun j => 530 + 4 * p.val + j
    ∃ t, exec (.phyAligned p) s = .next t ∧
      t = { s with regs := t.regs, link := t.link, free := t.free } ∧
      linkOf t p.val = { linkOf s p.val with
        state := .hello, lanesUp := true, ownHello := BitVec.ofNat 112 (helloBody s p.val) } ∧
      (∀ q, q ≠ p.val → linkOf t q = linkOf s q) ∧
      regsBut s t (seeds.flatMap seedRegs) ∧ ∀ i ∈ seeds, SeedValid t i := by
  intro seeds
  have hlt : ∀ i ∈ seeds, i < 1024 := fun i hi => by
    obtain ⟨j, hj, rfl⟩ := List.mem_map.1 hi
    have := List.mem_range.1 hj
    omega
  obtain ⟨⟨honly, hbut⟩, hvalid⟩ := foldl_trainLane seeds hlt s
  have hlink (q : Nat) : linkOf (seeds.foldl trainLane s) q = linkOf s q := linkOf_congr (by rw [honly]) q
  refine ⟨_, congrArg Host.Outcome.next (if_pos h), ?_, linkOf_setLink_self .., fun q hq =>
    (linkOf_setLink_of_ne _ _ hq).trans (hlink q), hbut, fun i hi => hvalid i (hlt i hi) (.inl hi)⟩
  rw [trainLanes, honly]
  rfl

/-! ## TRAIN frames (R293, R295) -/

/-- From `s` to `t` port `p` sends the TRAIN frame of body `n`, and nothing else. -/
def TrainSent (s t : State) (p n : Nat) : Prop :=
  (linkOf t p).state = (linkOf s p).state ∧
  ∃ fs : List Out, (fs = [] ∨ ∃ m, 0 < m ∧ m < 64 ∧ fs = [.fill p m]) ∧
    t = { s with regs := t.regs, link := t.link, edge.used := t.edge.used, out := s.out ++
      (.frame p (wireFrame (linkOf s p) (linkHeader s p 6 14 false) 0 (natBytes 14 n) false) :: fs) }

theorem sendTrain_sends (s : State) (p n : Nat) : TrainSent s (sendTrain s p n) p n := by
  obtain ⟨⟨fs, hfs, hout⟩, hsend⟩ := sendPlaced_sends s p 6 0 (natBytes 14 n)
  have hlen : (natBytes 14 n).length = 14 := by simp [natBytes]
  rw [placedFrame, hlen] at hout
  refine ⟨?_, fs, hfs, ?_⟩
  · rw [sendTrain, hsend.own]
  · rw [← hout]
    exact hsend.only

section
variable {s : State} {p : Fin 48}

theorem exec_helloSend (h : (linkOf s p.val).state = .hello) :
    ∃ t, exec (.helloSend p) s = .next t ∧ TrainSent s t p.val (linkOf s p.val).ownHello.toNat :=
  ⟨_, congrArg Host.Outcome.next (if_pos h), sendTrain_sends ..⟩

theorem exec_readySend (h : (linkOf s p.val).state = .ready) :
    ∃ t, exec (.readySend p) s = .next t ∧ TrainSent s t p.val 4 :=
  ⟨_, congrArg Host.Outcome.next (if_pos h), sendTrain_sends ..⟩

/-- A PROBE is answered from KEY on. -/
theorem exec_probe (b : BitVec 112) (hold : BitVec 32) (h : (linkOf s p.val).state = .key ∨
      (linkOf s p.val).state = .delay ∨ (linkOf s p.val).state = .ready ∨ (linkOf s p.val).state = .up) :
    ∃ t, exec (.probe p b hold) s = .next t ∧
      TrainSent s t p.val (3 + (byteFld b.toNat 2 2) <<< 16 + hold.toNat <<< 32) := by
  have hexec : exec (.probe p b hold) s =
      .next (sendTrain s p.val (3 + (byteFld b.toNat 2 2) <<< 16 + hold.toNat <<< 32)) := by
    show Host.Outcome.next _ = _
    rcases h with h | h | h | h <;> rw [h]
  exact ⟨_, hexec, sendTrain_sends ..⟩

/-! ## HELLO (R296) -/

theorem byteFld_lt (x o n : Nat) : byteFld x o n < 2 ^ (8 * n) := Nat.mod_lt _ (Nat.two_pow_pos _)

theorem regNat_of_ofNat {s : State} {k n : Nat} (h : regGet s k = BitVec.ofNat 32 n) (hn : n < 2 ^ 32) : regNat s k = n := by
  rw [regNat, h, BitVec.toNat_ofNat, Nat.mod_eq_of_lt hn]

theorem regSet_setLink (s : State) (p : Nat) (k : Link) (j : Nat) (v : Word) :
    regSet (setLink s p k) j v = setLink (regSet s j v) p k := rfl

/-- The HELLO is kept, PARTNER shows it, and VERSION and FEATURES are fixed. -/
theorem helloTake_accepts {src : BitVec 48} {b : BitVec 112} {p : Nat} (h : (linkOf s p).state = .hello)
    (hver : 2 ≤ byteFld b.toNat 3 1) : ∃ u,
      onlyRegs s u [pgPrt p + 0x48, pgPrt p + 0x50, pgPrt p + 0x54] ∧
      regNat u (pgPrt p + 0x48) = byteFld b.toNat 8 4 ∧ regNat u (pgPrt p + 0x50) = 0x200 ∧
      helloTake s p src b = enterKey (setLink u p { linkOf s p with peer := some src, hello := b }) p := by
  have hrun : min (byteFld b.toNat 2 1 + 256 * byteFld b.toNat 3 1) 0x200 = 0x200 := Nat.min_eq_right (by omega)
  have htake : helloTake s p src b = enterKey (setLink (regSet (regSet (regSet s (pgPrt p + 0x48)
      (BitVec.ofNat 32 (byteFld b.toNat 8 4))) (pgPrt p + 0x50) (BitVec.ofNat 32 0x200)) (pgPrt p + 0x54)
      (BitVec.ofNat 32 (byteFld b.toNat 4 1 % 4))) p { linkOf s p with peer := some src, hello := b }) p := by
    simp only [helloTake, h, hrun, ne_eq, not_true_eq_false, if_false, Nat.lt_irrefl]
    rw [regSet_setLink, regSet_setLink]
  refine ⟨_, onlyRegs_trans (onlyRegs_trans (regSet_only ..) (regSet_only ..)) (regSet_only ..),
    regNat_of_ofNat ?_ (byteFld_lt ..), regNat_of_ofNat (n := 0x200) ?_ (by decide), htake⟩
  · rw [regGet_regSet_of_ne _ _ (by simp), regGet_regSet_of_ne _ _ (by simp), regGet_regSet_self]
  · rw [regGet_regSet_of_ne _ _ (by simp), regGet_regSet_self]

/-- While a holdoff runs, the port stays in HELLO (R378). -/
theorem exec_hello_heldOff {src : BitVec 48} {b : BitVec 112} (h : (linkOf s p.val).state = .hello)
    (hver : 2 ≤ byteFld b.toNat 3 1) (hoff : (linkOf s p.val).holdoff ≠ 0) :
    ∃ t, exec (.hello p ⟨src, b⟩) s = .next t ∧ t = { s with regs := t.regs, link := t.link } ∧
      regsBut s t [pgPrt p.val + 0x48, pgPrt p.val + 0x50, pgPrt p.val + 0x54] ∧
      regNat t (pgPrt p.val + 0x48) = byteFld b.toNat 8 4 ∧ regNat t (pgPrt p.val + 0x50) = 0x200 ∧
      linkOf t p.val = { linkOf s p.val with peer := some src, hello := b } := by
  obtain ⟨u, ⟨hu, hbut⟩, hpartner, hversion, htake⟩ := helloTake_accepts (src := src) h hver
  rw [enterKey, linkOf_setLink_self] at htake
  refine ⟨_, congrArg Host.Outcome.next (htake.trans (if_pos hoff)), ?_, hbut, hpartner, hversion, linkOf_setLink_self ..⟩
  rw [hu]
  rfl

/-- Otherwise it enters KEY and sends its CERTS (R296, R376). -/
theorem exec_hello_entersKey {src : BitVec 48} {b : BitVec 112} (h : (linkOf s p.val).state = .hello)
    (hver : 2 ≤ byteFld b.toNat 3 1) (hoff : (linkOf s p.val).holdoff = 0) :
    ∃ t, exec (.hello p ⟨src, b⟩) s = .next t ∧
      t = { s with regs := t.regs, link := t.link, out := t.out, edge.used := t.edge.used } ∧
      regNat t (pgPrt p.val + 0x48) = byteFld b.toNat 8 4 ∧ (linkOf t p.val).state = .key ∧
      (linkOf t p.val).peer = some src ∧ (linkOf t p.val).hello = b ∧
      (linkOf t p.val).kx = { KeyEx.init with sent := deviceCerts s } ∧ s.out.length < t.out.length := by
  obtain ⟨u, ⟨hu, hbut⟩, hpartner, -, htake⟩ := helloTake_accepts (src := src) h hver
  have hcerts : deviceCerts (setLink u p.val { linkOf s p.val with peer := some src, hello := b }) = deviceCerts s := by
    rw [hu]
    rfl
  rw [enterKey, linkOf_setLink_self, if_neg (not_not.2 hoff)] at htake
  dsimp only at htake
  rw [hcerts] at htake
  have hsend := sendKey_sends (setLink (setLink u p.val { linkOf s p.val with peer := some src, hello := b }) p.val
    { linkOf s p.val with state := .key, peer := some src, hello := b, kx := { KeyEx.init with sent := deviceCerts s } })
    p.val 1 (deviceCerts s)
  rw [linkOf_setLink_self] at hsend
  obtain ⟨honly, hregs, hown, -, hgrows⟩ := hsend.of_setLink.of_setLink
  refine ⟨_, congrArg Host.Outcome.next htake, ?_, ?_, by rw [hown], by rw [hown], by rw [hown], by rw [hown], ?_⟩
  · rw [honly, hu]
  · exact (congrArg BitVec.toNat (hregs (pgPrt p.val + 0x48) (by simp))).trans hpartner
  · rwa [show u.out = s.out by rw [hu]] at hgrows

/-- A partner of a version below 2 takes the port down. -/
theorem exec_hello_refused {src : BitVec 48} {b : BitVec 112} (h : (linkOf s p.val).state = .hello)
    (hver : byteFld b.toNat 3 1 < 2) :
    ∃ t, exec (.hello p ⟨src, b⟩) s = .next t ∧ (linkOf t p.val).state = .down ∧ (linkOf t p.val).cause = 4 := by
  have hlow := byteFld_lt b.toNat 2 1
  have hrun : min (byteFld b.toNat 2 1 + 256 * byteFld b.toNat 3 1) 0x200 < 0x200 :=
    Nat.lt_of_le_of_lt (min_le_left ..) (by omega)
  have htake : helloTake s p.val src b = linkDown (setLink (regSet s (pgPrt p.val + 0x48)
      (BitVec.ofNat 32 (byteFld b.toNat 8 4))) p.val { linkOf s p.val with peer := some src, hello := b }) p.val 4 true := by
    simp only [helloTake, h, hrun, ne_eq, not_true_eq_false, if_false, if_true]
  obtain ⟨hstate, hcause, -⟩ := linkDown_down p.isLt 4 true (s := setLink (regSet s (pgPrt p.val + 0x48)
    (BitVec.ofNat 32 (byteFld b.toNat 8 4))) p.val { linkOf s p.val with peer := some src, hello := b })
    (by rw [linkOf_setLink_self]; exact ne_of_eq_of_ne h (by decide))
  exact ⟨_, congrArg Host.Outcome.next htake, hstate, hcause⟩

/-- After HELLO, a HELLO updates PARTNER alone. -/
theorem exec_hello_late {src : BitVec 48} {b : BitVec 112} (h : (linkOf s p.val).state = .key ∨
      (linkOf s p.val).state = .delay ∨ (linkOf s p.val).state = .ready ∨ (linkOf s p.val).state = .up) :
    ∃ t, exec (.hello p ⟨src, b⟩) s = .next t ∧ onlyRegs s t [pgPrt p.val + 0x48] ∧
      regNat t (pgPrt p.val + 0x48) = byteFld b.toNat 8 4 := by
  have htake : helloTake s p.val src b =
      regSet s (pgPrt p.val + 0x48) (BitVec.ofNat 32 (byteFld b.toNat 8 4)) := by
    rcases h with h | h | h | h <;> simp [helloTake, h]
  exact ⟨_, congrArg Host.Outcome.next htake, regSet_only .., regNat_of_ofNat (regGet_regSet_self ..) (byteFld_lt ..)⟩

/-! ## ECHO and READY (R295, R297) -/

/-- From `s` to `t` port `p` becomes `k`, and nothing else changes. -/
def LinkBecomes (s t : State) (p : Nat) (k : Link) : Prop :=
  t = { s with link := t.link } ∧ linkOf t p = k ∧ ∀ q, q ≠ p → linkOf t q = linkOf s q

theorem setLink_becomes (s : State) (p : Nat) (k : Link) : LinkBecomes s (setLink s p k) p k :=
  ⟨rfl, linkOf_setLink_self .., fun _ hq => linkOf_setLink_of_ne s k hq⟩

/-- The port with the ECHO of PROBE `id` noted; it tells the delay `d`. -/
def echoNoted (k : Link) (id d : Nat) (agree : Bool) : Link :=
  { k with echoes := k.echoes + 2 ^ id, delayMax := max k.delayMax d, agree := k.agree && agree }

theorem echoTake_ignored {s : State} {p : Nat} {b : BitVec 112} {trip : Nat} {agree : Bool}
    (h : (linkOf s p).state ≠ .delay ∨ 16 ≤ byteFld b.toNat 2 2 ∨ bitOf (linkOf s p).echoes (byteFld b.toNat 2 2) = true) :
    echoTake s p b trip agree = s := by
  refine if_pos ?_
  simpa only [Bool.or_eq_true, decide_eq_true_eq, or_assoc] using h

theorem echoTake_noted {s : State} {p : Nat} {b : BitVec 112} {trip : Nat} {agree : Bool}
    (hd : (linkOf s p).state = .delay) (hid : byteFld b.toNat 2 2 < 16)
    (hnew : bitOf (linkOf s p).echoes (byteFld b.toNat 2 2) = false) :
    let u := setLink s p (echoNoted (linkOf s p) (byteFld b.toNat 2 2) (echoDelay b trip) agree)
    echoTake s p b trip agree =
      if (linkOf s p).echoes + 2 ^ byteFld b.toNat 2 2 = 0xFFFF then delayDone u p else u := by
  refine if_neg ?_
  simp [hd, hid, hnew]

/-- DELAY shows the delay, and then the port is READY, in the acknowledgement mode that the delay lets it have, or goes
down. -/
theorem delayDone_eq (s : State) (p : Nat) : ∃ u, onlyRegs s u [pgPrt p + 0x4C] ∧
    let ns := ((linkOf s p).delayMax + 1999) / 2000
    regNat u (pgPrt p + 0x4C) = min ns 0xFFFF ∧
      delayDone s p = if 520 < ns then linkDown u p 5 true else setLink u p { linkOf s p with
        state := .ready
        pcoal := ns ≤ 30 && feature u p 0 && !regBit u (pgPrt p + 0x40) 3 && (linkOf s p).agree
        credits := [16, 16, 16, 16] } :=
  ⟨_, regSet_only .., regNat_of_ofNat (regGet_regSet_self ..) (by omega), rfl⟩

/-- All ECHOs are there and the delay is within 520 ns: the port is READY (R297). -/
theorem delayDone_ready {s : State} {p : Nat} (h : ((linkOf s p).delayMax + 1999) / 2000 ≤ 520) :
    let ns := ((linkOf s p).delayMax + 1999) / 2000
    let t := delayDone s p
    t = { s with regs := t.regs, link := t.link } ∧ regsBut s t [pgPrt p + 0x4C] ∧ regNat t (pgPrt p + 0x4C) = ns ∧
      (linkOf t p).state = .ready ∧ (linkOf t p).credits = [16, 16, 16, 16] ∧
      ((linkOf t p).pcoal = true ↔ ns ≤ 30 ∧ regBit s (pgPrt p + 0x54) 0 = true ∧
        regBit s (pgPrt p + 0x40) 3 = false ∧ (linkOf s p).agree = true) := by
  intro ns t
  obtain ⟨u, ⟨hu, hbut⟩, hshown, hdone⟩ := delayDone_eq s p
  have ht : t = setLink u p { linkOf s p with
      state := .ready
      pcoal := ns ≤ 30 && feature u p 0 && !regBit u (pgPrt p + 0x40) 3 && (linkOf s p).agree
      credits := [16, 16, 16, 16] } := hdone.trans (if_neg (Nat.not_lt.2 h))
  rw [ht]
  refine ⟨?_, hbut, hshown.trans (by omega), by rw [linkOf_setLink_self], by rw [linkOf_setLink_self], ?_⟩
  · rw [hu]
    rfl
  · rw [linkOf_setLink_self, feature, regBit_of_but hbut (by simp) 0, regBit_of_but hbut (by simp) 3]
    simp [and_assoc]

/-- A longer delay takes the port down. -/
theorem delayDone_tooLong {s : State} {p : Nat} (hp : p < 48) (hd : (linkOf s p).state ≠ .disabled)
    (h : 520 < ((linkOf s p).delayMax + 1999) / 2000) :
    (linkOf (delayDone s p) p).state = .down ∧ (linkOf (delayDone s p) p).cause = 5 := by
  obtain ⟨u, hu, -, hdone⟩ := delayDone_eq s p
  obtain ⟨hstate, hcause, -⟩ := linkDown_down hp 5 true (s := u) (by rwa [linkOf_of_onlyRegs hu])
  rw [hdone, if_pos h]
  exact ⟨hstate, hcause⟩

theorem exec_ready (h : (linkOf s p.val).state = .ready) :
    ∃ t, exec (.ready p) s = .next t ∧ t = { s with regs := t.regs, link := t.link } ∧
      linkOf t p.val = { linkOf s p.val with
        state := .up, expect := 0, ackSent := 0xFFFF, nextSeq := 0, ackRx := 0xFFFF, rbuf := [], timeouts := 0
        nakUntil := 0 } ∧
      regsBut s t [pgPrt p.val + 0x10] ∧ regBit t (pgPrt p.val + 0x10) 0 = true := by
  have hirq (u : State) := irq_only u (pgPrt p.val) 0
  refine ⟨_, congrArg Host.Outcome.next (if_pos h), ?_, (linkOf_of_onlyRegs (hirq _) _).trans (linkOf_setLink_self ..),
    (hirq _).2, regBit_irq _ _ (by decide)⟩
  rw [(hirq _).1]
  rfl

/-! ## Out of training (R295, R303) -/

theorem exec_down (b : BitVec 112) (hd : (linkOf s p.val).state ≠ .disabled) (hphy : (linkOf s p.val).state ≠ .phy)
    (hn : (linkOf s p.val).state ≠ .down) :
    ∃ t, exec (.down p b) s = .next t ∧ (linkOf t p.val).state = .down ∧
      (linkOf t p.val).cause = (if (linkOf s p.val).state = .hello ∧ byteFld b.toNat 2 1 = 4 then 4 else 3) := by
  have hexec : exec (.down p b) s = .next (linkDown s p.val
      (if (linkOf s p.val).state = .hello ∧ byteFld b.toNat 2 1 = 4 then 4 else 3) true) := by
    show Host.Outcome.next _ = _
    cases h : (linkOf s p.val).state <;> simp_all
  obtain ⟨hstate, hcause, -⟩ := linkDown_down p.isLt
    (if (linkOf s p.val).state = .hello ∧ byteFld b.toNat 2 1 = 4 then 4 else 3) true hd
  refine ⟨_, hexec, hstate, hcause.trans ?_⟩
  split <;> rfl

theorem exec_trainTimeout (h : (linkOf s p.val).state = .hello ∨ (linkOf s p.val).state = .key ∨
      (linkOf s p.val).state = .delay ∨ (linkOf s p.val).state = .ready) :
    ∃ t, exec (.trainTimeout p) s = .next t ∧ (linkOf t p.val).state = .down ∧ (linkOf t p.val).cause = 8 := by
  have hd : (linkOf s p.val).state ≠ .disabled := by
    rcases h with h | h | h | h <;> rw [h] <;> decide
  have hexec : exec (.trainTimeout p) s = .next (linkDown s p.val 8 true) := by
    show Host.Outcome.next _ = _
    rcases h with h | h | h | h <;> rw [h]
  obtain ⟨hstate, hcause, -⟩ := linkDown_down p.isLt 8 true hd
  exact ⟨_, hexec, hstate, hcause⟩

/-- A lane that loses its lock takes the port down, and the marker codewords that showed it are counted (R289). -/
theorem exec_phyLockLoss (markers : Nat) (hd : (linkOf s p.val).state ≠ .disabled) :
    ∃ t, exec (.phyLockLoss ⟨p, markers⟩) s = .next t ∧
      (linkOf t p.val).state = .down ∧ (linkOf t p.val).cause = 2 ∧ (linkOf t p.val).lanesUp = false ∧
      (frozen s (pgPrt p.val) = false →
        regGet t (pgPrt p.val + 0x84) = regGet s (pgPrt p.val + 0x84) + BitVec.ofNat 32 markers) := by
  have hcount := cntAdd_only s (pgPrt p.val + 0x84) markers
  have hcounts := cntAdd_counts s (pgPrt p.val + 0x84) markers
  rw [pageOfKey_pgPrt p.isLt (by decide)] at hcounts
  obtain ⟨hstate, hcause, hregs⟩ := linkDown_down p.isLt 2 false (s := cntAdd s (pgPrt p.val + 0x84) markers)
    (by rwa [linkOf_of_onlyRegs hcount])
  exact ⟨_, congrArg Host.Outcome.next (if_neg hd), by rw [linkOf_setLink_self, hstate],
    by rw [linkOf_setLink_self, hcause]; rfl, by rw [linkOf_setLink_self],
    fun hf => (hregs _ (prtKey_pgPrt _ (by decide)) (by simp)).trans (hcounts hf)⟩

theorem exec_retrain (hn : (linkOf s p.val).state = .down) (hauto : regBit s (pgPrt p.val + 0x40) 4 = true)
    (hon : regBit s (pgPrt p.val + 0x40) 2 = true) :
    ∃ t, exec (.retrain p) s = .next t ∧ LinkBecomes s t p.val (phyLink s p.val) := by
  have hphy : enterPhy s p.val = setLink s p.val (phyLink s p.val) :=
    enterPhy_of_ne (ne_of_eq_of_ne hn (by decide))
  exact ⟨_, congrArg Host.Outcome.next ((if_pos (by simp [hn, hauto, hon])).trans hphy), setLink_becomes ..⟩

end

end Sys2Proof.Proofs

end

section

/-! PROOF. The key exchange of a port: its messages in order, the keys that it installs, and the refusal of a partner that does
not verify (R308, R376 to R378). -/
namespace Sys2Proof.Proofs
open Sys2Proof Sys2Proof.Machine Sys2Proof.Safety Sys2Proof.Laws

/-! ## Messages of an exchange -/

/-- From `s` to `t` the exchange of port `p` becomes `x`, for which free values may be drawn, and a message goes out. -/
def KxSends (s t : State) (p : Nat) (x : KeyEx) : Prop :=
  ∃ f, PortSends { s with free := f } t p { linkOf s p with kx := x } 1

namespace KxSends
variable {s t : State} {p : Nat} {x y : KeyEx}

theorem of_setKx (h : KxSends (setKx s p y) t p x) : KxSends s t p x := by
  obtain ⟨f, hsend⟩ := h
  rw [setKx, linkOf_setLink_self] at hsend
  exact ⟨f, PortSends.of_setLink (s := { s with free := f }) hsend⟩

theorem own (h : KxSends s t p x) : SameButSent { linkOf s p with kx := x } (linkOf t p) := h.choose_spec.own

theorem regs (h : KxSends s t p x) : regsBut s t [pgPrt p + 0x94] := h.choose_spec.regs

theorem only (h : KxSends s t p x) :
    t = { s with regs := t.regs, link := t.link, out := t.out, free := t.free, edge.used := t.edge.used } := by
  obtain ⟨f, hsend⟩ := h
  rw [hsend.only]

/-- The port sends, and keeps its state and its keys. -/
theorem sends (h : KxSends s t p x) :
    t = { s with regs := t.regs, link := t.link, out := t.out, free := t.free, edge.used := t.edge.used } ∧
      s.out.length < t.out.length ∧ (linkOf t p).state = (linkOf s p).state ∧ (linkOf t p).keys = (linkOf s p).keys ∧
      ∀ q, q ≠ p → linkOf t q = linkOf s q := by
  refine ⟨h.only, ?_, by rw [h.own], by rw [h.own], ?_⟩
  · obtain ⟨f, hsend⟩ := h
    exact hsend.grows
  · obtain ⟨f, hsend⟩ := h
    exact hsend.others

theorem kx (h : KxSends s t p x) : (linkOf t p).kx = x := by rw [h.own]

end KxSends

/-- The exchange becomes `x`, and a message goes out. -/
theorem sendKey_kxSends (s : State) (p msg : Nat) (m : List Byte) (f : Nat) (x : KeyEx) :
    KxSends s (sendKey (setKx { s with free := f } p x) p msg m) p x := by
  have hsend := sendKey_sends (setKx { s with free := f } p x) p msg m
  rw [setKx, linkOf_setLink_self] at hsend
  exact ⟨f, hsend.of_setLink⟩

/-- With the partner's alias key a secret is drawn, and goes out (R376). -/
theorem sendSecret_sends {s : State} {p : Nat} {key : List Byte} (msg : Nat)
    (h : (linkOf s p).kx.certs.bind chainKey = some key) :
    ∃ o, KxSends s (sendSecret s p msg) p { (linkOf s p).kx with own := some o } := by
  rw [sendSecret, h]
  exact ⟨_, sendKey_kxSends s p msg _ (s.free + 2) _⟩

/-- With both secrets FINISH goes out (R376). -/
theorem sendFinish_sends {s : State} {p : Nat} {h : List Byte} (msg : Nat) (hh : kxH (linkOf s p) = some h) :
    ∃ m, KxSends s (sendFinish s p msg) p { (linkOf s p).kx with finish := some m } := by
  rw [sendFinish, hh]
  exact ⟨_, sendKey_kxSends s p msg _ (s.free + 1) _⟩

theorem kxH_eq_some {k : Link} {c : List Byte} {o : List Byte × List Byte} {x : List Byte} (hc : k.kx.certs = some c)
    (ho : k.kx.own = some o) (hx : k.kx.secret = some x) : kxH k = some (kxHash k k.kx.sent c o.2 x) := by
  rw [kxH, hc, ho, hx]

/-! ## The verdict on a partner -/

theorem pstNat_congr {s t : State} {i n : Nat} (h : ∀ j < n, regGet t (pstKey (i + j)) = regGet s (pstKey (i + j))) :
    pstNat t i n = pstNat s i n := by
  refine List.foldl_ext _ _ _ fun a j hj => ?_
  rw [regNat, regNat, h j (List.mem_range.1 hj)]

/-- Only the store of the fabric anchor and the least SVN decide on a chain (R370, R378). -/
theorem chainGood_congr {s t : State} {p : Nat} (h : regsBut s t [pgPrt p + 0x94]) (l : List Byte) :
    chainGood t l = chainGood s l := by
  have hpst (i n : Nat) (hi : i + n ≤ 1024) : pstNat t i n = pstNat s i n := pstNat_congr fun j hj => h _ (by
    simp only [List.mem_singleton, pstKey, pgPst, pgPrt, pageBase]; omega)
  have hanchor : anchorNat t = anchorNat s := by
    rw [anchorNat, anchorNat, hpst 64 1 (by decide), hpst _ 16 (by split <;> decide)]
  have hsvn : regNat t (pgSec + 0x98) = regNat s (pgSec + 0x98) := congrArg BitVec.toNat (h _ (by
    simp only [List.mem_singleton, pgSec, pgPrt, pageBase]; omega))
  rw [chainGood, chainGood, hanchor, hsvn]

/-- Two links that hold the same HELLOs and the same messages of an exchange, the partner's FINISH apart. -/
structure SameExchange (k k' : Link) : Prop where
  ownHello : k'.ownHello = k.ownHello
  hello : k'.hello = k.hello
  sent : k'.kx.sent = k.kx.sent
  certs : k'.kx.certs = k.kx.certs
  own : k'.kx.own = k.kx.own
  secret : k'.kx.secret = k.kx.secret

theorem SameExchange.lowEnd {k k' : Link} (h : SameExchange k k') : lowEnd k' = lowEnd k := by
  rw [Machine.lowEnd, h.ownHello, h.hello, Machine.lowEnd]

theorem SameExchange.kxH {k k' : Link} (h : SameExchange k k') : kxH k' = kxH k := by
  have hhash (own certs ownSecret secret : List Byte) :
      kxHash k' own certs ownSecret secret = kxHash k own certs ownSecret secret := by
    simp only [kxHash, lowFirst, h.lowEnd, h.ownHello, h.hello]
  rw [Machine.kxH, Machine.kxH, h.certs, h.own, h.secret, h.sent]
  simp only [hhash]

/-- The verdict and the keys of an exchange follow from its messages. -/
theorem linkKeys_congr {s t : State} {p : Nat} {k k' : Link} (hsec : t.sec = s.sec) (hregs : regsBut s t [pgPrt p + 0x94])
    (h : SameExchange k k') (fin : List Byte) : linkKeys t k' fin = linkKeys s k fin := by
  have hak : akOf t = akOf s := by rw [akOf, hsec, akOf]
  have hfirst (a b : List Byte) : lowFirst k' a b = lowFirst k a b := by rw [lowFirst, h.lowEnd, lowFirst]
  simp only [linkKeys, h.certs, h.own, h.secret, h.kxH, hak, chainGood_congr hregs, hfirst]

/-! ## Keys that are installed (R308) -/

/-- A link with a key pair in a phase, which is the sender's from now on. -/
def keysInstalled (k : Link) (phase : BitVec 2) (keys : BitVec 288 × BitVec 288) : Link :=
  { k with
    keys := tabSet none (2 * ((phase.toNat + 1) % 2)) none
      (tabSet none (2 * phase.toNat + 1) (some (if lowEnd k then keys.2 else keys.1))
        (tabSet none (2 * phase.toNat) (some (if lowEnd k then keys.1 else keys.2)) k.keys))
    keyPhase := phase
    txc := 0 }

theorem installKeys_eq (s : State) (p : Nat) (phase : BitVec 2) (keys : BitVec 288 × BitVec 288) :
    installKeys s p phase keys = setLink s p (keysInstalled (linkOf s p) phase keys) := rfl

/-- `k'` sends and receives under the keys of phase `phase`, and still receives under `k`'s of the other phase. -/
def KeysShown (k k' : Link) (phase : Nat) (keys : BitVec 288 × BitVec 288) : Prop :=
  k'.keyPhase.toNat = phase ∧
  linkKey k' phase false = some (if lowEnd k then keys.1 else keys.2) ∧
  linkKey k' phase true = some (if lowEnd k then keys.2 else keys.1) ∧
  linkKey k' (1 - phase) false = none ∧
  linkKey k' (1 - phase) true = linkKey k (1 - phase) true

theorem keysInstalled_shown (k : Link) {phase : BitVec 2} (h : phase.toNat < 2) (keys : BitVec 288 × BitVec 288) :
    KeysShown k (keysInstalled k phase keys) phase.toNat keys := by
  have hother : (phase.toNat + 1) % 2 = 1 - phase.toNat := by omega
  simp only [KeysShown, linkKey, keysInstalled, b2n, hother, Bool.false_eq_true, if_false, if_true, Nat.add_zero]
  generalize phase.toNat = n at *
  refine ⟨trivial, ?_, ?_, tabGet_tabSet_self .., ?_⟩
  · rw [tabGet_tabSet_of_ne _ _ _ (by omega), tabGet_tabSet_of_ne _ _ _ (by omega), tabGet_tabSet_self]
  · rw [tabGet_tabSet_of_ne _ _ _ (by omega), tabGet_tabSet_self]
  · rw [tabGet_tabSet_of_ne _ _ _ (by omega), tabGet_tabSet_of_ne _ _ _ (by omega),
      tabGet_tabSet_of_ne _ _ _ (by omega)]

/-- Frames that go out leave the keys. -/
theorem KeysShown.sent {k j j' : Link} {phase : Nat} {keys : BitVec 288 × BitVec 288} (h : KeysShown k j phase keys)
    (hs : SameButSent j j') : KeysShown k j' phase keys := by
  rw [hs]
  exact h

/-- Only the keys and the HELLOs of the link before matter. -/
theorem KeysShown.of_same {k j k' : Link} {phase : Nat} {keys : BitVec 288 × BitVec 288} (h : KeysShown j k' phase keys)
    (hlow : lowEnd j = lowEnd k) (hkeys : j.keys = k.keys) : KeysShown k k' phase keys := by
  rw [KeysShown, ← hlow, linkKey, linkKey, linkKey, linkKey, linkKey, ← hkeys]
  exact h
/-- From `s` to `t` port `p` gets a key pair in a phase; no other port changes. -/
def KeysInstalled (s t : State) (p phase : Nat) (keys : BitVec 288 × BitVec 288) : Prop :=
  (linkOf t p).keyPhase.toNat = phase ∧
  linkKey (linkOf t p) phase false = some (if lowEnd (linkOf s p) then keys.1 else keys.2) ∧
  linkKey (linkOf t p) phase true = some (if lowEnd (linkOf s p) then keys.2 else keys.1) ∧
  linkKey (linkOf t p) (1 - phase) false = none ∧
  linkKey (linkOf t p) (1 - phase) true = linkKey (linkOf s p) (1 - phase) true ∧
  ∀ q, q ≠ p → linkOf t q = linkOf s q

theorem KeysShown.installed {s t : State} {p phase : Nat} {keys : BitVec 288 × BitVec 288}
    (h : KeysShown (linkOf s p) (linkOf t p) phase keys) (hothers : ∀ q, q ≠ p → linkOf t q = linkOf s q) :
    KeysInstalled s t p phase keys := by
  obtain ⟨hphase, hsend, hreceive, hnone, hkept⟩ := h
  exact ⟨hphase, hsend, hreceive, hnone, hkept, hothers⟩

/-! ## Commands of the exchange -/

/-- Port `p` has refused its partner: it is down with cause AUTH, and held off (R378). -/
def Refused (s t : State) (p : Nat) : Prop :=
  (linkOf t p).state = .down ∧ (linkOf t p).cause = 6 ∧ (linkOf t p).holdoff = holdoffAfter s (linkOf s p)

theorem linkDown_refuses {s : State} {p : Nat} (hp : p < 48) (hd : (linkOf s p).state ≠ .disabled)
    (hn : (linkOf s p).state ≠ .down) : Refused s (linkDown s p 6 true) p := by
  have h := linkDown_goesDown hp 6 true hd hn
  exact ⟨h.state, h.cause, h.holdoff rfl⟩

theorem portUp_of_updates {s : State} {p : Nat} (h : updates s p = true) : (linkOf s p).state = .up := by
  have hup : portUp s p = true := (Bool.and_eq_true_iff.1 h).1
  exact of_decide_eq_true (Bool.and_eq_true_iff.1 hup).2

/-- From `s` to `t` port `p` sends a message, and keeps its state and its keys. -/
def MessageSent (s t : State) (p : Nat) : Prop :=
  t = { s with regs := t.regs, link := t.link, out := t.out, free := t.free, edge.used := t.edge.used } ∧
  s.out.length < t.out.length ∧ (linkOf t p).state = (linkOf s p).state ∧ (linkOf t p).keys = (linkOf s p).keys ∧
  ∀ q, q ≠ p → linkOf t q = linkOf s q

section
variable {s : State} {p : Fin 48}

/-- LINK_REKEY: an exchange for new keys begins, with the CERTS that are there (R377). -/
theorem exec_linkRekey (hup : updates s p.val = true) (hreg : regField s (pgSec + 0x94) 0 16 ≠ 0) :
    ∃ t, exec (.linkRekey p) s = .next t ∧ ((linkOf s p.val).kx.certs.bind chainKey ≠ none →
      MessageSent s t p.val ∧ (linkOf t p.val).kx.update = true ∧ (linkOf t p.val).kx.own ≠ none) := by
  refine ⟨_, congrArg Host.Outcome.next (if_pos (by simp [hup, hreg])), fun hcert => ?_⟩
  obtain ⟨key, hkey⟩ := Option.ne_none_iff_exists'.1 hcert
  have hself := linkOf_setLink_self s p.val { linkOf s p.val with
    kx := { (linkOf s p.val).kx with secret := none, own := none, finish := none, update := true } }
  obtain ⟨o, h⟩ := sendSecret_sends (s := setKx s p.val
    { (linkOf s p.val).kx with secret := none, own := none, finish := none, update := true }) 4
    (by rw [setKx, hself]; exact hkey)
  have hkx := h.kx
  rw [setKx, hself] at hkx
  refine ⟨h.of_setKx.sends, (congrArg (·.update) hkx).trans rfl, ?_⟩
  rw [show (linkOf (updateStart s p.val) p.val).kx.own = some o from congrArg (·.own) hkx]
  exact Option.some_ne_none o

theorem exec_linkRekey_idle (h : updates s p.val = false ∨ regField s (pgSec + 0x94) 0 16 = 0) :
    exec (.linkRekey p) s = .next s := by
  refine congrArg Host.Outcome.next (if_neg ?_)
  rcases h with h | h <;> simp [h]

/-- KEY_CERTS: to a chain with an alias key a SECRET goes out, any other is refused (R376, R378). -/
theorem exec_keyCerts (m : List Byte) (hstate : (linkOf s p.val).state = .key) (hcerts : (linkOf s p.val).kx.certs = none) :
    ∃ t, exec (.keyCerts p m) s = .next t ∧
      (chainKey m ≠ none →
        MessageSent s t p.val ∧ (linkOf t p.val).kx.certs = some m ∧ (linkOf t p.val).kx.own ≠ none) ∧
      (chainKey m = none → Refused s t p.val) := by
  have hexec : exec (.keyCerts p m) s = .next (if (chainKey m).isNone then linkDown s p.val 6 true
      else sendSecret (setKx s p.val { (linkOf s p.val).kx with certs := some m }) p.val 2) :=
    congrArg Host.Outcome.next (if_neg (by simp [hstate, hcerts]))
  cases hkey : chainKey m with
  | none =>
    rw [hkey] at hexec
    exact ⟨_, hexec, fun h => absurd rfl h, fun _ => linkDown_refuses p.isLt (ne_of_eq_of_ne hstate (by decide))
      (ne_of_eq_of_ne hstate (by decide))⟩
  | some key =>
    rw [hkey] at hexec
    have hself := linkOf_setLink_self s p.val { linkOf s p.val with kx := { (linkOf s p.val).kx with certs := some m } }
    obtain ⟨o, h⟩ := sendSecret_sends (s := setKx s p.val { (linkOf s p.val).kx with certs := some m }) 2
      (by rw [setKx, hself]; exact hkey)
    have hkx := h.kx
    rw [setKx, hself] at hkx
    refine ⟨_, hexec, fun _ => ⟨h.of_setKx.sends, congrArg (·.certs) hkx, ?_⟩, nofun⟩
    exact ne_of_eq_of_ne (congrArg (·.own) hkx) (Option.some_ne_none o)

/-- KEY_SECRET: with the partner's secret FINISH goes out (R376). -/
theorem exec_keySecret (m : List Byte) (hstate : (linkOf s p.val).state = .key)
    (hcerts : (linkOf s p.val).kx.certs ≠ none) (hown : (linkOf s p.val).kx.own ≠ none)
    (hsecret : (linkOf s p.val).kx.secret = none) :
    ∃ t, exec (.keySecret p m) s = .next t ∧ MessageSent s t p.val ∧ (linkOf t p.val).kx.secret = some m ∧
      (linkOf t p.val).kx.finish ≠ none := by
  obtain ⟨c, hc⟩ := Option.ne_none_iff_exists'.1 hcerts
  obtain ⟨o, ho⟩ := Option.ne_none_iff_exists'.1 hown
  have hself := linkOf_setLink_self s p.val { linkOf s p.val with kx := { (linkOf s p.val).kx with secret := some m } }
  obtain ⟨f, h⟩ := sendFinish_sends (s := setKx s p.val { (linkOf s p.val).kx with secret := some m }) 3
    (kxH_eq_some (by rw [setKx, hself]; exact hc) (by rw [setKx, hself]; exact ho) (by rw [setKx, hself]))
  have hkx := h.kx
  rw [setKx, hself] at hkx
  exact ⟨_, congrArg Host.Outcome.next (if_pos (by simp [hstate, ho, hsecret])), h.of_setKx.sends,
    congrArg (·.secret) hkx, ne_of_eq_of_ne (congrArg (·.finish) hkx) (Option.some_ne_none f)⟩

/-- The keys of both secrets are installed in phase 0, and the port enters DELAY with 16 PROBEs (R295). -/
theorem enterDelay_enters (s : State) (p : Nat) (keys : BitVec 288 × BitVec 288) :
    PortSends s (enterDelay s p keys) p
      { keysInstalled (linkOf s p) 0 keys with state := .delay, echoes := 0, delayMax := 0, agree := true } 16 := by
  have hprobes (u : State) := PortSends.foldl (fun t i => (sendPlaced_sends t p 6 (800 * i)
    (natBytes 14 (2 + i <<< 16 + ((nowPeriods t + 800 * i) % 2 ^ 64) <<< 32))).2) (List.range 16) u
  have hsend := hprobes (setLink (setLink s p (keysInstalled (linkOf s p) 0 keys)) p
    { keysInstalled (linkOf s p) 0 keys with state := .delay, echoes := 0, delayMax := 0, agree := true })
  rw [linkOf_setLink_self, List.length_range] at hsend
  rw [enterDelay, installKeys_eq, linkOf_setLink_self]
  exact hsend.of_setLink.of_setLink

theorem exec_keyFinish (m : List Byte) (hstate : (linkOf s p.val).state = .key)
    (hfinish : (linkOf s p.val).kx.finish ≠ none) :
    ∃ t, exec (.keyFinish p m) s = .next t ∧
      (∀ keys, linkKeys s (linkOf s p.val) m = some keys →
        t = { s with regs := t.regs, link := t.link, out := t.out, edge.used := t.edge.used } ∧
        KeysInstalled s t p.val 0 keys ∧
        (linkOf t p.val).state = .delay ∧ (linkOf t p.val).echoes = 0 ∧ s.out.length + 16 ≤ t.out.length) ∧
      (linkKeys s (linkOf s p.val) m = none → Refused s t p.val) := by
  obtain ⟨f, hf⟩ := Option.ne_none_iff_exists'.1 hfinish
  have hexec : exec (.keyFinish p m) s = .next (match linkKeys s (linkOf s p.val) m with
      | some keys => enterDelay s p.val keys
      | none => linkDown s p.val 6 true) :=
    congrArg Host.Outcome.next (if_neg (by simp [hstate, hf]))
  cases hkeys : linkKeys s (linkOf s p.val) m with
  | none =>
    rw [hkeys] at hexec
    exact ⟨_, hexec, nofun, fun _ => linkDown_refuses p.isLt (ne_of_eq_of_ne hstate (by decide))
      (ne_of_eq_of_ne hstate (by decide))⟩
  | some keys =>
    rw [hkeys] at hexec
    have h := enterDelay_enters s p.val keys
    refine ⟨_, hexec, fun keys' heq => ?_, nofun⟩
    obtain rfl := Option.some.inj heq
    have hshown : KeysShown (linkOf s p.val) { keysInstalled (linkOf s p.val) 0 keys with
        state := .delay, echoes := 0, delayMax := 0, agree := true } 0 keys :=
      keysInstalled_shown (linkOf s p.val) (phase := 0) (by decide) keys
    exact ⟨h.only, (hshown.sent h.own).installed h.others, by rw [h.own], by rw [h.own], h.grows⟩

/-- KEY_RESEND: the message that waits for the partner's next goes out again. -/
theorem exec_keyResend (hstate : (linkOf s p.val).state = .key) :
    ∃ t, exec (.keyResend p) s = .next t ∧ MessageSent s t p.val ∧ (linkOf t p.val).kx = (linkOf s p.val).kx := by
  obtain ⟨msg, m, hexec⟩ : ∃ msg m, exec (.keyResend p) s = .next (sendKey s p.val msg m) := by
    show ∃ msg m, Host.Outcome.next (keyResend s p.val) = _
    simp only [keyResend, hstate, if_true]
    split
    · exact ⟨_, _, rfl⟩
    · exact ⟨_, _, rfl⟩
    · exact ⟨_, _, rfl⟩
  have h : KxSends s (sendKey s p.val msg m) p.val (linkOf s p.val).kx := ⟨s.free, sendKey_sends s p.val msg m⟩
  exact ⟨_, hexec, h.sends, h.kx⟩

theorem exec_authHoldoffEnd : ∃ t, exec (.authHoldoffEnd p) s = .next t ∧
    LinkBecomes s t p.val { linkOf s p.val with holdoff := 0 } :=
  ⟨_, rfl, setLink_becomes ..⟩

/-! ## New keys for a link that runs (R308, R377) -/

/-- The own FINISH of an update goes out before the partner's is judged. -/
theorem updateTake_judges {secret fin c : List Byte} {o : List Byte × List Byte} (hupdate : (linkOf s p.val).kx.update = true)
    (hcerts : (linkOf s p.val).kx.certs = some c) (hown : (linkOf s p.val).kx.own = some o) :
    ∃ u f, KxSends s u p.val { (linkOf s p.val).kx with secret := some secret, finish := some f } ∧
      updateTake s p.val secret fin = match linkKeys u (linkOf u p.val) fin with
        | some keys => installKeys (setKx u p.val { (linkOf u p.val).kx with update := false }) p.val
            (BitVec.ofNat 2 (((linkOf u p.val).keyPhase.toNat + 1) % 2)) keys
        | none => linkDown u p.val 6 true := by
  have hself := linkOf_setLink_self s p.val { linkOf s p.val with kx := { (linkOf s p.val).kx with secret := some secret } }
  obtain ⟨f, h⟩ := sendFinish_sends (s := setKx s p.val { (linkOf s p.val).kx with secret := some secret }) 5
    (kxH_eq_some (by rw [setKx, hself]; exact hcerts) (by rw [setKx, hself]; exact hown) (by rw [setKx, hself]))
  rw [setKx, hself] at h
  refine ⟨_, f, h.of_setKx, ?_⟩
  rw [updateTake, if_pos hupdate]
  rfl

theorem exec_keyUpdate {secret fin c : List Byte} {o : List Byte × List Byte} (hup : updates s p.val = true)
    (hupdate : (linkOf s p.val).kx.update = true) (hcerts : (linkOf s p.val).kx.certs = some c)
    (hown : (linkOf s p.val).kx.own = some o) :
    let k := linkOf s p.val
    let k' := { k with kx.secret := some secret }
    ∃ t, exec (.keyUpdate ⟨p, secret, fin⟩) s = .next t ∧
      (∀ keys, linkKeys s k' fin = some keys → k.keyPhase.toNat < 2 →
        t = { s with regs := t.regs, link := t.link, out := t.out, free := t.free, edge.used := t.edge.used } ∧
        KeysInstalled s t p.val (1 - k.keyPhase.toNat) keys ∧
        (linkOf t p.val).txc = 0 ∧ (linkOf t p.val).kx.update = false ∧ (linkOf t p.val).state = .up) ∧
      (linkKeys s k' fin = none → Refused s t p.val) := by
  intro k k'
  obtain ⟨u, f, hsend, htake⟩ := updateTake_judges (fin := fin) (secret := secret) hupdate hcerts hown
  have hexec : exec (.keyUpdate ⟨p, secret, fin⟩) s = .next (updateTake s p.val secret fin) :=
    congrArg Host.Outcome.next (if_pos hup)
  have hlink := hsend.own
  have hstate : (linkOf u p.val).state = .up := by rw [hlink]; exact portUp_of_updates hup
  have hsame : SameExchange k' (linkOf u p.val) := by
    rw [hlink]
    exact ⟨rfl, rfl, rfl, rfl, rfl, rfl⟩
  have hjudge : linkKeys u (linkOf u p.val) fin = linkKeys s k' fin :=
    linkKeys_congr (by rw [hsend.only]) hsend.regs hsame fin
  rw [hjudge] at htake
  cases hkeys : linkKeys s k' fin with
  | none =>
    rw [hkeys] at htake
    obtain ⟨hdown, hcause, hhold⟩ := linkDown_refuses p.isLt (s := u) (ne_of_eq_of_ne hstate (by decide))
      (ne_of_eq_of_ne hstate (by decide))
    have hafter : holdoffAfter u (linkOf u p.val) = holdoffAfter s k :=
      holdoffAfter_congr (hsend.regs _ (by simp only [List.mem_singleton, pgSec, pgPrt, pageBase]; omega))
        (by rw [hsend.only]) (by rw [hsend.only]) (by rw [hlink]) (by rw [hlink])
    rw [htake] at hexec
    exact ⟨_, hexec, nofun, fun _ => ⟨hdown, hcause, hhold.trans hafter⟩⟩
  | some keys =>
    rw [hkeys] at htake
    dsimp only at htake
    rw [installKeys_eq, setKx, linkOf_setLink_self] at htake
    rw [htake] at hexec
    refine ⟨_, hexec, fun keys' heq hphase => ?_, nofun⟩
    obtain rfl := Option.some.inj heq
    have hkept : (linkOf u p.val).keyPhase = k.keyPhase := by rw [hlink]
    have hnext : (BitVec.ofNat 2 (((linkOf u p.val).keyPhase.toNat + 1) % 2)).toNat = 1 - k.keyPhase.toNat := by
      rw [hkept, BitVec.toNat_ofNat]
      omega
    have hshown := keysInstalled_shown { linkOf u p.val with kx.update := false }
      (phase := BitVec.ofNat 2 (((linkOf u p.val).keyPhase.toNat + 1) % 2)) (by rw [hnext]; omega) keys
    rw [hnext] at hshown
    obtain ⟨honly, -, -, -, hothers⟩ := hsend.sends
    refine ⟨?_, KeysShown.installed ?_ fun q hq => ?_, by rw [linkOf_setLink_self]; rfl, by rw [linkOf_setLink_self]; rfl,
      by rw [linkOf_setLink_self]; exact hstate⟩
    · rw [honly]
      rfl
    · rw [linkOf_setLink_self]
      exact hshown.of_same (hsame.lowEnd.trans rfl) (by rw [hlink])
    · rw [linkOf_setLink_of_ne _ _ hq, linkOf_setLink_of_ne _ _ hq, hothers q hq]

theorem exec_keyUpdate_idle (secret fin : List Byte) (h : updates s p.val = false) :
    exec (.keyUpdate ⟨p, secret, fin⟩) s = .next s :=
  congrArg Host.Outcome.next (if_neg (by rw [h]; decide))

end

/-- Settles O35: every event of training leads from its state to the next, the messages of an exchange are taken in order,
keys of a partner that verifies are installed, and any other partner is refused. -/
theorem linksTrainAndExchangeKeys : Obligations.LinksTrainAndExchangeKeys := by
  unfold Obligations.LinksTrainAndExchangeKeys
  refine ⟨fun s p b => ?training, fun s p m secret => ?keys⟩
  case training =>
    intro k only train seeds
    refine ⟨exec_phyAligned, exec_helloSend, fun src => ⟨exec_hello_heldOff, exec_hello_entersKey, exec_hello_refused,
      exec_hello_late⟩, exec_probe b, ?echo, exec_readySend, exec_ready, exec_down b, exec_trainTimeout,
      exec_phyLockLoss, exec_retrain⟩
    case echo =>
      intro trip agree id n two ns
      refine ⟨fun h => congrArg Host.Outcome.next (echoTake_ignored h), fun hd hid hnew => ?_⟩
      have htake := echoTake_noted (trip := trip) (agree := agree) hd hid hnew
      have hself := linkOf_setLink_self s p.val (echoNoted k id (echoDelay b trip) agree)
      refine ⟨fun hn => ?more, fun hn hns => ?ready, fun hn hns => ?tooLong⟩
      case more =>
        exact ⟨_, congrArg Host.Outcome.next (htake.trans (if_neg hn)), setLink_becomes ..⟩
      case ready =>
        have hready := delayDone_ready (s := setLink s p.val (echoNoted k id (echoDelay b trip) agree)) (p := p.val)
          (by rw [hself]; exact hns)
        rw [hself] at hready
        obtain ⟨honly, hbut, hshown, hstate, hcredits, hcoal⟩ := hready
        refine ⟨_, congrArg Host.Outcome.next (htake.trans (if_pos hn)), honly, hbut, hshown, hstate, hcredits,
          hcoal.trans ?_⟩
        rw [echoNoted, Bool.and_eq_true]
        exact Iff.rfl
      case tooLong =>
        exact ⟨_, congrArg Host.Outcome.next (htake.trans (if_pos hn)), delayDone_tooLong p.isLt
          (by rw [hself]; exact ne_of_eq_of_ne hd (by decide)) (by rw [hself]; exact hns)⟩
  case keys =>
    exact ⟨fun hup => ⟨exec_linkRekey hup, fun o c => exec_keyUpdate hup⟩,
      fun hup => ⟨exec_linkRekey_idle (.inl hup), exec_keyUpdate_idle secret m hup⟩,
      fun hreg => exec_linkRekey_idle (.inr hreg), exec_keyCerts m, exec_keySecret m, exec_keyFinish m, exec_keyResend,
      exec_authHoldoffEnd⟩

end Sys2Proof.Proofs

end

section

/-! PROOF. Acknowledgement, replay and credits of an UP port (R298 to R302). -/
namespace Sys2Proof.Proofs
open Sys2Proof Sys2Proof.Machine Sys2Proof.Safety Sys2Proof.Laws

/-! ## Acknowledgement (R299 to R301) -/

/-- The entries that an ACK leaves in the replay buffer. -/
def unacked (k : Link) (ack : BitVec 16) : List ReplayEnt := k.rbuf.filter fun x => 0x8000 ≤ (ack - x.seq).toNat

/-- A port whose replay buffer an ACK has made shorter. -/
def ackedLink (k : Link) (ack : BitVec 16) : Link :=
  { k with
    rbuf := unacked k ack, ackRx := ack, timeouts := 0, replaying := k.replaying && !(unacked k ack).isEmpty,
    replayPos := k.replayPos - (k.rbuf.length - (unacked k ack).length) }

section
variable {s : State} {p : Nat} {ack : BitVec 16}

theorem ackTake_frees (hup : (linkOf s p).state = .up)
    (h : (unacked (linkOf s p) ack).length < (linkOf s p).rbuf.length) :
    ackTake s p ack = setLink s p (ackedLink (linkOf s p) ack) :=
  (if_neg (not_not.2 hup)).trans (if_pos h)

theorem ackTake_idle (hup : (linkOf s p).state = .up)
    (h : (unacked (linkOf s p) ack).length = (linkOf s p).rbuf.length) : ackTake s p ack = s :=
  (if_neg (not_not.2 hup)).trans (if_neg (by rw [← h]; exact Nat.lt_irrefl _))

/-- An ACK changes its port alone, and leaves the entries that it does not cover. -/
theorem ackTake_leaves (hup : (linkOf s p).state = .up) :
    let t := ackTake s p ack
    t = { s with link := t.link } ∧ (linkOf t p).rbuf = unacked (linkOf s p) ack := by
  rcases Nat.lt_or_eq_of_le (List.length_filter_le _ _ : (unacked (linkOf s p) ack).length ≤ _) with h | h
  · rw [ackTake_frees hup h]
    exact ⟨rfl, congrArg (·.rbuf) (linkOf_setLink_self ..)⟩
  · rw [ackTake_idle hup h]
    exact ⟨rfl, (List.filter_sublist.eq_of_length h).symm⟩

end

section
variable {s : State} {p : Fin 48} {ack : BitVec 16}

theorem exec_ackRx_frees (hup : (linkOf s p.val).state = .up)
    (h : (unacked (linkOf s p.val) ack).length < (linkOf s p.val).rbuf.length) :
    ∃ t, exec (.ackRx p ack) s = .next t ∧ LinkBecomes s t p.val (ackedLink (linkOf s p.val) ack) :=
  ⟨_, congrArg Host.Outcome.next (ackTake_frees hup h), setLink_becomes ..⟩

/-- A NAK is counted, frees what it covers, and asks for a replay of the rest. -/
theorem exec_nakRx (hup : (linkOf s p.val).state = .up) :
    ∃ t, exec (.nakRx p ack) s = .next t ∧ t = { s with regs := t.regs, link := t.link } ∧
      regsBut s t [pgPrt p.val + 0x98] ∧ (linkOf t p.val).rbuf = unacked (linkOf s p.val) ack ∧
      (linkOf t p.val).replaying = !(unacked (linkOf s p.val) ack).isEmpty ∧ (linkOf t p.val).replayPos = 0 := by
  obtain ⟨u, ⟨hu, hbut⟩, hexec⟩ : ∃ u, onlyRegs s u [pgPrt p.val + 0x98] ∧ exec (.nakRx p ack) s =
      .next (setLink (ackTake u p.val ack) p.val { linkOf (ackTake u p.val ack) p.val with
        replaying := !(linkOf (ackTake u p.val ack) p.val).rbuf.isEmpty, replayPos := 0 }) :=
    ⟨_, cntAdd_only .., congrArg Host.Outcome.next (if_pos hup)⟩
  have hlink : linkOf u p.val = linkOf s p.val := linkOf_of_onlyRegs ⟨hu, hbut⟩ _
  obtain ⟨hack, hleft⟩ := ackTake_leaves (s := u) (p := p.val) (ack := ack) (by rwa [hlink])
  rw [hlink] at hleft
  generalize ackTake u p.val ack = v at *
  refine ⟨_, hexec, ?_, fun k hk => ?_, by rw [linkOf_setLink_self]; exact hleft, by rw [linkOf_setLink_self, ← hleft],
    by rw [linkOf_setLink_self]⟩
  · rw [hack, hu]
    rfl
  · rw [regGet_setLink, ← hbut k hk, hack]
    rfl

/-! ## Timers and credits (R299, R301, R302) -/

theorem exec_replayTimeout_starts (hup : (linkOf s p.val).state = .up) (h : (linkOf s p.val).timeouts < 2) :
    ∃ t, exec (.replayTimeout p) s = .next t ∧ t = { s with regs := t.regs, link := t.link } ∧
      linkOf t p.val = { linkOf s p.val with
        timeouts := (linkOf s p.val).timeouts + 1, replaying := !(linkOf s p.val).rbuf.isEmpty, replayPos := 0 } ∧
      regsBut s t [pgPrt p.val + 0xA0, pgPrt p.val + 0x10] ∧ regBit t (pgPrt p.val + 0x10) 2 = true := by
  obtain ⟨u, ⟨hu, hbut⟩, hbit, hexec⟩ : ∃ u, onlyRegs s u [pgPrt p.val + 0xA0, pgPrt p.val + 0x10] ∧
      regBit u (pgPrt p.val + 0x10) 2 = true ∧ exec (.replayTimeout p) s = .next (setLink u p.val { linkOf s p.val with
        timeouts := (linkOf s p.val).timeouts + 1, replaying := !(linkOf s p.val).rbuf.isEmpty, replayPos := 0 }) :=
    ⟨_, onlyRegs_trans (cntAdd_only s (pgPrt p.val + 0xA0) 1) (irq_only _ (pgPrt p.val) 2), regBit_irq _ _ (by decide),
      congrArg Host.Outcome.next ((if_neg (not_not.2 hup)).trans (if_neg (by omega)))⟩
  refine ⟨_, hexec, ?_, linkOf_setLink_self .., hbut, hbit⟩
  rw [hu]
  rfl

/-- The third timeout in a row takes the port down. -/
theorem exec_replayTimeout_third (hup : (linkOf s p.val).state = .up) (h : 2 ≤ (linkOf s p.val).timeouts) :
    ∃ t, exec (.replayTimeout p) s = .next t ∧ (linkOf t p.val).state = .down ∧ (linkOf t p.val).cause = 1 := by
  obtain ⟨u, hu, hexec⟩ : ∃ u, onlyRegs s u [pgPrt p.val + 0xA0, pgPrt p.val + 0x10] ∧
      exec (.replayTimeout p) s = .next (linkDown u p.val 1 true) :=
    ⟨_, onlyRegs_trans (cntAdd_only s (pgPrt p.val + 0xA0) 1) (irq_only _ (pgPrt p.val) 2),
      congrArg Host.Outcome.next ((if_neg (not_not.2 hup)).trans (if_pos (by omega)))⟩
  obtain ⟨hstate, hcause, -⟩ := linkDown_down p.isLt 1 true (s := u)
    (by rw [linkOf_of_onlyRegs hu]; exact ne_of_eq_of_ne hup (by decide))
  exact ⟨_, hexec, hstate, hcause⟩

theorem exec_ackTimer (hup : (linkOf s p.val).state = .up) (hcoal : (linkOf s p.val).pcoal = true) :
    ∃ t, exec (.ackTimer p) s = .next t ∧
      LinkBecomes s t p.val { linkOf s p.val with ackSent := (linkOf s p.val).expect - 1 } :=
  ⟨_, congrArg Host.Outcome.next (if_pos (by simp [hup, hcoal])), setLink_becomes ..⟩

section
variable {vc : BitVec 2} {n : BitVec 5} {m : Nat} (hup : (linkOf s p.val).state = .up)
  (hm : (linkOf s p.val).credits[vc.toNat]? = some m)
include hup hm

/-- Credits that come back are added up to 16; more take the port down. -/
theorem exec_creditRx : exec (.creditRx p vc n) s = .next (if 16 < m + n.toNat then linkDown s p.val 7 true
    else setLink s p.val { linkOf s p.val with credits := (linkOf s p.val).credits.set vc.toNat (m + n.toNat) }) := by
  have hget : (linkOf s p.val).credits.getD vc.toNat 0 = m := by rw [List.getD_eq_getElem?_getD, hm, Option.getD_some]
  show Host.Outcome.next _ = _
  simp only [hget, hup, ne_eq, not_true_eq_false, if_false]

theorem exec_creditRx_adds (h : m + n.toNat ≤ 16) : ∃ t, exec (.creditRx p vc n) s = .next t ∧ LinkBecomes s t p.val
    { linkOf s p.val with credits := (linkOf s p.val).credits.set vc.toNat (m + n.toNat) } := by
  have hexec := exec_creditRx (n := n) hup hm
  rw [if_neg (Nat.not_lt.2 h)] at hexec
  exact ⟨_, hexec, setLink_becomes ..⟩

theorem exec_creditRx_exceeds (h : 16 < m + n.toNat) : ∃ t, exec (.creditRx p vc n) s = .next t ∧
    (linkOf t p.val).state = .down ∧ (linkOf t p.val).cause = 7 := by
  have hexec := exec_creditRx (n := n) hup hm
  rw [if_pos h] at hexec
  obtain ⟨hstate, hcause, -⟩ := linkDown_down p.isLt 7 true (ne_of_eq_of_ne hup (by decide))
  exact ⟨_, hexec, hstate, hcause⟩

end

end

/-! ## An entry is sent again (R292, R301) -/

theorem extractLsb'_seq (n : Nat) : ((BitVec.ofNat 128 n).extractLsb' 16 16).toNat = n / 65536 % 65536 := by
  simp only [BitVec.extractLsb'_toNat, BitVec.toNat_ofNat, Nat.shiftRight_eq_div_pow]
  omega

/-- SEQ and the REPLAY bit of a header word whose REPLAY flag is 1. -/
theorem headerWord_replay {kind phase nak fr seq : Nat} (ack frame credits txc : Nat) (hkind : kind < 16) (hphase : phase < 4)
    (hnak : nak ≤ 1) (hfr : fr ≤ 1) :
    let w := BitVec.ofNat 128 (kind + phase <<< 4 + (nak + 2 * 1 + 4 * fr) <<< 8 + (seq % 0x10000) <<< 16 + ack <<< 32 +
      frame <<< 48 + credits <<< 56 + txc <<< 64)
    w.extractLsb' 16 16 = BitVec.ofNat 16 seq ∧ w.getLsbD 9 = true := by
  have hseq : (kind + phase <<< 4 + (nak + 2 * 1 + 4 * fr) <<< 8 + (seq % 0x10000) <<< 16 + ack <<< 32 + frame <<< 48 +
      credits <<< 56 + txc <<< 64) / 65536 % 65536 = seq % 65536 := by
    simp only [Nat.shiftLeft_eq]
    omega
  have hreplay : (kind + phase <<< 4 + (nak + 2 * 1 + 4 * fr) <<< 8 + (seq % 0x10000) <<< 16 + ack <<< 32 + frame <<< 48 +
      credits <<< 56 + txc <<< 64) / 2 ^ 9 % 2 = 1 := by
    simp only [Nat.shiftLeft_eq]
    omega
  refine ⟨BitVec.eq_of_toNat_eq ?_, ?_⟩
  · rw [extractLsb'_seq, hseq, BitVec.toNat_ofNat]
  · rw [BitVec.getLsbD_ofNat, Nat.testBit_eq_decide_div_mod_eq, hreplay]
    rfl

theorem b2n_le_one (b : Bool) : b2n b ≤ 1 := by cases b <;> decide

/-- A header shows its SEQ, and REPLAY in a replay. -/
theorem linkHeader_replay (s : State) (p : Nat) (kind : BitVec 4) (seq : BitVec 16) :
    (linkHeader s p kind.toNat seq.toNat true).extractLsb' 16 16 = seq ∧
      (linkHeader s p kind.toNat seq.toNat true).getLsbD 9 = true := by
  have hword := fun fr ack frame credits txc (hfr : fr ≤ 1) => headerWord_replay (seq := seq.toNat) (fr := fr) ack frame
    credits txc kind.isLt (linkOf s p).keyPhase.isLt (b2n_le_one (linkOf s p).nakSet) hfr
  simp only [BitVec.ofNat_toNat, BitVec.setWidth_eq] at hword
  unfold linkHeader
  dsimp only
  split
  · split
    · exact hword 1 _ _ _ _ le_rfl
    · exact hword 0 _ _ _ _ (Nat.zero_le 1)
  · exact hword 0 _ _ _ _ (Nat.zero_le 1)

/-! ## What a unit has carried (R290) -/

theorem unitSize_congr {s t : State} (h : t.time = s.time) (u : PortUnit) : unitSize t u = unitSize s u := by
  have hlen : frameLen t = frameLen s := by rw [frameLen, h, frameLen]
  have hdata : dataSlots t = dataSlots s := by rw [dataSlots, hlen, dataSlots]
  have hloose : looseSlots t = looseSlots s := by rw [looseSlots, hlen, looseSlots]
  have hbytes : linkBytes t = linkBytes s := by rw [linkBytes, hlen, linkBytes]
  have hslots : slotBytes t = slotBytes s := by rw [slotBytes, hdata, hloose, slotBytes]
  cases u
  case data => rw [unitSize, hdata, unitSize]
  case loose => rw [unitSize, hloose, unitSize]
  case allowance => rw [unitSize, hbytes, hslots, unitSize]

/-- No unit of port `p` has carried more than it holds. -/
def UnitsWithin (s : State) (p : Nat) : Prop := ∀ u, unitUsed s p u ≤ unitSize s u

theorem unitsWithin_congr {s t : State} {p : Nat} (hused : t.edge.used = s.edge.used) (htime : t.time = s.time) :
    UnitsWithin t p ↔ UnitsWithin s p := by
  simp only [UnitsWithin, unitUsed, hused, unitSize_congr htime]

theorem carry_used (s : State) (p : Nat) (u : PortUnit) (n : Nat) : (carry s p u n).edge.used =
    ((p, u), if unitRoom s p u - n < 64 then unitSize s u else unitUsed s p u + n) ::
      s.edge.used.filter fun x => x.1 ≠ (p, u) := by
  simp only [carry]
  split <;> rfl

theorem carry_time (s : State) (p : Nat) (u : PortUnit) (n : Nat) : (carry s p u n).time = s.time := by
  obtain ⟨used, h⟩ := carry_fills s p u n
  rw [h]

theorem unitUsed_carry_of_ne (s : State) (p : Nat) {u v : PortUnit} (n : Nat) (h : v ≠ u) :
    unitUsed (carry s p u n) p v = unitUsed s p v := by
  have hkey : ¬((p, u) = (p, v)) := fun he => h (congrArg Prod.snd he).symm
  rw [unitUsed, carry_used, List.find?_cons_of_neg (by simpa using hkey), List.find?_filter, unitUsed]
  congr 3
  funext x
  by_cases hx : x.1 = (p, v)
  · simp [hx, h]
  · simp [hx]

/-- A unit with room for a frame holds what it has carried then. -/
theorem UnitsWithin.carry {s : State} {p : Nat} (h : UnitsWithin s p) {u : PortUnit} {n : Nat} (hn : n ≤ unitRoom s p u) :
    UnitsWithin (carry s p u n) p := by
  intro v
  rw [unitSize_congr (carry_time ..)]
  by_cases hv : v = u
  · subst hv
    have hroom := h v
    rw [unitUsed, carry_used, List.find?_cons_of_pos (by simp)]
    simp only [Option.map_some, Option.getD_some]
    rw [unitRoom] at hn
    split <;> omega
  · rw [unitUsed_carry_of_ne s p n hv]
    exact h v

/-- The frame in which port `p` sends an entry again. -/
def replayFrame (s : State) (p : Nat) (x : ReplayEnt) : List Byte :=
  wireFrame (linkOf s p) (linkHeader s p x.kind.toNat x.seq.toNat true) x.ext x.body false

/-- What port `p` has sent again, and where its replay goes on: behind the entry, or nowhere after the last one. -/
theorem resend_sends (s : State) (p : Nat) (x : ReplayEnt) :
    let t := resend s p x
    let more := (linkOf s p).replayPos + 1 < (linkOf s p).rbuf.length
    t = { s with regs := t.regs, link := t.link, out := s.out ++ [.frame p (replayFrame s p x)] } ∧
    ∃ (nak : Nat) (owed : List Nat), linkOf t p = { linkOf s p with
      txc := (linkOf s p).txc + 1, nakSet := false, nakUntil := nak, owed := owed
      replaying := more, replayPos := if more then (linkOf s p).replayPos + 1 else 0 } := by
  obtain ⟨regs, nak, owed, hsend, -⟩ := sendRaw_eq s p x.kind.toNat x.seq.toNat true x.ext x.body false
  have hlink := (congrArg (linkOf · p) hsend).trans (tabGet_tabSet_self ..)
  obtain ⟨ks, hcount⟩ : ∃ ks, onlyRegs (setLink (sendRaw s p x.kind.toNat x.seq.toNat true x.ext x.body false) p
      { linkOf s p with
        txc := (linkOf s p).txc + 1, nakSet := false, nakUntil := nak, owed := owed
        replaying := (linkOf s p).replayPos + 1 < (linkOf s p).rbuf.length
        replayPos := if (linkOf s p).replayPos + 1 < (linkOf s p).rbuf.length then (linkOf s p).replayPos + 1 else 0 })
      (resend s p x) ks := by
    unfold resend sendFrame
    simp only [hlink, decide_eq_true_eq]
    by_cases hkind : x.kind = 3
    · rw [if_pos hkind]
      exact ⟨_, cntAdd_only ..⟩
    · rw [if_neg hkind]
      exact ⟨_, onlyRegs_trans (cntAdd_only ..) (cntAdd_only ..)⟩
  refine ⟨?_, nak, owed, (linkOf_of_onlyRegs hcount p).trans (linkOf_setLink_self ..)⟩
  rw [hcount.1, hsend]
  rfl

/-! ## A replay goes through the units of a tick period (R301, log 124) -/

/-- The frames among what is put on the wire; the rest fills units. -/
def sentFrames (fs : List Out) : List Out := fs.filter fun o => match o with | .fill _ _ => false | _ => true

theorem sentFrames_snoc_frame (fs : List Out) (s : State) (p : Nat) (u : PortUnit) (n : Nat) (b : List Byte) :
    sentFrames (fs ++ [.frame p b] ++ fillAfter s p u n) = sentFrames fs ++ [.frame p b] := by
  have hfill : sentFrames (fillAfter s p u n) = [] := by
    unfold fillAfter
    dsimp only
    split <;> rfl
  rw [sentFrames, List.filter_append, List.filter_append]
  exact (congrArg _ hfill).trans (List.append_nil _)

/-- From `s` to `t` the replay of port `p` has sent `m` more entries in order, each marked and in a unit with room, and
has put `fs` on the wire. -/
structure Replayed (s t : State) (p m : Nat) (fs : List Out) : Prop where
  only : t = { s with regs := t.regs, link := t.link, out := s.out ++ fs, edge.used := t.edge.used }
  own : linkOf t p = { linkOf s p with
    txc := (linkOf t p).txc, nakSet := (linkOf t p).nakSet, nakUntil := (linkOf t p).nakUntil, owed := (linkOf t p).owed
    replaying := (linkOf s p).replayPos + m < (linkOf s p).rbuf.length, replayPos := (linkOf t p).replayPos }
  fits : (linkOf s p).replayPos + m ≤ (linkOf s p).rbuf.length
  goesOn : (linkOf s p).replayPos + m < (linkOf s p).rbuf.length → (linkOf t p).replayPos = (linkOf s p).replayPos + m
  count : (sentFrames fs).length = m
  frames : ∀ i x, i < m → (linkOf s p).rbuf[(linkOf s p).replayPos + i]? = some x → ∃ h : BitVec 128,
    (sentFrames fs)[i]? = some (.frame p (wireFrame (linkOf s p) h x.ext x.body false)) ∧
    h.extractLsb' 16 16 = x.seq ∧ h.getLsbD 9 = true
  within : UnitsWithin s p → UnitsWithin t p
  starts : m = 0 → t = s

namespace Replayed
variable {s t : State} {p m : Nat} {fs : List Out}

theorem refl (hon : (linkOf s p).replaying = true) (hpos : (linkOf s p).replayPos < (linkOf s p).rbuf.length) :
    Replayed s s p 0 [] where
  only := by rw [List.append_nil]
  own := by simp only [Nat.add_zero, hpos, decide_true, ← hon]
  fits := hpos.le
  goesOn _ := rfl
  count := rfl
  frames _ _ hi := absurd hi (Nat.not_lt_zero _)
  within := id
  starts _ := rfl

theorem rbuf_eq (h : Replayed s t p m fs) : (linkOf t p).rbuf = (linkOf s p).rbuf := by rw [h.own]

theorem replaying_eq (h : Replayed s t p m fs) :
    (linkOf t p).replaying = decide ((linkOf s p).replayPos + m < (linkOf s p).rbuf.length) := by rw [h.own]

theorem wireFrame_eq (h : Replayed s t p m fs) (w : BitVec 128) (ext : BitVec 176) (body : List Byte) (b : Bool) :
    wireFrame (linkOf t p) w ext body b = wireFrame (linkOf s p) w ext body b := by
  rw [h.own]
  rfl

/-- The entry that comes next lies behind the `m` that were sent. -/
theorem lt_and_get_of_next (h : Replayed s t p m fs) {x : ReplayEnt} (hx : replayNext t p = some x) :
    (linkOf s p).replayPos + m < (linkOf s p).rbuf.length ∧ (linkOf s p).rbuf[(linkOf s p).replayPos + m]? = some x := by
  obtain ⟨hon, hget⟩ := Option.ite_none_right_eq_some.1 hx
  rw [h.replaying_eq, decide_eq_true_eq] at hon
  rw [h.rbuf_eq, h.goesOn hon] at hget
  exact ⟨hon, hget⟩

/-- The next entry goes out in a unit that has room for it. -/
theorem snoc (h : Replayed s t p m fs) {x : ReplayEnt} (hx : replayNext t p = some x) {u : PortUnit}
    (hroom : entBytes x ≤ unitRoom t p u) :
    ∃ gs, Replayed s (carry (resend t p x) p u (entBytes x)) p (m + 1) gs := by
  obtain ⟨hlt, hget⟩ := h.lt_and_get_of_next hx
  obtain ⟨hresend, nak, owed, hlink⟩ := resend_sends t p x
  have hused : (resend t p x).edge.used = t.edge.used := by rw [hresend]
  have htime : (resend t p x).time = t.time := by rw [hresend]
  have hroom' : entBytes x ≤ unitRoom (resend t p x) p u := by
    rwa [unitRoom, unitUsed, hused, unitSize_congr htime]
  have hwithin : UnitsWithin t p → UnitsWithin (carry (resend t p x) p u (entBytes x)) p := fun hw =>
    ((unitsWithin_congr hused htime).2 hw).carry hroom'
  rw [h.rbuf_eq, h.goesOn hlt, Nat.add_assoc] at hlink
  generalize resend t p x = v at *
  obtain ⟨used, hcarry⟩ := carry_fills v p u (entBytes x)
  have hown : linkOf (carry v p u (entBytes x)) p = linkOf v p := by rw [hcarry]; rfl
  have hframes := sentFrames_snoc_frame fs v p u (entBytes x) (replayFrame t p x)
  refine ⟨fs ++ [.frame p (replayFrame t p x)] ++ fillAfter v p u (entBytes x), ?_, ?_, hlt, fun hmore => ?_, ?_,
    fun i y hi hy => ?_, fun hw => hwithin (h.within hw), fun hm => absurd hm (Nat.succ_ne_zero m)⟩
  · rw [hcarry, hresend, h.only, ← List.append_assoc, ← List.append_assoc]
  · rw [hown, hlink, h.own]
  · rw [hown, hlink]
    exact if_pos hmore
  · rw [hframes, List.length_append, h.count]
    rfl
  · rw [hframes]
    rcases Nat.lt_succ_iff_lt_or_eq.1 hi with hlt | rfl
    · rw [List.getElem?_append_left (by rwa [h.count])]
      exact h.frames i y hlt hy
    · obtain rfl : x = y := Option.some.inj (hget.symm.trans hy)
      rw [List.getElem?_append_right h.count.le, h.count, Nat.sub_self]
      exact ⟨_, congrArg (some <| Out.frame p ·) (h.wireFrame_eq ..), linkHeader_replay ..⟩

/-- In one unit a replay goes on as far as its entries fit. -/
theorem in_unit (h : Replayed s t p m fs) (u : PortUnit) (n : Nat) :
    ∃ m' gs, m ≤ m' ∧ Replayed s (replayUnit p u n t) p m' gs := by
  induction n generalizing t m fs with
  | zero => exact ⟨m, fs, le_rfl, h⟩
  | succ n ih =>
    rw [replayUnit]
    split
    next => exact ⟨m, fs, le_rfl, h⟩
    next x hx =>
      split
      next hroom =>
        obtain ⟨gs, hsnoc⟩ := h.snoc hx (of_decide_eq_true (Bool.and_eq_true_iff.1 hroom).1)
        obtain ⟨m', gs', hle, hrest⟩ := ih hsnoc
        exact ⟨m', gs', by omega, hrest⟩
      next => exact ⟨m, fs, le_rfl, h⟩

end Replayed

theorem le_room_of_unitOpen {s : State} {p t n : Nat} {u : PortUnit} (h : unitOpen s p t n u = true) : n ≤ unitRoom s p u :=
  of_decide_eq_true (Bool.and_eq_true_iff.1 h).1

/-- A unit that can take the next entry takes it. -/
theorem replayUnit_progress {s : State} {p : Nat} {x : ReplayEnt} {u : PortUnit} {n : Nat} (hx : replayNext s p = some x)
    (hroom : entBytes x ≤ unitRoom s p u) (hclass : unitClass s p u ≠ .reserved) {fs : List Out} (h : Replayed s s p 0 fs) :
    ∃ m gs, 0 < m ∧ Replayed s (replayUnit p u (n + 1) s) p m gs := by
  obtain ⟨gs, hsnoc⟩ := h.snoc hx hroom
  obtain ⟨m, gs', hle, hrest⟩ := hsnoc.in_unit u n
  refine ⟨m, gs', hle, ?_⟩
  rw [replayUnit, hx]
  dsimp only
  rwa [if_pos (by simp [hroom, hclass])]

/-- A unit of the tick period, open or not, in a replay of port `p`. -/
def replayIn (p : Nat) (s : State) (u : PortUnit) : State :=
  match replayNext s p with
  | none => s
  | some x => if unitOpen s p (periodPos s (p / 16)) (entBytes x) u then replayUnit p u rbufMax s else s

/-- Unit `u` can take the entry that the replay of port `p` sends next. -/
def TakesNext (s : State) (p : Nat) (u : PortUnit) : Prop := ∃ x, replayNext s p = some x ∧
  unitOpen s p (periodPos s (p / 16)) (entBytes x) u = true ∧ unitClass s p u ≠ .reserved

theorem replayAll_eq {s : State} {p : Nat} (hup : portUp s p = true) (hon : (linkOf s p).replaying = true) :
    replayAll s p = (frameUnits s).foldl (replayIn p) s := by
  rw [replayAll, hup, hon]
  rfl

theorem Replayed.replayIn_step {s t : State} {p m : Nat} {fs : List Out} (h : Replayed s t p m fs) (u : PortUnit) :
    ∃ m' gs, m ≤ m' ∧ (TakesNext s p u → 0 < m') ∧ Replayed s (replayIn p t u) p m' gs := by
  by_cases hfirst : m = 0 ∧ TakesNext s p u
  · obtain ⟨rfl, x, hx, hopen, hclass⟩ := hfirst
    obtain rfl := h.starts rfl
    obtain ⟨m', gs, hpos, hunit⟩ := replayUnit_progress (n := 1023) hx (le_room_of_unitOpen hopen) hclass h
    refine ⟨m', gs, Nat.zero_le _, fun _ => hpos, ?_⟩
    rw [replayIn, hx]
    simp only [hopen, if_true]
    exact hunit
  · have hpos (m' : Nat) (hle : m ≤ m') (htakes : TakesNext s p u) : 0 < m' :=
      (Nat.pos_of_ne_zero fun hm => hfirst ⟨hm, htakes⟩).trans_le hle
    unfold replayIn
    split
    next => exact ⟨m, fs, le_rfl, hpos m le_rfl, h⟩
    next x hx =>
      split
      next =>
        obtain ⟨m', gs, hle, hunit⟩ := h.in_unit u rbufMax
        exact ⟨m', gs, hle, hpos m' hle, hunit⟩
      next => exact ⟨m, fs, le_rfl, hpos m le_rfl, h⟩

theorem Replayed.foldl {s t : State} {p m : Nat} {fs : List Out} (h : Replayed s t p m fs) (us : List PortUnit) :
    ∃ m' gs, m ≤ m' ∧ ((∃ u ∈ us, TakesNext s p u) → 0 < m') ∧ Replayed s (us.foldl (replayIn p) t) p m' gs := by
  induction us generalizing t m fs with
  | nil => exact ⟨m, fs, le_rfl, by simp, h⟩
  | cons u us ih =>
    obtain ⟨m₁, gs₁, hle₁, htakes₁, h₁⟩ := h.replayIn_step u
    obtain ⟨m₂, gs₂, hle₂, htakes₂, h₂⟩ := ih h₁
    refine ⟨m₂, gs₂, hle₁.trans hle₂, ?_, h₂⟩
    simp only [List.mem_cons, exists_eq_or_imp]
    rintro (htakes | htakes)
    · exact (htakes₁ htakes).trans_le hle₂
    · exact htakes₂ htakes

/-- A replay that has come to an entry of the buffer goes through the units of the tick period. -/
theorem exec_replay {s : State} {p : Fin 48} (hup : portUp s p.val = true) (hon : (linkOf s p.val).replaying = true)
    (hpos : (linkOf s p.val).replayPos < (linkOf s p.val).rbuf.length) :
    ∃ t m fs, exec (.replay p) s = .next t ∧ Replayed s t p.val m fs ∧
      ((∃ u ∈ frameUnits s, TakesNext s p.val u) → 0 < m) := by
  obtain ⟨m, fs, -, htakes, hrun⟩ := (Replayed.refl hon hpos).foldl (frameUnits s)
  exact ⟨_, m, fs, congrArg Host.Outcome.next (replayAll_eq hup hon), hrun, htakes⟩

theorem replayNext_eq {s : State} {p : Nat} (hon : (linkOf s p).replaying = true) :
    replayNext s p = (linkOf s p).rbuf[(linkOf s p).replayPos]? := if_pos hon

/-- Settles O36: each message and each timer by its own rule, and the replay by an invariant that says how many entries
have gone out, which every unit of the tick period keeps. -/
theorem acknowledgementAndReplay : Obligations.AcknowledgementAndReplay := by
  unfold Obligations.AcknowledgementAndReplay
  intro s p ack vc n k left only hup
  refine ⟨exec_ackRx_frees hup, fun h => congrArg Host.Outcome.next (ackTake_idle hup h), exec_nakRx hup,
    fun hport hon hpos => ?_, exec_replayTimeout_starts hup, exec_replayTimeout_third hup, exec_ackTimer hup,
    fun m hm => ⟨exec_creditRx_adds hup hm, exec_creditRx_exceeds hup hm⟩⟩
  obtain ⟨t, m, fs, hexec, hrun, htakes⟩ := exec_replay hport hon hpos
  refine ⟨t, fs, m, hexec, hrun.only, hrun.rbuf_eq, hrun.fits, hrun.replaying_eq, hrun.goesOn, hrun.count, hrun.frames,
    fun hwithin u => ?_, fun x hx ⟨u, hu, hopen, hclass⟩ => htakes ⟨u, hu, x, (replayNext_eq hon).trans hx, hopen, hclass⟩⟩
  have htime : t.time = s.time := by rw [hrun.only]
  rw [← unitSize_congr htime]
  exact hrun.within hwithin u

end Sys2Proof.Proofs

end
